-- ==== Sys2Proof/Word.lean ====
section
/-! DEFINITION. Word.lean: the word types of the part, the registers' names, and the codes that instruction fields hold. -/
namespace Sys2Proof

/-- A byte, the smallest addressable unit (R4, R224). -/
abbrev Byte := BitVec 8

/-- A 64-bit register, address or memory word (R20). -/
abbrev Word := BitVec 64

/-- A 32-bit vector lane (R20) or FP32 encoding (R56). -/
abbrev Lane := BitVec 32

/-- A general register g0 to g63 (R37). -/
abbrev GReg := Fin 64
/-- A vector register v0 to v31 (R37). -/
abbrev VReg := Fin 32
/-- A mask register m0 to m7 (R37). -/
abbrev MReg := Fin 8

/-- An immediate, offset or displacement with the number of X words before it (R38, R39): `val` is the
sign-extended value before any scaling by the access size or the word size. -/
structure Imm where
  pfx : Nat
  val : Word
  deriving DecidableEq, Repr

/-- Rounding modes (R58), in code order 0 to 3. -/
inductive RoundMode where
  | rne | rtz | rdn | rup
  deriving DecidableEq, Repr

/-- The RC field of layout RRR-C (R36, R45): a named mode, or CX.STATUS.RM. -/
inductive RoundSel where
  | named (m : RoundMode)
  | dynamic
  deriving DecidableEq, Repr

/-- The H field of format MEM (R36): `order` is .ACQ on a load and .REL on a store. -/
inductive Hint where
  | plain | order | stream
  deriving DecidableEq, Repr

/-- The W field (R121): wait for SN, SG or both to be zero. -/
structure WaitSel where
  sn : Bool
  sg : Bool
  deriving DecidableEq, Repr

/-- Scopes (R10), in code order 0 to 6. -/
inductive Scope where
  | lane | core | quad | cluster | die | package | system
  deriving DecidableEq, Repr

/-- Barrier levels (R36), in code order 0 to 3. -/
inductive Level where
  | quad | cluster | die | package
  deriving DecidableEq, Repr

/-- Placements of SPAWN and SPAWNT (R36, R178), in code order 0 to 3. -/
inductive Place where
  | here | quad | die | any
  deriving DecidableEq, Repr

/-- The completion word of a tile command (R140): CK 0, 1 or 2. -/
inductive Completion where
  | none
  | obj (g : GReg)
  | fut (g : GReg)
  deriving DecidableEq, Repr

/-- Kinds of accumulator row groups (R148), in code order 0 to 2. -/
inductive GroupKind where
  | sum | isum | ranked
  deriving DecidableEq, Repr

/-- The DST field of MDRAIN and MQUANT with its register gX (R158): 0, 1 .FUT or 2 .HND. -/
inductive DrainDst where
  | mem
  | fut (x : GReg)
  | hnd (x : GReg)
  deriving DecidableEq, Repr

/-- The QF field of MQUANT (R160), with the registers that only .FB4 names. -/
inductive QuantFmt where
  | e4m3 | e5m2 | e5m2inf
  | fb4 (gBS gBB gBAND : GReg)
  deriving DecidableEq, Repr

/-- The two engines a core drives through tile commands (R142). -/
inductive Engine where
  | matrix | copy
  deriving DecidableEq, Repr

/-- What a control-port request addresses (R353). -/
inductive PortTarget where
  | global (part : Nat)
  | near (part : Nat)
  | svc
  deriving DecidableEq, Repr

end Sys2Proof
end

