-- ==== Sys2Proof/Syntax.lean ====
section
/-! DEFINITION. Syntax.lean: the instructions of the opcode table, one constructor a row: the 264 instructions
that a context issues (R35, R36, R43, R44, and the tile commands of R140) and the 90 steps of the other agents
that the table lists beside them, each with the agent or the request in flight that it concerns. -/
namespace Sys2Proof

/-- The instructions and steps of the opcode table. -/
inductive Instr where
  /-- ADD (R78). Writes gA plus gB, modulo 2^64, to gD. -/
  | add (d : GReg) (a : GReg) (b : GReg)
  /-- SUB (R78). Writes gA minus gB to gD. -/
  | sub (d : GReg) (a : GReg) (b : GReg)
  /-- AND (R78). Writes the bitwise AND of gA and gB to gD. -/
  | and (d : GReg) (a : GReg) (b : GReg)
  /-- OR (R78). Writes the bitwise OR of gA and gB to gD. -/
  | or (d : GReg) (a : GReg) (b : GReg)
  /-- XOR (R78). Writes the bitwise XOR of gA and gB to gD. -/
  | xor (d : GReg) (a : GReg) (b : GReg)
  /-- ANDN (R78). Writes gA AND NOT gB to gD. -/
  | andn (d : GReg) (a : GReg) (b : GReg)
  /-- SHL (R78). Shifts gA left by gB[5:0] and writes the result to gD. -/
  | shl (d : GReg) (a : GReg) (b : GReg)
  /-- SHR (R78). Shifts gA right by gB[5:0], shifting in zeros, and writes the result to gD. -/
  | shr (d : GReg) (a : GReg) (b : GReg)
  /-- SRA (R78). Shifts gA right arithmetically by gB[5:0] and writes the result to gD. -/
  | sra (d : GReg) (a : GReg) (b : GReg)
  /-- ROL (R78). Rotates gA left by gB[5:0] and writes the result to gD. -/
  | rol (d : GReg) (a : GReg) (b : GReg)
  /-- ROR (R78). Rotates gA right by gB[5:0] and writes the result to gD. -/
  | ror (d : GReg) (a : GReg) (b : GReg)
  /-- MIN (R78). Writes the signed minimum of gA and gB to gD. -/
  | min (d : GReg) (a : GReg) (b : GReg)
  /-- MAX (R78). Writes the signed maximum of gA and gB to gD. -/
  | max (d : GReg) (a : GReg) (b : GReg)
  /-- MINU (R78). Writes the unsigned minimum of gA and gB to gD. -/
  | minu (d : GReg) (a : GReg) (b : GReg)
  /-- MAXU (R78). Writes the unsigned maximum of gA and gB to gD. -/
  | maxu (d : GReg) (a : GReg) (b : GReg)
  /-- MUL (R79). Writes the low 64 bits of gA times gB to gD. -/
  | mul (d : GReg) (a : GReg) (b : GReg)
  /-- MULH (R79). Writes the high 64 bits of the signed 128-bit product of gA and gB to gD. -/
  | mulh (d : GReg) (a : GReg) (b : GReg)
  /-- MULHU (R79). Writes the high 64 bits of the unsigned 128-bit product of gA and gB to gD. -/
  | mulhu (d : GReg) (a : GReg) (b : GReg)
  /-- DIV (R79). Writes the signed quotient of gA by gB, truncated toward zero, to gD; a zero divisor traps DIVIDE_BY_ZERO. -/
  | div (d : GReg) (a : GReg) (b : GReg)
  /-- DIVU (R79). Writes the unsigned quotient of gA by gB to gD; a zero divisor traps DIVIDE_BY_ZERO. -/
  | divu (d : GReg) (a : GReg) (b : GReg)
  /-- REM (R79). Writes the signed remainder of gA by gB to gD; a zero divisor traps DIVIDE_BY_ZERO. -/
  | rem (d : GReg) (a : GReg) (b : GReg)
  /-- REMU (R79). Writes the unsigned remainder of gA by gB to gD; a zero divisor traps DIVIDE_BY_ZERO. -/
  | remu (d : GReg) (a : GReg) (b : GReg)
  /-- CMPEQ (R80). Writes 1 to gD if gA equals gB, and 0 otherwise. -/
  | cmpeq (d : GReg) (a : GReg) (b : GReg)
  /-- CMPNE (R80). Writes 1 to gD if gA differs from gB, and 0 otherwise. -/
  | cmpne (d : GReg) (a : GReg) (b : GReg)
  /-- CMPLT (R80). Writes 1 to gD if gA is less than gB as signed values, and 0 otherwise. -/
  | cmplt (d : GReg) (a : GReg) (b : GReg)
  /-- CMPLTU (R80). Writes 1 to gD if gA is less than gB as unsigned values, and 0 otherwise. -/
  | cmpltu (d : GReg) (a : GReg) (b : GReg)
  /-- CMPLE (R80). Writes 1 to gD if gA is less than or equal to gB as signed values, and 0 otherwise. -/
  | cmple (d : GReg) (a : GReg) (b : GReg)
  /-- CMPLEU (R80). Writes 1 to gD if gA is less than or equal to gB as unsigned values, and 0 otherwise. -/
  | cmpleu (d : GReg) (a : GReg) (b : GReg)
  /-- CMOVZ (R80). Writes gA to gD when gB is zero. -/
  | cmovz (d : GReg) (a : GReg) (b : GReg)
  /-- CMOVNZ (R80). Writes gA to gD when gB is not zero. -/
  | cmovnz (d : GReg) (a : GReg) (b : GReg)
  /-- CLZ (R81). Writes the count of leading zero bits of gA to gD. -/
  | clz (d : GReg) (a : GReg)
  /-- CTZ (R81). Writes the count of trailing zero bits of gA to gD. -/
  | ctz (d : GReg) (a : GReg)
  /-- POPC (R81). Writes the count of one bits of gA to gD. -/
  | popc (d : GReg) (a : GReg)
  /-- BREV (R81). Writes gA with its bit order reversed to gD. -/
  | brev (d : GReg) (a : GReg)
  /-- BSWAP (R81). Writes gA with its byte order reversed to gD. -/
  | bswap (d : GReg) (a : GReg)
  /-- SEXTB (R81). Writes gA sign-extended from 8 bits to gD. -/
  | sextb (d : GReg) (a : GReg)
  /-- SEXTH (R81). Writes gA sign-extended from 16 bits to gD. -/
  | sexth (d : GReg) (a : GReg)
  /-- SEXTW (R81). Writes gA sign-extended from 32 bits to gD. -/
  | sextw (d : GReg) (a : GReg)
  /-- ZEXTB (R81). Writes gA zero-extended from 8 bits to gD. -/
  | zextb (d : GReg) (a : GReg)
  /-- ZEXTH (R81). Writes gA zero-extended from 16 bits to gD. -/
  | zexth (d : GReg) (a : GReg)
  /-- ZEXTW (R81). Writes gA zero-extended from 32 bits to gD. -/
  | zextw (d : GReg) (a : GReg)
  /-- BEXT (R82). Extracts the bit field of gA that gB describes and writes it, zero-extended, to gD. -/
  | bext (d : GReg) (a : GReg) (b : GReg)
  /-- BINS (R82). Inserts the low bits of gA into gD at the field that gB describes. -/
  | bins (d : GReg) (a : GReg) (b : GReg)
  /-- ADDI (R83). Writes gA plus the sign-extended immediate to gD. -/
  | addi (d : GReg) (a : GReg) (imm : Imm)
  /-- ANDI (R83). Writes gA AND the sign-extended immediate to gD. -/
  | andi (d : GReg) (a : GReg) (imm : Imm)
  /-- ORI (R83). Writes gA OR the sign-extended immediate to gD. -/
  | ori (d : GReg) (a : GReg) (imm : Imm)
  /-- XORI (R83). Writes gA XOR the sign-extended immediate to gD. -/
  | xori (d : GReg) (a : GReg) (imm : Imm)
  /-- CMPEQI (R83). Writes 1 to gD if gA equals the immediate, and 0 otherwise. -/
  | cmpeqi (d : GReg) (a : GReg) (imm : Imm)
  /-- CMPLTI (R83). Writes 1 to gD if gA is less than the immediate as signed values, and 0 otherwise. -/
  | cmplti (d : GReg) (a : GReg) (imm : Imm)
  /-- CMPLTUI (R83). Writes 1 to gD if gA is less than the sign-extended immediate as unsigned values, and 0 otherwise. -/
  | cmpltui (d : GReg) (a : GReg) (imm : Imm)
  /-- ADDPC (R83). Writes the address of the instruction's first word plus the immediate to gD. -/
  | addpc (d : GReg) (imm : Imm)
  /-- MULI (R83). Writes the low 64 bits of gA times the immediate to gD. -/
  | muli (d : GReg) (a : GReg) (imm : Imm)
  /-- SHLI (R84). Shifts gA left by the immediate shift amount and writes the result to gD. -/
  | shli (d : GReg) (a : GReg) (sh : Fin 64)
  /-- SHRI (R84). Shifts gA right logically by the immediate shift amount and writes the result to gD. -/
  | shri (d : GReg) (a : GReg) (sh : Fin 64)
  /-- SRAI (R84). Shifts gA right arithmetically by the immediate shift amount and writes the result to gD. -/
  | srai (d : GReg) (a : GReg) (sh : Fin 64)
  /-- RORI (R84). Rotates gA right by the immediate shift amount and writes the result to gD. -/
  | rori (d : GReg) (a : GReg) (sh : Fin 64)
  /-- FADD (R86). Writes the FP32 sum of a and b, rounded by CX.STATUS.RM, and sets FP flags. -/
  | fadd (d : GReg) (a : GReg) (b : GReg)
  /-- FSUB (R86). Writes the FP32 difference a minus b, rounded by CX.STATUS.RM. -/
  | fsub (d : GReg) (a : GReg) (b : GReg)
  /-- FMUL (R86). Writes the FP32 product of a and b, rounded by CX.STATUS.RM. -/
  | fmul (d : GReg) (a : GReg) (b : GReg)
  /-- FDIV (R86). Writes the FP32 quotient a over b, rounded by CX.STATUS.RM. -/
  | fdiv (d : GReg) (a : GReg) (b : GReg)
  /-- FMADD (R86). Writes a times b plus d with one rounding to gD. -/
  | fmadd (d : GReg) (a : GReg) (b : GReg)
  /-- FMSUB (R86). Writes a times b minus d with one rounding to gD. -/
  | fmsub (d : GReg) (a : GReg) (b : GReg)
  /-- FMIN (R87). Writes the FP32 minimum of a and b, with NaN and signed-zero rules. -/
  | fmin (d : GReg) (a : GReg) (b : GReg)
  /-- FMAX (R87). Writes the FP32 maximum of a and b, with NaN and signed-zero rules. -/
  | fmax (d : GReg) (a : GReg) (b : GReg)
  /-- FSQRT (R86). Writes the rounded FP32 square root of a. -/
  | fsqrt (d : GReg) (a : GReg)
  /-- FABS (R86). Writes a with its sign bit cleared, setting no flag. -/
  | fabs (d : GReg) (a : GReg)
  /-- FNEG (R86). Writes a with its sign bit inverted, setting no flag. -/
  | fneg (d : GReg) (a : GReg)
  /-- FCOPYS (R86). Writes the magnitude of a with the sign of b. -/
  | fcopys (d : GReg) (a : GReg) (b : GReg)
  /-- FCMPEQ (R88). Writes 1 to gD if the FP32 values a and b are equal, and 0 otherwise. -/
  | fcmpeq (d : GReg) (a : GReg) (b : GReg)
  /-- FCMPLT (R88). Writes 1 to gD if a is less than b, and sets invalid for a NaN operand. -/
  | fcmplt (d : GReg) (a : GReg) (b : GReg)
  /-- FCMPLE (R88). Writes 1 to gD if a is less than or equal to b, and sets invalid for a NaN operand. -/
  | fcmple (d : GReg) (a : GReg) (b : GReg)
  /-- FCMPUN (R88). Writes 1 to gD if either operand is a NaN, and 0 otherwise. -/
  | fcmpun (d : GReg) (a : GReg) (b : GReg)
  /-- FCLASS (R88). Writes the one-hot class mask of a to gD[9:0]. -/
  | fclass (d : GReg) (a : GReg)
  /-- ITOF (R89). Converts signed gA to FP32 by the RC rounding. -/
  | itof (d : GReg) (a : GReg) (rc : RoundSel)
  /-- UTOF (R89). Converts unsigned gA to FP32 by the RC rounding. -/
  | utof (d : GReg) (a : GReg) (rc : RoundSel)
  /-- FTOI (R89). Converts FP32 to INT64, clamping out-of-range values and setting flags. -/
  | ftoi (d : GReg) (a : GReg) (rc : RoundSel)
  /-- FTOU (R89). Converts FP32 to an unsigned 64-bit integer, clamping and setting flags. -/
  | ftou (d : GReg) (a : GReg) (rc : RoundSel)
  /-- FTOBF (R89). Narrows FP32 to BF16 in gD[15:0]. -/
  | ftobf (d : GReg) (a : GReg) (rc : RoundSel)
  /-- BFTOF (R89). Widens BF16 to FP32 exactly, setting no flag. -/
  | bftof (d : GReg) (a : GReg) (rc : RoundSel)
  /-- FTOE4 (R89). Narrows FP32 to E4M3 in gD[7:0], saturating. -/
  | ftoe4 (d : GReg) (a : GReg) (rc : RoundSel)
  /-- E4TOF (R89). Widens E4M3 to FP32 exactly. -/
  | e4tof (d : GReg) (a : GReg) (rc : RoundSel)
  /-- FTOE5 (R89). Narrows FP32 to E5M2, keeping infinities when INF is set. -/
  | ftoe5 (d : GReg) (a : GReg) (rc : RoundSel) (inf : Bool)
  /-- E5TOF (R89). Widens E5M2 to FP32 exactly, setting invalid for a signalling NaN. -/
  | e5tof (d : GReg) (a : GReg) (rc : RoundSel)
  /-- FTOE2 (R89). Narrows FP32 to E2M1 in gD[3:0]. -/
  | ftoe2 (d : GReg) (a : GReg) (rc : RoundSel)
  /-- E2TOF (R89). Widens E2M1 to FP32 exactly. -/
  | e2tof (d : GReg) (a : GReg) (rc : RoundSel)
  /-- BEQ (R90). Branches when gA equals gB. -/
  | beq (a : GReg) (b : GReg) (imm : Imm)
  /-- BNE (R90). Branches when gA differs from gB. -/
  | bne (a : GReg) (b : GReg) (imm : Imm)
  /-- BLT (R90). Branches when gA is less than gB as signed values. -/
  | blt (a : GReg) (b : GReg) (imm : Imm)
  /-- BGE (R90). Branches when gA is greater than or equal to gB as signed values. -/
  | bge (a : GReg) (b : GReg) (imm : Imm)
  /-- BLTU (R90). Branches when gA is less than gB as unsigned values. -/
  | bltu (a : GReg) (b : GReg) (imm : Imm)
  /-- BGEU (R90). Branches when gA is greater than or equal to gB as unsigned values. -/
  | bgeu (a : GReg) (b : GReg) (imm : Imm)
  /-- JAL (R91). Jumps to a PC-relative target and writes the link address to gD. -/
  | jal (d : GReg) (imm : Imm)
  /-- JALR (R92). Jumps to gA plus a word offset and writes the link address to gD, trapping MISALIGNED_TARGET on a misaligned target. -/
  | jalr (d : GReg) (a : GReg) (imm : Imm)
  /-- LOOPNZ (R93). Decrements gD and branches if the result is not zero. -/
  | loopnz (d : GReg) (imm : Imm)
  /-- REP (R95). Runs the following body for gA[31:0] passes, renumbering window registers. -/
  | rep (a : GReg) (stride : Fin 8) (len : Fin 16)
  /-- REPI (R95). Runs the following body for an immediate count of passes, renumbering window registers. -/
  | repi (count : Fin 4096) (stride : Fin 8) (len : Fin 16)
  /-- LDB (R119). Loads one byte, zero-extended, to gD, stalling until it returns. -/
  | ldb (d : GReg) (a : GReg) (off : Imm) (h : Hint) (w : WaitSel)
  /-- LDH (R119). Loads two bytes, zero-extended, to gD. -/
  | ldh (d : GReg) (a : GReg) (off : Imm) (h : Hint) (w : WaitSel)
  /-- LDW (R119). Loads four bytes, zero-extended, to gD. -/
  | ldw (d : GReg) (a : GReg) (off : Imm) (h : Hint) (w : WaitSel)
  /-- LDD (R119). Loads eight bytes to gD, or acts as a prefetch when D = 0 without .ACQ. -/
  | ldd (d : GReg) (a : GReg) (off : Imm) (h : Hint) (w : WaitSel)
  /-- PREF (R123). Prefetches a global line into the home slice and, without .STREAM, the issuer's cluster cache, blocking and counting nothing. -/
  | pref (a : GReg) (off : Imm) (stream : Bool) (w : WaitSel)
  /-- STB (R120). Stores one byte, locally or as a posted store counted in SN or SG. -/
  | stb (d : GReg) (a : GReg) (off : Imm) (h : Hint) (w : WaitSel)
  /-- STH (R120). Stores two bytes, locally or posted. -/
  | sth (d : GReg) (a : GReg) (off : Imm) (h : Hint) (w : WaitSel)
  /-- STW (R120). Stores four bytes, locally or posted. -/
  | stw (d : GReg) (a : GReg) (off : Imm) (h : Hint) (w : WaitSel)
  /-- STD (R120). Stores eight bytes, locally or posted. -/
  | std (d : GReg) (a : GReg) (off : Imm) (h : Hint) (w : WaitSel)
  /-- STN (R124). Stores one nibble of a byte indivisibly, at the issuer, a system handler, a store port or the home slice. -/
  | stn (a : GReg) (b : GReg) (hi : Bool) (rel : Bool) (w : WaitSel)
  /-- AXCHG (R126). Atomically exchanges an 8-byte word with gB and returns the old value. -/
  | axchg (d : GReg) (a : GReg) (b : GReg) (acq : Bool) (rel : Bool) (w : WaitSel)
  /-- AADD (R126). Atomically adds gB to an 8-byte word and returns the old value. -/
  | aadd (d : GReg) (a : GReg) (b : GReg) (acq : Bool) (rel : Bool) (w : WaitSel)
  /-- AAND (R126). Atomically ANDs gB into an 8-byte word and returns the old value. -/
  | aand (d : GReg) (a : GReg) (b : GReg) (acq : Bool) (rel : Bool) (w : WaitSel)
  /-- AOR (R126). Atomically ORs gB into an 8-byte word and returns the old value. -/
  | aor (d : GReg) (a : GReg) (b : GReg) (acq : Bool) (rel : Bool) (w : WaitSel)
  /-- AXOR (R126). Atomically XORs gB into an 8-byte word and returns the old value. -/
  | axor (d : GReg) (a : GReg) (b : GReg) (acq : Bool) (rel : Bool) (w : WaitSel)
  /-- AMIN (R126). Atomically keeps the signed minimum of a word and gB, returning the old value. -/
  | amin (d : GReg) (a : GReg) (b : GReg) (acq : Bool) (rel : Bool) (w : WaitSel)
  /-- AMAX (R126). Atomically keeps the signed maximum of a word and gB, returning the old value. -/
  | amax (d : GReg) (a : GReg) (b : GReg) (acq : Bool) (rel : Bool) (w : WaitSel)
  /-- AMINU (R126). Atomically keeps the unsigned minimum of a word and gB, returning the old value. -/
  | aminu (d : GReg) (a : GReg) (b : GReg) (acq : Bool) (rel : Bool) (w : WaitSel)
  /-- AMAXU (R126). Atomically keeps the unsigned maximum of a word and gB, returning the old value. -/
  | amaxu (d : GReg) (a : GReg) (b : GReg) (acq : Bool) (rel : Bool) (w : WaitSel)
  /-- AFADD (R126). Atomically adds an FP32 value to a 4-byte word with RNE and returns the old value. -/
  | afadd (d : GReg) (a : GReg) (b : GReg) (acq : Bool) (rel : Bool) (w : WaitSel)
  /-- AXCHG_POST (R126). Posts an atomic exchange counted in AT. -/
  | axchgPost (a : GReg) (b : GReg) (rel : Bool) (w : WaitSel)
  /-- AADD_POST (R126). Posts an atomic add counted in AT. -/
  | aaddPost (a : GReg) (b : GReg) (rel : Bool) (w : WaitSel)
  /-- AAND_POST (R126). Posts an atomic AND counted in AT. -/
  | aandPost (a : GReg) (b : GReg) (rel : Bool) (w : WaitSel)
  /-- AOR_POST (R126). Posts an atomic OR counted in AT. -/
  | aorPost (a : GReg) (b : GReg) (rel : Bool) (w : WaitSel)
  /-- AXOR_POST (R126). Posts an atomic XOR counted in AT. -/
  | axorPost (a : GReg) (b : GReg) (rel : Bool) (w : WaitSel)
  /-- AMIN_POST (R126). Posts an atomic signed minimum counted in AT. -/
  | aminPost (a : GReg) (b : GReg) (rel : Bool) (w : WaitSel)
  /-- AMAX_POST (R126). Posts an atomic signed maximum counted in AT. -/
  | amaxPost (a : GReg) (b : GReg) (rel : Bool) (w : WaitSel)
  /-- AMINU_POST (R126). Posts an atomic unsigned minimum counted in AT. -/
  | aminuPost (a : GReg) (b : GReg) (rel : Bool) (w : WaitSel)
  /-- AMAXU_POST (R126). Posts an atomic unsigned maximum counted in AT. -/
  | amaxuPost (a : GReg) (b : GReg) (rel : Bool) (w : WaitSel)
  /-- AFADD_POST (R126). Posts an atomic FP32 add counted in AT. -/
  | afaddPost (a : GReg) (b : GReg) (rel : Bool) (w : WaitSel)
  /-- CAS (R127). Compares an 8-byte word with gD and, if equal, writes gB, returning the old value. -/
  | cas (d : GReg) (a : GReg) (b : GReg) (acq : Bool) (rel : Bool) (w : WaitSel)
  /-- CASP (R127). Compares and swaps a 16-byte pair against register pairs, returning the old pair. -/
  | casp (d : GReg) (a : GReg) (b : GReg) (acq : Bool) (rel : Bool) (w : WaitSel)
  /-- WAIT (R131). Stalls until each outstanding counter is at or below its immediate, raising covered deferred faults. -/
  | wait (at_ : Fin 32) (tl : Fin 32) (cp : Fin 32) (sg : Fin 32) (sn : Fin 32)
  /-- FENCE (R133). Waits until all five counters are zero, then takes the visibility step of its scope. -/
  | fence (scope : Scope)
  /-- CWAIT (R147). Waits, parking a task, until a completion object's BYTES and CMDS are zero, then returns its status. -/
  | cwait (d : GReg) (a : GReg)
  /-- BARARM (R136). Sets the mode and expected arrivals of a barrier object. -/
  | bararm (lvl : Level) (obj : Fin 16) (a : GReg)
  /-- BARRIVE (R137). Records an arrival on a barrier object after a release wait, completing the phase when all have arrived. -/
  | barrive (lvl : Level) (obj : Fin 16) (d : GReg)
  /-- BARWAIT (R138). Stalls while the barrier's GEN equals the given phase, then completes with acquire effect. -/
  | barwait (lvl : Level) (obj : Fin 16) (a : GReg)
  /-- BARQ (R139). Returns the barrier object's state in one step. -/
  | barq (lvl : Level) (obj : Fin 16) (d : GReg)
  /-- VFADD (R100). Adds FP32 lanes of vA and vB into active lanes of vD. -/
  | vfadd (d : VReg) (a : VReg) (b : VReg) (m : MReg)
  /-- VFSUB (R100). Subtracts FP32 lanes of vB from vA into active lanes of vD. -/
  | vfsub (d : VReg) (a : VReg) (b : VReg) (m : MReg)
  /-- VFMUL (R100). Multiplies FP32 lanes of vA and vB into active lanes of vD. -/
  | vfmul (d : VReg) (a : VReg) (b : VReg) (m : MReg)
  /-- VFDIV (R100). Divides FP32 lanes of vA by vB into active lanes of vD. -/
  | vfdiv (d : VReg) (a : VReg) (b : VReg) (m : MReg)
  /-- VFMA (R100). Computes a times b plus d per active lane with one rounding. -/
  | vfma (d : VReg) (a : VReg) (b : VReg) (m : MReg)
  /-- VFMS (R100). Computes a times b minus d per active lane with one rounding. -/
  | vfms (d : VReg) (a : VReg) (b : VReg) (m : MReg)
  /-- VFMIN (R100). Writes the FP32 minimum of each active lane pair. -/
  | vfmin (d : VReg) (a : VReg) (b : VReg) (m : MReg)
  /-- VFMAX (R100). Writes the FP32 maximum of each active lane pair. -/
  | vfmax (d : VReg) (a : VReg) (b : VReg) (m : MReg)
  /-- VFABS (R100). Clears the sign bit of each active lane. -/
  | vfabs (d : VReg) (a : VReg) (m : MReg)
  /-- VFNEG (R100). Inverts the sign bit of each active lane. -/
  | vfneg (d : VReg) (a : VReg) (m : MReg)
  /-- VFSQRT (R100). Writes the rounded square root of each active lane. -/
  | vfsqrt (d : VReg) (a : VReg) (m : MReg)
  /-- VFRCP (R102). Writes a 12-bit-fraction approximation of the reciprocal of each active lane. -/
  | vfrcp (d : VReg) (a : VReg) (m : MReg)
  /-- VFRSQ (R102). Writes a 12-bit-fraction approximation of the reciprocal square root of each active lane. -/
  | vfrsq (d : VReg) (a : VReg) (m : MReg)
  /-- VFEXP2 (R102). Writes a 12-bit-fraction approximation of 2 to the power of each active lane. -/
  | vfexp2 (d : VReg) (a : VReg) (m : MReg)
  /-- VFLOG2 (R102). Writes a 12-bit-fraction approximation of log2 of each active lane. -/
  | vflog2 (d : VReg) (a : VReg) (m : MReg)
  /-- VBFMA (R101). Adds two BF16 products per lane to the FP32 accumulator lane with one rounding. -/
  | vbfma (d : VReg) (a : VReg) (b : VReg) (m : MReg)
  /-- VADD (R103). Adds INT32 lanes, wrapping. -/
  | vadd (d : VReg) (a : VReg) (b : VReg) (m : MReg)
  /-- VSUB (R103). Subtracts INT32 lanes, wrapping. -/
  | vsub (d : VReg) (a : VReg) (b : VReg) (m : MReg)
  /-- VMUL (R103). Writes the low 32 bits of each lane product. -/
  | vmul (d : VReg) (a : VReg) (b : VReg) (m : MReg)
  /-- VMULH (R103). Writes the high 32 bits of each signed lane product. -/
  | vmulh (d : VReg) (a : VReg) (b : VReg) (m : MReg)
  /-- VMIN (R103). Writes the signed minimum of each lane pair. -/
  | vmin (d : VReg) (a : VReg) (b : VReg) (m : MReg)
  /-- VMAX (R103). Writes the signed maximum of each lane pair. -/
  | vmax (d : VReg) (a : VReg) (b : VReg) (m : MReg)
  /-- VMINU (R103). Writes the unsigned minimum of each lane pair. -/
  | vminu (d : VReg) (a : VReg) (b : VReg) (m : MReg)
  /-- VMAXU (R103). Writes the unsigned maximum of each lane pair. -/
  | vmaxu (d : VReg) (a : VReg) (b : VReg) (m : MReg)
  /-- VAND (R103). Writes the bitwise AND of each lane pair. -/
  | vand (d : VReg) (a : VReg) (b : VReg) (m : MReg)
  /-- VOR (R103). Writes the bitwise OR of each lane pair. -/
  | vor (d : VReg) (a : VReg) (b : VReg) (m : MReg)
  /-- VXOR (R103). Writes the bitwise XOR of each lane pair. -/
  | vxor (d : VReg) (a : VReg) (b : VReg) (m : MReg)
  /-- VSHL (R103). Shifts each lane left by its count. -/
  | vshl (d : VReg) (a : VReg) (b : VReg) (m : MReg)
  /-- VSHR (R103). Shifts each lane right logically by its count. -/
  | vshr (d : VReg) (a : VReg) (b : VReg) (m : MReg)
  /-- VSRA (R103). Shifts each lane right arithmetically by its count. -/
  | vsra (d : VReg) (a : VReg) (b : VReg) (m : MReg)
  /-- VADDS (R103). Adds INT32 lanes with signed saturation. -/
  | vadds (d : VReg) (a : VReg) (b : VReg) (m : MReg)
  /-- VSUBS (R103). Subtracts INT32 lanes with signed saturation. -/
  | vsubs (d : VReg) (a : VReg) (b : VReg) (m : MReg)
  /-- VFCMPEQ (R104). Writes a mask of active lanes whose FP32 values are equal. -/
  | vfcmpeq (d : MReg) (a : VReg) (b : VReg) (m : MReg)
  /-- VFCMPLT (R104). Writes a mask of active lanes where a is less than b as FP32. -/
  | vfcmplt (d : MReg) (a : VReg) (b : VReg) (m : MReg)
  /-- VFCMPLE (R104). Writes a mask of active lanes where a is at most b as FP32. -/
  | vfcmple (d : MReg) (a : VReg) (b : VReg) (m : MReg)
  /-- VCMPEQ (R104). Writes a mask of active lanes whose integers are equal. -/
  | vcmpeq (d : MReg) (a : VReg) (b : VReg) (m : MReg)
  /-- VCMPLT (R104). Writes a mask of active lanes where a is less than b, signed. -/
  | vcmplt (d : MReg) (a : VReg) (b : VReg) (m : MReg)
  /-- VCMPLTU (R104). Writes a mask of active lanes where a is less than b, unsigned. -/
  | vcmpltu (d : MReg) (a : VReg) (b : VReg) (m : MReg)
  /-- VSEL (R104). Writes every lane from vA or vB as the mask selects. -/
  | vsel (d : VReg) (a : VReg) (b : VReg) (m : MReg)
  /-- MAND (R104). Writes the AND of two mask registers. -/
  | mand (d : MReg) (a : MReg) (b : MReg)
  /-- MOR (R104). Writes the OR of two mask registers. -/
  | mor (d : MReg) (a : MReg) (b : MReg)
  /-- MXOR (R104). Writes the XOR of two mask registers. -/
  | mxor (d : MReg) (a : MReg) (b : MReg)
  /-- MNOT (R104). Writes the complement of a mask register. -/
  | mnot (d : MReg) (a : MReg)
  /-- VPERM (R105). Permutes vA lanes by the indices in vB. -/
  | vperm (d : VReg) (a : VReg) (b : VReg) (m : MReg)
  /-- VROTL (R105). Rotates vA lanes toward lane 0 by the count in vB lane 0. -/
  | vrotl (d : VReg) (a : VReg) (b : VReg) (m : MReg)
  /-- VZIPLO (R105). Interleaves the low halves of vA and vB. -/
  | vziplo (d : VReg) (a : VReg) (b : VReg) (m : MReg)
  /-- VZIPHI (R105). Interleaves the high halves of vA and vB. -/
  | vziphi (d : VReg) (a : VReg) (b : VReg) (m : MReg)
  /-- VCVTIF (R106). Converts INT32 lanes to FP32. -/
  | vcvtif (d : VReg) (a : VReg) (m : MReg)
  /-- VCVTFI (R106). Converts FP32 lanes to INT32 with clamping. -/
  | vcvtfi (d : VReg) (a : VReg) (m : MReg)
  /-- VCVTFBF (R106). Narrows 32 FP32 lanes of vA and vB to packed BF16. -/
  | vcvtfbf (d : VReg) (a : VReg) (b : VReg) (m : MReg)
  /-- VCVTBFF (R106). Widens 16 packed BF16 elements to FP32 lanes. -/
  | vcvtbff (d : VReg) (a : VReg) (m : MReg)
  /-- VCVTFE4 (R106). Narrows 16 FP32 lanes to packed E4M3 codes. -/
  | vcvtfe4 (d : VReg) (a : VReg) (m : MReg)
  /-- VCVTFE5 (R106). Narrows 16 FP32 lanes to packed E5M2 codes, saturating. -/
  | vcvtfe5 (d : VReg) (a : VReg) (m : MReg)
  /-- VCVTFB4 (R107). Quantises two FB4 blocks with the band scale in vB, trapping FORMAT_BAD_SCALE on an ill-formed scale. -/
  | vcvtfb4 (d : VReg) (a : VReg) (b : VReg) (m : MReg)
  /-- VCVTE4F (R106). Widens 16 E4M3 codes to FP32 lanes. -/
  | vcvte4f (d : VReg) (a : VReg) (m : MReg)
  /-- VCVTE5F (R106). Widens 16 E5M2 codes to FP32 lanes. -/
  | vcvte5f (d : VReg) (a : VReg) (m : MReg)
  /-- VCVTFE5_INF (R106). Narrows 16 FP32 lanes to E5M2 codes, keeping infinities. -/
  | vcvtfe5Inf (d : VReg) (a : VReg) (m : MReg)
  /-- VREDADD (R108). Writes the INT32 sum of active lanes to every lane. -/
  | vredadd (d : VReg) (a : VReg) (m : MReg)
  /-- VREDFADD (R108). Writes the fixed-tree FP32 sum of active lanes to every lane. -/
  | vredfadd (d : VReg) (a : VReg) (m : MReg)
  /-- VREDFMAX (R108). Writes the FP32 maximum of active lanes to every lane. -/
  | vredfmax (d : VReg) (a : VReg) (m : MReg)
  /-- VREDFMIN (R108). Writes the FP32 minimum of active lanes to every lane. -/
  | vredfmin (d : VReg) (a : VReg) (m : MReg)
  /-- VSCAN (R109). Writes the inclusive INT32 prefix sum over active lanes. -/
  | vscan (d : VReg) (a : VReg) (m : MReg)
  /-- VSCANF (R109). Writes the running FP32 prefix sum over active lanes. -/
  | vscanf (d : VReg) (a : VReg) (m : MReg)
  /-- VSCANX (R109). Writes the exclusive INT32 prefix sum over active lanes. -/
  | vscanx (d : VReg) (a : VReg) (m : MReg)
  /-- VPRUNE (R110). Writes a mask of lanes whose candidate reaches its threshold. -/
  | vprune (d : MReg) (a : VReg) (b : VReg) (m : MReg)
  /-- VBCAST (R111). Writes gA[31:0] to every active lane of vD. -/
  | vbcast (d : VReg) (a : GReg) (m : MReg)
  /-- VEXTR (R111). Writes one lane of vA, zero-extended, to gD. -/
  | vextr (d : GReg) (a : VReg) (b : GReg)
  /-- VINSR (R111). Writes gA[31:0] into one lane of vD. -/
  | vinsr (d : VReg) (a : GReg) (b : GReg)
  /-- VGATH (R113). Loads a 4-byte word per active lane from gA plus the lane offset, stalling until all return. -/
  | vgath (d : VReg) (a : GReg) (b : VReg) (m : MReg)
  /-- VSCAT (R114). Stores a 4-byte word per active lane at gA plus the lane offset, in lane order. -/
  | vscat (d : VReg) (a : GReg) (b : VReg) (m : MReg)
  /-- MTOG (R111). Writes a mask register, zero-extended, to gD. -/
  | mtog (d : GReg) (a : MReg)
  /-- GTOM (R111). Writes gA[15:0] to a mask register. -/
  | gtom (d : MReg) (a : GReg)
  /-- VLD (R112). Loads 64 aligned bytes into a vector register. -/
  | vld (d : VReg) (a : GReg) (off : Imm) (h : Hint) (w : WaitSel)
  /-- VST (R112). Stores a vector register to 64 aligned bytes, locally or as one posted store. -/
  | vst (d : VReg) (a : GReg) (off : Imm) (h : Hint) (w : WaitSel)
  /-- SPAWN (R178). Allocates a future at the issuer, returns its handle and posts a task record to the placed scheduler. -/
  | spawn (d : GReg) (a : GReg) (b : GReg) (plc : Place) (pri : Fin 4) (twin : Bool) (rst : Bool)
  /-- SPAWNT (R178). Spawns a task as SPAWN does, with four tile reference pointers. -/
  | spawnt (d : GReg) (a : GReg) (b : GReg) (plc : Place) (pri : Fin 4) (twin : Bool) (rst : Bool)
  /-- CALLAT (R178). Spawns a task eligible only on the core named in gB+4. -/
  | callat (d : GReg) (a : GReg) (b : GReg) (pri : Fin 4)
  /-- TOUCH (R179). Returns a future's value, traps on a faulted or cancelled future, or parks until it becomes final. -/
  | touch (d : GReg) (a : GReg)
  /-- TTOUCH (R181). Returns a future's state and value without parking or trapping. -/
  | ttouch (d : GReg) (a : GReg)
  /-- RESOLVE (R180). Makes a PENDING future RESOLVED with gB after a release wait, waking its waiters. -/
  | resolve (d : GReg) (a : GReg) (b : GReg)
  /-- POISON (R180). Makes a PENDING future FAULTED with a cause after a release wait, waking its waiters. -/
  | poison (d : GReg) (a : GReg) (b : GReg)
  /-- CANCEL (R184). Cancels a future or sets CANREQ on its task, according to the task's stage. -/
  | cancel (d : GReg) (a : GReg)
  /-- CANCEL_TREE (R186). Cancels a future and propagates the cancellation to its descendants. -/
  | cancelTree (d : GReg) (a : GReg)
  /-- FNEW (R183). Allocates a PENDING future tied to no task and returns its handle. -/
  | fnew (d : GReg)
  /-- FFREE (R187). Frees a final future with no waiters, advancing its slot generation. -/
  | ffree (a : GReg)
  /-- FSTAT (R182). Returns a future's state word without ordering anything. -/
  | fstat (d : GReg) (a : GReg)
  /-- CHKC (R190). Traps CANCEL_REQUESTED if the running task's cancel request is set. -/
  | chkc
  /-- YIELD (R189). Gives up the task's context after draining and returns the task to READY. -/
  | yield
  /-- TERM (R188). Flushes residuals, drains, resolves or cancels the task's future and ends the task. -/
  | term (a : GReg)
  /-- SEND (R205). Posts an active message with up to eight payload words to a core's inbox. -/
  | send (d : GReg) (a : GReg) (b : GReg) (n : Fin 9)
  /-- HRET (R209). Commits a handler activation's buffered stores, messages and spawns, and frees its inbox slot. -/
  | hret
  /-- LAUNCH (R305). Appends a launch block as a packet to a command queue of the partition. -/
  | launch (d : GReg) (a : GReg) (b : GReg)
  /-- FLOOD (R306). Registers a launch at its join future and floods a kernel wake from the issuing core. -/
  | flood (a : GReg)
  /-- SETWP (R317). Sets the workspace pointer of a context to a free workspace slot. -/
  | setwp (a : GReg) (b : GReg)
  /-- START (R212). Starts a helper in an EMPTY reserved task context at the given PC. -/
  | start (d : GReg) (a : GReg) (b : GReg)
  /-- STOPC (R318). Stops a task context into HELD or resumes a HELD context. -/
  | stopc (d : GReg) (a : GReg) (b : GReg)
  /-- TRAP (R361). Takes SOFTWARE_TRAP with gA in CX.AUX and CX.PC past itself. -/
  | trap (a : GReg)
  /-- ERET (R362). Returns from a trap routine by restoring the frame at g2. -/
  | eret
  /-- CTRLR (R324). Reads a control field named by a selector. -/
  | ctrlr (d : GReg) (a : GReg)
  /-- CTRLW (R325). Writes a control field named by a selector, for every field that has no row of its own. -/
  | ctrlw (a : GReg) (b : GReg)
  /-- BANKMODE (R320). Switches a cluster-store bank between SCRATCH, CACHE and FIFO modes. -/
  | bankmode (a : GReg) (b : GReg)
  /-- PARK (R319). Pre-empts the task in a task context and waits until the context is EMPTY. -/
  | park (d : GReg) (a : GReg)
  /-- ACC (R255). Posts an FP32 accumulate of a vector into a global line, combining any matching saggar residual. -/
  | acc (a : GReg) (b : VReg) (m : MReg)
  /-- ACC_BF16 (R255). Posts a BF16 accumulate of a vector into a global line. -/
  | accBf16 (a : GReg) (b : VReg) (m : MReg)
  /-- RMERGE (R256). Posts pairs to merge into a global ranked list at its home slice. -/
  | rmerge (a : GReg) (b : VReg) (m : MReg) (ks : Fin 4)
  /-- FLUSHRES_ALL (R258). Sends every occupied saggar entry of the core as flush accumulates, counted in AT. -/
  | flushresAll
  /-- FLUSHRES_RANGE (R258). Sends the saggar entries whose line lies in an address range as flush accumulates. -/
  | flushresRange (a : GReg) (b : GReg)
  /-- HSIFT (R253). Offers one pair to a ranked heap in private memory. -/
  | hsift (d : GReg) (a : GReg) (b : GReg)
  /-- HMERGE (R253). Merges one ranked heap into another in private memory. -/
  | hmerge (d : GReg) (a : GReg) (b : GReg)
  /-- SHELFPUT (R272). Queues a row for the shelf builder of its expert's die, counted in CP. -/
  | shelfput (a : GReg) (b : GReg)
  /-- SHELFCLOSE_ALL (R273). Closes the open shelves of every die and waits for their unpacking through CP. -/
  | shelfcloseAll
  /-- SHELFCLOSE_DIE (R273). Closes the open shelf of the die in gA[1:0]. -/
  | shelfcloseDie (a : GReg)
  /-- MFMT (R153). Sets the issuing core's matrix format context. -/
  | mfmt (accm : Bool) (rc : RoundMode) (bf : Fin 16) (af : Fin 16) (gAS : GReg) (gAB : GReg) (gBS : GReg) (gBB : GReg)
  /-- MALLOC (R149). Requests accumulator row groups of a kind for the issuing core, all or none. -/
  | malloc (d : GReg) (t : Fin 8) (g0 : Fin 8) (ng : Fin 8) (kind : GroupKind) (ks : Fin 4)
  /-- MFREE (R150). Releases accumulator row groups held by the issuing core. -/
  | mfree (t : Fin 8) (g0 : Fin 8) (ng : Fin 8)
  /-- MZERO (R151). Sets accumulator rows to their empty state. -/
  | mzero (t : Fin 8) (row0 : Fin 128) (nr : Fin 128) (cw : Completion)
  /-- MMA (R155). Multiplies A rows by a stationary B into accumulator rows at a chosen shape, possibly stacked in the wedge. -/
  | mma (t : Fin 8) (shp : Fin 4) (row0 : Fin 128) (nr : Fin 128) (gA : GReg) (gSA : GReg) (gB : GReg) (gSB : GReg) (cw : Completion)
  /-- GMMA (R156). Multiplies grouped rows of A, each group by its own B, into consecutive tiles. -/
  | gmma (t : Fin 8) (nt : Fin 8) (nw : Fin 4) (ng : Fin 64) (gA : GReg) (gSA : GReg) (gG : GReg) (gSB : GReg) (cw : Completion)
  /-- MDRAIN (R158). Writes accumulator rows to memory, optionally closing with a wake. -/
  | mdrain (t : Fin 8) (row0 : Fin 128) (nr : Fin 128) (df : Bool) (dst : DrainDst) (gD : GReg) (gSD : GReg) (cw : Completion)
  /-- MQUANT (R160). Drains SUM rows quantised to FP8 or FB4. -/
  | mquant (t : Fin 8) (row0 : Fin 128) (nr : Fin 128) (dst : DrainDst) (qf : QuantFmt) (gD : GReg) (gSD : GReg) (cw : Completion)
  /-- MSYNC (R161). Releases every wedge entry that holds a command of this context. -/
  | msync
  /-- MRANK (R250). Offers SUM row elements with indices to RANKED rows. -/
  | mrank (ts : Fin 8) (t : Fin 8) (row0 : Fin 128) (nr : Fin 128) (srow0 : Fin 128) (ncm : Fin 128) (gC : GReg) (cw : Completion)
  /-- MTHR (R251). Returns the thresholds of 16 rows and the groups' sticky flags. -/
  | mthr (row0 : Fin 128) (t : Fin 8) (gF : GReg) (d : VReg) (cw : Completion)
  /-- ACCT (R257). Sends accumulator rows as accumulates to global lines. -/
  | acct (t : Fin 8) (row0 : Fin 128) (nr : Fin 128) (df : Bool) (gD : GReg) (gSD : GReg) (cw : Completion)
  /-- TCOPY (R163). Copies a tensor described by a descriptor, with optional format conversion. -/
  | tcopy (gT : GReg) (cw : Completion)
  /-- TGATHER (R164). Copies indexed source rows to consecutive destination rows. -/
  | tgather (gS : GReg) (gD : GReg) (gI : GReg) (gN : GReg) (gRB : GReg) (gSS : GReg) (gDS : GReg) (cw : Completion)
  /-- TSCATTER (R164). Copies consecutive source rows to indexed destination rows. -/
  | tscatter (gS : GReg) (gD : GReg) (gI : GReg) (gN : GReg) (gRB : GReg) (gSS : GReg) (gDS : GReg) (cw : Completion)
  /-- TMCAST (R165). Copies one range to the cluster stores named by a mask. -/
  | tmcast (gS : GReg) (gD : GReg) (gM : GReg) (gN : GReg) (cw : Completion)
  /-- TFILL (R166). Fills a range with copies of an element value. -/
  | tfill (esz : Fin 4) (gD : GReg) (gV : GReg) (gN : GReg) (cw : Completion)
  /-- PACKET_NOP (R294). A NOP packet passes its checks and finishes with no step. -/
  | packetNop (part : Nat) (q : Nat)
  /-- LAUNCH_KERNEL (R299). A LAUNCH_KERNEL packet floods a kernel wake to its core set. -/
  | launchKernel (part : Nat) (q : Nat)
  /-- LAUNCH_GRAPH (R303). A LAUNCH_GRAPH packet starts a graph walker at its first node. -/
  | launchGraph (part : Nat) (q : Nat)
  /-- WRITE (R294). A WRITE packet writes up to 32 bytes, performed at the home or target. -/
  | write (part : Nat) (q : Nat)
  /-- WRITE_SIGNAL (R294). A WRITE_SIGNAL packet writes up to 8 bytes and then resolves a future. -/
  | writeSignal (part : Nat) (q : Nat)
  /-- WAIT_VALUE (R296). A WAIT_VALUE packet tests a masked word and finishes when true, or gives up at a boundary when false. -/
  | waitValue (part : Nat) (q : Nat)
  /-- WAIT_VALUE_RETEST (R296). The service core retests a given-up WAIT_VALUE at a doorbell or every 256 clocks. -/
  | waitValueRetest (part : Nat) (q : Nat)
  /-- COPY (R294). A COPY packet issues a copy to a cluster's copy engine. -/
  | copy (part : Nat) (q : Nat)
  /-- PACKET_FENCE (R294). A FENCE packet waits for earlier launches and copies and for remote acknowledgement of cross-package writes. -/
  | packetFence (part : Nat) (q : Nat)
  /-- CTRL_WRITE (R309). A privileged packet writes a control field of a named core. -/
  | ctrlWrite (part : Nat) (q : Nat)
  /-- PART_STOP (R311). A privileged packet stops a partition and optionally saves an image layer. -/
  | partStop (part : Nat) (q : Nat)
  /-- PART_START (R312). A privileged packet starts a partition, applying image layers and replaying its log when restoring. -/
  | partStart (part : Nat) (q : Nat)
  /-- PART_RESET (R316). A privileged packet resets a partition, draining or dropping its traffic and scrubbing its state. -/
  | partReset (part : Nat) (q : Nat)
  /-- BAR_ASSIGN (R309). A privileged packet writes the die or package barrier assignment table. -/
  | barAssign (part : Nat) (q : Nat)
  /-- QUEUE_CONFIG (R309). A privileged packet writes a queue descriptor with READ, WRITE and STATUS zero. -/
  | queueConfig (part : Nat) (q : Nat)
  /-- CTX_START (R310). A privileged packet fills the EMPTY control context of a core. -/
  | ctxStart (part : Nat) (q : Nat)
  /-- QUEUE_POLL (R292). The service core re-reads a queue's WRITE and stopped STATUS at least every 4,096 clocks. -/
  | queuePoll (part : Nat) (q : Nat)
  /-- GRAPH_END (R303). An END node waits for the walk's kernels, takes the done step and frees the walker. -/
  | graphEnd (die : Nat) (walker : Nat)
  /-- GRAPH_KERNEL (R303). A KERNEL node sends a wake and, with WAIT, waits for the kernel to complete. -/
  | graphKernel (die : Nat) (walker : Nat)
  /-- GRAPH_COND (R303). A COND node tests a word once and branches to NEXT or ALT. -/
  | graphCond (die : Nat) (walker : Nat)
  /-- GRAPH_LOOP (R303). A LOOP node counts ITER or tests a word and branches to NEXT or ALT. -/
  | graphLoop (die : Nat) (walker : Nat)
  /-- GRAPH_JOIN (R303). A JOIN node waits for every kernel of the walk to complete. -/
  | graphJoin (die : Nat) (walker : Nat)
  /-- LAUNCH_APPEND (R305). The owning service core appends a core's launch block to a queue in one indivisible step and replies. -/
  | launchAppend (id : Nat)
  /-- LAUNCH_WAKE (R300). A core of the set takes a kernel wake, allocating a root future and creating a root task record. -/
  | launchWake (id : Nat) (core : Nat)
  /-- ROOT_REPORT (R301). The counting agent receives a root's final state and counts it. -/
  | rootReport (id : Nat)
  /-- CONTROL_PORT_READ (R353). A service core performs a control-node READ of global space, near space or its register page. -/
  | controlPortRead (port : Nat) (die : Nat) (tgt : PortTarget) (addr : Nat) (len : Nat)
  /-- CONTROL_PORT_WRITE (R353). A service core performs a control-node WRITE of global space, near space or its register page. -/
  | controlPortWrite (port : Nat) (die : Nat) (tgt : PortTarget) (addr : Nat) (data : List Byte)
  /-- CONTROL_PORT_FAILURE (R355). A failed control port's accepted requests are answered on the other port. -/
  | controlPortFailure (port : Nat)
  /-- SVC_DOORBELL (R292). A write to the doorbell rings the service core for a queue, which re-reads its WRITE. -/
  | svcDoorbell (die : Nat) (value : Nat)
  /-- SVC_REFIRE (R393). A write of a staged image address starts refiring on the standby kiln. -/
  | svcRefire (die : Nat) (value : Nat)
  /-- REFIRE_TAKEOVER (R393). At a quiescent packet boundary the standby kiln becomes active and packets resume. -/
  | refireTakeover
  /-- REFIRE_ABORT (R394). A packet running 4 ms into step 3, or an unimportable state table, abandons refiring. -/
  | refireAbort
  /-- SVC_ATTEST (R395). A write covering the last nonce byte starts a signed attestation quote. -/
  | svcAttest (off : Nat) (data : List Byte)
  /-- ATTEST_QUOTE_READY (R399). The crypto block finishes a quote and sets quote ready. -/
  | attestQuoteReady
  /-- XL_INV (R341). A write of XL.INV drops matching translations package-wide and optionally writes back the range. -/
  | xlInv (id : Nat)
  /-- FIFO_POP (R222). An 8-byte store to POP advances a FIFO bank's HEAD by n entries. -/
  | fifoPop (id : Nat)
  /-- FIFO_PUSH (R222). An 8-byte store to PUSH advances a FIFO bank's TAIL by n entries. -/
  | fifoPush (id : Nat)
  /-- POWER_GOOD (R390). After power-good both kilns verify their images and the active kiln boots the package. -/
  | powerGood
  /-- KILN_FAILOVER (R394). The active kiln fails and the standby becomes active with its last state. -/
  | kilnFailover
  /-- THERMAL_STOP (R397). A die above 105 °C stops every partition with clusters on it. -/
  | thermalStop (die : Nat)
  /-- POWER_LIMIT (R397). At each 1 ms window the limiter sets the duty cycle against PWR.CAP. -/
  | powerLimit (milliwatts : Nat)
  /-- TIME_SLICE_EXPIRY (R309). Kiln firmware swaps out the partition whose slice expired and starts the next at packet boundaries. -/
  | timeSliceExpiry (old : Nat) (new : Nat) (image : Nat)
  /-- LINK_DEAD (R373). A port exceeding its replay budget or losing lane lock declares its link dead and floods an update. -/
  | linkDead (port : Nat)
  /-- LINK_RETRAINED (R373). Kiln firmware retrains a dead port and floods a LIVE update. -/
  | linkRetrained (port : Nat)
  /-- LINK_STATE_UPDATE (R375). A package accepts a newer link-state update and forwards it on live links. -/
  | linkStateUpdate (port : Nat) (word : Nat)
  /-- ROUTE_RECOMPUTATION (R376). Within 4,096 clocks of an accepted update the package recomputes its route table. -/
  | routeRecomputation
  /-- DRAIN_ROUND_END (R377). A drain round ends and re-injects or, after round 4, settles requests on the dead path. -/
  | drainRoundEnd (dest : Nat)
  /-- CLUSTER_FENCE (R380). Kiln firmware fences a failed cluster, resets its partitions and moves its home slices. -/
  | clusterFence (cl : Nat)
  /-- NEAR_ARRIVAL (R308). The protection unit delivers, logs or refuses an arrival by its partition tag. -/
  | nearArrival (id : Nat)
  /-- ARRIVAL_LOG_REPLAY (R314). After restore the service cores replay the arrival log record by record. -/
  | arrivalLogReplay (part : Nat)
  /-- HOME_SLICE_ACCESS (R330). A global access arriving at its home slice is translated and performed. -/
  | homeSliceAccess (id : Nat)
  /-- PAGE_WALK (R334). The die's page walker completes a walk and fills the TLB or reports the fault. -/
  | pageWalk (id : Nat)
  /-- ATOMIC_AT_AGENT (R125). An atomic executes indivisibly at its agent, checked against the replay window. -/
  | atomicAtAgent (id : Nat)
  /-- REPLY_ARRIVAL (R119). Returning data or a reply reaches a STALLED context, which is written or traps precisely. -/
  | replyArrival (id : Nat)
  /-- ACKNOWLEDGEMENT (R224). An acknowledgement decrements the context's counter after the write is performed. -/
  | acknowledgement (id : Nat)
  /-- ACCUMULATE_ARRIVAL (R260). A home slice applies or refuses an arriving ACC, RMERGE or ACCT line by its quotas. -/
  | accumulateArrival (id : Nat)
  /-- FLUSH_ACCUMULATE (R261). A flush accumulate is queued and applied at the home slice, never refused. -/
  | flushAccumulate (id : Nat)
  /-- REFUSAL_RETURN (R263). A returned addend is installed or combined in the saggar, evicting a different occupant. -/
  | refusalReturn (id : Nat)
  /-- ACCQ_WINDOW (R259). Every 256 clocks a slice's accept counts restart. -/
  | accqWindow (cl : Nat)
  /-- ARBITER_PICK (R240). When the matrix unit can accept an operation, the arbiter picks a candidate by priority and credit. -/
  | arbiterPick (cl : Nat)
  /-- WEDGE_HOLD_EXPIRY (R244). A wedge entry is released WEDGE.HOLD clocks after its first arrival. -/
  | wedgeHoldExpiry (cl : Nat) (entry : Nat)
  /-- WEDGE_PRIORITY_RELEASE (R244). A wedge entry with a priority-3 member is released 32 clocks after that member arrived. -/
  | wedgePriorityRelease (cl : Nat) (entry : Nat)
  /-- COMMAND_START (R142). A queued tile or copy command leaves its queue head and starts execution. -/
  | commandStart (core : Nat) (eng : Engine)
  /-- COMMAND_COMPLETION (R143). A tile or copy command completes or fails and is reported through its completion word. -/
  | commandCompletion (id : Nat)
  /-- ENGINE_WRITE_ACKNOWLEDGEMENT (R146). A destination acknowledges an engine write and the completion object's BYTES fall. -/
  | engineWriteAcknowledgement (id : Nat)
  /-- DRAIN_WAKE (R159). A system activation resolves a future with the drain's destination. -/
  | drainWake (core : Nat)
  /-- SHELF_TIMER (R271). An open shelf closes SHELF.TIMER clocks after its first row and is sent. -/
  | shelfTimer (cl : Nat) (die : Nat)
  /-- SHELF_ARRIVAL (R274). A dock checks an arriving shelf and unpacks its rows into FIFO banks or rings, queueing messages. -/
  | shelfArrival (id : Nat)
  /-- SWEEPER_RECORD (R344). Every FS.RATE clocks the frame sweeper examines one frame record. -/
  | sweeperRecord (die : Nat)
  /-- TASK_RECORD_ARRIVAL (R197). An arriving task record takes a queue slot or overflow entry, or poisons its future. -/
  | taskRecordArrival (id : Nat)
  /-- PREFETCH_GRANT (R198). The scheduler grants pool space to a task and starts its tile prefetch. -/
  | prefetchGrant (cl : Nat)
  /-- PREFETCH_DONE (R197). The last tile byte lands and the task becomes READY, or the prefetch fails. -/
  | prefetchDone (cl : Nat) (rid : Nat)
  /-- DISPATCH (R199). Each clock the scheduler places at most one READY task in a free context of an eligible core. -/
  | dispatch (cl : Nat)
  /-- WORKSPACE_COPY_DONE (R202). A woken task's workspace copy-in completes and its first instruction may issue. -/
  | workspaceCopyDone (cl : Nat) (rid : Nat)
  /-- TASK_AGING (R201). A READY task waiting 65,536 clocks rises one priority level. -/
  | taskAging (cl : Nat) (rid : Nat)
  /-- LOAD_HINT_PUBLICATION (R200). A cluster publishes its load hint every 256 clocks to its die and every 1,024 to the package. -/
  | loadHintPublication (cl : Nat) (wide : Bool)
  /-- CANCEL_REQUEST (R184). A cluster scheduler acts on an arriving cancel request by the task's stage. -/
  | cancelRequest (id : Nat)
  /-- TREE_CANCEL (R186). Each core of a cluster cancels the PENDING futures whose parent is the named future. -/
  | treeCancel (id : Nat)
  /-- FUTURE_REQUEST (R192). A future operation arriving at its home core is applied in arrival order. -/
  | futureRequest (id : Nat)
  /-- FUTURE_WAKE (R177). A wake carrying a final state reaches a waiter, which becomes READY or leaves STALLED. -/
  | futureWake (id : Nat)
  /-- MESSAGE_ARRIVAL (R206). An inbox accepts an arriving message or refuses it when full. -/
  | messageArrival (id : Nat)
  /-- MESSAGE_RETRY (R206). A sender's interface retries a refused message after 64 clocks. -/
  | messageRetry (id : Nat)
  /-- ACTIVATION (R207). The handler context starts an activation on the oldest message when four outbox slots are free. -/
  | activation (core : Nat)
  /-- SYSTEM_ATOMIC (R211). A system activation executes a near atomic on the core's private memory. -/
  | systemAtomic (core : Nat)
  /-- SYSTEM_NIBBLE_STORE (R211). A system activation executes a remote nibble store on the core's private memory. -/
  | systemNibbleStore (core : Nat)
  /-- BARRIER_TIMEOUT (R216). A phase not completed within BAR.TMO traps its stalled BARWAITs. -/
  | barrierTimeout (lvl : Level) (unit : Nat) (obj : Nat)
  /-- MAILBOX_POST (R364). A post is written to the supervisor mailbox, or counted lost when the mailbox is full. -/
  | mailboxPost (id : Nat)
  /-- HELD_TASK_END (R360). When a HELD task's future becomes final, the core ends the task after draining. -/
  | heldTaskEnd (core : Nat) (ctx : Nat)
  /-- TWIN_COMPARE (R370). The comparator hashes a twin member's request and forwards it when both members agree. -/
  | twinCompare (pair : Nat)
  /-- BARRIER_COMPLETION (R138). A barrier phase completion reaches the members stalled in BARWAIT on that phase, which complete with acquire effect. -/
  | barrierCompletion (core : Nat) (ctx : Nat)
  deriving DecidableEq, Repr

end Sys2Proof
end

