-- ==== Sys2Proof/WellFormed.lean ====
section
/-! DEFINITION. WellFormed.lean: which terms of `Instr` an instruction word can spell (R36 to R40, R43), and
which agents and requests a step of the opcode table can name. -/
namespace Sys2Proof

/-- `v` is the sign extension of an `n`-bit field (R38). -/
def fitsSigned (n : Nat) (v : Word) : Bool :=
  decide (v.toNat < 2 ^ (n - 1)) || decide (2 ^ 64 - 2 ^ (n - 1) ≤ v.toNat)

/-- An immediate of a format whose own field has `base` bits: none, one, or for format RI two prefixes (R39). -/
def Imm.wf (base maxPfx : Nat) (i : Imm) : Bool :=
  match i.pfx with
  | 0 => fitsSigned base i.val
  | 1 => fitsSigned (base + 26) i.val
  | 2 => maxPfx == 2
  | _ => false

/-- Format RI (R39). -/
def Imm.wfRI (i : Imm) : Bool := i.wf 14 2
/-- Layout RI-S with SUB 0 or 1 (R39). -/
def Imm.wfRIS (i : Imm) : Bool := i.wf 10 1
/-- Format MEM (R39). -/
def Imm.wfMEM (i : Imm) : Bool := i.wf 10 1
/-- Format BR (R39). -/
def Imm.wfBR (i : Imm) : Bool := i.wf 14 1
/-- Format J (R39). -/
def Imm.wfJ (i : Imm) : Bool := i.wf 20 1

/-- OBJ 4 to 15 is reserved when LVL is QUAD or CLUSTER (R46). -/
def objOk (lvl : Level) (obj : Fin 16) : Bool :=
  match lvl with
  | .quad | .cluster => decide (obj.val < 4)
  | .die | .package => true

/-- The registers a group of `n` starting at `r` names all exist (R37). -/
def groupOk (r : GReg) (n : Nat) : Bool := decide (r.val + n ≤ 64)

/-- The group and pair rules of R37, judged again after a REP pass has renumbered the registers (R96). -/
def Instr.groupsOk : Instr → Bool
  | .spawn _ _ b _ _ _ _ => groupOk b 4
  | .spawnt _ _ b _ _ _ _ => groupOk b 8
  | .callat _ _ b _ => groupOk b 5
  | .send _ _ b n => groupOk b n.val
  | .ttouch d _ => groupOk d 2
  | .casp d _ b _ _ _ => decide (d.val % 2 = 0) && decide (b.val % 2 = 0)
  | _ => true

/-- An instruction that some words spell; for a step of another agent, one that names agents the package has
(R2, R11, R307, R373, R303). -/
def Instr.wf : Instr → Bool
  | .add _ _ _ => true
  | .sub _ _ _ => true
  | .and _ _ _ => true
  | .or _ _ _ => true
  | .xor _ _ _ => true
  | .andn _ _ _ => true
  | .shl _ _ _ => true
  | .shr _ _ _ => true
  | .sra _ _ _ => true
  | .rol _ _ _ => true
  | .ror _ _ _ => true
  | .min _ _ _ => true
  | .max _ _ _ => true
  | .minu _ _ _ => true
  | .maxu _ _ _ => true
  | .mul _ _ _ => true
  | .mulh _ _ _ => true
  | .mulhu _ _ _ => true
  | .div _ _ _ => true
  | .divu _ _ _ => true
  | .rem _ _ _ => true
  | .remu _ _ _ => true
  | .cmpeq _ _ _ => true
  | .cmpne _ _ _ => true
  | .cmplt _ _ _ => true
  | .cmpltu _ _ _ => true
  | .cmple _ _ _ => true
  | .cmpleu _ _ _ => true
  | .cmovz _ _ _ => true
  | .cmovnz _ _ _ => true
  | .clz _ _ => true
  | .ctz _ _ => true
  | .popc _ _ => true
  | .brev _ _ => true
  | .bswap _ _ => true
  | .sextb _ _ => true
  | .sexth _ _ => true
  | .sextw _ _ => true
  | .zextb _ _ => true
  | .zexth _ _ => true
  | .zextw _ _ => true
  | .bext _ _ _ => true
  | .bins _ _ _ => true
  | .addi _ _ imm => imm.wfRI
  | .andi _ _ imm => imm.wfRI
  | .ori _ _ imm => imm.wfRI
  | .xori _ _ imm => imm.wfRI
  | .cmpeqi _ _ imm => imm.wfRI
  | .cmplti _ _ imm => imm.wfRI
  | .cmpltui _ _ imm => imm.wfRI
  | .addpc _ imm => imm.wfRI
  | .muli _ _ imm => imm.wfRI
  | .shli _ _ _ => true
  | .shri _ _ _ => true
  | .srai _ _ _ => true
  | .rori _ _ _ => true
  | .fadd _ _ _ => true
  | .fsub _ _ _ => true
  | .fmul _ _ _ => true
  | .fdiv _ _ _ => true
  | .fmadd _ _ _ => true
  | .fmsub _ _ _ => true
  | .fmin _ _ _ => true
  | .fmax _ _ _ => true
  | .fsqrt _ _ => true
  | .fabs _ _ => true
  | .fneg _ _ => true
  | .fcopys _ _ _ => true
  | .fcmpeq _ _ _ => true
  | .fcmplt _ _ _ => true
  | .fcmple _ _ _ => true
  | .fcmpun _ _ _ => true
  | .fclass _ _ => true
  | .itof _ _ _ => true
  | .utof _ _ _ => true
  | .ftoi _ _ _ => true
  | .ftou _ _ _ => true
  | .ftobf _ _ _ => true
  | .bftof _ _ _ => true
  | .ftoe4 _ _ _ => true
  | .e4tof _ _ _ => true
  | .ftoe5 _ _ _ _ => true
  | .e5tof _ _ _ => true
  | .ftoe2 _ _ _ => true
  | .e2tof _ _ _ => true
  | .beq _ _ imm => imm.wfBR
  | .bne _ _ imm => imm.wfBR
  | .blt _ _ imm => imm.wfBR
  | .bge _ _ imm => imm.wfBR
  | .bltu _ _ imm => imm.wfBR
  | .bgeu _ _ imm => imm.wfBR
  | .jal _ imm => imm.wfJ
  | .jalr _ _ imm => imm.wfRIS
  | .loopnz _ imm => imm.wfRIS
  | .rep _ _ _ => true
  | .repi _ _ _ => true
  | .ldb _ _ off _ _ => off.wfMEM
  | .ldh _ _ off _ _ => off.wfMEM
  | .ldw _ _ off _ _ => off.wfMEM
  | .ldd d _ off h _ => off.wfMEM && (decide (d.val ≠ 0) || decide (h = .order))
  | .pref _ off _ _ => off.wfMEM
  | .stb _ _ off _ _ => off.wfMEM
  | .sth _ _ off _ _ => off.wfMEM
  | .stw _ _ off _ _ => off.wfMEM
  | .std _ _ off _ _ => off.wfMEM
  | .stn _ _ _ _ _ => true
  | .axchg _ _ _ _ _ _ => true
  | .aadd _ _ _ _ _ _ => true
  | .aand _ _ _ _ _ _ => true
  | .aor _ _ _ _ _ _ => true
  | .axor _ _ _ _ _ _ => true
  | .amin _ _ _ _ _ _ => true
  | .amax _ _ _ _ _ _ => true
  | .aminu _ _ _ _ _ _ => true
  | .amaxu _ _ _ _ _ _ => true
  | .afadd _ _ _ _ _ _ => true
  | .axchgPost _ _ _ _ => true
  | .aaddPost _ _ _ _ => true
  | .aandPost _ _ _ _ => true
  | .aorPost _ _ _ _ => true
  | .axorPost _ _ _ _ => true
  | .aminPost _ _ _ _ => true
  | .amaxPost _ _ _ _ => true
  | .aminuPost _ _ _ _ => true
  | .amaxuPost _ _ _ _ => true
  | .afaddPost _ _ _ _ => true
  | .cas _ _ _ _ _ _ => true
  | .casp d _ b _ _ _ => decide (d.val % 2 = 0) && decide (b.val % 2 = 0)
  | .wait _ _ _ _ _ => true
  | .fence _ => true
  | .cwait _ _ => true
  | .bararm lvl obj _ => objOk lvl obj
  | .barrive lvl obj _ => objOk lvl obj
  | .barwait lvl obj _ => objOk lvl obj
  | .barq lvl obj _ => objOk lvl obj
  | .vfadd _ _ _ _ => true
  | .vfsub _ _ _ _ => true
  | .vfmul _ _ _ _ => true
  | .vfdiv _ _ _ _ => true
  | .vfma _ _ _ _ => true
  | .vfms _ _ _ _ => true
  | .vfmin _ _ _ _ => true
  | .vfmax _ _ _ _ => true
  | .vfabs _ _ _ => true
  | .vfneg _ _ _ => true
  | .vfsqrt _ _ _ => true
  | .vfrcp _ _ _ => true
  | .vfrsq _ _ _ => true
  | .vfexp2 _ _ _ => true
  | .vflog2 _ _ _ => true
  | .vbfma _ _ _ _ => true
  | .vadd _ _ _ _ => true
  | .vsub _ _ _ _ => true
  | .vmul _ _ _ _ => true
  | .vmulh _ _ _ _ => true
  | .vmin _ _ _ _ => true
  | .vmax _ _ _ _ => true
  | .vminu _ _ _ _ => true
  | .vmaxu _ _ _ _ => true
  | .vand _ _ _ _ => true
  | .vor _ _ _ _ => true
  | .vxor _ _ _ _ => true
  | .vshl _ _ _ _ => true
  | .vshr _ _ _ _ => true
  | .vsra _ _ _ _ => true
  | .vadds _ _ _ _ => true
  | .vsubs _ _ _ _ => true
  | .vfcmpeq _ _ _ _ => true
  | .vfcmplt _ _ _ _ => true
  | .vfcmple _ _ _ _ => true
  | .vcmpeq _ _ _ _ => true
  | .vcmplt _ _ _ _ => true
  | .vcmpltu _ _ _ _ => true
  | .vsel _ _ _ _ => true
  | .mand _ _ _ => true
  | .mor _ _ _ => true
  | .mxor _ _ _ => true
  | .mnot _ _ => true
  | .vperm _ _ _ _ => true
  | .vrotl _ _ _ _ => true
  | .vziplo _ _ _ _ => true
  | .vziphi _ _ _ _ => true
  | .vcvtif _ _ _ => true
  | .vcvtfi _ _ _ => true
  | .vcvtfbf _ _ _ _ => true
  | .vcvtbff _ _ _ => true
  | .vcvtfe4 _ _ _ => true
  | .vcvtfe5 _ _ _ => true
  | .vcvtfb4 _ _ _ _ => true
  | .vcvte4f _ _ _ => true
  | .vcvte5f _ _ _ => true
  | .vcvtfe5Inf _ _ _ => true
  | .vredadd _ _ _ => true
  | .vredfadd _ _ _ => true
  | .vredfmax _ _ _ => true
  | .vredfmin _ _ _ => true
  | .vscan _ _ _ => true
  | .vscanf _ _ _ => true
  | .vscanx _ _ _ => true
  | .vprune _ _ _ _ => true
  | .vbcast _ _ _ => true
  | .vextr _ _ _ => true
  | .vinsr _ _ _ => true
  | .vgath _ _ _ _ => true
  | .vscat _ _ _ _ => true
  | .mtog _ _ => true
  | .gtom _ _ => true
  | .vld _ _ off _ _ => off.wfMEM
  | .vst _ _ off _ _ => off.wfMEM
  | .spawn _ _ b _ _ _ _ => groupOk b 4
  | .spawnt _ _ b _ _ _ _ => groupOk b 8
  | .callat _ _ b _ => groupOk b 5
  | .touch _ _ => true
  | .ttouch d _ => groupOk d 2
  | .resolve _ _ _ => true
  | .poison _ _ _ => true
  | .cancel _ _ => true
  | .cancelTree _ _ => true
  | .fnew _ => true
  | .ffree _ => true
  | .fstat _ _ => true
  | .chkc => true
  | .yield => true
  | .term _ => true
  | .send _ _ b n => groupOk b n.val && (decide (n.val ≠ 0) || decide (b.val = 0))
  | .hret => true
  | .launch _ _ _ => true
  | .flood _ => true
  | .setwp _ _ => true
  | .start _ _ _ => true
  | .stopc _ _ _ => true
  | .trap _ => true
  | .eret => true
  | .ctrlr _ _ => true
  | .ctrlw _ _ => true
  | .bankmode _ _ => true
  | .park _ _ => true
  | .acc _ _ _ => true
  | .accBf16 _ _ _ => true
  | .rmerge _ _ _ _ => true
  | .flushresAll => true
  | .flushresRange _ _ => true
  | .hsift _ _ _ => true
  | .hmerge _ _ _ => true
  | .shelfput _ _ => true
  | .shelfcloseAll => true
  | .shelfcloseDie _ => true
  | .mfmt _ _ _ _ _ _ _ _ => true
  | .malloc _ _ _ _ kind ks => decide (kind = .ranked) || decide (ks.val = 0)
  | .mfree _ _ _ => true
  | .mzero _ _ _ _ => true
  | .mma _ _ _ _ _ _ _ _ _ => true
  | .gmma _ _ _ _ _ _ _ _ _ => true
  | .mdrain _ _ _ _ _ _ _ _ => true
  | .mquant _ _ _ _ _ _ _ _ => true
  | .msync => true
  | .mrank _ _ _ _ _ _ _ _ => true
  | .mthr _ _ _ _ _ => true
  | .acct _ _ _ _ _ _ _ => true
  | .tcopy _ _ => true
  | .tgather _ _ _ _ _ _ _ _ => true
  | .tscatter _ _ _ _ _ _ _ _ => true
  | .tmcast _ _ _ _ _ => true
  | .tfill _ _ _ _ _ => true
  | .packetNop part q => decide (part < 16) && decide (q < 64)
  | .launchKernel part q => decide (part < 16) && decide (q < 64)
  | .launchGraph part q => decide (part < 16) && decide (q < 64)
  | .write part q => decide (part < 16) && decide (q < 64)
  | .writeSignal part q => decide (part < 16) && decide (q < 64)
  | .waitValue part q => decide (part < 16) && decide (q < 64)
  | .waitValueRetest part q => decide (part < 16) && decide (q < 64)
  | .copy part q => decide (part < 16) && decide (q < 64)
  | .packetFence part q => decide (part < 16) && decide (q < 64)
  | .ctrlWrite part q => decide (part < 16) && decide (q < 64)
  | .partStop part q => decide (part < 16) && decide (q < 64)
  | .partStart part q => decide (part < 16) && decide (q < 64)
  | .partReset part q => decide (part < 16) && decide (q < 64)
  | .barAssign part q => decide (part < 16) && decide (q < 64)
  | .queueConfig part q => decide (part < 16) && decide (q < 64)
  | .ctxStart part q => decide (part < 16) && decide (q < 64)
  | .queuePoll part q => decide (part < 16) && decide (q < 64)
  | .graphEnd die walker => decide (die < 4) && decide (walker < 16)
  | .graphKernel die walker => decide (die < 4) && decide (walker < 16)
  | .graphCond die walker => decide (die < 4) && decide (walker < 16)
  | .graphLoop die walker => decide (die < 4) && decide (walker < 16)
  | .graphJoin die walker => decide (die < 4) && decide (walker < 16)
  | .launchAppend _ => true
  | .launchWake _ core => decide (core < 4096)
  | .rootReport _ => true
  | .controlPortRead port die _ _ _ => decide (port < 2) && decide (die < 4)
  | .controlPortWrite port die _ _ _ => decide (port < 2) && decide (die < 4)
  | .controlPortFailure port => decide (port < 2)
  | .svcDoorbell die _ => decide (die < 4)
  | .svcRefire die _ => decide (die < 4)
  | .refireTakeover => true
  | .refireAbort => true
  | .svcAttest _ _ => true
  | .attestQuoteReady => true
  | .xlInv _ => true
  | .fifoPop _ => true
  | .fifoPush _ => true
  | .powerGood => true
  | .kilnFailover => true
  | .thermalStop die => decide (die < 4)
  | .powerLimit _ => true
  | .timeSliceExpiry old new _ => decide (old < 16) && decide (new < 16)
  | .linkDead port => decide (port < 144)
  | .linkRetrained port => decide (port < 144)
  | .linkStateUpdate port _ => decide (port < 144)
  | .routeRecomputation => true
  | .drainRoundEnd dest => decide (dest < 1024)
  | .clusterFence cl => decide (cl < 512)
  | .nearArrival _ => true
  | .arrivalLogReplay part => decide (part < 16)
  | .homeSliceAccess _ => true
  | .pageWalk _ => true
  | .atomicAtAgent _ => true
  | .replyArrival _ => true
  | .acknowledgement _ => true
  | .accumulateArrival _ => true
  | .flushAccumulate _ => true
  | .refusalReturn _ => true
  | .accqWindow cl => decide (cl < 512)
  | .arbiterPick cl => decide (cl < 512)
  | .wedgeHoldExpiry cl entry => decide (cl < 512) && decide (entry < 16)
  | .wedgePriorityRelease cl entry => decide (cl < 512) && decide (entry < 16)
  | .commandStart core _ => decide (core < 4096)
  | .commandCompletion _ => true
  | .engineWriteAcknowledgement _ => true
  | .drainWake core => decide (core < 4096)
  | .shelfTimer cl die => decide (cl < 512) && decide (die < 4)
  | .shelfArrival _ => true
  | .sweeperRecord die => decide (die < 4)
  | .taskRecordArrival _ => true
  | .prefetchGrant cl => decide (cl < 512)
  | .prefetchDone cl _ => decide (cl < 512)
  | .dispatch cl => decide (cl < 512)
  | .workspaceCopyDone cl _ => decide (cl < 512)
  | .taskAging cl _ => decide (cl < 512)
  | .loadHintPublication cl _ => decide (cl < 512)
  | .cancelRequest _ => true
  | .treeCancel _ => true
  | .futureRequest _ => true
  | .futureWake _ => true
  | .messageArrival _ => true
  | .messageRetry _ => true
  | .activation core => decide (core < 4096)
  | .systemAtomic core => decide (core < 4096)
  | .systemNibbleStore core => decide (core < 4096)
  | .barrierTimeout _ _ _ => true
  | .mailboxPost _ => true
  | .heldTaskEnd core ctx => decide (core < 4096) && decide (ctx < 12)
  | .twinCompare _ => true
  | .barrierCompletion core ctx => decide (core < 4096) && decide (ctx < 12)

/-- A step of another agent, which no instruction word spells. -/
def Instr.isEvent : Instr → Bool
  | .add _ _ _ => false
  | .sub _ _ _ => false
  | .and _ _ _ => false
  | .or _ _ _ => false
  | .xor _ _ _ => false
  | .andn _ _ _ => false
  | .shl _ _ _ => false
  | .shr _ _ _ => false
  | .sra _ _ _ => false
  | .rol _ _ _ => false
  | .ror _ _ _ => false
  | .min _ _ _ => false
  | .max _ _ _ => false
  | .minu _ _ _ => false
  | .maxu _ _ _ => false
  | .mul _ _ _ => false
  | .mulh _ _ _ => false
  | .mulhu _ _ _ => false
  | .div _ _ _ => false
  | .divu _ _ _ => false
  | .rem _ _ _ => false
  | .remu _ _ _ => false
  | .cmpeq _ _ _ => false
  | .cmpne _ _ _ => false
  | .cmplt _ _ _ => false
  | .cmpltu _ _ _ => false
  | .cmple _ _ _ => false
  | .cmpleu _ _ _ => false
  | .cmovz _ _ _ => false
  | .cmovnz _ _ _ => false
  | .clz _ _ => false
  | .ctz _ _ => false
  | .popc _ _ => false
  | .brev _ _ => false
  | .bswap _ _ => false
  | .sextb _ _ => false
  | .sexth _ _ => false
  | .sextw _ _ => false
  | .zextb _ _ => false
  | .zexth _ _ => false
  | .zextw _ _ => false
  | .bext _ _ _ => false
  | .bins _ _ _ => false
  | .addi _ _ _ => false
  | .andi _ _ _ => false
  | .ori _ _ _ => false
  | .xori _ _ _ => false
  | .cmpeqi _ _ _ => false
  | .cmplti _ _ _ => false
  | .cmpltui _ _ _ => false
  | .addpc _ _ => false
  | .muli _ _ _ => false
  | .shli _ _ _ => false
  | .shri _ _ _ => false
  | .srai _ _ _ => false
  | .rori _ _ _ => false
  | .fadd _ _ _ => false
  | .fsub _ _ _ => false
  | .fmul _ _ _ => false
  | .fdiv _ _ _ => false
  | .fmadd _ _ _ => false
  | .fmsub _ _ _ => false
  | .fmin _ _ _ => false
  | .fmax _ _ _ => false
  | .fsqrt _ _ => false
  | .fabs _ _ => false
  | .fneg _ _ => false
  | .fcopys _ _ _ => false
  | .fcmpeq _ _ _ => false
  | .fcmplt _ _ _ => false
  | .fcmple _ _ _ => false
  | .fcmpun _ _ _ => false
  | .fclass _ _ => false
  | .itof _ _ _ => false
  | .utof _ _ _ => false
  | .ftoi _ _ _ => false
  | .ftou _ _ _ => false
  | .ftobf _ _ _ => false
  | .bftof _ _ _ => false
  | .ftoe4 _ _ _ => false
  | .e4tof _ _ _ => false
  | .ftoe5 _ _ _ _ => false
  | .e5tof _ _ _ => false
  | .ftoe2 _ _ _ => false
  | .e2tof _ _ _ => false
  | .beq _ _ _ => false
  | .bne _ _ _ => false
  | .blt _ _ _ => false
  | .bge _ _ _ => false
  | .bltu _ _ _ => false
  | .bgeu _ _ _ => false
  | .jal _ _ => false
  | .jalr _ _ _ => false
  | .loopnz _ _ => false
  | .rep _ _ _ => false
  | .repi _ _ _ => false
  | .ldb _ _ _ _ _ => false
  | .ldh _ _ _ _ _ => false
  | .ldw _ _ _ _ _ => false
  | .ldd _ _ _ _ _ => false
  | .pref _ _ _ _ => false
  | .stb _ _ _ _ _ => false
  | .sth _ _ _ _ _ => false
  | .stw _ _ _ _ _ => false
  | .std _ _ _ _ _ => false
  | .stn _ _ _ _ _ => false
  | .axchg _ _ _ _ _ _ => false
  | .aadd _ _ _ _ _ _ => false
  | .aand _ _ _ _ _ _ => false
  | .aor _ _ _ _ _ _ => false
  | .axor _ _ _ _ _ _ => false
  | .amin _ _ _ _ _ _ => false
  | .amax _ _ _ _ _ _ => false
  | .aminu _ _ _ _ _ _ => false
  | .amaxu _ _ _ _ _ _ => false
  | .afadd _ _ _ _ _ _ => false
  | .axchgPost _ _ _ _ => false
  | .aaddPost _ _ _ _ => false
  | .aandPost _ _ _ _ => false
  | .aorPost _ _ _ _ => false
  | .axorPost _ _ _ _ => false
  | .aminPost _ _ _ _ => false
  | .amaxPost _ _ _ _ => false
  | .aminuPost _ _ _ _ => false
  | .amaxuPost _ _ _ _ => false
  | .afaddPost _ _ _ _ => false
  | .cas _ _ _ _ _ _ => false
  | .casp _ _ _ _ _ _ => false
  | .wait _ _ _ _ _ => false
  | .fence _ => false
  | .cwait _ _ => false
  | .bararm _ _ _ => false
  | .barrive _ _ _ => false
  | .barwait _ _ _ => false
  | .barq _ _ _ => false
  | .vfadd _ _ _ _ => false
  | .vfsub _ _ _ _ => false
  | .vfmul _ _ _ _ => false
  | .vfdiv _ _ _ _ => false
  | .vfma _ _ _ _ => false
  | .vfms _ _ _ _ => false
  | .vfmin _ _ _ _ => false
  | .vfmax _ _ _ _ => false
  | .vfabs _ _ _ => false
  | .vfneg _ _ _ => false
  | .vfsqrt _ _ _ => false
  | .vfrcp _ _ _ => false
  | .vfrsq _ _ _ => false
  | .vfexp2 _ _ _ => false
  | .vflog2 _ _ _ => false
  | .vbfma _ _ _ _ => false
  | .vadd _ _ _ _ => false
  | .vsub _ _ _ _ => false
  | .vmul _ _ _ _ => false
  | .vmulh _ _ _ _ => false
  | .vmin _ _ _ _ => false
  | .vmax _ _ _ _ => false
  | .vminu _ _ _ _ => false
  | .vmaxu _ _ _ _ => false
  | .vand _ _ _ _ => false
  | .vor _ _ _ _ => false
  | .vxor _ _ _ _ => false
  | .vshl _ _ _ _ => false
  | .vshr _ _ _ _ => false
  | .vsra _ _ _ _ => false
  | .vadds _ _ _ _ => false
  | .vsubs _ _ _ _ => false
  | .vfcmpeq _ _ _ _ => false
  | .vfcmplt _ _ _ _ => false
  | .vfcmple _ _ _ _ => false
  | .vcmpeq _ _ _ _ => false
  | .vcmplt _ _ _ _ => false
  | .vcmpltu _ _ _ _ => false
  | .vsel _ _ _ _ => false
  | .mand _ _ _ => false
  | .mor _ _ _ => false
  | .mxor _ _ _ => false
  | .mnot _ _ => false
  | .vperm _ _ _ _ => false
  | .vrotl _ _ _ _ => false
  | .vziplo _ _ _ _ => false
  | .vziphi _ _ _ _ => false
  | .vcvtif _ _ _ => false
  | .vcvtfi _ _ _ => false
  | .vcvtfbf _ _ _ _ => false
  | .vcvtbff _ _ _ => false
  | .vcvtfe4 _ _ _ => false
  | .vcvtfe5 _ _ _ => false
  | .vcvtfb4 _ _ _ _ => false
  | .vcvte4f _ _ _ => false
  | .vcvte5f _ _ _ => false
  | .vcvtfe5Inf _ _ _ => false
  | .vredadd _ _ _ => false
  | .vredfadd _ _ _ => false
  | .vredfmax _ _ _ => false
  | .vredfmin _ _ _ => false
  | .vscan _ _ _ => false
  | .vscanf _ _ _ => false
  | .vscanx _ _ _ => false
  | .vprune _ _ _ _ => false
  | .vbcast _ _ _ => false
  | .vextr _ _ _ => false
  | .vinsr _ _ _ => false
  | .vgath _ _ _ _ => false
  | .vscat _ _ _ _ => false
  | .mtog _ _ => false
  | .gtom _ _ => false
  | .vld _ _ _ _ _ => false
  | .vst _ _ _ _ _ => false
  | .spawn _ _ _ _ _ _ _ => false
  | .spawnt _ _ _ _ _ _ _ => false
  | .callat _ _ _ _ => false
  | .touch _ _ => false
  | .ttouch _ _ => false
  | .resolve _ _ _ => false
  | .poison _ _ _ => false
  | .cancel _ _ => false
  | .cancelTree _ _ => false
  | .fnew _ => false
  | .ffree _ => false
  | .fstat _ _ => false
  | .chkc => false
  | .yield => false
  | .term _ => false
  | .send _ _ _ _ => false
  | .hret => false
  | .launch _ _ _ => false
  | .flood _ => false
  | .setwp _ _ => false
  | .start _ _ _ => false
  | .stopc _ _ _ => false
  | .trap _ => false
  | .eret => false
  | .ctrlr _ _ => false
  | .ctrlw _ _ => false
  | .bankmode _ _ => false
  | .park _ _ => false
  | .acc _ _ _ => false
  | .accBf16 _ _ _ => false
  | .rmerge _ _ _ _ => false
  | .flushresAll => false
  | .flushresRange _ _ => false
  | .hsift _ _ _ => false
  | .hmerge _ _ _ => false
  | .shelfput _ _ => false
  | .shelfcloseAll => false
  | .shelfcloseDie _ => false
  | .mfmt _ _ _ _ _ _ _ _ => false
  | .malloc _ _ _ _ _ _ => false
  | .mfree _ _ _ => false
  | .mzero _ _ _ _ => false
  | .mma _ _ _ _ _ _ _ _ _ => false
  | .gmma _ _ _ _ _ _ _ _ _ => false
  | .mdrain _ _ _ _ _ _ _ _ => false
  | .mquant _ _ _ _ _ _ _ _ => false
  | .msync => false
  | .mrank _ _ _ _ _ _ _ _ => false
  | .mthr _ _ _ _ _ => false
  | .acct _ _ _ _ _ _ _ => false
  | .tcopy _ _ => false
  | .tgather _ _ _ _ _ _ _ _ => false
  | .tscatter _ _ _ _ _ _ _ _ => false
  | .tmcast _ _ _ _ _ => false
  | .tfill _ _ _ _ _ => false
  | .packetNop _ _ => true
  | .launchKernel _ _ => true
  | .launchGraph _ _ => true
  | .write _ _ => true
  | .writeSignal _ _ => true
  | .waitValue _ _ => true
  | .waitValueRetest _ _ => true
  | .copy _ _ => true
  | .packetFence _ _ => true
  | .ctrlWrite _ _ => true
  | .partStop _ _ => true
  | .partStart _ _ => true
  | .partReset _ _ => true
  | .barAssign _ _ => true
  | .queueConfig _ _ => true
  | .ctxStart _ _ => true
  | .queuePoll _ _ => true
  | .graphEnd _ _ => true
  | .graphKernel _ _ => true
  | .graphCond _ _ => true
  | .graphLoop _ _ => true
  | .graphJoin _ _ => true
  | .launchAppend _ => true
  | .launchWake _ _ => true
  | .rootReport _ => true
  | .controlPortRead _ _ _ _ _ => true
  | .controlPortWrite _ _ _ _ _ => true
  | .controlPortFailure _ => true
  | .svcDoorbell _ _ => true
  | .svcRefire _ _ => true
  | .refireTakeover => true
  | .refireAbort => true
  | .svcAttest _ _ => true
  | .attestQuoteReady => true
  | .xlInv _ => true
  | .fifoPop _ => true
  | .fifoPush _ => true
  | .powerGood => true
  | .kilnFailover => true
  | .thermalStop _ => true
  | .powerLimit _ => true
  | .timeSliceExpiry _ _ _ => true
  | .linkDead _ => true
  | .linkRetrained _ => true
  | .linkStateUpdate _ _ => true
  | .routeRecomputation => true
  | .drainRoundEnd _ => true
  | .clusterFence _ => true
  | .nearArrival _ => true
  | .arrivalLogReplay _ => true
  | .homeSliceAccess _ => true
  | .pageWalk _ => true
  | .atomicAtAgent _ => true
  | .replyArrival _ => true
  | .acknowledgement _ => true
  | .accumulateArrival _ => true
  | .flushAccumulate _ => true
  | .refusalReturn _ => true
  | .accqWindow _ => true
  | .arbiterPick _ => true
  | .wedgeHoldExpiry _ _ => true
  | .wedgePriorityRelease _ _ => true
  | .commandStart _ _ => true
  | .commandCompletion _ => true
  | .engineWriteAcknowledgement _ => true
  | .drainWake _ => true
  | .shelfTimer _ _ => true
  | .shelfArrival _ => true
  | .sweeperRecord _ => true
  | .taskRecordArrival _ => true
  | .prefetchGrant _ => true
  | .prefetchDone _ _ => true
  | .dispatch _ => true
  | .workspaceCopyDone _ _ => true
  | .taskAging _ _ => true
  | .loadHintPublication _ _ => true
  | .cancelRequest _ => true
  | .treeCancel _ => true
  | .futureRequest _ => true
  | .futureWake _ => true
  | .messageArrival _ => true
  | .messageRetry _ => true
  | .activation _ => true
  | .systemAtomic _ => true
  | .systemNibbleStore _ => true
  | .barrierTimeout _ _ _ => true
  | .mailboxPost _ => true
  | .heldTaskEnd _ _ => true
  | .twinCompare _ => true
  | .barrierCompletion _ _ => true

end Sys2Proof
end

