-- ==== Sys2Proof/Decode.lean ====
section
/-! DEFINITION. Decode.lean: instruction words to instructions, in the check order of R46 (a fault on the fetch
of a word is the caller's), and the encoder written from the same layouts (R35, R36, R43, R44).
The decoders that build a constructor beyond the 245th are marked noncomputable: Lean's compiled code has no tag
for so many constructors of one type. The kernel evaluates them like any other definition. -/
namespace Sys2Proof

/-! ### Fields of a word -/

/-- Bits `[lo + n - 1 : lo]` of a word (R4). -/
def fld (w lo n : Nat) : Nat := w / 2 ^ lo % 2 ^ n

/-- The general register a 6-bit field names (R37). -/
def gr (w lo : Nat) : GReg := Fin.ofNat 64 (w / 2 ^ lo)
/-- The vector register a 5-bit field names (R37). -/
def vr (w lo : Nat) : VReg := Fin.ofNat 32 (w / 2 ^ lo)
/-- The mask register a 3-bit field names (R37). -/
def mr (w lo : Nat) : MReg := Fin.ofNat 8 (w / 2 ^ lo)

/-- The low `n` bits of `x`, sign-extended to 64 bits (R12). -/
def sextNat (n x : Nat) : Word :=
  if x % 2 ^ n < 2 ^ (n - 1) then BitVec.ofNat 64 (x % 2 ^ n) else BitVec.ofNat 64 (x % 2 ^ n + (2 ^ 64 - 2 ^ n))

/-- The immediate that prefix bits and a base field make (R39). -/
def immOf (pf : List Nat) (base field : Nat) : Imm :=
  match pf with
  | [] => ⟨0, sextNat base field⟩
  | [p] => ⟨1, sextNat (base + 26) (p * 2 ^ base + field)⟩
  | p1 :: p2 :: _ => ⟨2, BitVec.ofNat 64 (p1 % 2 ^ 24 * 2 ^ 40 + p2 * 2 ^ 14 + field)⟩

/-- The prefix bits P1, P2 that give an immediate back (R53). -/
def Imm.prefixes (base : Nat) (i : Imm) : List Nat :=
  match i.pfx with
  | 0 => []
  | 1 => [i.val.toNat / 2 ^ base % 2 ^ 26]
  | _ => [i.val.toNat / 2 ^ 40, i.val.toNat / 2 ^ 14 % 2 ^ 26]

/-- The base field of an immediate (R39). -/
def Imm.field (base : Nat) (i : Imm) : Nat := i.val.toNat % 2 ^ base

/-! ### Codes of fields -/

/-- R58. -/
def RoundMode.code : RoundMode → Nat
  | .rne => 0 | .rtz => 1 | .rdn => 2 | .rup => 3
/-- R58. -/
def RoundMode.ofCode (n : Nat) : RoundMode :=
  if n = 0 then .rne else if n = 1 then .rtz else if n = 2 then .rdn else .rup
/-- R36: RC. -/
def RoundSel.code : RoundSel → Nat
  | .named m => m.code | .dynamic => 4
/-- R36: RC 5 to 7 are reserved. -/
def RoundSel.ofCode (n : Nat) : Option RoundSel :=
  if n < 4 then some (.named (.ofCode n)) else if n = 4 then some .dynamic else none
/-- R36: H. -/
def Hint.code : Hint → Nat
  | .plain => 0 | .order => 1 | .stream => 2
/-- R36: H 11 is reserved. -/
def Hint.ofCode (n : Nat) : Option Hint :=
  if n = 0 then some .plain else if n = 1 then some .order else if n = 2 then some .stream else none
/-- R121: W. -/
def WaitSel.code (w : WaitSel) : Nat := (if w.sn then 1 else 0) + (if w.sg then 2 else 0)
/-- R121: W. -/
def WaitSel.ofCode (n : Nat) : WaitSel := ⟨n % 2 == 1, n / 2 % 2 == 1⟩
/-- R10. -/
def Scope.code : Scope → Nat
  | .lane => 0 | .core => 1 | .quad => 2 | .cluster => 3 | .die => 4 | .package => 5 | .system => 6
/-- R10: code 7 is reserved. -/
def Scope.ofCode (n : Nat) : Option Scope :=
  match n with
  | 0 => some .lane | 1 => some .core | 2 => some .quad | 3 => some .cluster
  | 4 => some .die | 5 => some .package | 6 => some .system | _ => none
/-- R36: LVL. -/
def Level.code : Level → Nat
  | .quad => 0 | .cluster => 1 | .die => 2 | .package => 3
/-- R36: LVL. -/
def Level.ofCode (n : Nat) : Level :=
  if n = 0 then .quad else if n = 1 then .cluster else if n = 2 then .die else .package
/-- R36: PLC 0 to 3. -/
def Place.code : Place → Nat
  | .here => 0 | .quad => 1 | .die => 2 | .any => 3
/-- R36: PLC 0 to 3. -/
def Place.ofCode (n : Nat) : Place :=
  if n = 0 then .here else if n = 1 then .quad else if n = 2 then .die else .any
/-- R148. -/
def GroupKind.code : GroupKind → Nat
  | .sum => 0 | .isum => 1 | .ranked => 2
/-- R148: kind 3 is reserved. -/
def GroupKind.ofCode (n : Nat) : Option GroupKind :=
  if n = 0 then some .sum else if n = 1 then some .isum else if n = 2 then some .ranked else none

/-! ### Decode checks -/

/-- Why words are not an instruction: an illegal one or one with a reserved field set (R46 steps 2 and 3), with the
offending word and its index within a tile command; or too few bytes. -/
inductive DecErr where
  | illegal (idx word : Nat)
  | reserved (idx word : Nat)
  | truncated
  deriving DecidableEq, Repr

/-- Every listed field (low bit, width) holds zero. -/
def zeros (w : Nat) (fs : List (Nat × Nat)) : Bool := fs.all fun f => fld w f.1 f.2 == 0

/-- R46 step 3. -/
def unlessReserved (w : Nat) (ok : Bool) (r : Except DecErr Instr) : Except DecErr Instr :=
  if ok then r else .error (.reserved 0 w)

/-- R46 step 2. -/
def unlessIllegal (w : Nat) (ok : Bool) (r : Except DecErr Instr) : Except DecErr Instr :=
  if ok then r else .error (.illegal 0 w)

/-- A code of an enumerated field, or R46 step 3. -/
def orReserved {α : Type} (w : Nat) (o : Option α) (k : α → Except DecErr Instr) : Except DecErr Instr :=
  match o with
  | some a => k a
  | none => .error (.reserved 0 w)

/-- An unassigned code (R43, R44). -/
def illegalWord (w : Nat) : Except DecErr Instr := .error (.illegal 0 w)

/-! ### One decoder per major opcode (R43, R44) -/

/-- Major opcode 0x01: ADD, SUB, AND, OR, XOR, ANDN, SHL, SHR, SRA, ROL, ROR, MIN, MAX, MINU, MAXU. -/
def decOp01 (w : Nat) : Except DecErr Instr :=
  match fld w 24 8 with
  | 0 => .ok (.add (gr w 6) (gr w 12) (gr w 18))
  | 1 => .ok (.sub (gr w 6) (gr w 12) (gr w 18))
  | 2 => .ok (.and (gr w 6) (gr w 12) (gr w 18))
  | 3 => .ok (.or (gr w 6) (gr w 12) (gr w 18))
  | 4 => .ok (.xor (gr w 6) (gr w 12) (gr w 18))
  | 5 => .ok (.andn (gr w 6) (gr w 12) (gr w 18))
  | 6 => .ok (.shl (gr w 6) (gr w 12) (gr w 18))
  | 7 => .ok (.shr (gr w 6) (gr w 12) (gr w 18))
  | 8 => .ok (.sra (gr w 6) (gr w 12) (gr w 18))
  | 9 => .ok (.rol (gr w 6) (gr w 12) (gr w 18))
  | 10 => .ok (.ror (gr w 6) (gr w 12) (gr w 18))
  | 11 => .ok (.min (gr w 6) (gr w 12) (gr w 18))
  | 12 => .ok (.max (gr w 6) (gr w 12) (gr w 18))
  | 13 => .ok (.minu (gr w 6) (gr w 12) (gr w 18))
  | 14 => .ok (.maxu (gr w 6) (gr w 12) (gr w 18))
  | _ => illegalWord w

/-- Major opcode 0x02: MUL, MULH, MULHU, DIV, DIVU, REM, REMU. -/
def decOp02 (w : Nat) : Except DecErr Instr :=
  match fld w 24 8 with
  | 0 => .ok (.mul (gr w 6) (gr w 12) (gr w 18))
  | 1 => .ok (.mulh (gr w 6) (gr w 12) (gr w 18))
  | 2 => .ok (.mulhu (gr w 6) (gr w 12) (gr w 18))
  | 3 => .ok (.div (gr w 6) (gr w 12) (gr w 18))
  | 4 => .ok (.divu (gr w 6) (gr w 12) (gr w 18))
  | 5 => .ok (.rem (gr w 6) (gr w 12) (gr w 18))
  | 6 => .ok (.remu (gr w 6) (gr w 12) (gr w 18))
  | _ => illegalWord w

/-- Major opcode 0x03: CMPEQ, CMPNE, CMPLT, CMPLTU, CMPLE, CMPLEU, CMOVZ, CMOVNZ. -/
def decOp03 (w : Nat) : Except DecErr Instr :=
  match fld w 24 8 with
  | 0 => .ok (.cmpeq (gr w 6) (gr w 12) (gr w 18))
  | 1 => .ok (.cmpne (gr w 6) (gr w 12) (gr w 18))
  | 2 => .ok (.cmplt (gr w 6) (gr w 12) (gr w 18))
  | 3 => .ok (.cmpltu (gr w 6) (gr w 12) (gr w 18))
  | 4 => .ok (.cmple (gr w 6) (gr w 12) (gr w 18))
  | 5 => .ok (.cmpleu (gr w 6) (gr w 12) (gr w 18))
  | 6 => .ok (.cmovz (gr w 6) (gr w 12) (gr w 18))
  | 7 => .ok (.cmovnz (gr w 6) (gr w 12) (gr w 18))
  | _ => illegalWord w

/-- Major opcode 0x04: BEXT, BINS, CLZ, CTZ, POPC, BREV, BSWAP, SEXTB, SEXTH, SEXTW, ZEXTB, ZEXTH, ZEXTW. -/
def decOp04 (w : Nat) : Except DecErr Instr :=
  match fld w 24 8 with
  | 0 => unlessReserved w (zeros w [(18, 6)]) <| .ok (.clz (gr w 6) (gr w 12))
  | 1 => unlessReserved w (zeros w [(18, 6)]) <| .ok (.ctz (gr w 6) (gr w 12))
  | 2 => unlessReserved w (zeros w [(18, 6)]) <| .ok (.popc (gr w 6) (gr w 12))
  | 3 => unlessReserved w (zeros w [(18, 6)]) <| .ok (.brev (gr w 6) (gr w 12))
  | 4 => unlessReserved w (zeros w [(18, 6)]) <| .ok (.bswap (gr w 6) (gr w 12))
  | 5 => unlessReserved w (zeros w [(18, 6)]) <| .ok (.sextb (gr w 6) (gr w 12))
  | 6 => unlessReserved w (zeros w [(18, 6)]) <| .ok (.sexth (gr w 6) (gr w 12))
  | 7 => unlessReserved w (zeros w [(18, 6)]) <| .ok (.sextw (gr w 6) (gr w 12))
  | 8 => unlessReserved w (zeros w [(18, 6)]) <| .ok (.zextb (gr w 6) (gr w 12))
  | 9 => unlessReserved w (zeros w [(18, 6)]) <| .ok (.zexth (gr w 6) (gr w 12))
  | 10 => unlessReserved w (zeros w [(18, 6)]) <| .ok (.zextw (gr w 6) (gr w 12))
  | 11 => .ok (.bext (gr w 6) (gr w 12) (gr w 18))
  | 12 => .ok (.bins (gr w 6) (gr w 12) (gr w 18))
  | _ => illegalWord w

/-- Major opcode 0x05: ADDI. -/
def decOp05 (pf : List Nat) (w : Nat) : Except DecErr Instr :=
  .ok (.addi (gr w 6) (gr w 12) (immOf pf 14 (fld w 18 14)))

/-- Major opcode 0x06: ANDI. -/
def decOp06 (pf : List Nat) (w : Nat) : Except DecErr Instr :=
  .ok (.andi (gr w 6) (gr w 12) (immOf pf 14 (fld w 18 14)))

/-- Major opcode 0x07: ORI. -/
def decOp07 (pf : List Nat) (w : Nat) : Except DecErr Instr :=
  .ok (.ori (gr w 6) (gr w 12) (immOf pf 14 (fld w 18 14)))

/-- Major opcode 0x08: XORI. -/
def decOp08 (pf : List Nat) (w : Nat) : Except DecErr Instr :=
  .ok (.xori (gr w 6) (gr w 12) (immOf pf 14 (fld w 18 14)))

/-- Major opcode 0x09: SHLI, SHRI, SRAI, RORI. -/
def decOp09 (w : Nat) : Except DecErr Instr :=
  match fld w 30 2 with
  | 0 => unlessReserved w (zeros w [(24, 6)]) <| .ok (.shli (gr w 6) (gr w 12) (Fin.ofNat 64 (w / 2 ^ 18)))
  | 1 => unlessReserved w (zeros w [(24, 6)]) <| .ok (.shri (gr w 6) (gr w 12) (Fin.ofNat 64 (w / 2 ^ 18)))
  | 2 => unlessReserved w (zeros w [(24, 6)]) <| .ok (.srai (gr w 6) (gr w 12) (Fin.ofNat 64 (w / 2 ^ 18)))
  | 3 => unlessReserved w (zeros w [(24, 6)]) <| .ok (.rori (gr w 6) (gr w 12) (Fin.ofNat 64 (w / 2 ^ 18)))
  | _ => illegalWord w

/-- Major opcode 0x0A: CMPEQI. -/
def decOp0A (pf : List Nat) (w : Nat) : Except DecErr Instr :=
  .ok (.cmpeqi (gr w 6) (gr w 12) (immOf pf 14 (fld w 18 14)))

/-- Major opcode 0x0B: CMPLTI. -/
def decOp0B (pf : List Nat) (w : Nat) : Except DecErr Instr :=
  .ok (.cmplti (gr w 6) (gr w 12) (immOf pf 14 (fld w 18 14)))

/-- Major opcode 0x0C: CMPLTUI. -/
def decOp0C (pf : List Nat) (w : Nat) : Except DecErr Instr :=
  .ok (.cmpltui (gr w 6) (gr w 12) (immOf pf 14 (fld w 18 14)))

/-- Major opcode 0x0D: ADDPC. -/
def decOp0D (pf : List Nat) (w : Nat) : Except DecErr Instr :=
  unlessReserved w (zeros w [(12, 6)]) <| .ok (.addpc (gr w 6) (immOf pf 14 (fld w 18 14)))

/-- Major opcode 0x0E: MULI. -/
def decOp0E (pf : List Nat) (w : Nat) : Except DecErr Instr :=
  .ok (.muli (gr w 6) (gr w 12) (immOf pf 14 (fld w 18 14)))

/-- Major opcode 0x10: FADD, FSUB, FMUL, FDIV, FMADD, FMSUB, FMIN, FMAX, FCOPYS, FSQRT, FABS, FNEG. -/
def decOp10 (w : Nat) : Except DecErr Instr :=
  match fld w 24 8 with
  | 0 => .ok (.fadd (gr w 6) (gr w 12) (gr w 18))
  | 1 => .ok (.fsub (gr w 6) (gr w 12) (gr w 18))
  | 2 => .ok (.fmul (gr w 6) (gr w 12) (gr w 18))
  | 3 => .ok (.fdiv (gr w 6) (gr w 12) (gr w 18))
  | 4 => .ok (.fmadd (gr w 6) (gr w 12) (gr w 18))
  | 5 => .ok (.fmsub (gr w 6) (gr w 12) (gr w 18))
  | 6 => .ok (.fmin (gr w 6) (gr w 12) (gr w 18))
  | 7 => .ok (.fmax (gr w 6) (gr w 12) (gr w 18))
  | 8 => unlessReserved w (zeros w [(18, 6)]) <| .ok (.fsqrt (gr w 6) (gr w 12))
  | 9 => unlessReserved w (zeros w [(18, 6)]) <| .ok (.fabs (gr w 6) (gr w 12))
  | 10 => unlessReserved w (zeros w [(18, 6)]) <| .ok (.fneg (gr w 6) (gr w 12))
  | 11 => .ok (.fcopys (gr w 6) (gr w 12) (gr w 18))
  | _ => illegalWord w

/-- Major opcode 0x11: FCMPEQ, FCMPLT, FCMPLE, FCMPUN, FCLASS. -/
def decOp11 (w : Nat) : Except DecErr Instr :=
  match fld w 24 8 with
  | 0 => .ok (.fcmpeq (gr w 6) (gr w 12) (gr w 18))
  | 1 => .ok (.fcmplt (gr w 6) (gr w 12) (gr w 18))
  | 2 => .ok (.fcmple (gr w 6) (gr w 12) (gr w 18))
  | 3 => .ok (.fcmpun (gr w 6) (gr w 12) (gr w 18))
  | 4 => unlessReserved w (zeros w [(18, 6)]) <| .ok (.fclass (gr w 6) (gr w 12))
  | _ => illegalWord w

/-- Major opcode 0x12: ITOF, UTOF, FTOI, FTOU, FTOBF, BFTOF, FTOE4, E4TOF, E5TOF, FTOE2, E2TOF, FTOE5. -/
def decOp12 (w : Nat) : Except DecErr Instr :=
  match fld w 24 8 with
  | 0 => unlessReserved w (zeros w [(21, 3)]) <| orReserved w (RoundSel.ofCode (fld w 18 3)) fun rc => .ok (.itof (gr w 6) (gr w 12) rc)
  | 1 => unlessReserved w (zeros w [(21, 3)]) <| orReserved w (RoundSel.ofCode (fld w 18 3)) fun rc => .ok (.utof (gr w 6) (gr w 12) rc)
  | 2 => unlessReserved w (zeros w [(21, 3)]) <| orReserved w (RoundSel.ofCode (fld w 18 3)) fun rc => .ok (.ftoi (gr w 6) (gr w 12) rc)
  | 3 => unlessReserved w (zeros w [(21, 3)]) <| orReserved w (RoundSel.ofCode (fld w 18 3)) fun rc => .ok (.ftou (gr w 6) (gr w 12) rc)
  | 4 => unlessReserved w (zeros w [(21, 3)]) <| orReserved w (RoundSel.ofCode (fld w 18 3)) fun rc => .ok (.ftobf (gr w 6) (gr w 12) rc)
  | 5 => unlessReserved w (zeros w [(21, 3)]) <| orReserved w (RoundSel.ofCode (fld w 18 3)) fun rc => .ok (.bftof (gr w 6) (gr w 12) rc)
  | 6 => unlessReserved w (zeros w [(21, 3)]) <| orReserved w (RoundSel.ofCode (fld w 18 3)) fun rc => .ok (.ftoe4 (gr w 6) (gr w 12) rc)
  | 7 => unlessReserved w (zeros w [(21, 3)]) <| orReserved w (RoundSel.ofCode (fld w 18 3)) fun rc => .ok (.e4tof (gr w 6) (gr w 12) rc)
  | 8 => unlessReserved w (zeros w [(22, 2)]) <| orReserved w (RoundSel.ofCode (fld w 18 3)) fun rc => .ok (.ftoe5 (gr w 6) (gr w 12) rc (fld w 21 1 == 1))
  | 9 => unlessReserved w (zeros w [(21, 3)]) <| orReserved w (RoundSel.ofCode (fld w 18 3)) fun rc => .ok (.e5tof (gr w 6) (gr w 12) rc)
  | 10 => unlessReserved w (zeros w [(21, 3)]) <| orReserved w (RoundSel.ofCode (fld w 18 3)) fun rc => .ok (.ftoe2 (gr w 6) (gr w 12) rc)
  | 11 => unlessReserved w (zeros w [(21, 3)]) <| orReserved w (RoundSel.ofCode (fld w 18 3)) fun rc => .ok (.e2tof (gr w 6) (gr w 12) rc)
  | _ => illegalWord w

/-- Major opcode 0x18: BEQ. -/
def decOp18 (pf : List Nat) (w : Nat) : Except DecErr Instr :=
  .ok (.beq (gr w 6) (gr w 12) (immOf pf 14 (fld w 18 14)))

/-- Major opcode 0x19: BNE. -/
def decOp19 (pf : List Nat) (w : Nat) : Except DecErr Instr :=
  .ok (.bne (gr w 6) (gr w 12) (immOf pf 14 (fld w 18 14)))

/-- Major opcode 0x1A: BLT. -/
def decOp1A (pf : List Nat) (w : Nat) : Except DecErr Instr :=
  .ok (.blt (gr w 6) (gr w 12) (immOf pf 14 (fld w 18 14)))

/-- Major opcode 0x1B: BGE. -/
def decOp1B (pf : List Nat) (w : Nat) : Except DecErr Instr :=
  .ok (.bge (gr w 6) (gr w 12) (immOf pf 14 (fld w 18 14)))

/-- Major opcode 0x1C: BLTU. -/
def decOp1C (pf : List Nat) (w : Nat) : Except DecErr Instr :=
  .ok (.bltu (gr w 6) (gr w 12) (immOf pf 14 (fld w 18 14)))

/-- Major opcode 0x1D: BGEU. -/
def decOp1D (pf : List Nat) (w : Nat) : Except DecErr Instr :=
  .ok (.bgeu (gr w 6) (gr w 12) (immOf pf 14 (fld w 18 14)))

/-- Major opcode 0x1E: JAL. -/
def decOp1E (pf : List Nat) (w : Nat) : Except DecErr Instr :=
  .ok (.jal (gr w 6) (immOf pf 20 (fld w 12 20)))

/-- Major opcode 0x1F: JALR, LOOPNZ, REP, REPI. -/
def decOp1F (pf : List Nat) (w : Nat) : Except DecErr Instr :=
  match fld w 28 4 with
  | 0 => .ok (.jalr (gr w 6) (gr w 12) (immOf pf 10 (fld w 18 10)))
  | 1 => unlessReserved w (zeros w [(12, 6)]) <| .ok (.loopnz (gr w 6) (immOf pf 10 (fld w 18 10)))
  | 2 => unlessReserved w (zeros w [(6, 6), (25, 3)]) <| .ok (.rep (gr w 12) (Fin.ofNat 8 (w / 2 ^ 22)) (Fin.ofNat 16 (w / 2 ^ 18)))
  | 3 => unlessReserved w (zeros w [(25, 3)]) <| .ok (.repi (Fin.ofNat 4096 (w / 2 ^ 6)) (Fin.ofNat 8 (w / 2 ^ 22)) (Fin.ofNat 16 (w / 2 ^ 18)))
  | _ => illegalWord w

/-- Major opcode 0x20: LDB. -/
def decOp20 (pf : List Nat) (w : Nat) : Except DecErr Instr :=
  orReserved w (Hint.ofCode (fld w 20 2)) fun h => .ok (.ldb (gr w 6) (gr w 12) (immOf pf 10 (fld w 22 10)) h (WaitSel.ofCode (fld w 18 2)))

/-- Major opcode 0x21: LDH. -/
def decOp21 (pf : List Nat) (w : Nat) : Except DecErr Instr :=
  orReserved w (Hint.ofCode (fld w 20 2)) fun h => .ok (.ldh (gr w 6) (gr w 12) (immOf pf 10 (fld w 22 10)) h (WaitSel.ofCode (fld w 18 2)))

/-- Major opcode 0x22: LDW. -/
def decOp22 (pf : List Nat) (w : Nat) : Except DecErr Instr :=
  orReserved w (Hint.ofCode (fld w 20 2)) fun h => .ok (.ldw (gr w 6) (gr w 12) (immOf pf 10 (fld w 22 10)) h (WaitSel.ofCode (fld w 18 2)))

/-- Major opcode 0x23: LDD, PREF. -/
def decOp23 (pf : List Nat) (w : Nat) : Except DecErr Instr :=
  if fld w 6 6 = 0 ∧ fld w 20 1 = 0 then .ok (.pref (gr w 12) (immOf pf 10 (fld w 22 10)) (fld w 21 1 == 1) (WaitSel.ofCode (fld w 18 2)))
  else orReserved w (Hint.ofCode (fld w 20 2)) fun h => .ok (.ldd (gr w 6) (gr w 12) (immOf pf 10 (fld w 22 10)) h (WaitSel.ofCode (fld w 18 2)))

/-- Major opcode 0x24: STB. -/
def decOp24 (pf : List Nat) (w : Nat) : Except DecErr Instr :=
  orReserved w (Hint.ofCode (fld w 20 2)) fun h => .ok (.stb (gr w 6) (gr w 12) (immOf pf 10 (fld w 22 10)) h (WaitSel.ofCode (fld w 18 2)))

/-- Major opcode 0x25: STH. -/
def decOp25 (pf : List Nat) (w : Nat) : Except DecErr Instr :=
  orReserved w (Hint.ofCode (fld w 20 2)) fun h => .ok (.sth (gr w 6) (gr w 12) (immOf pf 10 (fld w 22 10)) h (WaitSel.ofCode (fld w 18 2)))

/-- Major opcode 0x26: STW. -/
def decOp26 (pf : List Nat) (w : Nat) : Except DecErr Instr :=
  orReserved w (Hint.ofCode (fld w 20 2)) fun h => .ok (.stw (gr w 6) (gr w 12) (immOf pf 10 (fld w 22 10)) h (WaitSel.ofCode (fld w 18 2)))

/-- Major opcode 0x27: STD. -/
def decOp27 (pf : List Nat) (w : Nat) : Except DecErr Instr :=
  orReserved w (Hint.ofCode (fld w 20 2)) fun h => .ok (.std (gr w 6) (gr w 12) (immOf pf 10 (fld w 22 10)) h (WaitSel.ofCode (fld w 18 2)))

/-- Major opcode 0x28: AXCHG, AADD, AAND, AOR, AXOR, AMIN, AMAX, AMINU, AMAXU, AFADD. -/
def decOp28 (w : Nat) : Except DecErr Instr :=
  match fld w 24 4 with
  | 0 => .ok (.axchg (gr w 6) (gr w 12) (gr w 18) (fld w 28 1 == 1) (fld w 29 1 == 1) (WaitSel.ofCode (fld w 30 2)))
  | 1 => .ok (.aadd (gr w 6) (gr w 12) (gr w 18) (fld w 28 1 == 1) (fld w 29 1 == 1) (WaitSel.ofCode (fld w 30 2)))
  | 2 => .ok (.aand (gr w 6) (gr w 12) (gr w 18) (fld w 28 1 == 1) (fld w 29 1 == 1) (WaitSel.ofCode (fld w 30 2)))
  | 3 => .ok (.aor (gr w 6) (gr w 12) (gr w 18) (fld w 28 1 == 1) (fld w 29 1 == 1) (WaitSel.ofCode (fld w 30 2)))
  | 4 => .ok (.axor (gr w 6) (gr w 12) (gr w 18) (fld w 28 1 == 1) (fld w 29 1 == 1) (WaitSel.ofCode (fld w 30 2)))
  | 5 => .ok (.amin (gr w 6) (gr w 12) (gr w 18) (fld w 28 1 == 1) (fld w 29 1 == 1) (WaitSel.ofCode (fld w 30 2)))
  | 6 => .ok (.amax (gr w 6) (gr w 12) (gr w 18) (fld w 28 1 == 1) (fld w 29 1 == 1) (WaitSel.ofCode (fld w 30 2)))
  | 7 => .ok (.aminu (gr w 6) (gr w 12) (gr w 18) (fld w 28 1 == 1) (fld w 29 1 == 1) (WaitSel.ofCode (fld w 30 2)))
  | 8 => .ok (.amaxu (gr w 6) (gr w 12) (gr w 18) (fld w 28 1 == 1) (fld w 29 1 == 1) (WaitSel.ofCode (fld w 30 2)))
  | 9 => .ok (.afadd (gr w 6) (gr w 12) (gr w 18) (fld w 28 1 == 1) (fld w 29 1 == 1) (WaitSel.ofCode (fld w 30 2)))
  | _ => illegalWord w

/-- Major opcode 0x29: AXCHG_POST, AADD_POST, AAND_POST, AOR_POST, AXOR_POST, AMIN_POST, AMAX_POST, AMINU_POST, AMAXU_POST, AFADD_POST. -/
def decOp29 (w : Nat) : Except DecErr Instr :=
  match fld w 24 4 with
  | 0 => unlessReserved w (zeros w [(6, 6), (28, 1)]) <| .ok (.axchgPost (gr w 12) (gr w 18) (fld w 29 1 == 1) (WaitSel.ofCode (fld w 30 2)))
  | 1 => unlessReserved w (zeros w [(6, 6), (28, 1)]) <| .ok (.aaddPost (gr w 12) (gr w 18) (fld w 29 1 == 1) (WaitSel.ofCode (fld w 30 2)))
  | 2 => unlessReserved w (zeros w [(6, 6), (28, 1)]) <| .ok (.aandPost (gr w 12) (gr w 18) (fld w 29 1 == 1) (WaitSel.ofCode (fld w 30 2)))
  | 3 => unlessReserved w (zeros w [(6, 6), (28, 1)]) <| .ok (.aorPost (gr w 12) (gr w 18) (fld w 29 1 == 1) (WaitSel.ofCode (fld w 30 2)))
  | 4 => unlessReserved w (zeros w [(6, 6), (28, 1)]) <| .ok (.axorPost (gr w 12) (gr w 18) (fld w 29 1 == 1) (WaitSel.ofCode (fld w 30 2)))
  | 5 => unlessReserved w (zeros w [(6, 6), (28, 1)]) <| .ok (.aminPost (gr w 12) (gr w 18) (fld w 29 1 == 1) (WaitSel.ofCode (fld w 30 2)))
  | 6 => unlessReserved w (zeros w [(6, 6), (28, 1)]) <| .ok (.amaxPost (gr w 12) (gr w 18) (fld w 29 1 == 1) (WaitSel.ofCode (fld w 30 2)))
  | 7 => unlessReserved w (zeros w [(6, 6), (28, 1)]) <| .ok (.aminuPost (gr w 12) (gr w 18) (fld w 29 1 == 1) (WaitSel.ofCode (fld w 30 2)))
  | 8 => unlessReserved w (zeros w [(6, 6), (28, 1)]) <| .ok (.amaxuPost (gr w 12) (gr w 18) (fld w 29 1 == 1) (WaitSel.ofCode (fld w 30 2)))
  | 9 => unlessReserved w (zeros w [(6, 6), (28, 1)]) <| .ok (.afaddPost (gr w 12) (gr w 18) (fld w 29 1 == 1) (WaitSel.ofCode (fld w 30 2)))
  | _ => illegalWord w

/-- A general register of an instruction in the body of a REP, by how far the pass has shifted the window (R31); outside a body, and
in pass 0, `k` is 0. -/
def windowG (k : Nat) (r : GReg) : GReg := if k = 0 ∨ r.val < 32 then r else Fin.ofNat 64 (32 + (r.val - 32 + k) % 32)

/-- Major opcode 0x2A: STN, CAS, CASP; the pairs of CASP as a pass shifted by `k` names them (R37, R96). -/
def decOp2A (k w : Nat) : Except DecErr Instr :=
  match fld w 24 4 with
  | 0 => .ok (.cas (gr w 6) (gr w 12) (gr w 18) (fld w 28 1 == 1) (fld w 29 1 == 1) (WaitSel.ofCode (fld w 30 2)))
  | 1 => unlessIllegal w (decide ((windowG k (gr w 6)).val % 2 = 0) && decide ((windowG k (gr w 18)).val % 2 = 0)) <| .ok (.casp (gr w 6) (gr w 12) (gr w 18) (fld w 28 1 == 1) (fld w 29 1 == 1) (WaitSel.ofCode (fld w 30 2)))
  | 2 => unlessReserved w (zeros w [(7, 5), (28, 1)]) <| .ok (.stn (gr w 12) (gr w 18) (fld w 6 1 == 1) (fld w 29 1 == 1) (WaitSel.ofCode (fld w 30 2)))
  | _ => illegalWord w

/-- Major opcode 0x2C: WAIT. -/
def decOp2C (w : Nat) : Except DecErr Instr :=
  unlessReserved w (zeros w [(31, 1)]) <| .ok (.wait (Fin.ofNat 32 (w / 2 ^ 26)) (Fin.ofNat 32 (w / 2 ^ 21)) (Fin.ofNat 32 (w / 2 ^ 16)) (Fin.ofNat 32 (w / 2 ^ 11)) (Fin.ofNat 32 (w / 2 ^ 6)))

/-- Major opcode 0x2D: FENCE, CWAIT. -/
def decOp2D (w : Nat) : Except DecErr Instr :=
  match fld w 24 8 with
  | 0 => unlessReserved w (zeros w [(9, 15)]) <| orReserved w (Scope.ofCode (fld w 6 3)) fun scope => .ok (.fence scope)
  | 1 => unlessReserved w (zeros w [(18, 6)]) <| .ok (.cwait (gr w 6) (gr w 12))
  | _ => illegalWord w

/-- Major opcode 0x2E: BARARM, BARWAIT, BARRIVE, BARQ. -/
def decOp2E (w : Nat) : Except DecErr Instr :=
  match fld w 24 8 with
  | 0 => unlessReserved w (objOk (Level.ofCode (fld w 22 2)) (Fin.ofNat 16 (w / 2 ^ 18))) <| unlessReserved w (zeros w [(6, 6)]) <| .ok (.bararm (Level.ofCode (fld w 22 2)) (Fin.ofNat 16 (w / 2 ^ 18)) (gr w 12))
  | 1 => unlessReserved w (objOk (Level.ofCode (fld w 22 2)) (Fin.ofNat 16 (w / 2 ^ 18))) <| unlessReserved w (zeros w [(12, 6)]) <| .ok (.barrive (Level.ofCode (fld w 22 2)) (Fin.ofNat 16 (w / 2 ^ 18)) (gr w 6))
  | 2 => unlessReserved w (objOk (Level.ofCode (fld w 22 2)) (Fin.ofNat 16 (w / 2 ^ 18))) <| unlessReserved w (zeros w [(6, 6)]) <| .ok (.barwait (Level.ofCode (fld w 22 2)) (Fin.ofNat 16 (w / 2 ^ 18)) (gr w 12))
  | 3 => unlessReserved w (objOk (Level.ofCode (fld w 22 2)) (Fin.ofNat 16 (w / 2 ^ 18))) <| unlessReserved w (zeros w [(12, 6)]) <| .ok (.barq (Level.ofCode (fld w 22 2)) (Fin.ofNat 16 (w / 2 ^ 18)) (gr w 6))
  | _ => illegalWord w

/-- Major opcode 0x30: VFADD, VFSUB, VFMUL, VFDIV, VFMA, VFMS, VFMIN, VFMAX, VBFMA, VFABS, VFNEG, VFSQRT, VFRCP, VFRSQ, VFEXP2, VFLOG2. -/
def decOp30 (w : Nat) : Except DecErr Instr :=
  match fld w 24 8 with
  | 0 => .ok (.vfadd (vr w 6) (vr w 11) (vr w 16) (mr w 21))
  | 1 => .ok (.vfsub (vr w 6) (vr w 11) (vr w 16) (mr w 21))
  | 2 => .ok (.vfmul (vr w 6) (vr w 11) (vr w 16) (mr w 21))
  | 3 => .ok (.vfdiv (vr w 6) (vr w 11) (vr w 16) (mr w 21))
  | 4 => .ok (.vfma (vr w 6) (vr w 11) (vr w 16) (mr w 21))
  | 5 => .ok (.vfms (vr w 6) (vr w 11) (vr w 16) (mr w 21))
  | 6 => .ok (.vfmin (vr w 6) (vr w 11) (vr w 16) (mr w 21))
  | 7 => .ok (.vfmax (vr w 6) (vr w 11) (vr w 16) (mr w 21))
  | 8 => unlessReserved w (zeros w [(16, 5)]) <| .ok (.vfabs (vr w 6) (vr w 11) (mr w 21))
  | 9 => unlessReserved w (zeros w [(16, 5)]) <| .ok (.vfneg (vr w 6) (vr w 11) (mr w 21))
  | 10 => unlessReserved w (zeros w [(16, 5)]) <| .ok (.vfsqrt (vr w 6) (vr w 11) (mr w 21))
  | 11 => unlessReserved w (zeros w [(16, 5)]) <| .ok (.vfrcp (vr w 6) (vr w 11) (mr w 21))
  | 12 => unlessReserved w (zeros w [(16, 5)]) <| .ok (.vfrsq (vr w 6) (vr w 11) (mr w 21))
  | 13 => unlessReserved w (zeros w [(16, 5)]) <| .ok (.vfexp2 (vr w 6) (vr w 11) (mr w 21))
  | 14 => unlessReserved w (zeros w [(16, 5)]) <| .ok (.vflog2 (vr w 6) (vr w 11) (mr w 21))
  | 16 => .ok (.vbfma (vr w 6) (vr w 11) (vr w 16) (mr w 21))
  | _ => illegalWord w

/-- Major opcode 0x31: VADD, VSUB, VMUL, VMULH, VMIN, VMAX, VMINU, VMAXU, VAND, VOR, VXOR, VSHL, VSHR, VSRA, VADDS, VSUBS. -/
def decOp31 (w : Nat) : Except DecErr Instr :=
  match fld w 24 8 with
  | 0 => .ok (.vadd (vr w 6) (vr w 11) (vr w 16) (mr w 21))
  | 1 => .ok (.vsub (vr w 6) (vr w 11) (vr w 16) (mr w 21))
  | 2 => .ok (.vmul (vr w 6) (vr w 11) (vr w 16) (mr w 21))
  | 3 => .ok (.vmulh (vr w 6) (vr w 11) (vr w 16) (mr w 21))
  | 4 => .ok (.vmin (vr w 6) (vr w 11) (vr w 16) (mr w 21))
  | 5 => .ok (.vmax (vr w 6) (vr w 11) (vr w 16) (mr w 21))
  | 6 => .ok (.vminu (vr w 6) (vr w 11) (vr w 16) (mr w 21))
  | 7 => .ok (.vmaxu (vr w 6) (vr w 11) (vr w 16) (mr w 21))
  | 8 => .ok (.vand (vr w 6) (vr w 11) (vr w 16) (mr w 21))
  | 9 => .ok (.vor (vr w 6) (vr w 11) (vr w 16) (mr w 21))
  | 10 => .ok (.vxor (vr w 6) (vr w 11) (vr w 16) (mr w 21))
  | 11 => .ok (.vshl (vr w 6) (vr w 11) (vr w 16) (mr w 21))
  | 12 => .ok (.vshr (vr w 6) (vr w 11) (vr w 16) (mr w 21))
  | 13 => .ok (.vsra (vr w 6) (vr w 11) (vr w 16) (mr w 21))
  | 14 => .ok (.vadds (vr w 6) (vr w 11) (vr w 16) (mr w 21))
  | 15 => .ok (.vsubs (vr w 6) (vr w 11) (vr w 16) (mr w 21))
  | _ => illegalWord w

/-- Major opcode 0x32: VSEL, VFCMPEQ, VFCMPLT, VFCMPLE, VCMPEQ, VCMPLT, VCMPLTU, MAND, MOR, MXOR, MNOT. -/
def decOp32 (w : Nat) : Except DecErr Instr :=
  match fld w 24 8 with
  | 0 => unlessReserved w (zeros w [(9, 2)]) <| .ok (.vfcmpeq (mr w 6) (vr w 11) (vr w 16) (mr w 21))
  | 1 => unlessReserved w (zeros w [(9, 2)]) <| .ok (.vfcmplt (mr w 6) (vr w 11) (vr w 16) (mr w 21))
  | 2 => unlessReserved w (zeros w [(9, 2)]) <| .ok (.vfcmple (mr w 6) (vr w 11) (vr w 16) (mr w 21))
  | 3 => unlessReserved w (zeros w [(9, 2)]) <| .ok (.vcmpeq (mr w 6) (vr w 11) (vr w 16) (mr w 21))
  | 4 => unlessReserved w (zeros w [(9, 2)]) <| .ok (.vcmplt (mr w 6) (vr w 11) (vr w 16) (mr w 21))
  | 5 => unlessReserved w (zeros w [(9, 2)]) <| .ok (.vcmpltu (mr w 6) (vr w 11) (vr w 16) (mr w 21))
  | 8 => .ok (.vsel (vr w 6) (vr w 11) (vr w 16) (mr w 21))
  | 9 => unlessReserved w (zeros w [(9, 2), (14, 2), (19, 5)]) <| .ok (.mand (mr w 6) (mr w 11) (mr w 16))
  | 10 => unlessReserved w (zeros w [(9, 2), (14, 2), (19, 5)]) <| .ok (.mor (mr w 6) (mr w 11) (mr w 16))
  | 11 => unlessReserved w (zeros w [(9, 2), (14, 2), (19, 5)]) <| .ok (.mxor (mr w 6) (mr w 11) (mr w 16))
  | 12 => unlessReserved w (zeros w [(9, 2), (14, 10)]) <| .ok (.mnot (mr w 6) (mr w 11))
  | _ => illegalWord w

/-- Major opcode 0x33: VPERM, VROTL, VZIPLO, VZIPHI, VCVTFBF, VCVTFB4, VCVTIF, VCVTFI, VCVTBFF, VCVTFE4, VCVTFE5, VCVTE4F, VCVTE5F, VCVTFE5_INF. -/
def decOp33 (w : Nat) : Except DecErr Instr :=
  match fld w 24 8 with
  | 0 => .ok (.vperm (vr w 6) (vr w 11) (vr w 16) (mr w 21))
  | 1 => .ok (.vrotl (vr w 6) (vr w 11) (vr w 16) (mr w 21))
  | 2 => .ok (.vziplo (vr w 6) (vr w 11) (vr w 16) (mr w 21))
  | 3 => .ok (.vziphi (vr w 6) (vr w 11) (vr w 16) (mr w 21))
  | 8 => unlessReserved w (zeros w [(16, 5)]) <| .ok (.vcvtif (vr w 6) (vr w 11) (mr w 21))
  | 9 => unlessReserved w (zeros w [(16, 5)]) <| .ok (.vcvtfi (vr w 6) (vr w 11) (mr w 21))
  | 10 => .ok (.vcvtfbf (vr w 6) (vr w 11) (vr w 16) (mr w 21))
  | 11 => unlessReserved w (zeros w [(16, 5)]) <| .ok (.vcvtbff (vr w 6) (vr w 11) (mr w 21))
  | 12 => unlessReserved w (zeros w [(16, 5)]) <| .ok (.vcvtfe4 (vr w 6) (vr w 11) (mr w 21))
  | 13 => unlessReserved w (zeros w [(16, 5)]) <| .ok (.vcvtfe5 (vr w 6) (vr w 11) (mr w 21))
  | 14 => .ok (.vcvtfb4 (vr w 6) (vr w 11) (vr w 16) (mr w 21))
  | 15 => unlessReserved w (zeros w [(16, 5)]) <| .ok (.vcvte4f (vr w 6) (vr w 11) (mr w 21))
  | 16 => unlessReserved w (zeros w [(16, 5)]) <| .ok (.vcvte5f (vr w 6) (vr w 11) (mr w 21))
  | 17 => unlessReserved w (zeros w [(16, 5)]) <| .ok (.vcvtfe5Inf (vr w 6) (vr w 11) (mr w 21))
  | _ => illegalWord w

/-- Major opcode 0x34: VREDADD, VREDFADD, VREDFMAX, VREDFMIN, VSCAN, VSCANF, VSCANX, VPRUNE. -/
def decOp34 (w : Nat) : Except DecErr Instr :=
  match fld w 24 8 with
  | 0 => unlessReserved w (zeros w [(16, 5)]) <| .ok (.vredadd (vr w 6) (vr w 11) (mr w 21))
  | 1 => unlessReserved w (zeros w [(16, 5)]) <| .ok (.vredfadd (vr w 6) (vr w 11) (mr w 21))
  | 2 => unlessReserved w (zeros w [(16, 5)]) <| .ok (.vredfmax (vr w 6) (vr w 11) (mr w 21))
  | 3 => unlessReserved w (zeros w [(16, 5)]) <| .ok (.vredfmin (vr w 6) (vr w 11) (mr w 21))
  | 4 => unlessReserved w (zeros w [(16, 5)]) <| .ok (.vscan (vr w 6) (vr w 11) (mr w 21))
  | 5 => unlessReserved w (zeros w [(16, 5)]) <| .ok (.vscanf (vr w 6) (vr w 11) (mr w 21))
  | 6 => unlessReserved w (zeros w [(16, 5)]) <| .ok (.vscanx (vr w 6) (vr w 11) (mr w 21))
  | 8 => unlessReserved w (zeros w [(9, 2)]) <| .ok (.vprune (mr w 6) (vr w 11) (vr w 16) (mr w 21))
  | _ => illegalWord w

/-- Major opcode 0x35: VBCAST, VEXTR, VINSR, VGATH, VSCAT, MTOG, GTOM. -/
def decOp35 (w : Nat) : Except DecErr Instr :=
  match fld w 24 5 with
  | 0 => unlessReserved w (zeros w [(11, 1), (18, 6)]) <| .ok (.vbcast (vr w 6) (gr w 12) (mr w 29))
  | 1 => unlessReserved w (zeros w [(17, 1), (29, 3)]) <| .ok (.vextr (gr w 6) (vr w 12) (gr w 18))
  | 2 => unlessReserved w (zeros w [(11, 1), (29, 3)]) <| .ok (.vinsr (vr w 6) (gr w 12) (gr w 18))
  | 3 => unlessReserved w (zeros w [(11, 1), (23, 1)]) <| .ok (.vgath (vr w 6) (gr w 12) (vr w 18) (mr w 29))
  | 4 => unlessReserved w (zeros w [(11, 1), (23, 1)]) <| .ok (.vscat (vr w 6) (gr w 12) (vr w 18) (mr w 29))
  | 5 => unlessReserved w (zeros w [(15, 9), (29, 3)]) <| .ok (.mtog (gr w 6) (mr w 12))
  | 6 => unlessReserved w (zeros w [(9, 3), (18, 6), (29, 3)]) <| .ok (.gtom (mr w 6) (gr w 12))
  | _ => illegalWord w

/-- Major opcode 0x36: VLD. -/
def decOp36 (pf : List Nat) (w : Nat) : Except DecErr Instr :=
  unlessReserved w (zeros w [(11, 1)]) <| orReserved w (Hint.ofCode (fld w 20 2)) fun h => .ok (.vld (vr w 6) (gr w 12) (immOf pf 10 (fld w 22 10)) h (WaitSel.ofCode (fld w 18 2)))

/-- Major opcode 0x37: VST. -/
def decOp37 (pf : List Nat) (w : Nat) : Except DecErr Instr :=
  unlessReserved w (zeros w [(11, 1)]) <| orReserved w (Hint.ofCode (fld w 20 2)) fun h => .ok (.vst (vr w 6) (gr w 12) (immOf pf 10 (fld w 22 10)) h (WaitSel.ofCode (fld w 18 2)))

/-- Major opcode 0x38: SPAWN, SPAWNT, CALLAT; the groups as a pass shifted by `k` names them (R37, R96). -/
def decOp38 (k w : Nat) : Except DecErr Instr :=
  if fld w 29 3 = 4 then
    unlessIllegal w (zeros w [(24, 3)]) <| unlessIllegal w (groupOk (windowG k (gr w 18)) 5) <| .ok (.callat (gr w 6) (gr w 12) (gr w 18) (Fin.ofNat 4 (w / 2 ^ 27)))
  else if fld w 24 1 = 0 then
    unlessIllegal w (groupOk (windowG k (gr w 18)) 4) <| unlessReserved w (zeros w [(31, 1)]) <| .ok (.spawn (gr w 6) (gr w 12) (gr w 18) (Place.ofCode (fld w 29 2)) (Fin.ofNat 4 (w / 2 ^ 27)) (fld w 26 1 == 1) (fld w 25 1 == 1))
  else
    unlessIllegal w (groupOk (windowG k (gr w 18)) 8) <| unlessReserved w (zeros w [(31, 1)]) <| .ok (.spawnt (gr w 6) (gr w 12) (gr w 18) (Place.ofCode (fld w 29 2)) (Fin.ofNat 4 (w / 2 ^ 27)) (fld w 26 1 == 1) (fld w 25 1 == 1))

/-- Major opcode 0x39: TOUCH, TTOUCH, CANCEL, CANCEL_TREE, FSTAT, RESOLVE, POISON, FNEW, FFREE, TERM, CHKC, YIELD; the pair of TTOUCH as a pass
shifted by `k` names it (R37, R96). -/
def decOp39 (k w : Nat) : Except DecErr Instr :=
  match fld w 24 8 with
  | 0 => unlessReserved w (zeros w [(18, 6)]) <| .ok (.touch (gr w 6) (gr w 12))
  | 1 => unlessIllegal w (groupOk (windowG k (gr w 6)) 2) <| unlessReserved w (zeros w [(18, 6)]) <| .ok (.ttouch (gr w 6) (gr w 12))
  | 2 => .ok (.resolve (gr w 6) (gr w 12) (gr w 18))
  | 3 => .ok (.poison (gr w 6) (gr w 12) (gr w 18))
  | 4 => unlessReserved w (zeros w [(18, 6)]) <| .ok (.cancel (gr w 6) (gr w 12))
  | 5 => unlessReserved w (zeros w [(18, 6)]) <| .ok (.cancelTree (gr w 6) (gr w 12))
  | 6 => unlessReserved w (zeros w [(12, 12)]) <| .ok (.fnew (gr w 6))
  | 7 => unlessReserved w (zeros w [(6, 6), (18, 6)]) <| .ok (.ffree (gr w 12))
  | 8 => unlessReserved w (zeros w [(18, 6)]) <| .ok (.fstat (gr w 6) (gr w 12))
  | 9 => unlessReserved w (zeros w [(6, 18)]) <| .ok (.chkc)
  | 10 => unlessReserved w (zeros w [(6, 18)]) <| .ok (.yield)
  | 11 => unlessReserved w (zeros w [(6, 6), (18, 6)]) <| .ok (.term (gr w 12))
  | _ => illegalWord w

/-- Major opcode 0x3A: HRET, SEND; the payload of SEND as a pass shifted by `k` names it (R37, R96). A group past g63 goes before a
reserved N (R46). -/
def decOp3A (k w : Nat) : Except DecErr Instr :=
  match fld w 28 4 with
  | 0 => unlessIllegal w (groupOk (windowG k (gr w 18)) (fld w 24 4)) <| unlessReserved w (decide (fld w 24 4 ≤ 8)) <| unlessReserved w (decide (fld w 24 4 ≠ 0) || decide (fld w 18 6 = 0)) <| .ok (.send (gr w 6) (gr w 12) (gr w 18) (Fin.ofNat 9 (fld w 24 4)))
  | 1 => unlessReserved w (zeros w [(6, 22)]) <| .ok (.hret)
  | _ => illegalWord w

/-- Major opcode 0x3B: LAUNCH, FLOOD. -/
def decOp3B (w : Nat) : Except DecErr Instr :=
  match fld w 24 8 with
  | 0 => .ok (.launch (gr w 6) (gr w 12) (gr w 18))
  | 1 => unlessReserved w (zeros w [(6, 6), (18, 6)]) <| .ok (.flood (gr w 12))
  | _ => illegalWord w

/-- Major opcode 0x3C: ERET, START, STOPC, TRAP, SETWP, CTRLW, BANKMODE, CTRLR, PARK. -/
def decOp3C (w : Nat) : Except DecErr Instr :=
  match fld w 24 8 with
  | 0 => unlessReserved w (zeros w [(6, 6)]) <| .ok (.setwp (gr w 12) (gr w 18))
  | 1 => .ok (.start (gr w 6) (gr w 12) (gr w 18))
  | 2 => .ok (.stopc (gr w 6) (gr w 12) (gr w 18))
  | 3 => unlessReserved w (zeros w [(6, 6), (18, 6)]) <| .ok (.trap (gr w 12))
  | 4 => unlessReserved w (zeros w [(6, 18)]) <| .ok (.eret)
  | 5 => unlessReserved w (zeros w [(18, 6)]) <| .ok (.ctrlr (gr w 6) (gr w 12))
  | 6 => unlessReserved w (zeros w [(6, 6)]) <| .ok (.ctrlw (gr w 12) (gr w 18))
  | 7 => unlessReserved w (zeros w [(6, 6)]) <| .ok (.bankmode (gr w 12) (gr w 18))
  | 8 => unlessReserved w (zeros w [(18, 6)]) <| .ok (.park (gr w 6) (gr w 12))
  | _ => illegalWord w

/-- Major opcode 0x3D: FLUSHRES_ALL, SHELFCLOSE_ALL, HSIFT, HMERGE, SHELFCLOSE_DIE, FLUSHRES_RANGE, SHELFPUT, ACC, ACC_BF16, RMERGE. -/
noncomputable def decOp3D (w : Nat) : Except DecErr Instr :=
  match fld w 24 8 with
  | 0 => unlessReserved w (zeros w [(9, 3), (23, 1)]) <| .ok (.acc (gr w 12) (vr w 18) (mr w 6))
  | 1 => unlessReserved w (zeros w [(9, 3), (23, 1)]) <| .ok (.accBf16 (gr w 12) (vr w 18) (mr w 6))
  | 2 => unlessReserved w (zeros w [(11, 1), (23, 1)]) <| .ok (.rmerge (gr w 12) (vr w 18) (mr w 6) (Fin.ofNat 4 (w / 2 ^ 9)))
  | 3 => if fld w 6 1 = 1 then unlessReserved w (zeros w [(7, 17)]) <| .ok (.flushresAll) else unlessReserved w (zeros w [(7, 5)]) <| .ok (.flushresRange (gr w 12) (gr w 18))
  | 4 => .ok (.hsift (gr w 6) (gr w 12) (gr w 18))
  | 5 => .ok (.hmerge (gr w 6) (gr w 12) (gr w 18))
  | 6 => unlessReserved w (zeros w [(6, 6)]) <| .ok (.shelfput (gr w 12) (gr w 18))
  | 7 => if fld w 6 1 = 1 then unlessReserved w (zeros w [(7, 17)]) <| .ok (.shelfcloseAll) else unlessReserved w (zeros w [(7, 5), (18, 6)]) <| .ok (.shelfcloseDie (gr w 12))
  | _ => illegalWord w

/-- A word that is neither a prefix nor the first of a tile command, with the prefix bits before it (R43); `k` is how far the pass of
an active REP has shifted the window of its registers (R96). -/
noncomputable def decodeWord (k : Nat) (pf : List Nat) (w : Nat) : Except DecErr Instr :=
  match w % 64 with
  | 1 => decOp01 w
  | 2 => decOp02 w
  | 3 => decOp03 w
  | 4 => decOp04 w
  | 5 => decOp05 pf w
  | 6 => decOp06 pf w
  | 7 => decOp07 pf w
  | 8 => decOp08 pf w
  | 9 => decOp09 w
  | 10 => decOp0A pf w
  | 11 => decOp0B pf w
  | 12 => decOp0C pf w
  | 13 => decOp0D pf w
  | 14 => decOp0E pf w
  | 16 => decOp10 w
  | 17 => decOp11 w
  | 18 => decOp12 w
  | 24 => decOp18 pf w
  | 25 => decOp19 pf w
  | 26 => decOp1A pf w
  | 27 => decOp1B pf w
  | 28 => decOp1C pf w
  | 29 => decOp1D pf w
  | 30 => decOp1E pf w
  | 31 => decOp1F pf w
  | 32 => decOp20 pf w
  | 33 => decOp21 pf w
  | 34 => decOp22 pf w
  | 35 => decOp23 pf w
  | 36 => decOp24 pf w
  | 37 => decOp25 pf w
  | 38 => decOp26 pf w
  | 39 => decOp27 pf w
  | 40 => decOp28 w
  | 41 => decOp29 w
  | 42 => decOp2A k w
  | 44 => decOp2C w
  | 45 => decOp2D w
  | 46 => decOp2E w
  | 48 => decOp30 w
  | 49 => decOp31 w
  | 50 => decOp32 w
  | 51 => decOp33 w
  | 52 => decOp34 w
  | 53 => decOp35 w
  | 54 => decOp36 pf w
  | 55 => decOp37 pf w
  | 56 => decOp38 k w
  | 57 => decOp39 k w
  | 58 => decOp3A k w
  | 59 => decOp3B w
  | 60 => decOp3C w
  | 61 => decOp3D w
  | _ => illegalWord w

/-- Format RI, which alone takes two prefixes (R39). -/
def opRI (op : Nat) : Bool :=
  (decide (5 ≤ op) && decide (op ≤ 8)) || (decide (10 ≤ op) && decide (op ≤ 14))

/-- A word that R39 lets one prefix precede. -/
def takesPrefix (w : Nat) : Bool :=
  opRI (w % 64) || (decide (24 ≤ w % 64) && decide (w % 64 ≤ 30)) || (decide (w % 64 = 31) && decide (fld w 28 4 < 2)) ||
  (decide (32 ≤ w % 64) && decide (w % 64 ≤ 39)) || decide (w % 64 = 54) || decide (w % 64 = 55)

/-! ### Tile commands (R140 to R166, R250, R251, R257) -/

/-- The completion word: CK 3 and a set GC under CK 0 are reserved (R140). -/
def completionOk (w : Nat) : Bool :=
  zeros w [(8, 24)] && decide (fld w 6 2 ≠ 3) && (decide (fld w 6 2 ≠ 0) || zeros w [(0, 6)])

/-- The completion word's meaning (R140). -/
def completionOf (w : Nat) : Completion :=
  if fld w 6 2 = 1 then .obj (gr w 0) else if fld w 6 2 = 2 then .fut (gr w 0) else .none

/-- DST 3 is reserved, and gX is reserved under DST 0 (R158). -/
def drainDstOf (w0 w1 : Nat) : DrainDst :=
  if fld w0 29 2 = 1 then .fut (gr w1 12) else if fld w0 29 2 = 2 then .hnd (gr w1 12) else .mem

/-- QF with its registers (R160). -/
def quantFmtOf (w2 : Nat) : QuantFmt :=
  if fld w2 0 2 = 0 then .e4m3 else if fld w2 0 2 = 1 then .e5m2 else if fld w2 0 2 = 2 then .e5m2inf
  else .fb4 (gr w2 6) (gr w2 12) (gr w2 18)

/-- The first of the four words that breaks its check is the offending word (R46, R141 step 1). -/
def tileCheck (w0 w1 w2 w3 : Nat) (ok0 ok1 ok2 ok3 : Bool) (i : Instr) : Except DecErr Instr :=
  if !ok0 then .error (.reserved 0 w0) else if !ok1 then .error (.reserved 1 w1)
  else if !ok2 then .error (.reserved 2 w2) else if !ok3 then .error (.reserved 3 w3) else .ok i

/-- A tile command: OP 0x3E in the first word, its TOP code in bits [11:6] (R140). -/
noncomputable def decodeTile (w0 w1 w2 w3 : Nat) : Except DecErr Instr :=
  match fld w0 6 6 with
  | 0 => tileCheck w0 w1 w2 w3 (zeros w0 [(23, 9)]) (zeros w1 [(24, 8)]) (zeros w2 [(0, 32)]) (zeros w3 [(0, 32)]) (.mfmt (fld w0 22 1 == 1) (RoundMode.ofCode (fld w0 20 2)) (Fin.ofNat 16 (w0 / 2 ^ 16)) (Fin.ofNat 16 (w0 / 2 ^ 12)) (gr w1 0) (gr w1 6) (gr w1 12) (gr w1 18))
  | 1 => tileCheck w0 w1 w2 w3 (zeros w0 [(15, 1), (26, 6)] && decide (fld w0 22 2 ≠ 3) && (decide (fld w0 22 2 = 2) || zeros w0 [(24, 2)])) (zeros w1 [(6, 26)]) (zeros w2 [(0, 32)]) (zeros w3 [(0, 32)]) (.malloc (gr w1 0) (Fin.ofNat 8 (w0 / 2 ^ 12)) (Fin.ofNat 8 (w0 / 2 ^ 16)) (Fin.ofNat 8 (w0 / 2 ^ 19)) ((GroupKind.ofCode (fld w0 22 2)).getD .sum) (Fin.ofNat 4 (w0 / 2 ^ 24)))
  | 2 => tileCheck w0 w1 w2 w3 (zeros w0 [(15, 1), (22, 10)]) (zeros w1 [(0, 32)]) (zeros w2 [(0, 32)]) (zeros w3 [(0, 32)]) (.mfree (Fin.ofNat 8 (w0 / 2 ^ 12)) (Fin.ofNat 8 (w0 / 2 ^ 16)) (Fin.ofNat 8 (w0 / 2 ^ 19)))
  | 3 => tileCheck w0 w1 w2 w3 (zeros w0 [(29, 3)]) (zeros w1 [(0, 32)]) (zeros w2 [(0, 32)]) (completionOk w3) (.mzero (Fin.ofNat 8 (w0 / 2 ^ 12)) (Fin.ofNat 128 (w0 / 2 ^ 15)) (Fin.ofNat 128 (w0 / 2 ^ 22)) (completionOf w3))
  | 4 => tileCheck w0 w1 w2 w3 (zeros w0 [(31, 1)]) (zeros w1 [(24, 8)]) (zeros w2 [(0, 32)]) (completionOk w3) (.mma (Fin.ofNat 8 (w0 / 2 ^ 12)) (Fin.ofNat 4 (w0 / 2 ^ 15)) (Fin.ofNat 128 (w0 / 2 ^ 17)) (Fin.ofNat 128 (w0 / 2 ^ 24)) (gr w1 0) (gr w1 6) (gr w1 12) (gr w1 18) (completionOf w3))
  | 5 => tileCheck w0 w1 w2 w3 (zeros w0 [(26, 6)]) (zeros w1 [(24, 8)]) (zeros w2 [(0, 32)]) (completionOk w3) (.gmma (Fin.ofNat 8 (w0 / 2 ^ 12)) (Fin.ofNat 8 (w0 / 2 ^ 15)) (Fin.ofNat 4 (w0 / 2 ^ 18)) (Fin.ofNat 64 (w0 / 2 ^ 20)) (gr w1 0) (gr w1 6) (gr w1 12) (gr w1 18) (completionOf w3))
  | 6 => tileCheck w0 w1 w2 w3 (decide (fld w0 29 2 ≠ 3)) (zeros w1 [(18, 14)] && (decide (fld w0 29 2 ≠ 0) || zeros w1 [(12, 6)])) (zeros w2 [(0, 32)]) (completionOk w3) (.mdrain (Fin.ofNat 8 (w0 / 2 ^ 12)) (Fin.ofNat 128 (w0 / 2 ^ 15)) (Fin.ofNat 128 (w0 / 2 ^ 22)) (fld w0 31 1 == 1) (drainDstOf w0 w1) (gr w1 0) (gr w1 6) (completionOf w3))
  | 7 => tileCheck w0 w1 w2 w3 (zeros w0 [(31, 1)] && decide (fld w0 29 2 ≠ 3)) (zeros w1 [(18, 14)] && (decide (fld w0 29 2 ≠ 0) || zeros w1 [(12, 6)])) (zeros w2 [(2, 4), (24, 8)] && (decide (fld w2 0 2 = 3) || zeros w2 [(6, 18)])) (completionOk w3) (.mquant (Fin.ofNat 8 (w0 / 2 ^ 12)) (Fin.ofNat 128 (w0 / 2 ^ 15)) (Fin.ofNat 128 (w0 / 2 ^ 22)) (drainDstOf w0 w1) (quantFmtOf w2) (gr w1 0) (gr w1 6) (completionOf w3))
  | 8 => tileCheck w0 w1 w2 w3 (zeros w0 [(12, 20)]) (zeros w1 [(0, 32)]) (zeros w2 [(0, 32)]) (zeros w3 [(0, 32)]) (.msync)
  | 9 => tileCheck w0 w1 w2 w3 true (zeros w1 [(20, 12)]) (zeros w2 [(0, 32)]) (completionOk w3) (.mrank (Fin.ofNat 8 (w0 / 2 ^ 29)) (Fin.ofNat 8 (w0 / 2 ^ 12)) (Fin.ofNat 128 (w0 / 2 ^ 15)) (Fin.ofNat 128 (w0 / 2 ^ 22)) (Fin.ofNat 128 (w1 / 2 ^ 6)) (Fin.ofNat 128 (w1 / 2 ^ 13)) (gr w1 0) (completionOf w3))
  | 10 => tileCheck w0 w1 w2 w3 (zeros w0 [(22, 10)]) (zeros w1 [(5, 1), (12, 20)]) (zeros w2 [(0, 32)]) (completionOk w3) (.mthr (Fin.ofNat 128 (w0 / 2 ^ 15)) (Fin.ofNat 8 (w0 / 2 ^ 12)) (gr w1 6) (vr w1 0) (completionOf w3))
  | 11 => tileCheck w0 w1 w2 w3 (zeros w0 [(30, 2)]) (zeros w1 [(12, 20)]) (zeros w2 [(0, 32)]) (completionOk w3) (.acct (Fin.ofNat 8 (w0 / 2 ^ 12)) (Fin.ofNat 128 (w0 / 2 ^ 15)) (Fin.ofNat 128 (w0 / 2 ^ 22)) (fld w0 29 1 == 1) (gr w1 0) (gr w1 6) (completionOf w3))
  | 16 => tileCheck w0 w1 w2 w3 (zeros w0 [(12, 20)]) (zeros w1 [(6, 26)]) (zeros w2 [(0, 32)]) (completionOk w3) (.tcopy (gr w1 0) (completionOf w3))
  | 17 => tileCheck w0 w1 w2 w3 (zeros w0 [(12, 20)]) (zeros w1 [(24, 8)]) (zeros w2 [(18, 14)]) (completionOk w3) (.tgather (gr w1 0) (gr w1 6) (gr w1 12) (gr w1 18) (gr w2 0) (gr w2 6) (gr w2 12) (completionOf w3))
  | 18 => tileCheck w0 w1 w2 w3 (zeros w0 [(12, 20)]) (zeros w1 [(24, 8)]) (zeros w2 [(18, 14)]) (completionOk w3) (.tscatter (gr w1 0) (gr w1 6) (gr w1 12) (gr w1 18) (gr w2 0) (gr w2 6) (gr w2 12) (completionOf w3))
  | 19 => tileCheck w0 w1 w2 w3 (zeros w0 [(12, 20)]) (zeros w1 [(24, 8)]) (zeros w2 [(0, 32)]) (completionOk w3) (.tmcast (gr w1 0) (gr w1 6) (gr w1 12) (gr w1 18) (completionOf w3))
  | 20 => tileCheck w0 w1 w2 w3 (zeros w0 [(14, 18)]) (zeros w1 [(18, 14)]) (zeros w2 [(0, 32)]) (completionOk w3) (.tfill (Fin.ofNat 4 (w0 / 2 ^ 12)) (gr w1 0) (gr w1 6) (gr w1 12) (completionOf w3))
  | _ => .error (.illegal 0 w0)

/-! ### Whole instructions -/

/-- How many words the instruction that begins with these words has, as far as they tell (R33, R39, R40). -/
def wordsNeeded (ws : List Nat) : Nat :=
  match ws with
  | [] => 1
  | w0 :: r =>
    if w0 % 64 = 62 then 4
    else if w0 % 64 = 63 then
      match r with
      | [] => 2
      | w1 :: _ => if w1 % 64 = 63 then 3 else 2
    else 1

/-- A prefixed instruction (R39, R40): the P bits of the prefixes, then the word they precede. A prefix before a word that takes none
is prefix misuse, whose word is the first prefix (R46), also where the word's own opcode or SUB is unassigned: which of the two words
CX.AUX then holds the specification does not say (DESIGN CHOICE, log entry 106). -/
noncomputable def decodePrefixed (k w0 : Nat) (r : List Nat) : Except DecErr (Instr × Nat) :=
  match r with
  | [] => .error .truncated
  | w1 :: r1 =>
    if w1 % 64 = 63 then
      match r1 with
      | [] => .error .truncated
      | w2 :: _ =>
        if !opRI (w2 % 64) then .error (.illegal 0 w0)
        else if !zeros w0 [(30, 2)] then .error (.reserved 0 w0)
        else (decodeWord k [fld w0 6 26, fld w1 6 26] w2).map (·, 3)
    else if !takesPrefix w1 then .error (.illegal 0 w0)
    else (decodeWord k [fld w0 6 26] w1).map (·, 2)

/-- The instruction that begins with these words, and how many of them it has (R33, R46 steps 2 and 3), in the body of a REP whose
pass has shifted the window by `k` (R96). -/
noncomputable def decodeWordsIn (k : Nat) (ws : List Nat) : Except DecErr (Instr × Nat) :=
  match ws with
  | [] => .error .truncated
  | w0 :: r =>
    if w0 % 64 = 63 then decodePrefixed k w0 r
    else if w0 % 64 = 62 then
      match r with
      | w1 :: w2 :: w3 :: _ => (decodeTile w0 w1 w2 w3).map (·, 4)
      | _ => .error .truncated
    else (decodeWord k [] w0).map (·, 1)

/-- The same outside a body. -/
noncomputable def decodeWords (ws : List Nat) : Except DecErr (Instr × Nat) := decodeWordsIn 0 ws

/-- The first `n` words of a list of bytes, each little-endian (R33). -/
def wordsOfBytes : Nat → List Byte → List Nat
  | 0, _ => []
  | n + 1, b0 :: b1 :: b2 :: b3 :: r =>
    (b0.toNat + b1.toNat * 2 ^ 8 + b2.toNat * 2 ^ 16 + b3.toNat * 2 ^ 24) :: wordsOfBytes n r
  | _ + 1, _ => []

/-- The four bytes of a word, the lowest address first (R33). -/
def bytesOfWord (w : Nat) : List Byte :=
  [BitVec.ofNat 8 w, BitVec.ofNat 8 (w / 2 ^ 8), BitVec.ofNat 8 (w / 2 ^ 16), BitVec.ofNat 8 (w / 2 ^ 24)]

/-- The instruction at the head of a list of bytes, with the bytes that follow it. -/
noncomputable def decodeBytes (bs : List Byte) : Except DecErr (Instr × List Byte) :=
  (decodeWords (wordsOfBytes 4 bs)).map fun p => (p.1, bs.drop (4 * p.2))

/-! ### The encoder -/

/-- The X words of an immediate (R35, R39). -/
def prefixWords (base : Nat) (i : Imm) : List Nat := (i.prefixes base).map fun p => 63 + p * 2 ^ 6

/-- The completion word of a tile command (R140). -/
def Completion.word : Completion → Nat
  | .none => 0
  | .obj g => 1 * 2 ^ 6 + g.val
  | .fut g => 2 * 2 ^ 6 + g.val

/-- DST (R158). -/
def DrainDst.code : DrainDst → Nat
  | .mem => 0 | .fut _ => 1 | .hnd _ => 2
/-- gX (R158). -/
def DrainDst.reg : DrainDst → Nat
  | .mem => 0 | .fut x => x.val | .hnd x => x.val
/-- Word 2 of MQUANT (R160). -/
def QuantFmt.word : QuantFmt → Nat
  | .e4m3 => 0 | .e5m2 => 1 | .e5m2inf => 2
  | .fb4 s b d => 3 + s.val * 2 ^ 6 + b.val * 2 ^ 12 + d.val * 2 ^ 18

/-- A word from its fixed bits and its fields, each a value and its low bit. -/
def packWord (fixed : Nat) (fs : List (Nat × Nat)) : Nat := fs.foldl (fun w f => w + f.1 * 2 ^ f.2) fixed

/-- A Boolean field. -/
def bit (b : Bool) : Nat := if b then 1 else 0

/-- The words of an instruction, the first at the lowest address; a step of another agent has none. -/
def encode : Instr → List Nat
  | .add d a b => [packWord 1 [(d.val, 6), (a.val, 12), (b.val, 18)]]
  | .sub d a b => [packWord 16777217 [(d.val, 6), (a.val, 12), (b.val, 18)]]
  | .and d a b => [packWord 33554433 [(d.val, 6), (a.val, 12), (b.val, 18)]]
  | .or d a b => [packWord 50331649 [(d.val, 6), (a.val, 12), (b.val, 18)]]
  | .xor d a b => [packWord 67108865 [(d.val, 6), (a.val, 12), (b.val, 18)]]
  | .andn d a b => [packWord 83886081 [(d.val, 6), (a.val, 12), (b.val, 18)]]
  | .shl d a b => [packWord 100663297 [(d.val, 6), (a.val, 12), (b.val, 18)]]
  | .shr d a b => [packWord 117440513 [(d.val, 6), (a.val, 12), (b.val, 18)]]
  | .sra d a b => [packWord 134217729 [(d.val, 6), (a.val, 12), (b.val, 18)]]
  | .rol d a b => [packWord 150994945 [(d.val, 6), (a.val, 12), (b.val, 18)]]
  | .ror d a b => [packWord 167772161 [(d.val, 6), (a.val, 12), (b.val, 18)]]
  | .min d a b => [packWord 184549377 [(d.val, 6), (a.val, 12), (b.val, 18)]]
  | .max d a b => [packWord 201326593 [(d.val, 6), (a.val, 12), (b.val, 18)]]
  | .minu d a b => [packWord 218103809 [(d.val, 6), (a.val, 12), (b.val, 18)]]
  | .maxu d a b => [packWord 234881025 [(d.val, 6), (a.val, 12), (b.val, 18)]]
  | .mul d a b => [packWord 2 [(d.val, 6), (a.val, 12), (b.val, 18)]]
  | .mulh d a b => [packWord 16777218 [(d.val, 6), (a.val, 12), (b.val, 18)]]
  | .mulhu d a b => [packWord 33554434 [(d.val, 6), (a.val, 12), (b.val, 18)]]
  | .div d a b => [packWord 50331650 [(d.val, 6), (a.val, 12), (b.val, 18)]]
  | .divu d a b => [packWord 67108866 [(d.val, 6), (a.val, 12), (b.val, 18)]]
  | .rem d a b => [packWord 83886082 [(d.val, 6), (a.val, 12), (b.val, 18)]]
  | .remu d a b => [packWord 100663298 [(d.val, 6), (a.val, 12), (b.val, 18)]]
  | .cmpeq d a b => [packWord 3 [(d.val, 6), (a.val, 12), (b.val, 18)]]
  | .cmpne d a b => [packWord 16777219 [(d.val, 6), (a.val, 12), (b.val, 18)]]
  | .cmplt d a b => [packWord 33554435 [(d.val, 6), (a.val, 12), (b.val, 18)]]
  | .cmpltu d a b => [packWord 50331651 [(d.val, 6), (a.val, 12), (b.val, 18)]]
  | .cmple d a b => [packWord 67108867 [(d.val, 6), (a.val, 12), (b.val, 18)]]
  | .cmpleu d a b => [packWord 83886083 [(d.val, 6), (a.val, 12), (b.val, 18)]]
  | .cmovz d a b => [packWord 100663299 [(d.val, 6), (a.val, 12), (b.val, 18)]]
  | .cmovnz d a b => [packWord 117440515 [(d.val, 6), (a.val, 12), (b.val, 18)]]
  | .clz d a => [packWord 4 [(d.val, 6), (a.val, 12)]]
  | .ctz d a => [packWord 16777220 [(d.val, 6), (a.val, 12)]]
  | .popc d a => [packWord 33554436 [(d.val, 6), (a.val, 12)]]
  | .brev d a => [packWord 50331652 [(d.val, 6), (a.val, 12)]]
  | .bswap d a => [packWord 67108868 [(d.val, 6), (a.val, 12)]]
  | .sextb d a => [packWord 83886084 [(d.val, 6), (a.val, 12)]]
  | .sexth d a => [packWord 100663300 [(d.val, 6), (a.val, 12)]]
  | .sextw d a => [packWord 117440516 [(d.val, 6), (a.val, 12)]]
  | .zextb d a => [packWord 134217732 [(d.val, 6), (a.val, 12)]]
  | .zexth d a => [packWord 150994948 [(d.val, 6), (a.val, 12)]]
  | .zextw d a => [packWord 167772164 [(d.val, 6), (a.val, 12)]]
  | .bext d a b => [packWord 184549380 [(d.val, 6), (a.val, 12), (b.val, 18)]]
  | .bins d a b => [packWord 201326596 [(d.val, 6), (a.val, 12), (b.val, 18)]]
  | .addi d a imm => prefixWords 14 imm ++ [packWord 5 [(d.val, 6), (a.val, 12), (imm.field 14, 18)]]
  | .andi d a imm => prefixWords 14 imm ++ [packWord 6 [(d.val, 6), (a.val, 12), (imm.field 14, 18)]]
  | .ori d a imm => prefixWords 14 imm ++ [packWord 7 [(d.val, 6), (a.val, 12), (imm.field 14, 18)]]
  | .xori d a imm => prefixWords 14 imm ++ [packWord 8 [(d.val, 6), (a.val, 12), (imm.field 14, 18)]]
  | .cmpeqi d a imm => prefixWords 14 imm ++ [packWord 10 [(d.val, 6), (a.val, 12), (imm.field 14, 18)]]
  | .cmplti d a imm => prefixWords 14 imm ++ [packWord 11 [(d.val, 6), (a.val, 12), (imm.field 14, 18)]]
  | .cmpltui d a imm => prefixWords 14 imm ++ [packWord 12 [(d.val, 6), (a.val, 12), (imm.field 14, 18)]]
  | .addpc d imm => prefixWords 14 imm ++ [packWord 13 [(d.val, 6), (imm.field 14, 18)]]
  | .muli d a imm => prefixWords 14 imm ++ [packWord 14 [(d.val, 6), (a.val, 12), (imm.field 14, 18)]]
  | .shli d a sh => [packWord 9 [(d.val, 6), (a.val, 12), (sh.val, 18)]]
  | .shri d a sh => [packWord 1073741833 [(d.val, 6), (a.val, 12), (sh.val, 18)]]
  | .srai d a sh => [packWord 2147483657 [(d.val, 6), (a.val, 12), (sh.val, 18)]]
  | .rori d a sh => [packWord 3221225481 [(d.val, 6), (a.val, 12), (sh.val, 18)]]
  | .fadd d a b => [packWord 16 [(d.val, 6), (a.val, 12), (b.val, 18)]]
  | .fsub d a b => [packWord 16777232 [(d.val, 6), (a.val, 12), (b.val, 18)]]
  | .fmul d a b => [packWord 33554448 [(d.val, 6), (a.val, 12), (b.val, 18)]]
  | .fdiv d a b => [packWord 50331664 [(d.val, 6), (a.val, 12), (b.val, 18)]]
  | .fmadd d a b => [packWord 67108880 [(d.val, 6), (a.val, 12), (b.val, 18)]]
  | .fmsub d a b => [packWord 83886096 [(d.val, 6), (a.val, 12), (b.val, 18)]]
  | .fmin d a b => [packWord 100663312 [(d.val, 6), (a.val, 12), (b.val, 18)]]
  | .fmax d a b => [packWord 117440528 [(d.val, 6), (a.val, 12), (b.val, 18)]]
  | .fsqrt d a => [packWord 134217744 [(d.val, 6), (a.val, 12)]]
  | .fabs d a => [packWord 150994960 [(d.val, 6), (a.val, 12)]]
  | .fneg d a => [packWord 167772176 [(d.val, 6), (a.val, 12)]]
  | .fcopys d a b => [packWord 184549392 [(d.val, 6), (a.val, 12), (b.val, 18)]]
  | .fcmpeq d a b => [packWord 17 [(d.val, 6), (a.val, 12), (b.val, 18)]]
  | .fcmplt d a b => [packWord 16777233 [(d.val, 6), (a.val, 12), (b.val, 18)]]
  | .fcmple d a b => [packWord 33554449 [(d.val, 6), (a.val, 12), (b.val, 18)]]
  | .fcmpun d a b => [packWord 50331665 [(d.val, 6), (a.val, 12), (b.val, 18)]]
  | .fclass d a => [packWord 67108881 [(d.val, 6), (a.val, 12)]]
  | .itof d a rc => [packWord 18 [(d.val, 6), (a.val, 12), (rc.code, 18)]]
  | .utof d a rc => [packWord 16777234 [(d.val, 6), (a.val, 12), (rc.code, 18)]]
  | .ftoi d a rc => [packWord 33554450 [(d.val, 6), (a.val, 12), (rc.code, 18)]]
  | .ftou d a rc => [packWord 50331666 [(d.val, 6), (a.val, 12), (rc.code, 18)]]
  | .ftobf d a rc => [packWord 67108882 [(d.val, 6), (a.val, 12), (rc.code, 18)]]
  | .bftof d a rc => [packWord 83886098 [(d.val, 6), (a.val, 12), (rc.code, 18)]]
  | .ftoe4 d a rc => [packWord 100663314 [(d.val, 6), (a.val, 12), (rc.code, 18)]]
  | .e4tof d a rc => [packWord 117440530 [(d.val, 6), (a.val, 12), (rc.code, 18)]]
  | .ftoe5 d a rc inf => [packWord 134217746 [(d.val, 6), (a.val, 12), (rc.code, 18), (bit inf, 21)]]
  | .e5tof d a rc => [packWord 150994962 [(d.val, 6), (a.val, 12), (rc.code, 18)]]
  | .ftoe2 d a rc => [packWord 167772178 [(d.val, 6), (a.val, 12), (rc.code, 18)]]
  | .e2tof d a rc => [packWord 184549394 [(d.val, 6), (a.val, 12), (rc.code, 18)]]
  | .beq a b imm => prefixWords 14 imm ++ [packWord 24 [(a.val, 6), (b.val, 12), (imm.field 14, 18)]]
  | .bne a b imm => prefixWords 14 imm ++ [packWord 25 [(a.val, 6), (b.val, 12), (imm.field 14, 18)]]
  | .blt a b imm => prefixWords 14 imm ++ [packWord 26 [(a.val, 6), (b.val, 12), (imm.field 14, 18)]]
  | .bge a b imm => prefixWords 14 imm ++ [packWord 27 [(a.val, 6), (b.val, 12), (imm.field 14, 18)]]
  | .bltu a b imm => prefixWords 14 imm ++ [packWord 28 [(a.val, 6), (b.val, 12), (imm.field 14, 18)]]
  | .bgeu a b imm => prefixWords 14 imm ++ [packWord 29 [(a.val, 6), (b.val, 12), (imm.field 14, 18)]]
  | .jal d imm => prefixWords 20 imm ++ [packWord 30 [(d.val, 6), (imm.field 20, 12)]]
  | .jalr d a imm => prefixWords 10 imm ++ [packWord 31 [(d.val, 6), (a.val, 12), (imm.field 10, 18)]]
  | .loopnz d imm => prefixWords 10 imm ++ [packWord 268435487 [(d.val, 6), (imm.field 10, 18)]]
  | .rep a stride len => [packWord 536870943 [(a.val, 12), (stride.val, 22), (len.val, 18)]]
  | .repi count stride len => [packWord 805306399 [(count.val, 6), (stride.val, 22), (len.val, 18)]]
  | .ldb d a off h w => prefixWords 10 off ++ [packWord 32 [(d.val, 6), (a.val, 12), (off.field 10, 22), (h.code, 20), (w.code, 18)]]
  | .ldh d a off h w => prefixWords 10 off ++ [packWord 33 [(d.val, 6), (a.val, 12), (off.field 10, 22), (h.code, 20), (w.code, 18)]]
  | .ldw d a off h w => prefixWords 10 off ++ [packWord 34 [(d.val, 6), (a.val, 12), (off.field 10, 22), (h.code, 20), (w.code, 18)]]
  | .ldd d a off h w => prefixWords 10 off ++ [packWord 35 [(d.val, 6), (a.val, 12), (off.field 10, 22), (h.code, 20), (w.code, 18)]]
  | .pref a off stream w => prefixWords 10 off ++ [packWord 35 [(a.val, 12), (off.field 10, 22), (bit stream, 21), (w.code, 18)]]
  | .stb d a off h w => prefixWords 10 off ++ [packWord 36 [(d.val, 6), (a.val, 12), (off.field 10, 22), (h.code, 20), (w.code, 18)]]
  | .sth d a off h w => prefixWords 10 off ++ [packWord 37 [(d.val, 6), (a.val, 12), (off.field 10, 22), (h.code, 20), (w.code, 18)]]
  | .stw d a off h w => prefixWords 10 off ++ [packWord 38 [(d.val, 6), (a.val, 12), (off.field 10, 22), (h.code, 20), (w.code, 18)]]
  | .std d a off h w => prefixWords 10 off ++ [packWord 39 [(d.val, 6), (a.val, 12), (off.field 10, 22), (h.code, 20), (w.code, 18)]]
  | .stn a b hi rel w => [packWord 33554474 [(a.val, 12), (b.val, 18), (bit hi, 6), (bit rel, 29), (w.code, 30)]]
  | .axchg d a b acq rel w => [packWord 40 [(d.val, 6), (a.val, 12), (b.val, 18), (bit acq, 28), (bit rel, 29), (w.code, 30)]]
  | .aadd d a b acq rel w => [packWord 16777256 [(d.val, 6), (a.val, 12), (b.val, 18), (bit acq, 28), (bit rel, 29), (w.code, 30)]]
  | .aand d a b acq rel w => [packWord 33554472 [(d.val, 6), (a.val, 12), (b.val, 18), (bit acq, 28), (bit rel, 29), (w.code, 30)]]
  | .aor d a b acq rel w => [packWord 50331688 [(d.val, 6), (a.val, 12), (b.val, 18), (bit acq, 28), (bit rel, 29), (w.code, 30)]]
  | .axor d a b acq rel w => [packWord 67108904 [(d.val, 6), (a.val, 12), (b.val, 18), (bit acq, 28), (bit rel, 29), (w.code, 30)]]
  | .amin d a b acq rel w => [packWord 83886120 [(d.val, 6), (a.val, 12), (b.val, 18), (bit acq, 28), (bit rel, 29), (w.code, 30)]]
  | .amax d a b acq rel w => [packWord 100663336 [(d.val, 6), (a.val, 12), (b.val, 18), (bit acq, 28), (bit rel, 29), (w.code, 30)]]
  | .aminu d a b acq rel w => [packWord 117440552 [(d.val, 6), (a.val, 12), (b.val, 18), (bit acq, 28), (bit rel, 29), (w.code, 30)]]
  | .amaxu d a b acq rel w => [packWord 134217768 [(d.val, 6), (a.val, 12), (b.val, 18), (bit acq, 28), (bit rel, 29), (w.code, 30)]]
  | .afadd d a b acq rel w => [packWord 150994984 [(d.val, 6), (a.val, 12), (b.val, 18), (bit acq, 28), (bit rel, 29), (w.code, 30)]]
  | .axchgPost a b rel w => [packWord 41 [(a.val, 12), (b.val, 18), (bit rel, 29), (w.code, 30)]]
  | .aaddPost a b rel w => [packWord 16777257 [(a.val, 12), (b.val, 18), (bit rel, 29), (w.code, 30)]]
  | .aandPost a b rel w => [packWord 33554473 [(a.val, 12), (b.val, 18), (bit rel, 29), (w.code, 30)]]
  | .aorPost a b rel w => [packWord 50331689 [(a.val, 12), (b.val, 18), (bit rel, 29), (w.code, 30)]]
  | .axorPost a b rel w => [packWord 67108905 [(a.val, 12), (b.val, 18), (bit rel, 29), (w.code, 30)]]
  | .aminPost a b rel w => [packWord 83886121 [(a.val, 12), (b.val, 18), (bit rel, 29), (w.code, 30)]]
  | .amaxPost a b rel w => [packWord 100663337 [(a.val, 12), (b.val, 18), (bit rel, 29), (w.code, 30)]]
  | .aminuPost a b rel w => [packWord 117440553 [(a.val, 12), (b.val, 18), (bit rel, 29), (w.code, 30)]]
  | .amaxuPost a b rel w => [packWord 134217769 [(a.val, 12), (b.val, 18), (bit rel, 29), (w.code, 30)]]
  | .afaddPost a b rel w => [packWord 150994985 [(a.val, 12), (b.val, 18), (bit rel, 29), (w.code, 30)]]
  | .cas d a b acq rel w => [packWord 42 [(d.val, 6), (a.val, 12), (b.val, 18), (bit acq, 28), (bit rel, 29), (w.code, 30)]]
  | .casp d a b acq rel w => [packWord 16777258 [(d.val, 6), (a.val, 12), (b.val, 18), (bit acq, 28), (bit rel, 29), (w.code, 30)]]
  | .wait at_ tl cp sg sn => [packWord 44 [(at_.val, 26), (tl.val, 21), (cp.val, 16), (sg.val, 11), (sn.val, 6)]]
  | .fence scope => [packWord 45 [(scope.code, 6)]]
  | .cwait d a => [packWord 16777261 [(d.val, 6), (a.val, 12)]]
  | .bararm lvl obj a => [packWord 46 [(lvl.code, 22), (obj.val, 18), (a.val, 12)]]
  | .barrive lvl obj d => [packWord 16777262 [(lvl.code, 22), (obj.val, 18), (d.val, 6)]]
  | .barwait lvl obj a => [packWord 33554478 [(lvl.code, 22), (obj.val, 18), (a.val, 12)]]
  | .barq lvl obj d => [packWord 50331694 [(lvl.code, 22), (obj.val, 18), (d.val, 6)]]
  | .vfadd d a b m => [packWord 48 [(d.val, 6), (a.val, 11), (b.val, 16), (m.val, 21)]]
  | .vfsub d a b m => [packWord 16777264 [(d.val, 6), (a.val, 11), (b.val, 16), (m.val, 21)]]
  | .vfmul d a b m => [packWord 33554480 [(d.val, 6), (a.val, 11), (b.val, 16), (m.val, 21)]]
  | .vfdiv d a b m => [packWord 50331696 [(d.val, 6), (a.val, 11), (b.val, 16), (m.val, 21)]]
  | .vfma d a b m => [packWord 67108912 [(d.val, 6), (a.val, 11), (b.val, 16), (m.val, 21)]]
  | .vfms d a b m => [packWord 83886128 [(d.val, 6), (a.val, 11), (b.val, 16), (m.val, 21)]]
  | .vfmin d a b m => [packWord 100663344 [(d.val, 6), (a.val, 11), (b.val, 16), (m.val, 21)]]
  | .vfmax d a b m => [packWord 117440560 [(d.val, 6), (a.val, 11), (b.val, 16), (m.val, 21)]]
  | .vfabs d a m => [packWord 134217776 [(d.val, 6), (a.val, 11), (m.val, 21)]]
  | .vfneg d a m => [packWord 150994992 [(d.val, 6), (a.val, 11), (m.val, 21)]]
  | .vfsqrt d a m => [packWord 167772208 [(d.val, 6), (a.val, 11), (m.val, 21)]]
  | .vfrcp d a m => [packWord 184549424 [(d.val, 6), (a.val, 11), (m.val, 21)]]
  | .vfrsq d a m => [packWord 201326640 [(d.val, 6), (a.val, 11), (m.val, 21)]]
  | .vfexp2 d a m => [packWord 218103856 [(d.val, 6), (a.val, 11), (m.val, 21)]]
  | .vflog2 d a m => [packWord 234881072 [(d.val, 6), (a.val, 11), (m.val, 21)]]
  | .vbfma d a b m => [packWord 268435504 [(d.val, 6), (a.val, 11), (b.val, 16), (m.val, 21)]]
  | .vadd d a b m => [packWord 49 [(d.val, 6), (a.val, 11), (b.val, 16), (m.val, 21)]]
  | .vsub d a b m => [packWord 16777265 [(d.val, 6), (a.val, 11), (b.val, 16), (m.val, 21)]]
  | .vmul d a b m => [packWord 33554481 [(d.val, 6), (a.val, 11), (b.val, 16), (m.val, 21)]]
  | .vmulh d a b m => [packWord 50331697 [(d.val, 6), (a.val, 11), (b.val, 16), (m.val, 21)]]
  | .vmin d a b m => [packWord 67108913 [(d.val, 6), (a.val, 11), (b.val, 16), (m.val, 21)]]
  | .vmax d a b m => [packWord 83886129 [(d.val, 6), (a.val, 11), (b.val, 16), (m.val, 21)]]
  | .vminu d a b m => [packWord 100663345 [(d.val, 6), (a.val, 11), (b.val, 16), (m.val, 21)]]
  | .vmaxu d a b m => [packWord 117440561 [(d.val, 6), (a.val, 11), (b.val, 16), (m.val, 21)]]
  | .vand d a b m => [packWord 134217777 [(d.val, 6), (a.val, 11), (b.val, 16), (m.val, 21)]]
  | .vor d a b m => [packWord 150994993 [(d.val, 6), (a.val, 11), (b.val, 16), (m.val, 21)]]
  | .vxor d a b m => [packWord 167772209 [(d.val, 6), (a.val, 11), (b.val, 16), (m.val, 21)]]
  | .vshl d a b m => [packWord 184549425 [(d.val, 6), (a.val, 11), (b.val, 16), (m.val, 21)]]
  | .vshr d a b m => [packWord 201326641 [(d.val, 6), (a.val, 11), (b.val, 16), (m.val, 21)]]
  | .vsra d a b m => [packWord 218103857 [(d.val, 6), (a.val, 11), (b.val, 16), (m.val, 21)]]
  | .vadds d a b m => [packWord 234881073 [(d.val, 6), (a.val, 11), (b.val, 16), (m.val, 21)]]
  | .vsubs d a b m => [packWord 251658289 [(d.val, 6), (a.val, 11), (b.val, 16), (m.val, 21)]]
  | .vfcmpeq d a b m => [packWord 50 [(d.val, 6), (a.val, 11), (b.val, 16), (m.val, 21)]]
  | .vfcmplt d a b m => [packWord 16777266 [(d.val, 6), (a.val, 11), (b.val, 16), (m.val, 21)]]
  | .vfcmple d a b m => [packWord 33554482 [(d.val, 6), (a.val, 11), (b.val, 16), (m.val, 21)]]
  | .vcmpeq d a b m => [packWord 50331698 [(d.val, 6), (a.val, 11), (b.val, 16), (m.val, 21)]]
  | .vcmplt d a b m => [packWord 67108914 [(d.val, 6), (a.val, 11), (b.val, 16), (m.val, 21)]]
  | .vcmpltu d a b m => [packWord 83886130 [(d.val, 6), (a.val, 11), (b.val, 16), (m.val, 21)]]
  | .vsel d a b m => [packWord 134217778 [(d.val, 6), (a.val, 11), (b.val, 16), (m.val, 21)]]
  | .mand d a b => [packWord 150994994 [(d.val, 6), (a.val, 11), (b.val, 16)]]
  | .mor d a b => [packWord 167772210 [(d.val, 6), (a.val, 11), (b.val, 16)]]
  | .mxor d a b => [packWord 184549426 [(d.val, 6), (a.val, 11), (b.val, 16)]]
  | .mnot d a => [packWord 201326642 [(d.val, 6), (a.val, 11)]]
  | .vperm d a b m => [packWord 51 [(d.val, 6), (a.val, 11), (b.val, 16), (m.val, 21)]]
  | .vrotl d a b m => [packWord 16777267 [(d.val, 6), (a.val, 11), (b.val, 16), (m.val, 21)]]
  | .vziplo d a b m => [packWord 33554483 [(d.val, 6), (a.val, 11), (b.val, 16), (m.val, 21)]]
  | .vziphi d a b m => [packWord 50331699 [(d.val, 6), (a.val, 11), (b.val, 16), (m.val, 21)]]
  | .vcvtif d a m => [packWord 134217779 [(d.val, 6), (a.val, 11), (m.val, 21)]]
  | .vcvtfi d a m => [packWord 150994995 [(d.val, 6), (a.val, 11), (m.val, 21)]]
  | .vcvtfbf d a b m => [packWord 167772211 [(d.val, 6), (a.val, 11), (b.val, 16), (m.val, 21)]]
  | .vcvtbff d a m => [packWord 184549427 [(d.val, 6), (a.val, 11), (m.val, 21)]]
  | .vcvtfe4 d a m => [packWord 201326643 [(d.val, 6), (a.val, 11), (m.val, 21)]]
  | .vcvtfe5 d a m => [packWord 218103859 [(d.val, 6), (a.val, 11), (m.val, 21)]]
  | .vcvtfb4 d a b m => [packWord 234881075 [(d.val, 6), (a.val, 11), (b.val, 16), (m.val, 21)]]
  | .vcvte4f d a m => [packWord 251658291 [(d.val, 6), (a.val, 11), (m.val, 21)]]
  | .vcvte5f d a m => [packWord 268435507 [(d.val, 6), (a.val, 11), (m.val, 21)]]
  | .vcvtfe5Inf d a m => [packWord 285212723 [(d.val, 6), (a.val, 11), (m.val, 21)]]
  | .vredadd d a m => [packWord 52 [(d.val, 6), (a.val, 11), (m.val, 21)]]
  | .vredfadd d a m => [packWord 16777268 [(d.val, 6), (a.val, 11), (m.val, 21)]]
  | .vredfmax d a m => [packWord 33554484 [(d.val, 6), (a.val, 11), (m.val, 21)]]
  | .vredfmin d a m => [packWord 50331700 [(d.val, 6), (a.val, 11), (m.val, 21)]]
  | .vscan d a m => [packWord 67108916 [(d.val, 6), (a.val, 11), (m.val, 21)]]
  | .vscanf d a m => [packWord 83886132 [(d.val, 6), (a.val, 11), (m.val, 21)]]
  | .vscanx d a m => [packWord 100663348 [(d.val, 6), (a.val, 11), (m.val, 21)]]
  | .vprune d a b m => [packWord 134217780 [(d.val, 6), (a.val, 11), (b.val, 16), (m.val, 21)]]
  | .vbcast d a m => [packWord 53 [(d.val, 6), (a.val, 12), (m.val, 29)]]
  | .vextr d a b => [packWord 16777269 [(d.val, 6), (a.val, 12), (b.val, 18)]]
  | .vinsr d a b => [packWord 33554485 [(d.val, 6), (a.val, 12), (b.val, 18)]]
  | .vgath d a b m => [packWord 50331701 [(d.val, 6), (a.val, 12), (b.val, 18), (m.val, 29)]]
  | .vscat d a b m => [packWord 67108917 [(d.val, 6), (a.val, 12), (b.val, 18), (m.val, 29)]]
  | .mtog d a => [packWord 83886133 [(d.val, 6), (a.val, 12)]]
  | .gtom d a => [packWord 100663349 [(d.val, 6), (a.val, 12)]]
  | .vld d a off h w => prefixWords 10 off ++ [packWord 54 [(d.val, 6), (a.val, 12), (off.field 10, 22), (h.code, 20), (w.code, 18)]]
  | .vst d a off h w => prefixWords 10 off ++ [packWord 55 [(d.val, 6), (a.val, 12), (off.field 10, 22), (h.code, 20), (w.code, 18)]]
  | .spawn d a b plc pri twin rst => [packWord 56 [(d.val, 6), (a.val, 12), (b.val, 18), (plc.code, 29), (pri.val, 27), (bit twin, 26), (bit rst, 25)]]
  | .spawnt d a b plc pri twin rst => [packWord 16777272 [(d.val, 6), (a.val, 12), (b.val, 18), (plc.code, 29), (pri.val, 27), (bit twin, 26), (bit rst, 25)]]
  | .callat d a b pri => [packWord 2147483704 [(d.val, 6), (a.val, 12), (b.val, 18), (pri.val, 27)]]
  | .touch d a => [packWord 57 [(d.val, 6), (a.val, 12)]]
  | .ttouch d a => [packWord 16777273 [(d.val, 6), (a.val, 12)]]
  | .resolve d a b => [packWord 33554489 [(d.val, 6), (a.val, 12), (b.val, 18)]]
  | .poison d a b => [packWord 50331705 [(d.val, 6), (a.val, 12), (b.val, 18)]]
  | .cancel d a => [packWord 67108921 [(d.val, 6), (a.val, 12)]]
  | .cancelTree d a => [packWord 83886137 [(d.val, 6), (a.val, 12)]]
  | .fnew d => [packWord 100663353 [(d.val, 6)]]
  | .ffree a => [packWord 117440569 [(a.val, 12)]]
  | .fstat d a => [packWord 134217785 [(d.val, 6), (a.val, 12)]]
  | .chkc => [packWord 150995001 []]
  | .yield => [packWord 167772217 []]
  | .term a => [packWord 184549433 [(a.val, 12)]]
  | .send d a b n => [packWord 58 [(d.val, 6), (a.val, 12), (b.val, 18), (n.val, 24)]]
  | .hret => [packWord 268435514 []]
  | .launch d a b => [packWord 59 [(d.val, 6), (a.val, 12), (b.val, 18)]]
  | .flood a => [packWord 16777275 [(a.val, 12)]]
  | .setwp a b => [packWord 60 [(a.val, 12), (b.val, 18)]]
  | .start d a b => [packWord 16777276 [(d.val, 6), (a.val, 12), (b.val, 18)]]
  | .stopc d a b => [packWord 33554492 [(d.val, 6), (a.val, 12), (b.val, 18)]]
  | .trap a => [packWord 50331708 [(a.val, 12)]]
  | .eret => [packWord 67108924 []]
  | .ctrlr d a => [packWord 83886140 [(d.val, 6), (a.val, 12)]]
  | .ctrlw a b => [packWord 100663356 [(a.val, 12), (b.val, 18)]]
  | .bankmode a b => [packWord 117440572 [(a.val, 12), (b.val, 18)]]
  | .park d a => [packWord 134217788 [(d.val, 6), (a.val, 12)]]
  | .acc a b m => [packWord 61 [(a.val, 12), (b.val, 18), (m.val, 6)]]
  | .accBf16 a b m => [packWord 16777277 [(a.val, 12), (b.val, 18), (m.val, 6)]]
  | .rmerge a b m ks => [packWord 33554493 [(a.val, 12), (b.val, 18), (m.val, 6), (ks.val, 9)]]
  | .flushresAll => [packWord 50331773 []]
  | .flushresRange a b => [packWord 50331709 [(a.val, 12), (b.val, 18)]]
  | .hsift d a b => [packWord 67108925 [(d.val, 6), (a.val, 12), (b.val, 18)]]
  | .hmerge d a b => [packWord 83886141 [(d.val, 6), (a.val, 12), (b.val, 18)]]
  | .shelfput a b => [packWord 100663357 [(a.val, 12), (b.val, 18)]]
  | .shelfcloseAll => [packWord 117440637 []]
  | .shelfcloseDie a => [packWord 117440573 [(a.val, 12)]]
  | .mfmt accm rc bf af gAS gAB gBS gBB => [packWord 62 [(af.val, 12), (bf.val, 16), (rc.code, 20), (bit accm, 22)], packWord 0 [(gAS.val, 0), (gAB.val, 6), (gBS.val, 12), (gBB.val, 18)], 0, 0]
  | .malloc d t g0 ng kind ks => [packWord 126 [(t.val, 12), (g0.val, 16), (ng.val, 19), (kind.code, 22), (ks.val, 24)], packWord 0 [(d.val, 0)], 0, 0]
  | .mfree t g0 ng => [packWord 190 [(t.val, 12), (g0.val, 16), (ng.val, 19)], 0, 0, 0]
  | .mzero t row0 nr cw => [packWord 254 [(t.val, 12), (row0.val, 15), (nr.val, 22)], 0, 0, cw.word]
  | .mma t shp row0 nr gA gSA gB gSB cw => [packWord 318 [(t.val, 12), (shp.val, 15), (row0.val, 17), (nr.val, 24)], packWord 0 [(gA.val, 0), (gSA.val, 6), (gB.val, 12), (gSB.val, 18)], 0, cw.word]
  | .gmma t nt nw ng gA gSA gG gSB cw => [packWord 382 [(t.val, 12), (nt.val, 15), (nw.val, 18), (ng.val, 20)], packWord 0 [(gA.val, 0), (gSA.val, 6), (gG.val, 12), (gSB.val, 18)], 0, cw.word]
  | .mdrain t row0 nr df dst gD gSD cw => [packWord 446 [(t.val, 12), (row0.val, 15), (nr.val, 22), (dst.code, 29), (bit df, 31)], packWord 0 [(gD.val, 0), (gSD.val, 6), (dst.reg, 12)], 0, cw.word]
  | .mquant t row0 nr dst qf gD gSD cw => [packWord 510 [(t.val, 12), (row0.val, 15), (nr.val, 22), (dst.code, 29)], packWord 0 [(gD.val, 0), (gSD.val, 6), (dst.reg, 12)], qf.word, cw.word]
  | .msync => [574, 0, 0, 0]
  | .mrank ts t row0 nr srow0 ncm gC cw => [packWord 638 [(t.val, 12), (row0.val, 15), (nr.val, 22), (ts.val, 29)], packWord 0 [(gC.val, 0), (srow0.val, 6), (ncm.val, 13)], 0, cw.word]
  | .mthr row0 t gF d cw => [packWord 702 [(t.val, 12), (row0.val, 15)], packWord 0 [(d.val, 0), (gF.val, 6)], 0, cw.word]
  | .acct t row0 nr df gD gSD cw => [packWord 766 [(t.val, 12), (row0.val, 15), (nr.val, 22), (bit df, 29)], packWord 0 [(gD.val, 0), (gSD.val, 6)], 0, cw.word]
  | .tcopy gT cw => [1086, packWord 0 [(gT.val, 0)], 0, cw.word]
  | .tgather gS gD gI gN gRB gSS gDS cw => [1150, packWord 0 [(gS.val, 0), (gD.val, 6), (gI.val, 12), (gN.val, 18)], packWord 0 [(gRB.val, 0), (gSS.val, 6), (gDS.val, 12)], cw.word]
  | .tscatter gS gD gI gN gRB gSS gDS cw => [1214, packWord 0 [(gS.val, 0), (gD.val, 6), (gI.val, 12), (gN.val, 18)], packWord 0 [(gRB.val, 0), (gSS.val, 6), (gDS.val, 12)], cw.word]
  | .tmcast gS gD gM gN cw => [1278, packWord 0 [(gS.val, 0), (gD.val, 6), (gM.val, 12), (gN.val, 18)], 0, cw.word]
  | .tfill esz gD gV gN cw => [packWord 1342 [(esz.val, 12)], packWord 0 [(gD.val, 0), (gV.val, 6), (gN.val, 12)], 0, cw.word]
  | .packetNop _ _ => []
  | .launchKernel _ _ => []
  | .launchGraph _ _ => []
  | .write _ _ => []
  | .writeSignal _ _ => []
  | .waitValue _ _ => []
  | .waitValueRetest _ _ => []
  | .copy _ _ => []
  | .packetFence _ _ => []
  | .ctrlWrite _ _ => []
  | .partStop _ _ => []
  | .partStart _ _ => []
  | .partReset _ _ => []
  | .barAssign _ _ => []
  | .queueConfig _ _ => []
  | .ctxStart _ _ => []
  | .queuePoll _ _ => []
  | .graphEnd _ _ => []
  | .graphKernel _ _ => []
  | .graphCond _ _ => []
  | .graphLoop _ _ => []
  | .graphJoin _ _ => []
  | .launchAppend _ => []
  | .launchWake _ _ => []
  | .rootReport _ => []
  | .controlPortRead _ _ _ _ _ => []
  | .controlPortWrite _ _ _ _ _ => []
  | .controlPortFailure _ => []
  | .svcDoorbell _ _ => []
  | .svcRefire _ _ => []
  | .refireTakeover => []
  | .refireAbort => []
  | .svcAttest _ _ => []
  | .attestQuoteReady => []
  | .xlInv _ => []
  | .fifoPop _ => []
  | .fifoPush _ => []
  | .powerGood => []
  | .kilnFailover => []
  | .thermalStop _ => []
  | .powerLimit _ => []
  | .timeSliceExpiry _ _ _ => []
  | .linkDead _ => []
  | .linkRetrained _ => []
  | .linkStateUpdate _ _ => []
  | .routeRecomputation => []
  | .drainRoundEnd _ => []
  | .clusterFence _ => []
  | .nearArrival _ => []
  | .arrivalLogReplay _ => []
  | .homeSliceAccess _ => []
  | .pageWalk _ => []
  | .atomicAtAgent _ => []
  | .replyArrival _ => []
  | .acknowledgement _ => []
  | .accumulateArrival _ => []
  | .flushAccumulate _ => []
  | .refusalReturn _ => []
  | .accqWindow _ => []
  | .arbiterPick _ => []
  | .wedgeHoldExpiry _ _ => []
  | .wedgePriorityRelease _ _ => []
  | .commandStart _ _ => []
  | .commandCompletion _ => []
  | .engineWriteAcknowledgement _ => []
  | .drainWake _ => []
  | .shelfTimer _ _ => []
  | .shelfArrival _ => []
  | .sweeperRecord _ => []
  | .taskRecordArrival _ => []
  | .prefetchGrant _ => []
  | .prefetchDone _ _ => []
  | .dispatch _ => []
  | .workspaceCopyDone _ _ => []
  | .taskAging _ _ => []
  | .loadHintPublication _ _ => []
  | .cancelRequest _ => []
  | .treeCancel _ => []
  | .futureRequest _ => []
  | .futureWake _ => []
  | .messageArrival _ => []
  | .messageRetry _ => []
  | .activation _ => []
  | .systemAtomic _ => []
  | .systemNibbleStore _ => []
  | .barrierTimeout _ _ _ => []
  | .mailboxPost _ => []
  | .heldTaskEnd _ _ => []
  | .twinCompare _ => []
  | .barrierCompletion _ _ => []

/-! ### The host's reading of a table word -/

/-- The instruction this decoder reads from the low `nbits` bits of `w`, laid out as the part stores them (R33) and
followed by words of zeros. -/
noncomputable def decodeTableWord (nbits w : Nat) : Option Instr :=
  let v := w % 2 ^ nbits
  match decodeWords [v % 2 ^ 32, v / 2 ^ 32 % 2 ^ 32, v / 2 ^ 64 % 2 ^ 32, v / 2 ^ 96 % 2 ^ 32] with
  | .ok (i, _) => some i
  | .error _ => none

end Sys2Proof
end

