-- ==== Sys2Proof/Machine/Float.lean ====
section
/-! DEFINITION. Machine/Float.lean: the number formats of R54 to R74, exact values, the one rounding of R58, and the
scalar floating-point operations of R85 to R89 and R102 on encodings held as natural numbers. -/
namespace Sys2Proof.Machine

/-- The five sticky flags of CX.STATUS.FPF (R22, R62). -/
structure FFlags where
  nv : Bool := false
  dz : Bool := false
  of : Bool := false
  uf : Bool := false
  nx : Bool := false
  deriving DecidableEq, Repr

/-- FPF as R22 orders its bits: invalid, divide by zero, overflow, underflow, inexact from the top. -/
def FFlags.toNat (f : FFlags) : Nat :=
  f.nv.toNat * 16 + f.dz.toNat * 8 + f.of.toNat * 4 + f.uf.toNat * 2 + f.nx.toNat

/-- The value an encoding denotes: finite values are (-1)^neg * m * 2^e. -/
inductive FVal where
  | nan (signalling : Bool)
  | inf (neg : Bool)
  | fin (neg : Bool) (m : Nat) (e : Int)
  deriving DecidableEq, Repr

/-- An exact result before its rounding: `sticky` says that the value lies strictly between m * 2^e and (m+1) * 2^e. -/
inductive FRes where
  | nan (f : FFlags)
  | inf (neg : Bool) (f : FFlags)
  | fin (neg : Bool) (m : Nat) (e : Int) (sticky : Bool)
  deriving DecidableEq, Repr

/-- A binary format: field widths, bias, the code of the largest finite magnitude, whether infinities are encoded, and
the canonical NaN (R56, R57, R63, R64, R67, R71). -/
structure FFmt where
  expBits : Nat
  fracBits : Nat
  bias : Nat
  maxCode : Nat
  hasInf : Bool
  nanCode : Nat
  deriving DecidableEq, Repr

/-- FP32 (R56). -/
def fp32 : FFmt := ⟨8, 23, 127, 0x7F7FFFFF, true, 0x7FC00000⟩
/-- BF16 (R56). -/
def bf16 : FFmt := ⟨8, 7, 127, 0x7F7F, true, 0x7FC0⟩
/-- E4M3 (R63). -/
def e4m3 : FFmt := ⟨4, 3, 7, 0x7E, false, 0x7F⟩
/-- E5M2 (R64). -/
def e5m2 : FFmt := ⟨5, 2, 15, 0x7B, true, 0x7E⟩
/-- E2M1 (R67); it has no NaN, and a NaN becomes +0 (R65). -/
def e2m1 : FFmt := ⟨2, 1, 1, 0x7, false, 0⟩
/-- The positive values of E3M5 (R71), as a signless format: its reserved code 0xFF lies above `maxCode`. -/
def e3m5 : FFmt := ⟨3, 5, 3, 0xFE, false, 0xFF⟩
/-- The FP32 values whose fraction bits [11:0] are zero (R102), as a format of its own. -/
def fapprox : FFmt := ⟨8, 11, 127, 0x7F7FF, true, 0x7FC00⟩

/-- The value of a magnitude code (sign removed). -/
def FFmt.magVal (f : FFmt) (neg : Bool) (mag : Nat) : FVal :=
  let e := mag / 2 ^ f.fracBits
  let m := mag % 2 ^ f.fracBits
  if e = 0 then .fin neg m (1 - (f.bias : Int) - f.fracBits)
  else .fin neg (m + 2 ^ f.fracBits) ((e : Int) - f.bias - f.fracBits)

/-- The value of an encoding (R56, R63, R64, R67). -/
def FFmt.decode (f : FFmt) (x : Nat) : FVal :=
  let w := f.expBits + f.fracBits
  let neg := x / 2 ^ w % 2 == 1
  let mag := x % 2 ^ w
  if mag ≤ f.maxCode then f.magVal neg mag
  else if f.hasInf && mag == f.maxCode + 1 then .inf neg
  else .nan (f.hasInf && mag / 2 ^ (f.fracBits - 1) % 2 == 0)

/-- The sign bit of an encoding. -/
def FFmt.signBit (f : FFmt) (neg : Bool) : Nat := neg.toNat * 2 ^ (f.expBits + f.fracBits)

/-- The delivered magnitude code of an overflow (R59). -/
def FFmt.overflowCode (f : FFmt) (sat : Bool) (mode : RoundMode) (neg : Bool) : Nat :=
  if f.hasInf && !sat then
    match mode with
    | .rne => f.maxCode + 1
    | .rtz => f.maxCode
    | .rdn => if neg then f.maxCode + 1 else f.maxCode
    | .rup => if neg then f.maxCode else f.maxCode + 1
  else f.maxCode

/-- Whether a truncated magnitude is rounded away from zero (R58): `half` compares the discarded part with half a unit. -/
def roundsUp (mode : RoundMode) (neg odd inexact : Bool) (half : Ordering) : Bool :=
  match mode with
  | .rne => match half with
    | .lt => false
    | .eq => odd
    | .gt => true
  | .rtz => false
  | .rdn => neg && inexact
  | .rup => !neg && inexact

/-- One rounding of a non-zero exact value to a format (R58 to R62); `sat` selects the clamping row of R59. -/
def FFmt.round (f : FFmt) (sat : Bool) (mode : RoundMode) (neg : Bool) (m : Nat) (e : Int) (sticky : Bool) :
    Nat × FFlags :=
  if m = 0 then (f.signBit neg, {})
  else
    let lg : Int := e + Nat.log2 m
    let ulpMin : Int := 1 - (f.bias : Int) - f.fracBits
    let q : Int := max (lg - f.fracBits) ulpMin
    let k := (q - e).toNat
    let n := if q ≤ e then m * 2 ^ (e - q).toNat else m / 2 ^ k
    let r := if q ≤ e then 0 else m % 2 ^ k
    let h := if q ≤ e then 1 else 2 ^ (k - 1)
    let half : Ordering := if r < h then .lt else if r = h && !sticky then .eq else .gt
    let inexact := r != 0 || sticky
    let n' := n + (roundsUp mode neg (n % 2 == 1) inexact half).toNat
    let code := (q - ulpMin).toNat * 2 ^ f.fracBits + n'
    if code > f.maxCode then
      (f.signBit neg + f.overflowCode sat mode neg, { of := true, nx := true })
    else
      (f.signBit neg + code, { nx := inexact, uf := inexact && decide (lg < 1 - (f.bias : Int)) })

/-- The encoding of an exact result (R57 to R62, R65). -/
def FFmt.deliver (f : FFmt) (sat : Bool) (mode : RoundMode) : FRes → Nat × FFlags
  | .nan fl => (f.nanCode, fl)
  | .inf neg fl =>
    if f.hasInf && !sat then (f.signBit neg + f.maxCode + 1, fl)
    else (f.signBit neg + f.maxCode, { fl with of := true, nx := true })
  | .fin neg m e st => f.round sat mode neg m e st

/-- Conversion of a value to a narrower or equal format (R65): a NaN to E2M1 sets invalid. -/
def FFmt.narrow (f : FFmt) (sat : Bool) (mode : RoundMode) : FVal → Nat × FFlags
  | .nan s => (f.nanCode, { nv := s || f.nanCode == 0 })
  | .inf neg => f.deliver sat mode (.inf neg {})
  | .fin neg m e => f.round sat mode neg m e false

/-- Exact widening to FP32 (R56, R65): a NaN becomes the canonical NaN. -/
def widen (v : FVal) : Nat := (fp32.narrow false .rne v).1

/-- The signalling NaN test on operands. -/
def FVal.isSig : FVal → Bool
  | .nan s => s
  | _ => false

/-- Whether a value is a NaN. -/
def FVal.isNan : FVal → Bool
  | .nan _ => true
  | _ => false

/-- The sign of a value that is no NaN. -/
def FVal.neg : FVal → Bool
  | .nan _ => false
  | .inf n => n
  | .fin n _ _ => n

/-- The value with its sign inverted. -/
def FVal.negate : FVal → FVal
  | .nan s => .nan s
  | .inf n => .inf (!n)
  | .fin n m e => .fin (!n) m e

/-- A signed dyadic number: mantissa and exponent of two. -/
structure Dy where
  m : Int
  e : Int
  deriving DecidableEq, Repr

/-- The dyadic number of a finite value. -/
def dyOf (neg : Bool) (m : Nat) (e : Int) : Dy := ⟨if neg then -(m : Int) else m, e⟩

/-- The mantissa of `x` at the exponent `e`, at or below its own. -/
def Dy.at (x : Dy) (e : Int) : Int := x.m * 2 ^ (x.e - e).toNat

/-- The exact sum of two dyadic numbers. -/
def Dy.add (x y : Dy) : Dy :=
  let e := min x.e y.e
  ⟨x.at e + y.at e, e⟩

/-- The result of an exact sum; `zneg` is the sign of a zero sum (R61). -/
def Dy.res (x : Dy) (zneg : Bool) : FRes :=
  if x.m = 0 then .fin zneg 0 x.e false else .fin (decide (x.m < 0)) x.m.natAbs x.e false

/-- The sign of a zero sum of two operands (R61). -/
def zeroSumNeg (mode : RoundMode) (a b : Bool) : Bool :=
  if a = b then a else decide (mode = .rdn)

/-- a + b, exactly (R61, R62). -/
def addVal (mode : RoundMode) (a b : FVal) : FRes :=
  match a, b with
  | .nan s, y => .nan { nv := s || y.isSig }
  | x, .nan s => .nan { nv := s || x.isSig }
  | .inf n, .inf n' => if n = n' then .inf n {} else .nan { nv := true }
  | .inf n, .fin .. => .inf n {}
  | .fin .., .inf n => .inf n {}
  | .fin n m e, .fin n' m' e' => ((dyOf n m e).add (dyOf n' m' e')).res (zeroSumNeg mode n n')

/-- a × b, exactly (R61, R62), as a value; `none` is the invalid product 0 × Inf. -/
def mulFin (a b : FVal) : Option FVal :=
  match a, b with
  | .nan s, y => some (.nan (s || y.isSig))
  | x, .nan s => some (.nan (s || x.isSig))
  | .inf n, .inf n' => some (.inf (n != n'))
  | .inf n, .fin n' m _ => if m = 0 then none else some (.inf (n != n'))
  | .fin n m _, .inf n' => if m = 0 then none else some (.inf (n != n'))
  | .fin n m e, .fin n' m' e' => some (.fin (n != n') (m * m') (e + e'))

/-- A value as a result that needs no further arithmetic. -/
def FVal.res : FVal → FRes
  | .nan s => .nan { nv := s }
  | .inf n => .inf n {}
  | .fin n m e => .fin n m e false

/-- a × b. -/
def mulVal (a b : FVal) : FRes :=
  match mulFin a b with
  | none => .nan { nv := true }
  | some v => v.res

/-- a / b (R62): sixty-four more quotient bits than either operand has, and the sticky remainder. -/
def divVal (a b : FVal) : FRes :=
  match a, b with
  | .nan s, y => .nan { nv := s || y.isSig }
  | x, .nan s => .nan { nv := s || x.isSig }
  | .inf _, .inf _ => .nan { nv := true }
  | .inf n, .fin n' _ _ => .inf (n != n') {}
  | .fin n _ _, .inf n' => .fin (n != n') 0 0 false
  | .fin n m e, .fin n' m' e' =>
    if m' = 0 then
      if m = 0 then .nan { nv := true } else .inf (n != n') { dz := true }
    else
      let k := 64 + Nat.log2 m' + 1
      .fin (n != n') (m * 2 ^ k / m') (e - e' - k) (m * 2 ^ k % m' != 0)

/-- a × b + d with one rounding (R86, R100): a product 0 × Inf is invalid even when d is a NaN. -/
def fmaVal (mode : RoundMode) (a b d : FVal) : FRes :=
  match mulFin a b with
  | none => .nan { nv := true }
  | some p => addVal mode p d

/-- The integer square root of `n` by `fuel` binary digits, most significant first. -/
def isqrt : Nat → Nat → Nat → Nat
  | 0, r, _ => r
  | fuel + 1, r, n =>
    let c := r + 2 ^ fuel
    isqrt fuel (if c * c ≤ n then c else r) n

/-- √a (R86): the operand is scaled by an even power of two so that the root has at least 64 bits. -/
def sqrtVal (a : FVal) : FRes :=
  match a with
  | .nan s => .nan { nv := s }
  | .inf n => if n then .nan { nv := true } else .inf false {}
  | .fin n m e =>
    if m = 0 then .fin n 0 0 false
    else if n then .nan { nv := true }
    else
      let k := 128 + (e % 2).toNat
      let x := m * 2 ^ k
      let r := isqrt (Nat.log2 x / 2 + 1) 0 x
      .fin false r ((e - k) / 2) (r * r != x)

/-- Whether a < b among values that are no NaN, both zeros equal. -/
def FVal.lt (a b : FVal) : Bool :=
  match a, b with
  | .nan _, _ => false
  | _, .nan _ => false
  | .inf n, .inf n' => n && !n'
  | .inf n, .fin .. => n
  | .fin .., .inf n => !n
  | .fin n m e, .fin n' m' e' =>
    let x := dyOf n m e
    let y := dyOf n' m' e'
    decide (x.at (min e e') < y.at (min e e'))

/-- Whether a = b among values that are no NaN, both zeros equal. -/
def FVal.eq (a b : FVal) : Bool :=
  match a, b with
  | .nan _, _ => false
  | _, .nan _ => false
  | .inf n, .inf n' => n == n'
  | .fin n m e, .fin n' m' e' =>
    let x := dyOf n m e
    let y := dyOf n' m' e'
    decide (x.at (min e e') = y.at (min e e'))
  | _, _ => false

/-- The order of FMIN and FMAX, in which −0 lies below +0 (R87). -/
def FVal.below (a b : FVal) : Bool := a.lt b || (a.eq b && a.neg && !b.neg)

/-- An FP32 operation's encoding and flags from its exact result. -/
def f32 (mode : RoundMode) (r : FRes) : Nat × FFlags := fp32.deliver false mode r

/-- FADD on encodings. -/
def fAdd (mode : RoundMode) (a b : Nat) : Nat × FFlags := f32 mode (addVal mode (fp32.decode a) (fp32.decode b))
/-- FSUB on encodings. -/
def fSub (mode : RoundMode) (a b : Nat) : Nat × FFlags :=
  f32 mode (addVal mode (fp32.decode a) (fp32.decode b).negate)
/-- FMUL on encodings. -/
def fMul (mode : RoundMode) (a b : Nat) : Nat × FFlags := f32 mode (mulVal (fp32.decode a) (fp32.decode b))
/-- FDIV on encodings. -/
def fDiv (mode : RoundMode) (a b : Nat) : Nat × FFlags := f32 mode (divVal (fp32.decode a) (fp32.decode b))
/-- FMADD on encodings: a × b + d. -/
def fMadd (mode : RoundMode) (a b d : Nat) : Nat × FFlags :=
  f32 mode (fmaVal mode (fp32.decode a) (fp32.decode b) (fp32.decode d))
/-- FMSUB on encodings: a × b − d. -/
def fMsub (mode : RoundMode) (a b d : Nat) : Nat × FFlags :=
  f32 mode (fmaVal mode (fp32.decode a) (fp32.decode b) (fp32.decode d).negate)
/-- FSQRT on encodings. -/
def fSqrt (mode : RoundMode) (a : Nat) : Nat × FFlags := f32 mode (sqrtVal (fp32.decode a))

/-- FMIN and FMAX (R87): `low` selects the smaller. -/
def fMinMax (low : Bool) (a b : Nat) : Nat × FFlags :=
  let x := fp32.decode a
  let y := fp32.decode b
  let fl : FFlags := { nv := x.isSig || y.isSig }
  if x.isNan && y.isNan then (fp32.nanCode, fl)
  else if x.isNan then (b, fl)
  else if y.isNan then (a, fl)
  else if low then (if y.below x then b else a, fl)
  else (if x.below y then b else a, fl)

/-- FABS, a bit operation (R86). -/
def fAbs (a : Nat) : Nat := a % 2 ^ 31
/-- FNEG, a bit operation (R86). -/
def fNeg (a : Nat) : Nat := a % 2 ^ 31 + (1 - a / 2 ^ 31 % 2) * 2 ^ 31
/-- FCOPYS, a bit operation (R86). -/
def fCopys (a b : Nat) : Nat := a % 2 ^ 31 + (b / 2 ^ 31 % 2) * 2 ^ 31

/-- FCMPEQ (R88). -/
def fCmpEq (a b : Nat) : Bool × FFlags :=
  let x := fp32.decode a
  let y := fp32.decode b
  (x.eq y, { nv := x.isSig || y.isSig })
/-- FCMPLT (R88). -/
def fCmpLt (a b : Nat) : Bool × FFlags :=
  let x := fp32.decode a
  let y := fp32.decode b
  (x.lt y, { nv := x.isNan || y.isNan })
/-- FCMPLE (R88). -/
def fCmpLe (a b : Nat) : Bool × FFlags :=
  let x := fp32.decode a
  let y := fp32.decode b
  (x.lt y || x.eq y, { nv := x.isNan || y.isNan })
/-- FCMPUN (R88). -/
def fCmpUn (a b : Nat) : Bool × FFlags :=
  let x := fp32.decode a
  let y := fp32.decode b
  (x.isNan || y.isNan, { nv := x.isSig || y.isSig })

/-- FCLASS (R88): the one-hot class mask. -/
def fClass (a : Nat) : Nat :=
  match fp32.decode a with
  | .nan s => if s then 2 ^ 8 else 2 ^ 9
  | .inf n => if n then 2 ^ 0 else 2 ^ 7
  | .fin n m _ =>
    if m = 0 then (if n then 2 ^ 3 else 2 ^ 4)
    else if m < 2 ^ 23 then (if n then 2 ^ 2 else 2 ^ 5)
    else (if n then 2 ^ 1 else 2 ^ 6)

/-- An exact integer to FP32 (R69). -/
def ofInt (mode : RoundMode) (x : Int) : Nat × FFlags := fp32.round false mode (decide (x < 0)) x.natAbs 0 false

/-- A finite value rounded to an integer by the mode (R69), with whether rounding changed it. -/
def roundToInt (mode : RoundMode) (neg : Bool) (m : Nat) (e : Int) : Int × Bool :=
  if 0 ≤ e then ((dyOf neg m e).at 0, false)
  else
    let k := (-e).toNat
    let n := m / 2 ^ k
    let r := m % 2 ^ k
    let h := 2 ^ (k - 1)
    let half : Ordering := if r < h then .lt else if r = h then .eq else .gt
    let n' := n + (roundsUp mode neg (n % 2 == 1) (r != 0) half).toNat
    (if neg then -(n' : Int) else n', r != 0)

/-- Conversion to an integer in the range lo to hi (R69). -/
def toInt (mode : RoundMode) (lo hi : Int) (v : FVal) : Int × FFlags :=
  match v with
  | .nan _ => (0, { nv := true })
  | .inf n => (if n then lo else hi, { nv := true })
  | .fin neg m e =>
    let r := roundToInt mode neg m e
    if r.1 < lo then (lo, { nv := true })
    else if hi < r.1 then (hi, { nv := true })
    else (r.1, { nx := r.2 })

/-- Working precision, in bits, of the series behind VFEXP2 and VFLOG2 (DEDUCED: the least distance of an FP32 operand's
result from a rounding boundary of R102 is far above the error at this precision; log entry 20). -/
def seriesBits : Nat := 256

/-- 2^256 · ln 2, rounded down. -/
def ln2Fixed : Nat := 0xB17217F7D1CF79ABC9E3B39803F2F6AF40F343267298B62D8A0D175B8BAAFA2B

/-- The sum of x^k / k! from term `t` = x^k / k! onwards, at the fixed precision. -/
def expSeries (x : Nat) : Nat → Nat → Nat → Nat
  | 0, _, _ => 0
  | fuel + 1, k, t => t + expSeries x fuel (k + 1) (t * x / 2 ^ seriesBits / (k + 1))

/-- 2^f · 2^256 for a fixed-point f in [0, 1). -/
def exp2Fixed (f : Nat) : Nat := expSeries (f * ln2Fixed / 2 ^ seriesBits) 64 0 (2 ^ seriesBits)

/-- The sum of z^(2j+1) / (2j+1) from the power `p` = z^(2j+1) onwards. -/
def atanhSeries (z2 : Nat) : Nat → Nat → Nat → Nat
  | 0, _, _ => 0
  | fuel + 1, j, p => p / (2 * j + 1) + atanhSeries z2 fuel (j + 1) (p * z2 / 2 ^ seriesBits)

/-- log2 of m / 2^k at the fixed precision, for 1 ≤ m / 2^k < 2. -/
def log2Fixed (m k : Nat) : Nat :=
  let z := (m - 2 ^ k) * 2 ^ seriesBits / (m + 2 ^ k)
  2 * atanhSeries (z * z / 2 ^ seriesBits) 96 0 z * 2 ^ seriesBits / ln2Fixed

/-- 2^a (R102). -/
def exp2Val (a : FVal) : FRes :=
  match a with
  | .nan _ => .nan {}
  | .inf n => if n then .fin false 0 0 false else .inf false {}
  | .fin neg m e =>
    if m = 0 then .fin false 1 0 false
    else
      let x := dyOf neg m e
      let scaled : Int := if -(seriesBits : Int) ≤ e then x.at (-(seriesBits : Int))
        else x.m / 2 ^ (-(seriesBits : Int) - e).toNat
      let n := scaled / 2 ^ seriesBits
      let f := (scaled % 2 ^ seriesBits).toNat
      if f = 0 && decide (-(seriesBits : Int) ≤ e) then
        if n > 200 then .inf false {} else if n < -400 then .fin false 1 (-400) true else .fin false 1 n false
      else if n > 200 then .inf false {}
      else if n < -400 then .fin false 1 (-400) true
      else .fin false (exp2Fixed f) (n - seriesBits) true

/-- log2 a (R102). -/
def log2Val (a : FVal) : FRes :=
  match a with
  | .nan _ => .nan {}
  | .inf n => if n then .nan {} else .inf false {}
  | .fin neg m e =>
    if m = 0 then .inf true {}
    else if neg then .nan {}
    else
      let k := Nat.log2 m
      let ip : Int := e + k
      if m = 2 ^ k then .fin (decide (ip < 0)) ip.natAbs 0 false
      else
        let v : Int := ip * 2 ^ seriesBits + log2Fixed m k
        .fin (decide (v < 0)) v.natAbs (-(seriesBits : Int)) true

/-- 1/a (R102). -/
def rcpVal (a : FVal) : FRes :=
  match a with
  | .nan _ => .nan {}
  | .inf n => .fin n 0 0 false
  | .fin n m e => if m = 0 then .inf n {} else divVal (.fin false 1 0) (.fin n m e)

/-- 1/√a (R102): the root of the reciprocal, both carried to more than 64 bits beyond any FP32 tie. -/
def rsqVal (a : FVal) : FRes :=
  match a with
  | .nan _ => .nan {}
  | .inf n => if n then .nan {} else .fin false 0 0 false
  | .fin n m e =>
    if m = 0 then .inf n {}
    else if n then .nan {}
    else
      let k := 256 + (e % 2).toNat
      let x := 2 ^ k / m
      let r := isqrt (Nat.log2 x / 2 + 1) 0 x
      .fin false r ((-e - k) / 2) (r * r * m != 2 ^ k)

/-- An approximation's FP32 encoding (R102): one rounding to nearest onto the values with twelve clear fraction bits. -/
def fApprox (r : FRes) : Nat := (fapprox.deliver false .rne r).1 * 2 ^ 12

/-- VFRCP. -/
def fRcp (a : Nat) : Nat := fApprox (rcpVal (fp32.decode a))
/-- VFRSQ. -/
def fRsq (a : Nat) : Nat := fApprox (rsqVal (fp32.decode a))
/-- VFEXP2. -/
def fExp2 (a : Nat) : Nat := fApprox (exp2Val (fp32.decode a))
/-- VFLOG2. -/
def fLog2 (a : Nat) : Nat := fApprox (log2Val (fp32.decode a))

/-- A NaN passed through by a reduction or a scan becomes canonical; other values keep their bits (R108, R109). -/
def canonNan (a : Nat) : Nat := if (fp32.decode a).isNan then fp32.nanCode else a

/-- A sum of exact terms with one rounding (R101, R75): a NaN, an invalid product or infinities of both signs give the
canonical NaN. A zero sum is signed by R61, `zneg` standing for operands whose signs differ. -/
def sumVals (zneg : Bool) (ts : List (Option FVal)) : FRes :=
  if ts.any (fun t => match t with | none => true | some v => v.isNan) then .nan {}
  else
    let vs := ts.filterMap id
    let pos := vs.any (fun v => v == .inf false)
    let neg := vs.any (fun v => v == .inf true)
    if pos && neg then .nan {}
    else if pos then .inf false {}
    else if neg then .inf true {}
    else
      let total := vs.foldl (fun acc v => match v with
        | .fin n m e => acc.add (dyOf n m e)
        | _ => acc) (⟨0, 0⟩ : Dy)
      total.res (if vs.all (fun v => v.neg) then true else if vs.all (fun v => !v.neg) then false else zneg)

/-- The least code of E3M5, at or above the exact quotient num / den · 2^sh, with den > 0 (R74). -/
def scaleAtLeast (num den : Nat) (sh : Int) : Nat :=
  let top := if 0 ≤ sh then num * 2 ^ sh.toNat else num
  let bot := if 0 ≤ sh then den else den * 2 ^ (-sh).toNat
  ((List.range 255).find? (fun c => match e3m5.magVal false c with
    | .fin _ m e => decide (top * 2 ^ (-e).toNat ≤ m * 2 ^ e.toNat * bot)
    | _ => false)).getD 0xFE

/-- The largest magnitude among finite values and infinities of a block, ignoring NaN (R74): none for a block of NaN. -/
def blockMax (xs : List FVal) : FVal :=
  xs.foldl (fun acc v => match v with
    | .nan _ => acc
    | .inf _ => .inf false
    | .fin _ m e => if acc.lt (.fin false m e) then .fin false m e else acc) (.fin false 0 0)

/-- A band scale is ill-formed (R72). -/
def badBand (b : Nat) : Bool :=
  match bf16.decode b with
  | .nan _ => true
  | .inf _ => true
  | .fin n m _ => n || decide (m < 2 ^ 7)

/-- The block-scale code of eight values under a band scale (R74). -/
def blockScale (xs : List FVal) (band : Nat) : Nat :=
  match blockMax xs, bf16.decode band with
  | .inf _, _ => 0xFE
  | .fin _ m e, .fin _ bm be => if m = 0 then 0 else scaleAtLeast m (6 * bm) (e - be)
  | _, _ => 0

/-- One element's E2M1 code under a block scale and a band scale (R74): the exact quotient, rounded once. -/
def quantElem (mode : RoundMode) (scale band : Nat) (x : FVal) : Nat :=
  if scale = 0 then 0
  else match mulFin (e3m5.magVal false scale) (bf16.decode band) with
    | none => 0
    | some sb => (e2m1.deliver true mode (divVal x sb)).1

/-- R74 on one block: the eight codes and the block scale. -/
def quantBlock (mode : RoundMode) (band : Nat) (xs : List Nat) : List Nat × Nat :=
  let vs := xs.map fp32.decode
  let s := blockScale vs band
  (vs.map (quantElem mode s band), s)

end Sys2Proof.Machine
end

