-- ==== Sys2Proof/Machine/Causes.lean ====
section
/-! DEFINITION. Machine/Causes.lean: the cause codes of R356 that the machine raises. -/
namespace Sys2Proof.Machine

def cILLEGAL : Nat := 0x001
def cRESERVED : Nat := 0x002
def cPRIVILEGED : Nat := 0x003
def cMISALIGNED_TARGET : Nat := 0x004
def cREP_BODY : Nat := 0x005
def cCONTEXT_BAD_TARGET : Nat := 0x006
def cSOFTWARE_TRAP : Nat := 0x007
def cTRAP_FRAME : Nat := 0x008
def cCONTROL_FIELD : Nat := 0x009
def cFORMAT_CODE : Nat := 0x040
def cFORMAT_SCALE : Nat := 0x041
def cDIVIDE : Nat := 0x042
def cUNMAPPED : Nat := 0x080
def cMISALIGNED : Nat := 0x081
def cNEAR_ABSENT : Nat := 0x082
def cNEAR_RANGE : Nat := 0x083
def cBANK_CONFLICT : Nat := 0x084
def cATOMIC_TARGET : Nat := 0x085
def cATOMIC_PATH : Nat := 0x086
def cPROTECTION : Nat := 0x088
def cBANK_BUSY : Nat := 0x08B
def cFIFO_UNDER : Nat := 0x08C
def cFIFO_OVER : Nat := 0x08D
def cWORKSPACE : Nat := 0x08E
def cBANK_MODE : Nat := 0x08F
def cPAGE_ABSENT : Nat := 0x090
def cPAGE_WRITE : Nat := 0x091
def cPAGE_EXEC : Nat := 0x092
def cPAGE_INVALID : Nat := 0x093
def cPAGE_WALK : Nat := 0x094
def cLOG_OVERFLOW : Nat := 0x095
def cHANDLER_BLOCKING : Nat := 0x144
def cBARRIER_CONFIG : Nat := 0x148
def cBARRIER_BUSY : Nat := 0x149
def cBARRIER_MEMBER : Nat := 0x14A
def cBARRIER_OVER : Nat := 0x14B
def cHEAP_INVALID : Nat := 0x18A
def cUE : Nat := 0x1C0
def cTWIN_MISMATCH : Nat := 0x1C1
def cTWIN_PARTNER : Nat := 0x1C2
def cTWIN_FORBIDDEN : Nat := 0x1C3
def cATOMIC_UNKNOWN : Nat := 0x1C4
def cLINK_FAILED : Nat := 0x1C5
def cWAKE_UNDELIVERABLE : Nat := 0x1C6
def cPARTITION_RESET : Nat := 0x1E8

def cFUT_HANDLE : Nat := 0x100
def cFUT_STALE : Nat := 0x101
def cFUT_POISONED : Nat := 0x102
def cFUT_CANCELLED : Nat := 0x103
def cFUT_EXHAUSTED : Nat := 0x104
def cFUT_IN_USE : Nat := 0x105
def cCANCEL_REQ : Nat := 0x106
def cSELF_WAIT : Nat := 0x107
def cTASK_CONTEXT : Nat := 0x108
def cSPAWN_TARGET : Nat := 0x109
def cUSER_POISON : Nat := 0x10A
def cTASK_TILE : Nat := 0x10B
def cTASK_OVERFLOW : Nat := 0x10C
def cHANDLER_OVERRUN : Nat := 0x140
def cHANDLER_SENDS : Nat := 0x141
def cHANDLER_STORES : Nat := 0x142
def cHANDLER_WRITE : Nat := 0x143
def cHANDLER_CONTEXT : Nat := 0x145
def cMESSAGE_TARGET : Nat := 0x146
def cSTART_CONTEXT : Nat := 0x147
def cBARRIER_TIMEOUT : Nat := 0x14C
def cTILE_NOT_HELD : Nat := 0x180
def cTILE_KIND : Nat := 0x181
def cMATRIX_SHAPE : Nat := 0x182
def cMATRIX_FORMAT : Nat := 0x183
def cMATRIX_PLACE : Nat := 0x184
def cCOPY_DESC : Nat := 0x185
def cCOMPLETION : Nat := 0x186
def cMULTICAST : Nat := 0x187
def cDRAIN_TARGET : Nat := 0x188
def cCOPY_TARGET : Nat := 0x189
def cSHELF_EXPERT : Nat := 0x18B
def cSHELF_ROW : Nat := 0x18C
def cSHELF_CRC : Nat := 0x18D
def cSHELF_RING : Nat := 0x18E
def cPACKET_OPCODE : Nat := 0x1E0
def cPACKET_RESERVED : Nat := 0x1E1
def cPACKET_OPERAND : Nat := 0x1E2
def cPACKET_PRIV : Nat := 0x1E3
def cGRAPH_NODE : Nat := 0x1E4
def cLAUNCH_BLOCK : Nat := 0x1E5
def cARRIVAL_LOG : Nat := 0x1E6
def cIMAGE : Nat := 0x1E7

end Sys2Proof.Machine
end

