-- ==== Sys2Proof/Config.lean ====
section
/-! DEFINITION. Config.lean: what an implementation fixes and the values the specification leaves open. None of these has a
body, so nothing can be proved from a value of one. -/
namespace Sys2Proof.Config

/-- Free values, drawn in order: among them, which of the values that it has held undefined storage holds (R9, R27, R149, R223; log
entry 4). -/
opaque freeNat : Nat → Nat

/-- The device's own fuses, and what the crypto block derives from them for the private part of the device identity key (R395). -/
opaque deviceFuses : List Byte
opaque deriveKey : List Byte → Nat

/-- The secret number of a signature (R395), drawn in order. -/
opaque signNonce : Nat → Nat

/-- The device certificate, which binds a public key to the part (R395, R399). -/
opaque certificate : List Byte → List Byte

/-- The secure ROM (R399). -/
opaque rom : List Byte

/-- The images in the boot flash of kilns A and B (R390). -/
opaque flash : Bool → List Byte

/-- The four key hashes held in fuses, and whether each slot's revoke fuse is intact (R388). -/
opaque keyHash : Nat → List Byte × Bool

/-- The package id of the platform's configuration (R346, R390). -/
opaque packageId : Nat

/-- The route table, the per-port classes and the partition 0 that kiln firmware loads at boot (R390): clusters, ports,
page-table root and frame ranges, supervisor core and queue table base. -/
opaque bootRoute : Nat → Nat
opaque bootRoutePorts : Nat → List Nat
opaque bootClass : Nat → Nat
opaque bootClusters : List Nat
opaque bootPorts : List Nat
opaque bootPages : Nat
opaque bootFrames : List (Nat × Nat)
opaque bootSupv : Nat
opaque bootQueues : Nat
/-- What kiln firmware writes in HBM at boot for partition 0, its page tables and queue table among it: addresses and bytes. -/
opaque bootHbm : List (Nat × List Byte)

/-- The far end of a Bexmo port, by package and port, as package * 256 + port, if it is cabled (R376). -/
opaque cable : Nat → Nat → Option Nat

/-- The configured class of a port of another package (R376). -/
opaque linkClass : Nat → Nat → Nat

/-- The bytes of a request's header that the comparator of a twin pair hashes (R370), of which the specification gives no layout: a
function of the header's fields. -/
opaque requestHeader : List Nat → List Byte

/-- AUX of an arrival-log record for all but a message (R313), whose codes and places of the order bits the specification does
not give: a function of the operation, drawn in order (log entry 46). -/
opaque logCode : Nat → Nat → Nat

end Sys2Proof.Config
end

