-- ==== Sys2Proof/Machine/State.lean ====
section
/-! DEFINITION. Machine/State.lean: the state of the whole package as plain data, the reasons a step can stop, and the
state after reset. -/
namespace Sys2Proof.Machine

/-- Why a step stops the machine. -/
inductive Fault where
  /-- Raised by `step` when an issue move of the agenda names a core that the package does not have (4096 or more). Safe: no
  program causes it, and nothing is claimed of such a run. -/
  | noSuchAgent
  deriving DecidableEq, Repr

/-- Why a step has no meaning. -/
inductive Refusal where
  /-- Raised by `exec` for an instruction that this model gives no meaning yet. Safe: the run ends there. -/
  | notModelled (mnemonic : String)
  deriving DecidableEq, Repr

/-- Bytes by location, canonical: locations strictly rising, no byte equal to what an unlisted location reads as (log entry 1). -/
abbrev Memory := List Host.Cell

/-- A sparse table: keys strictly rising, no entry equal to the table's default. -/
abbrev Tbl (α : Type) := List (Nat × α)

/-- The read-modify-write operations of R126. -/
inductive AOp where
  | xchg | add | and | or | xor | min | max | minu | maxu | fadd
  deriving DecidableEq, Repr

/-- What a request does at its target. Stored data carries, beside its bytes, whether each aligned word of it is
poisoned (R365). -/
inductive MemOp where
  | load (n : Nat)
  | fetch
  | prefetch
  | store (bytes : List Byte) (poison : Bool)
  | nibble (hi : Bool) (v : Nat)
  | atomic (op : AOp) (b : Nat)
  | cas (len e n : Nat)
  deriving DecidableEq, Repr

/-- Counters of CX.CNT (R28). -/
inductive Cnt where
  | sn | sg | cp | tl | at_
  deriving DecidableEq, Repr

/-- Who hears of a request's outcome. -/
inductive Back where
  /-- Nobody: a prefetch, or a request whose requester has ended. -/
  | none
  /-- The context that issued it and is STALLED for the reply (R119). -/
  | ctx (core ctx : Nat)
  /-- A counter of the issuing context (R28): `pc` is the PC of the store, `group` the operations counted together. -/
  | count (core ctx : Nat) (cnt : Cnt) (pc group : Nat)
  /-- A tile or copy command, by number: a line of ACCT (R257). -/
  | cmd (id : Nat)
  /-- A requester in another package, by a number that the environment gave, with its system core number and context (R349, R350). -/
  | remote (n core ctx : Nat)
  /-- The control node, on a control port, by a die's service core: `n` bytes are returned, none for a write (R353). -/
  | host (port die n : Nat)
  /-- An agent of the device that does not wait: the outcome changes nothing. -/
  | device
  /-- A packet of a queue, whose step waits for the answer (R294, R295). -/
  | packet (part q : Nat)
  /-- The counting agent of a launch, which waits until its join future is resolved (R302). -/
  | join (launch : Nat)
  deriving DecidableEq, Repr

/-- Where a global request stands at its home slice (R330). -/
inductive Stage where
  | travelling
  | walking
  /-- Translated: the physical address, whether the page is uncached, and the home slice. -/
  | ready (pa : Nat) (uc : Bool) (slice : Nat)
  deriving DecidableEq, Repr

/-- A request in flight. `near` requests carry the location they name; global ones the virtual address. `va` is the
address as the program gave it. -/
structure MemReq where
  part : Nat
  va : Nat
  near : Option Nat
  op : MemOp
  back : Back
  seq : Option (Nat × Nat)
  stage : Stage
  /-- The clock at which a full inbox refused it (R206, R211). -/
  refused : Option Nat
  /-- It is a release: what it writes is read by an acquire (R229). -/
  rel : Bool
  /-- It has been sent once more after a dead link or router lost it (R378). -/
  again : Bool
  deriving DecidableEq, Repr

/-- What comes back to a requester. -/
inductive Answer where
  | data (v : Nat)
  | fault (cause addr aux : Nat)
  deriving DecidableEq, Repr

/-- A post on its way to a supervisor mailbox (R363): the four words, and the source that a full mailbox ends (R364). -/
structure Post where
  pkg : Nat
  part : Nat
  w0 : Nat
  pc : Nat
  addr : Nat
  aux : Nat
  source : Option (Nat × Nat)
  deriving DecidableEq, Repr

/-- An operation on a future at its home (R179 to R187, R306). -/
inductive FutOp where
  /-- TOUCH: with a token, a PENDING future lists it. -/
  | touch (token : Option Nat)
  | ttouch
  /-- Made final when it is PENDING: RESOLVE, POISON, and what the device does as they do. -/
  | finish (st v : Nat)
  | free
  | stat
  | cancel (tree : Bool)
  /-- FLOOD: a launch registered at its join future, with its count and done address (R306). -/
  | join (launch count done : Nat)
  /-- A waiter's token taken off the list (R184, R311). -/
  | unlist (token : Nat)
  deriving DecidableEq, Repr

/-- A future operation on its way to the future's home. `root` is the request that a cancellation belongs to (R186), and `src` the system
core number of the core that it comes from (R313). -/
structure FutReq where
  handle : Nat
  op : FutOp
  part : Nat
  back : Back
  root : Nat
  src : Nat
  deriving DecidableEq, Repr

/-- A task record on its way to a scheduler (R178, R195): tile pointers as the program gave them, and the mask of the
cores of the cluster that may run it (R199). -/
structure TaskRec where
  pc : Nat
  pri : Nat
  handle : Nat
  twin : Bool
  rst : Bool
  args : List Nat
  tiles : List Nat
  elig : Nat
  /-- The primary's pair, for the partner of a twin (R369). -/
  pair : Option Nat
  deriving DecidableEq, Repr

/-- A message (R204, R205): the word at +0x08, its target core, who is counted for it, the clock at which an inbox refused
it (R206), and the drain command that waits for its acceptance (R159). -/
structure Msg where
  part : Nat
  target : Nat
  hpc : Nat
  word : Nat
  pay : List Nat
  back : Back
  refused : Option Nat
  drain : Option Nat
  deriving DecidableEq, Repr

/-- An accumulate (R255 to R257, R261, R263): line, kind, k code, the line's 64 bytes, the lane mask, who hears of it, and
the core, context and TASK code that own its residual (R262). -/
structure Accum where
  part : Nat
  va : Nat
  kind : Nat
  ks : Nat
  data : List Byte
  mask : Nat
  back : Back
  core : Nat
  ctx : Nat
  task : Nat
  deriving DecidableEq, Repr

/-- A write of an engine (R146, R232): its destination within one line, the multicast destination it belongs to, the bytes, the
places of those that come from poisoned words (R365), and the places of those that are undefined (R162). -/
structure EngWrite where
  cmd : Nat
  part : Nat
  va : Nat
  dest : Nat
  bytes : List Byte
  bad : List Nat
  loose : List Nat
  deriving DecidableEq, Repr

/-- A closed shelf (R269, R271): rows as index words and bytes, with the places of poisoned bytes. -/
structure Shelf where
  seq : Nat
  src : Nat
  part : Nat
  ddie : Nat
  rb : Nat
  rows : List (Nat × List Byte × List Nat)
  dock : Nat
  crc : Nat
  deriving DecidableEq, Repr

/-- A kernel wake (R299): its sender (a die's service core, or 4 and a core), the launch, what its roots run, and the cores
that have still to take it. -/
structure KWake where
  sender : Nat
  launch : Nat
  part : Nat
  pc : Nat
  arg : Nat
  set : Nat
  left : List Nat
  deriving DecidableEq, Repr

/-- A request of LAUNCH to append a block (R305). -/
structure Append where
  part : Nat
  queue : Nat
  block : List Byte
  core : Nat
  ctx : Nat
  deriving DecidableEq, Repr

/-- What is in flight between agents. -/
inductive Flight where
  | mem (r : MemReq)
  | reply (back : Back) (ans : Answer)
  | ack (back : Back) (va : Nat) (cause : Nat)
  | post (p : Post)
  /-- A wake carrying a final state to a waiter (R176, R177). -/
  | wake (token handle st v : Nat)
  | fut (q : FutReq)
  /-- A task record sent by a home core to a cluster of a package (R178). -/
  | record (home pkg cl : Nat) (r : TaskRec)
  /-- A cancel request for the task of a future, and the scheduler's reply to the home (R184). -/
  | cancelReq (handle pkg cl root : Nat) (tree : Bool)
  | cancelRep (handle cl code root : Nat) (tree : Bool)
  /-- A tree-cancel message naming a future, on its way to a scheduler of a package (R186). -/
  | treeCancel (handle pkg cl root : Nat)
  | msg (m : Msg)
  | accum (a : Accum)
  | flush (a : Accum)
  | refusal (a : Accum)
  | engWrite (w : EngWrite)
  | shelf (x : Shelf)
  /-- A shelf in one of its dock's four buffers, with the rows not yet unpacked (R274). -/
  | docked (x : Shelf)
  | kwake (w : KWake)
  | report (launch : Nat) (ok : Bool)
  | append (a : Append)
  /-- A write of XL.INV (R341), and who waits for it. -/
  | xlInv (v : Nat) (back : Back)
  /-- A posted operation that a Bexmo port has accepted and the other package has not acknowledged (R228, R351). -/
  | sent (f : Flight)
  /-- A request whose packet, or whose answer's, was lost in a dead router, and the clock at which it is settled (R380). -/
  | lost (due : Nat) (f : Flight)
  deriving DecidableEq, Repr

/-- A completion word with its register captured (R140, R141). -/
inductive CWord where
  | none
  | obj (va : Nat)
  | fut (h : Nat)
  deriving DecidableEq, Repr

/-- What a STALLED context does with the reply it waits for; `acq` is the acquire effect of its completion. -/
inductive Kont where
  | fetch (va : Nat)
  | load (d : Nat) (acq : Bool)
  | vload (d : Nat) (acq : Bool)
  | cas (d : Nat) (len : Nat) (acq : Bool)
  /-- VGATH: lanes still awaited, by flight, the lanes returned, and the lowest faulting lane with cause, address, AUX. -/
  | gather (d : Nat) (lanes : List (Nat × Nat)) (vals : List (Nat × Nat)) (bad : Option (Nat × Nat × Nat × Nat))
  /-- A status or word written to gD. -/
  | word (d : Nat)
  /-- CALLAT to another package, with the future that it created (R378). -/
  | spawned (d handle : Nat)
  /-- TTOUCH: the value to gD and the state to gD+1 (R181). -/
  | pair (d : Nat)
  /-- TOUCH: listed when its token was sent (R179). -/
  | touch (d handle : Nat) (listed : Bool)
  /-- FFREE, and other instructions that only wait for the reply. -/
  | plain
  /-- The end of a task waits for its future's home (R180, R188). -/
  | ended
  /-- MTHR: the thresholds to vD and the flags to gF (R251). -/
  | thresholds (d f : Nat)
  /-- TCOPY's descriptor (R163), with the completion word. -/
  | desc (va : Nat) (cw : CWord)
  /-- The launch block of LAUNCH and FLOOD (R305, R306). -/
  | block (d : Nat) (queue : Option Nat)
  /-- FLOOD's registration at the join's home (R306). -/
  | flood (w : KWake)
  /-- SHELFPUT's expert-table entry (R272). -/
  | expert (ea token va : Nat)
  deriving DecidableEq, Repr

/-- How a task leaves its context once its counters are zero (R30, R191, R360, R368). -/
inductive Ending where
  | cancelled
  | faulted (cause : Nat) (post : Option Post)
  | restart
  | final
  /-- A twin member whose pair diverged or consumed poison (R371). -/
  | mismatch (cause : Nat)
  deriving DecidableEq, Repr

/-- The context whose instruction is executing, the instruction's length in words (R41), and whether it is the last of
the body of an active REP (R95). -/
structure Cur where
  core : Nat
  ctx : Nat
  len : Nat
  last : Bool
  deriving DecidableEq, Repr

/-- Why a context is STALLED (R16). -/
inductive Wait where
  | none
  /-- The instruction is executed again once something it waits for has changed. -/
  | retry
  /-- A reply to the flight `id` (any flight of a gather). -/
  | reply (id : Nat) (k : Kont) (at_ : Cur)
  /-- BARWAIT on a phase of a barrier object (R138). -/
  | barrier (key gen : Nat) (at_ : Cur)
  /-- TOUCH of the control context or of a helper, listed on a future (R17, R175, R213). -/
  | listed (d handle : Nat) (at_ : Cur)
  /-- CWAIT of the control context or of a helper on the object at a location (R147). -/
  | object (d loc : Nat) (at_ : Cur)
  /-- A task whose workspace is being copied in (R202). -/
  | copyIn
  /-- Until the post of its fault has been written, or has found the mailbox full (R16, R364). -/
  | posting
  /-- STOPC or PARK of a context of the core, until it is HELD or EMPTY (R318, R319). -/
  | target (d ctx : Nat) (park : Bool) (at_ : Cur)
  /-- BANKMODE of a bank of the core's cluster until the switch can be made (R223). -/
  | bank (n : Nat)
  deriving DecidableEq, Repr

/-- What a core holds of a context outside its workspace. -/
structure Ctx where
  /-- CX.WP, as an offset in the core's private memory (R20, R24). -/
  wp : Nat
  wait : Wait
  /-- The ending that the context runs instead of fetching, once its counters allow. -/
  ending : Option Ending
  /-- Words fetched ahead, with their addresses (R34). -/
  ahead : List (Nat × Nat)
  /-- A failed fetch that the next issue takes: address, cause, AUX (R337). -/
  badFetch : Option (Nat × Nat × Nat)
  /-- START made this context a helper (R212). -/
  helper : Bool
  /-- The record of the task that the context runs: its scheduler's cluster and its id (R194). -/
  task : Option (Nat × Nat)
  /-- The task is a member of a twin pair (R369). -/
  twin : Bool
  /-- The task was spawned with .RST and has not been restarted (R368). -/
  rst : Bool
  /-- Posted operations to other packages not yet acknowledged by their targets (R351). -/
  away : Nat
  /-- TOUCH or CWAIT has found that it parks, and its parking wait runs (R30, R179). -/
  draining : Bool
  /-- STOPC asked for this context to stop, or PARK for its task to leave (R318, R319). -/
  stopReq : Bool
  parkReq : Bool
  /-- Failed commands that hold the context at its next instruction boundary (R73, R143), oldest first: cause, address, AUX. -/
  holdReq : List (Nat × Nat × Nat)
  /-- The context is HELD by STOPC, not by a fault (R312). -/
  stopped : Bool
  /-- The value that the context waits for was written by a release (R229). -/
  acq : Bool
  /-- Where the instructions of the body of the active REP began in the pass under way, as far as it has come, under CX.REPB
  (R95): found by their lengths, and kept for when a word can no longer be read (log entry 11). -/
  body : Option (Nat × List Nat)
  deriving DecidableEq, Repr

/-- A store buffered by an activation (R208): offset in the core's private memory and what is stored. -/
structure BufStore where
  off : Nat
  op : MemOp
  deriving DecidableEq, Repr

/-- The activation in the handler context (R207, R208). `futs` are the futures that it has created, by slot and generation. -/
structure Activation where
  slot : Nat
  count : Nat
  sends : Nat
  stores : Nat
  buf : List BufStore
  out : List Flight
  futs : List (Nat × Nat)
  deriving DecidableEq, Repr

/-- What a message held by an inbox asks for (R204, R211): a handler, a near atomic or nibble store with its flight's
number, or the wake of a drain with the command that it closes. -/
inductive SysOp where
  | handler
  | access (id : Nat) (r : MemReq)
  | drain (handle v : Nat)
  deriving DecidableEq, Repr

/-- A message held by an inbox: its slot, what it asks for, its sender's partition, and its redeliveries (R367). -/
structure InboxEntry where
  slot : Nat
  sys : SysOp
  part : Nat
  tries : Nat
  deriving DecidableEq, Repr

/-- An entry of a future table (R169). `tied` says that a task was created with it (R174, R182). -/
structure FutEntry where
  state : Nat
  value : Nat
  gen : Nat
  part : Nat
  cause : Nat
  cons : Bool
  dcan : Bool
  tied : Bool
  parent : Nat
  waiters : List Nat
  /-- A word of the entry is poisoned (R365, R366). -/
  bad : Bool
  deriving DecidableEq, Repr

/-- A FREE entry after reset (log entry 2 for its generation). -/
def FutEntry.reset : FutEntry :=
  { state := 0, value := 0, gen := 0, part := 0, cause := 0, cons := false, dcan := false, tied := false, parent := 0,
    waiters := [], bad := false }

/-- A tile command with its operands captured at issue (R141): the forms of R149 to R166, R250, R251 and R257. -/
inductive CmdOp where
  | mfmt (accm : Bool) (rc bf af aS aB bS bB : Nat)
  | malloc (d t g0 ng kind k : Nat)
  | mfree (t g0 ng : Nat)
  | mzero (t row0 nr : Nat)
  | mma (t shp row0 nr a sa b sb : Nat)
  | gmma (t nt nw ng a sa g sb : Nat)
  | mdrain (t row0 nr : Nat) (df : Bool) (dst x d sd : Nat)
  | mquant (t row0 nr dst x qf bS bB band d sd : Nat)
  | mrank (ts t row0 nr srow0 ncm c : Nat)
  | mthr (row0 t f d : Nat)
  | acct (t row0 nr : Nat) (df : Bool) (d sd : Nat)
  | tcopy (desc : List Byte)
  | tgather (src dst idx n rb ss ds : Nat)
  | tscatter (src dst idx n rb ss ds : Nat)
  | tmcast (src dst m n : Nat)
  | tfill (esz dst v n : Nat)
  /-- SHELFPUT and SHELFCLOSE in the copy queue (R272, R273). -/
  | shelfput (ea token die rb : Nat)
  | shelfclose (dies : List Nat)
  /-- A copy of bytes for a COPY packet (R294). -/
  | bytes (src dst n : Nat)
  deriving DecidableEq, Repr

/-- What an engine reads for some bytes of a write: a place at execution, or bytes already at hand, with the places of those that come
from poisoned words (R365). -/
inductive Src where
  | at_ (va n : Nat)
  | data (bs : List Byte) (bad : List Nat)
  deriving DecidableEq, Repr

/-- A write that a command has still to make at one destination (R232): its parts in order, each narrowed or widened from a
format to a format (R163). -/
structure Chunk where
  va : Nat
  dest : Nat
  n : Nat
  parts : List Src
  sf : Nat
  df : Nat
  /-- The number of its 256 KiB segment (R232), and the places of bytes that its command also reads (R162). -/
  seg : Nat
  loose : List Nat
  deriving DecidableEq, Repr

/-- For whom a command runs: a context, a COPY packet of a queue (R294), or a scheduler's prefetch (R198). -/
inductive Owner where
  | ctx
  | queue (part q cl : Nat)
  | task (cl rid : Nat)
  deriving DecidableEq, Repr

/-- A format context of a core (R153). -/
structure FmtCtx where
  accm : Bool
  rc : Nat
  bf : Nat
  af : Nat
  aS : Nat
  aB : Nat
  bS : Nat
  bB : Nat
  deriving DecidableEq, Repr

/-- A format context after reset (R153). -/
def FmtCtx.reset : FmtCtx := { accm := false, rc := 0, bf := 1, af := 1, aS := 0, aB := 0, bS := 0, bB := 0 }

/-- A tile command in a queue or in execution: who issued it, where its word 0 lies, the issuer's priority, the clock at
which it reached the head of its queue, its completion word, and the bytes it has still to land (R141, R142, R146). -/
structure Cmd where
  id : Nat
  core : Nat
  ctx : Nat
  pc : Nat
  part : Nat
  pri : Nat
  since : Nat
  cw : CWord
  bytes : Nat
  fmt : FmtCtx
  op : CmdOp
  owner : Owner
  /-- The writes still to make, and the first failure with its address (R143). -/
  todo : List Chunk
  failed : Option (Nat × Nat)
  /-- The multicast destinations that failed (R146), and those whose bytes were subtracted. -/
  dmask : Nat
  /-- The wake that closes a drain, once every write is acknowledged (R159). -/
  wake : Option Msg
  /-- The shelves, by flight, that a SHELFCLOSE waits for (R273). -/
  shelves : List Nat
  /-- The lines and granules that it holds, by key (R232). -/
  held : List Nat
  deriving DecidableEq, Repr

/-- A row group of an accumulator tile (R148, R238); `mine` is cleared when the core has issued MFREE (R150). -/
structure RowGroup where
  holder : Option Nat
  mine : Bool
  kind : Nat
  k : Nat
  sat : Bool
  nan : Bool
  deriving DecidableEq, Repr

/-- A row group that no core holds. -/
def RowGroup.reset : RowGroup := { holder := none, mine := false, kind := 0, k := 1, sat := false, nan := false }

/-- An entry of the wedge (R242 to R244): its key, its members in arrival order, the clock of its first arrival, that of its
earliest priority-3 arrival, the clock of its release, and the hold time when it opened (R239). -/
structure WedgeEnt where
  key : List Nat
  members : List Cmd
  opened : Nat
  hold : Nat
  urgent : Option Nat
  released : Option Nat
  deriving DecidableEq, Repr

/-- A FLUSHRES or the flush of R264 not yet applied: its context, PC, and the flights it waits for (R258). -/
structure FlushGroup where
  ctx : Nat
  pc : Nat
  waits : List Nat
  deriving DecidableEq, Repr

/-- Where the workspace of a task without a context lies (R202): nowhere yet, in a slot of a core, or in the save area. -/
inductive Ws where
  | fresh
  | resident (core wp : Nat)
  | saved
  deriving DecidableEq, Repr

/-- What a dispatched task does first (R177, R189, R202): start at its entry PC, execute the instruction at its saved CX.PC
again, complete its TOUCH from the carried state, or complete its CWAIT with the object's status. -/
inductive Resume where
  | fresh
  | again
  | touched (d handle st v : Nat) (at_ : Cur)
  | waited (d v : Nat) (at_ : Cur)
  /-- Parked in TOUCH of a future, or in CWAIT on the object at a location. -/
  | inTouch (d handle : Nat) (at_ : Cur)
  | inCwait (d loc : Nat) (at_ : Cur)
  /-- The future's home package can no longer be reached (R379). -/
  | lost (handle : Nat) (at_ : Cur)
  deriving DecidableEq, Repr

/-- What a scheduler holds of a record beside its bytes (R194 to R202): the stages of R174 but DONE, by code. -/
structure Task where
  used : Bool
  handle : Nat
  pri : Nat
  stage : Nat
  elig : Nat
  /-- The clock at which it entered READY or last rose (R201). -/
  since : Nat
  /-- Its part of the prefetch pool, and the tiles' offsets (R198). -/
  pool : Option (Nat × Nat)
  offs : List Nat
  ws : Ws
  resume : Resume
  /-- The context that it holds while RUNNING. -/
  core : Nat
  ctx : Nat
  twin : Option Nat
  rst : Bool
  deriving DecidableEq, Repr

/-- A record place that no task has. -/
def Task.reset : Task :=
  { used := false, handle := 0, pri := 0, stage := 0, elig := 0, since := 0, pool := none, offs := [], ws := .fresh, resume := .fresh,
    core := 0, ctx := 0, twin := none, rst := false }

/-- An open shelf (R271). -/
structure OpenShelf where
  part : Nat
  rb : Nat
  first : Nat
  rows : List (Nat × List Byte × List Nat)
  dock : Nat
  deriving DecidableEq, Repr

/-- The two members of a twin pair (R369 to R371), as cluster and record id, their requests not yet matched, the CRC-32C that the
comparator has chained over each member's requests, and whether the task has been run again. -/
structure Pair where
  mine : Nat × Nat
  other : Nat × Nat
  qa : List (Nat × Flight)
  qb : List (Nat × Flight)
  crcA : Nat
  crcB : Nat
  again : Bool
  deriving DecidableEq, Repr

/-- A compute core. -/
structure CoreState where
  ctxs : Tbl Ctx
  /-- The context that last issued in step 2 of R18. -/
  lastIssued : Nat
  /-- Issues of context 1 in a row while another context was READY (R18). -/
  handlerRun : Nat
  act : Option Activation
  inbox : List InboxEntry
  /-- Sequence of the last atomic or nibble store sent to another agent (R129). -/
  seq : Nat
  /-- Sequences and results of the last 64 operations executed here, by source, newest first (R129). -/
  replay : Tbl (List (Nat × Nat))
  /-- TR.VEC, TR.CVEC, TR.MASK (R357). -/
  trVec : Nat
  trCvec : Nat
  trMask : Nat
  /-- MB.FUT, MB.LOST and the mailbox's private tail count (R364). -/
  mbFut : Nat
  mbLost : Nat
  mbTail : Nat
  /-- FT.LIMIT, FT.SPBASE, FT.SPENT (R170). -/
  ftLimit : Nat
  ftSpBase : Nat
  ftSpEnt : Nat
  /-- The queues into the matrix unit and the copy engine, oldest first (R142), and the format context (R153). -/
  matQ : List Cmd
  copyQ : List Cmd
  fmt : FmtCtx
  /-- Flush accumulates in flight and the groups that wait for them (R258). -/
  flushing : List Nat
  flushes : List FlushGroup
  /-- Resident workspaces, longest resident first: slot, cluster and record id (R202). -/
  resident : List (Nat × Nat × Nat)
  /-- The refusal queue of the inbox: senders in refusal order (R384). -/
  refusals : List Nat
  /-- The flights in the outbox slots: what the last activation sent (R207, R208). -/
  outbox : List Nat
  /-- The future table (R169), by slot. -/
  futs : Tbl FutEntry
  /-- Spilled futures that are tied to a task, as generation * 1024 + slot (R173, R182). -/
  tiedSpill : List Nat
  deriving DecidableEq, Repr

/-- A cluster. -/
structure Cluster where
  /-- The row groups of the accumulator memory, group 8 t + g (R238). -/
  groups : Tbl RowGroup
  /-- MX.WEIGHT, WEDGE.HOLD, MX.SHAPES (R157, R239). -/
  mxWeight : Nat
  wedgeHold : Nat
  mxShapes : Nat
  /-- Credits of the cores and the core last served (R240). -/
  credits : Tbl Nat
  lastServed : Nat
  /-- The wedge's entries, released ones in release order (R240, R242). -/
  wedge : List WedgeEnt
  /-- CS.MODE (R218). -/
  csMode : Nat
  fenced : Bool
  /-- BAR.TMO of the quad and cluster objects (R216). -/
  barTmo : Nat
  /-- The scheduler's control fields (R193). -/
  ovBase : Nat
  ovEnt : Nat
  wsBase : Nat
  pfBase : Nat
  pfSize : Nat
  trBase : Nat
  resv : Nat
  /-- Records by id, and those QUEUED for the prefetch pool and READY, each oldest first (R197 to R199). -/
  tasks : Tbl Task
  queued : List Nat
  ready : List Nat
  /-- The load hints last published to the die and to the package, and the clocks of it (R200). -/
  hintDie : Nat
  hintPkg : Nat
  hintDieAt : Nat
  hintPkgAt : Nat
  /-- The slice agent's quotas as written and as in force, and the counts of its window (R259). -/
  accLine : Nat
  accSlice : Nat
  accLineNow : Nat
  accSliceNow : Nat
  accCount : Nat
  accLines : List (Nat × Nat × Nat)
  accWin : Nat
  /-- The shelf builder: open shelves and the next SEQ by die, and its fields (R268, R271). -/
  shelfTimer : Nat
  xtBase : Nat
  shelves : List (Nat × OpenShelf)
  shelfSeq : Tbl Nat
  /-- Sequences and results of the last 64 operations executed by the slice and by the store port, by source (R129). -/
  sliceReplay : Tbl (List (Nat × Nat))
  portReplay : Tbl (List (Nat × Nat))
  deriving DecidableEq, Repr

/-- What a graph walker does (R303, R304): it stands before a node, waits for a kernel of a node, or waits for every kernel
of the walk before it stops with a cause. -/
inductive WalkState where
  | at_
  | kernel (launch next : Nat)
  | stopping (cause : Nat)
  deriving DecidableEq, Repr

/-- A graph walker (R303): its walk's partition, queue, graph, node, join handle, done address, and the failed roots of the
kernels that have completed. -/
structure Walker where
  part : Nat
  q : Nat
  base : Nat
  node : Nat
  join : Nat
  done : Nat
  failed : Nat
  st : WalkState
  deriving DecidableEq, Repr

/-- A launch at its counting agent (R301, R302): the roots, the reports taken, those not RESOLVED, where the done word and
the join go, and what waits for it: a queue, a walker of a die, or nothing. -/
structure Launch where
  part : Nat
  count : Nat
  got : Nat
  bad : Nat
  done : Nat
  join : Nat
  queue : Option Nat
  walker : Option (Nat × Nat)
  /-- Its done step waits for the resolution of the join (R302). -/
  joining : Bool
  deriving DecidableEq, Repr

/-- What a service core has seen of a queue (R292, R295, R296): WRITE as last read, whether it stands stopped, whether its
WAIT_VALUE was given up and at which clock, and whether its packet has begun (R311, R316). -/
structure QState where
  write : Nat
  stopped : Bool
  gaveUp : Option Nat
  begun : Bool
  /-- The flight whose answer its packet's step waits for (R294, R295). -/
  asked : Option Nat
  deriving DecidableEq, Repr

/-- A queue that no service core has seen. -/
def QState.reset : QState := { write := 0, stopped := false, gaveUp := none, begun := false, asked := none }

/-- What the package sends to the control node (R295, R307, R353, R391): a response with data or a cause, a queue-stopped notice,
a partition's entry, which privileged packets return, and a firmware notice of code, cause, SVN and detail at a control port. -/
inductive HostMsg where
  | data (port : Nat) (bs : List Byte)
  | done (port : Nat)
  | refused (port cause : Nat)
  | queueStopped (part q : Nat)
  | entry (part state : Nat) (clusters : List Nat) (pages : Nat) (frames : List (Nat × Nat)) (ports : List Nat)
      (supv alog alsize appended baseline rdrain rdrop : Nat)
  | notice (port code cause svn detail : Nat)
  deriving DecidableEq, Repr

/-- An image that a kiln has verified (R387). -/
structure FwImage where
  svn : Nat
  commit : Bool
  stateMin : Nat
  stateVer : Nat
  bytes : List Byte
  deriving DecidableEq, Repr

/-- A kiln (R390, R393): the image it runs, if it has booted one. -/
structure Kiln where
  image : Option FwImage
  deriving DecidableEq, Repr

/-- Refiring (R393): the staged image on the standby, and the clock at which step 3 began. -/
structure Refire where
  image : FwImage
  since : Nat
  deriving DecidableEq, Repr

/-- A Bexmo port (R373 to R376): dead or live, the SEQ of its own updates, BX.LRETRY and BX.LCLASS, the clocks of its replays in the
window under way, and that at which its receiver lost lane lock, while it has none. -/
structure Port where
  dead : Bool
  seq : Nat
  lretry : Nat
  lclass : Nat
  replays : List Nat
  unlocked : Option Nat
  deriving DecidableEq, Repr

/-- A port after reset (R323). -/
def Port.reset : Port := { dead := false, seq := 0, lretry := 16, lclass := 1, replays := [], unlocked := none }

/-- A drain of the dead path to a package (R377): the round, its end, and the flights still on the dead path. -/
structure Drain where
  dest : Nat
  round : Nat
  ends : Nat
  left : List Nat
  deriving DecidableEq, Repr

/-- A non-leaf entry that a page walker holds (R330): the partition, the level, the index bits of that level and above, and the
physical address of the table below. -/
structure WalkEnt where
  part : Nat
  level : Nat
  tag : Nat
  table : Nat
  deriving DecidableEq, Repr

/-- A die. -/
structure Die where
  /-- Flights whose translation waits for the page walker, in arrival order (R330). -/
  walkQueue : List Nat
  /-- The non-leaf entries that the page walker holds (R330). -/
  walkCache : List WalkEnt
  /-- BAR.DPART and the die's BAR.TMO (R214, R216). -/
  barPart : Nat
  barTmo : Nat
  /-- The frame sweeper (R343), with the clock of its last record. -/
  fsBase : Nat
  fsQBase : Nat
  fsQSize : Nat
  fsQHead : Nat
  fsQTail : Nat
  fsWmark : Nat
  fsRate : Nat
  fsHand : Nat
  fsAt : Nat
  /-- The queue last served by the service core, as partition * 64 + queue (R293). -/
  lastQueue : Nat
  /-- Graph walkers by number (R303). -/
  walkers : List (Nat × Walker)
  /-- Telemetry (R398): POWER, TEMP, CE, UE, LRETRY. -/
  power : Nat
  temp : Nat
  ce : Nat
  ue : Nat
  lretry : Nat
  /-- The partitions that kiln firmware is stopping for the die's temperature (R397). -/
  hot : List Nat
  deriving DecidableEq, Repr

/-- The states of a partition (R307). -/
inductive PartStatus where
  | unused | stopped | running | swapped | resetting
  deriving DecidableEq, Repr

/-- A partition entry (R307). -/
structure Part where
  status : PartStatus
  clusters : List Nat
  /-- PAGES: the page-table root and the frame ranges (R307); and the root that every walker of the package holds (R331). -/
  pages : Nat
  frames : List (Nat × Nat)
  root : Nat
  ports : List Nat
  supv : Nat
  /-- XP.SPID (R349). -/
  spid : Nat
  /-- The queue table's base (R292). -/
  cqBase : Nat
  /-- The arrival log (R307, R313): base, record count, records appended and replayed, and the flights behind the records
  still in it. -/
  alog : Nat
  alsize : Nat
  appended : Nat
  replayed : Nat
  logged : List (Nat × Flight)
  /-- The address of the last image layer written or restored, or 0; items drained and dropped by the last reset (R307). -/
  baseline : Nat
  rdrain : Nat
  rdrop : Nat
  /-- The partition is stopping (R311), or its log is being replayed (R314). -/
  stopping : Bool
  replaying : Bool
  deriving DecidableEq, Repr

/-- A TLB entry of a home slice (R330): tagged with partition, page base and size; the leaf entry and its group's first entry. -/
structure TlbEnt where
  slice : Nat
  part : Nat
  vbase : Nat
  size : Nat
  pte : Nat
  pteLoc : Nat
  deriving DecidableEq, Repr

/-- What happens next, as data: which agent moves (log entry 3). -/
inductive Move where
  | issue (core : Nat)
  | event (i : Instr)
  | tick (n : Nat)
  | fetchAhead (core ctx : Nat)
  | dropTlb (n : Nat)
  | dropWalk (die n : Nat)
  | softError (loc : Nat)
  /-- A word of a future table is struck (R365). -/
  | softFut (core slot : Nat)
  /-- A running command reads its next sources and sends its next write (R231, R232). -/
  | engine (cmd : Nat)
  /-- A slice writes a dirty byte's line of a partition back to HBM (R217). -/
  | writeBack (part pa : Nat)
  /-- A request or message of another package arrives, from a system partition and at a port (R349). -/
  | arrive (spid port : Nat) (f : Flight)
  /-- Another package answers or acknowledges a flight sent to it (R350, R351): its cause, or zero, its value, and whether a release
  wrote that (R229). -/
  | answered (id cause aux v : Nat) (rel : Bool)
  /-- Kiln firmware gives a partition its entry (R307). -/
  | partition (n : Nat) (p : Part)
  /-- A die's readings: power and temperature, and the corrected errors and replays that it counts (R398). -/
  | sensor (die power temp ce lretry : Nat)
  /-- A packet held in a dead router is lost (R380): a request's, or that of the answer to it which an event gives; or the round after
  the loss is over. -/
  | lost (id : Nat) (answered : Option Instr)
  /-- A port replays a flit, or its receiver loses or regains lane lock (R373). -/
  | replay (port : Nat)
  | lock (port : Nat) (held : Bool)
  deriving DecidableEq, Repr

/-- A barrier object (R135, R216): its word, the clock of the first arrival of the phase, and whether the phase has timed
out. -/
structure Barrier where
  word : Nat
  start : Option Nat
  timedOut : Bool
  deriving DecidableEq, Repr

/-- A barrier object after reset (R135). -/
def Barrier.reset : Barrier := { word := 0x10001, start := none, timedOut := false }

/-- What a section of an image layer holds where R312 gives it no layout (KIND 2, 3, 5, 6 and 7; log entry 30): of its cores, of its
cluster, its held accumulator rows with their poison, its barrier objects, the launches of a core's root futures, and a scheduler's
waits, twin pairs and waiter links. -/
structure Image where
  cores : List CoreState
  cluster : Cluster
  acc : Memory
  bad : List Nat
  barriers : Tbl Barrier
  roots : Tbl Nat
  cwaits : List (Nat × Bool × Nat × Nat)
  pairs : List (Nat × Pair)
  links : Tbl Nat
  deriving DecidableEq, Repr

/-- The whole package. -/
structure State where
  clock : Nat
  cur : Cur
  turn : Nat
  agenda : List Move
  nextId : Nat
  /-- The counter behind the free values (log entry 4). -/
  free : Nat
  /-- BX.PKGID: the package's id (R323, R346). -/
  pkgId : Nat
  mem : Memory
  /-- Dirty bytes held by L2 slices, by partition and physical address (R217). -/
  l2 : Memory
  /-- The 64-bit words, by location of their first byte, that are poisoned (R365). -/
  poisoned : List Nat
  cores : Tbl CoreState
  clusters : Tbl Cluster
  dies : Tbl Die
  parts : Tbl Part
  tlb : List TlbEnt
  flights : List (Nat × Flight)
  /-- The schedulers' links from a waiter token of a spilled future to the next (R173, R175). -/
  links : Tbl Nat
  /-- Barrier objects by level, unit and number (R135), BAR.PPART and the package's BAR.TMO (R214, R216). -/
  barriers : Tbl Barrier
  barPart : Nat
  barTmo : Nat
  /-- The route table, by destination package (R347), and the ports of this package on each route (R349, R376). -/
  routes : Tbl Nat
  routePorts : Tbl (List Nat)
  /-- The links, by package * 256 + port, that each computed route takes (R376, R377). -/
  routeLinks : Tbl (List Nat)
  /-- Chunks of 64 bytes of private memories and regions of 4 KiB of cluster stores written since the last layer (R312). -/
  dirty : List Nat
  /-- The chunks of the register caches that are valid, and those that are dirty, as core * 1024 + context * 48 + chunk (R25). -/
  chunks : List Nat
  unsaved : List Nat
  /-- The bytes whose value a release wrote (R229). -/
  released : List Nat
  /-- What has been written where, newest first: the values that undefined contents may hold (R9). -/
  past : List (Nat × List Byte)
  /-- Commands in execution (R142). -/
  running : List (Nat × Cmd)
  /-- Cancellations not yet answered (R186): the request, who hears of it, and the outcome code once known. -/
  cancels : List (Nat × Back × Option Nat)
  /-- Waiters that a reset of their partition ended while another package's future listed them: token and handle (R372). -/
  orphans : List (Nat × Nat)
  /-- Twin pairs, and the requests of partners that the replies to their primaries' answer (R370): the primary's flight, the
  partner's, and who hears of it. -/
  pairs : List (Nat × Pair)
  aliases : List (Nat × Nat × Back)
  /-- Parked and STALLED CWAITs: the object's location, and the cluster and record, or the core and context (R147). -/
  cwaits : List (Nat × Bool × Nat × Nat)
  /-- Launches at their counting agents (R301), and the launch of each root future: core, slot and generation (R300). -/
  launches : List (Nat × Launch)
  roots : Tbl Nat
  /-- What the service cores have seen of the queues, by partition * 64 + queue (R292). -/
  queues : Tbl QState
  /-- What the sections of images that the package has written hold, where the specification gives them no layout: by KIND and the
  section's bytes, newest first (R312; log entry 30). -/
  images : List (Nat × List Byte × Image)
  /-- What has been sent to the control node, oldest first. -/
  toHost : List HostMsg
  /-- What requesters in other packages have been answered, by their numbers, oldest first (R349, R350). -/
  toFar : List (Nat × Answer)
  /-- The link-state updates sent on Bexmo links, as port and word, oldest first (R374, R375). -/
  toLinks : List (Nat × Nat)
  /-- Whether BOOT_DONE has been reported (R390). -/
  booted : Bool
  kilnA : Kiln
  kilnB : Kiln
  /-- Whether kiln B is the active one (R390). -/
  activeB : Bool
  /-- The blown fuses among the 128 of the security version (R388). -/
  fuses : List Nat
  refire : Option Refire
  /-- The nonce as written, whether a quote is being made, and the quote (R395, R399). -/
  nonce : List Byte
  quoting : Bool
  quote : Option (List Byte)
  /-- The private part of the device identity key, once the kilns have booted (R395). -/
  deviceKey : Option Nat
  /-- PWR.CAP and the limiter's duty, 256 when it issues on every clock (R397). -/
  pwrCap : Nat
  duty : Nat
  /-- Control ports that have failed (R355). -/
  deadPorts : List Nat
  ports : Tbl Port
  /-- Link states by package * 256 + port: the last SEQ accepted and whether the link is DEAD (R375), and whether an update waits
  to be recomputed (R376). -/
  links2 : Tbl (Nat × Bool)
  recompute : Bool
  drains : List Drain
  /-- Lines of L2 not written back: the slice that first dirtied each, plus one (R381), and the line's virtual address. -/
  holders : Tbl (Nat × Nat)
  deriving DecidableEq, Repr

/-- A context after reset: its workspace is the slot of its own number (R23; log entry 2), and it waits for nothing. -/
def Ctx.reset (n : Nat) : Ctx :=
  { wp := 0x30000 + 0xC00 * n, wait := .none, ending := none, ahead := [], badFetch := none, helper := false, task := none,
    twin := false, rst := false, away := 0, draining := false, stopReq := false, parkReq := false, holdReq := [],
    stopped := false, acq := false, body := none }

/-- A core after reset (R170, R357, R364; log entry 2). -/
def CoreState.reset : CoreState :=
  { ctxs := [], lastIssued := 0, handlerRun := 0, act := none, inbox := [], seq := 0, replay := [],
    trVec := 0, trCvec := 0, trMask := 0, mbFut := 0, mbLost := 0, mbTail := 0,
    ftLimit := 1024, ftSpBase := 0, ftSpEnt := 0, futs := [], tiedSpill := [],
    matQ := [], copyQ := [], fmt := .reset, flushing := [], flushes := [], resident := [], refusals := [], outbox := [] }

/-- A cluster after reset (R218). -/
def Cluster.reset : Cluster :=
  { groups := [], mxWeight := 0x11111111, wedgeHold := 256, mxShapes := 0x4000200010, credits := [], lastServed := 0, wedge := [],
    csMode := 0, fenced := false, barTmo := 0, ovBase := 0, ovEnt := 0, wsBase := 0, pfBase := 0, pfSize := 0, trBase := 0,
    resv := 0, tasks := [], queued := [], ready := [], hintDie := 0, hintPkg := 0, hintDieAt := 0, hintPkgAt := 0, accLine := 8,
    accSlice := 256, accLineNow := 8, accSliceNow := 256, accCount := 0, accLines := [], accWin := 0, shelfTimer := 2000, xtBase := 0, shelves := [], shelfSeq := [],
    sliceReplay := [], portReplay := [] }

/-- A die after reset. -/
def Die.reset : Die :=
  { walkQueue := [], walkCache := [], barPart := 0, barTmo := 0, fsBase := 0, fsQBase := 0, fsQSize := 64, fsQHead := 0, fsQTail := 0,
    fsWmark := 16, fsRate := 0, fsHand := 0, fsAt := 0, lastQueue := 0, walkers := [], power := 0, temp := 0, ce := 0,
    ue := 0, lretry := 0, hot := [] }

/-- A partition entry after reset (R307). -/
def Part.reset : Part :=
  { status := .unused, clusters := [], pages := 0, frames := [], root := 0, ports := [], supv := 0, spid := 0, cqBase := 0, alog := 0,
    alsize := 256, appended := 0, replayed := 0, logged := [], baseline := 0, rdrain := 0, rdrop := 0, stopping := false,
    replaying := false }

/-- The package after reset. -/
def State.reset : State :=
  { clock := 0, cur := { core := 0, ctx := 0, len := 1, last := false }, turn := 0, agenda := [], nextId := 0, free := 0, pkgId := 0,
    mem := [], l2 := [], poisoned := [], cores := [], clusters := [], dies := [], parts := [], tlb := [], flights := [],
    links := [], barriers := [], barPart := 0, barTmo := 0, routes := [], routePorts := [], routeLinks := [], dirty := [], chunks := [], unsaved := [],
    released := [], past := [], running := [], cancels := [], orphans := [], pairs := [], aliases := [], cwaits := [], launches := [], roots := [],
    queues := [], images := [], toHost := [], toFar := [], toLinks := [], booted := false, kilnA := { image := none }, kilnB := { image := none },
    activeB := false, fuses := [], refire := none, nonce := List.replicate 48 0, quoting := false, quote := none, deviceKey := none, pwrCap := 4500,
    duty := 256, deadPorts := [], ports := [], links2 := [], recompute := false, drains := [], holders := [] }

end Sys2Proof.Machine
end

