-- ==== Sys2Proof/Machine/Mem.lean ====
section
/-! DEFINITION. Machine/Mem.lean: bit fields, little-endian bytes, canonical memories and sparse tables. -/
namespace Sys2Proof.Machine

/-- Bits hi down to lo of a value (R4). -/
def bits (v hi lo : Nat) : Nat := v / 2 ^ lo % 2 ^ (hi + 1 - lo)

/-- One bit of a value. -/
def bitOf (v n : Nat) : Bool := v / 2 ^ n % 2 == 1

/-- `v` with bits hi down to lo replaced by the low bits of `x`. -/
def setBits (v hi lo x : Nat) : Nat :=
  v % 2 ^ lo + (x % 2 ^ (hi + 1 - lo)) * 2 ^ lo + v / 2 ^ (hi + 1) * 2 ^ (hi + 1)

/-- The signed value of the low `n` bits. -/
def toSigned (v n : Nat) : Int :=
  let x := v % 2 ^ n
  if x < 2 ^ (n - 1) then x else (x : Int) - 2 ^ n

/-- An integer's low `n` bits. -/
def ofSigned (v : Int) (n : Nat) : Nat := (v % 2 ^ n).toNat

/-- The `n` little-endian bytes of a value (R4). -/
def bytesOf : Nat → Nat → List Byte
  | 0, _ => []
  | n + 1, v => BitVec.ofNat 8 v :: bytesOf n (v / 256)

/-- The value of little-endian bytes (R4). -/
def natOf : List Byte → Nat
  | [] => 0
  | b :: bs => b.toNat + 256 * natOf bs

/-- What an unlisted location reads as: zero (log entry 1), but for CX.STATUS.CTX in the slot of each context's first workspace, which
holds the context's number (R22; log entry 2). -/
def resetByte (loc : Nat) : Byte :=
  if bits loc 63 46 = 0x08 * 2 ^ 10 ∧ bits loc 36 33 < 8 ∧ 0x30000 + 0xA18 ≤ loc % 2 ^ 33 ∧ loc % 2 ^ 33 < 0x30000 + 0xC00 * 12 ∧
      (loc % 2 ^ 33 - 0x30000) % 0xC00 = 0xA18 then
    BitVec.ofNat 8 (16 * ((loc % 2 ^ 33 - 0x30000) / 0xC00))
  else 0

/-- The byte at a location. -/
def Memory.get : Memory → Nat → Byte
  | [], a => resetByte a
  | (k, b) :: t, a => if k = a then b else Memory.get t a

/-- The listed byte at a location, if any. -/
def Memory.find : Memory → Nat → Option Byte
  | [], _ => none
  | (k, b) :: t, a => if k = a then some b else Memory.find t a

/-- The cells of bytes placed from a location on that differ from what they would read as unlisted. -/
def cellsFrom : Nat → List Byte → Memory
  | _, [] => []
  | a, b :: bs => if b = resetByte a then cellsFrom (a + 1) bs else (a, b) :: cellsFrom (a + 1) bs

/-- Every cell of bytes placed from a location on, zeros included. -/
def allCells : Nat → List Byte → Memory
  | _, [] => []
  | a, b :: bs => (a, b) :: allCells (a + 1) bs

/-- The cells outside a range of locations, those below and those above it. -/
def Memory.cut (m : Memory) (a n : Nat) (mid : Memory) : Memory :=
  m.filter (fun c => decide (c.1 < a)) ++ mid ++ m.filter (fun c => decide (a + n ≤ c.1))

/-- Bytes written from a location on, in canonical form. -/
def Memory.write (m : Memory) (a : Nat) (bs : List Byte) : Memory := m.cut a bs.length (cellsFrom a bs)

/-- Bytes written from a location on, each of them listed (the L2 overlay, where a listed zero is dirty data). -/
def Memory.overlay (m : Memory) (a : Nat) (bs : List Byte) : Memory := m.cut a bs.length (allCells a bs)

/-- The `n` bytes from a location on. -/
def Memory.read (m : Memory) : Nat → Nat → List Byte
  | _, 0 => []
  | a, n + 1 => m.get a :: m.read (a + 1) n

/-- Whether locations rise strictly. -/
def risingKeys {α : Type} : List (Nat × α) → Bool
  | [] => true
  | [_] => true
  | (a, _) :: (b, x) :: t => decide (a < b) && risingKeys ((b, x) :: t)

/-- The canonical form of a memory: rising locations, and nothing listed that would read the same unlisted. -/
def Memory.wf (m : Memory) : Bool := risingKeys m && m.all (fun c => c.2 != resetByte c.1)

/-- The entry of a table at a key. -/
def Tbl.get {α : Type} (dflt : α) : Tbl α → Nat → α
  | [], _ => dflt
  | (k, x) :: t, a => if k = a then x else Tbl.get dflt t a

/-- A table with the entry at a key replaced. -/
def Tbl.set {α : Type} [DecidableEq α] (dflt : α) (t : Tbl α) (a : Nat) (x : α) : Tbl α :=
  t.filter (fun e => decide (e.1 < a)) ++ (if x = dflt then [] else [(a, x)]) ++ t.filter (fun e => decide (a < e.1))

/-- A number added to a rising list without repeats. -/
def insertNat (a : Nat) (xs : List Nat) : List Nat :=
  xs.filter (fun x => decide (x < a)) ++ [a] ++ xs.filter (fun x => decide (a < x))

/-- The first key of a list of numbered items, with the item. -/
def lookupId {α : Type} (id : Nat) : List (Nat × α) → Option α
  | [] => none
  | (k, x) :: t => if k = id then some x else lookupId id t

/-- A list of numbered items without one number. -/
def dropId {α : Type} (id : Nat) (xs : List (Nat × α)) : List (Nat × α) := xs.filter (fun x => x.1 != id)

/-- A list of numbered items with one item replaced, in place. -/
def putId {α : Type} (id : Nat) (y : α) (xs : List (Nat × α)) : List (Nat × α) :=
  xs.map (fun x => if x.1 = id then (id, y) else x)

end Sys2Proof.Machine
end

