-- ==== Sys2Proof/Machine/Regs.lean ====
section
/-! DEFINITION. Machine/Regs.lean: the locations of on-chip memories, and the one set of accessors through which every
register of a context is read and written: general, vector and mask registers, the context words, CX.STATUS and the
outstanding counters (R20 to R22, R28). -/
namespace Sys2Proof.Machine

/-- The near-space location of a byte of a unit of a cluster (R327). -/
def nearLoc (cluster unit off : Nat) : Nat :=
  0x08 * 2 ^ 56 + cluster / 128 * 2 ^ 44 + cluster % 128 * 2 ^ 37 + unit * 2 ^ 33 + off

/-- The cluster of a core, numbered over the package (R11). -/
def clusterOf (core : Nat) : Nat := core / 8
/-- The die of a core (R11). -/
def dieOf (core : Nat) : Nat := core / 1024

/-- The location of a byte of a core's private memory. -/
def pmLoc (core off : Nat) : Nat := nearLoc (core / 8) (core % 8) off

/-- The location of a key of the L2 overlay (R217): a partition and a physical address. -/
def l2Key (part pa : Nat) : Nat := 2 ^ 64 + part * 2 ^ 40 + pa

def State.core (s : State) (n : Nat) : CoreState := Tbl.get CoreState.reset s.cores n
def State.setCore (s : State) (n : Nat) (c : CoreState) : State :=
  { s with cores := Tbl.set CoreState.reset s.cores n c }
def State.cluster (s : State) (n : Nat) : Cluster := Tbl.get Cluster.reset s.clusters n
def State.setCluster (s : State) (n : Nat) (c : Cluster) : State :=
  { s with clusters := Tbl.set Cluster.reset s.clusters n c }
def State.die (s : State) (n : Nat) : Die := Tbl.get Die.reset s.dies n
def State.setDie (s : State) (n : Nat) (d : Die) : State := { s with dies := Tbl.set Die.reset s.dies n d }
def State.part (s : State) (n : Nat) : Part := Tbl.get Part.reset s.parts n
def State.setPart (s : State) (n : Nat) (p : Part) : State := { s with parts := Tbl.set Part.reset s.parts n p }

/-- What a core holds of one of its contexts. -/
def State.ctxAt (s : State) (core ctx : Nat) : Ctx := Tbl.get (Ctx.reset ctx) (s.core core).ctxs ctx
def State.setCtxAt (s : State) (core ctx : Nat) (c : Ctx) : State :=
  s.setCore core { s.core core with ctxs := Tbl.set (Ctx.reset ctx) (s.core core).ctxs ctx c }

/-- The executing core's record and the executing context's. -/
def State.me (s : State) : CoreState := s.core s.cur.core
def State.setMe (s : State) (c : CoreState) : State := s.setCore s.cur.core c
def State.myCtx (s : State) : Ctx := s.ctxAt s.cur.core s.cur.ctx
def State.setMyCtx (s : State) (c : Ctx) : State := s.setCtxAt s.cur.core s.cur.ctx c

/-- The key of the dirty bit over a location of a near unit: 64 bytes of a private memory, 4 KiB of a store (R312). -/
def dirtyKey (loc : Nat) : Nat := if bits loc 36 33 < 8 then loc / 64 else 2 ^ 64 + loc / 4096

/-- The dirty bits over bytes written from a location on; memory behind the slices has none. -/
def dirtyKeys (loc n : Nat) : List Nat :=
  if loc < 2 ^ 59 then [] else (List.range ((loc % 64 + n + 63) / 64)).map (fun i => dirtyKey (loc / 64 * 64 + 64 * i))

/-- Bytes put at a location. A write of all of a poisoned word's bytes clears its poison (R365); what a release had written there is
no longer what a reader finds (R229); and the bytes join those that the storage has held (R9). -/
def State.put (s : State) (loc : Nat) (bs : List Byte) : State :=
  { s with mem := s.mem.write loc bs,
           poisoned := s.poisoned.filter (fun w => !(decide (loc ≤ w) && decide (w + 8 ≤ loc + bs.length))),
           released := s.released.filter (fun a => decide (a < loc) || decide (loc + bs.length ≤ a)),
           past := (loc, bs) :: s.past }

/-- Bytes written at a location: a write of a near unit sets the dirty bits over it (R312). -/
def State.wr (s : State) (loc : Nat) (bs : List Byte) : State :=
  { s.put loc bs with dirty := (dirtyKeys loc bs.length).foldl (fun d k => insertNat k d) s.dirty }

/-- What a byte of storage may hold where its contents are undefined (R9): zero, or any value that it has held since it was last
cleared for another partition. -/
def State.olds (s : State) (loc : Nat) : List Byte :=
  0 :: s.mem.get loc :: s.past.filterMap (fun e => if e.1 ≤ loc then e.2[loc - e.1]? else none)

/-- Undefined contents of a byte of storage: one of those values, by a free value of its own (R9; log entry 4). -/
def State.undefinedByte (s : State) (k loc : Nat) : Byte :=
  (s.olds loc).getD (Config.freeNat k % (s.olds loc).length) 0

/-- `n` undefined bytes of storage at a location. -/
def State.undefinedBytes (s : State) (loc n : Nat) : List Byte := (List.range n).map (fun i => s.undefinedByte (s.free + i) (loc + i))

/-- Contents at a location become undefined (R9; log entry 4). -/
def State.wrFree (s : State) (loc n : Nat) : State := { s.wr loc (s.undefinedBytes loc n) with free := s.free + n }

/-- What storage has held is forgotten: undefined contents never hold another partition's data (R9). -/
def State.forget (s : State) (mine : Nat → Bool) : State := { s with past := s.past.filter (fun e => !mine e.1) }

/-- Bytes read at a location. -/
def State.rd (s : State) (loc n : Nat) : List Byte := s.mem.read loc n

/-- Whether any of `n` bytes from a location lies in a poisoned word (R365). -/
def State.tainted (s : State) (loc n : Nat) : Bool :=
  s.poisoned.any (fun w => decide (w < loc + n) && decide (loc < w + 8))

/-- The places, among `n` bytes from a location, of those that lie in poisoned words. -/
def State.badAt (s : State) (loc n : Nat) : List Nat := (List.range n).filter (fun i => s.tainted (loc + i) 1)

/-- The words that hold the given bytes from a location become poisoned (R365). -/
def State.poisonAt (s : State) (loc : Nat) (bad : List Nat) : State :=
  { s with poisoned := bad.foldl (fun p i => insertNat ((loc + i) / 8 * 8) p) s.poisoned }

/-- The workspace of a context (R20), as a location. -/
def State.wsLoc (s : State) (core ctx off : Nat) : Nat := pmLoc core ((s.ctxAt core ctx).wp + off)

/-- The chunks of the register cache over bytes of a context's workspace, by number (R25). -/
def chunkKeys (core ctx off n : Nat) : List Nat :=
  (List.range ((off % 64 + n + 63) / 64)).map (fun i => core * 1024 + ctx * 48 + off / 64 + i)

/-- An access to bytes of a context's workspace: chunks that are not valid are filled from private memory (R25). -/
def State.fillChunks (s : State) (core ctx off n : Nat) : State :=
  { s with chunks := (chunkKeys core ctx off n).foldl (fun d k => insertNat k d) s.chunks }

/-- Bytes written in a context's current workspace: through the register cache, whose chunk becomes dirty; the dirty bits of private
memory are set at the write-back (R25). -/
def State.cacheWr (s : State) (core ctx off : Nat) (bs : List Byte) : State :=
  let t := (s.put (s.wsLoc core ctx off) bs).fillChunks core ctx off bs.length
  { t with unsaved := (chunkKeys core ctx off bs.length).foldl (fun d k => insertNat k d) t.unsaved }

/-- The dirty chunks of a context's workspace are written back: the matching dirty bits of private memory are set (R25). -/
def State.saveChunks (s : State) (core ctx : Nat) : State :=
  let mine := fun k => decide (core * 1024 + ctx * 48 ≤ k) && decide (k < core * 1024 + ctx * 48 + 48)
  { s with unsaved := s.unsaved.filter (fun k => !mine k),
           dirty := (s.unsaved.filter mine).foldl (fun d k => insertNat (dirtyKey (s.wsLoc core ctx (64 * (k % 1024 % 48)))) d) s.dirty }

/-- A context's workspace stops being current: its dirty chunks are written back, and none of its chunks is valid (R25). -/
def State.leaveChunks (s : State) (core ctx : Nat) : State :=
  let t := s.saveChunks core ctx
  { t with chunks := t.chunks.filter (fun k => !(decide (core * 1024 + ctx * 48 ≤ k) && decide (k < core * 1024 + ctx * 48 + 48))) }

/-- The context whose current workspace holds an offset of a core's private memory, and the offset in it (R25). -/
def State.wsAt (s : State) (core off : Nat) : Option (Nat × Nat) :=
  ((List.range 12).find? (fun x => decide ((s.ctxAt core x).wp ≤ off) && decide (off < (s.ctxAt core x).wp + 0xC00))).map
    (fun x => (x, off - (s.ctxAt core x).wp))

/-- A word of a context's workspace, little-endian (R20). -/
def State.wsGet (s : State) (core ctx off n : Nat) : Nat := natOf (s.rd (s.wsLoc core ctx off) n)
def State.wsSet (s : State) (core ctx off n v : Nat) : State := s.cacheWr core ctx off (bytesOf n v)

/-- General register r of a context: g0 reads zero (R21). -/
def State.gAt (s : State) (core ctx r : Nat) : Nat := if r = 0 then 0 else s.wsGet core ctx (8 * r) 8
/-- A write of general register r of a context: a write of g0 is discarded (R21). -/
def State.setGAt (s : State) (core ctx r v : Nat) : State := if r = 0 then s else s.wsSet core ctx (8 * r) 8 v

/-- The general register of an instruction's operand, as a number. -/
def State.gN (s : State) (r : GReg) : Nat := s.gAt s.cur.core s.cur.ctx r.val
/-- The general register of an instruction's operand, as a word. -/
def State.g (s : State) (r : GReg) : Word := BitVec.ofNat 64 (s.gN r)
def State.setGN (s : State) (r : GReg) (v : Nat) : State := s.setGAt s.cur.core s.cur.ctx r.val (v % 2 ^ 64)
def State.setG (s : State) (r : GReg) (v : Word) : State := s.setGAt s.cur.core s.cur.ctx r.val v.toNat

/-- The register `k` places after `r` in a group (R37). -/
def regPlus (r : GReg) (k : Nat) : GReg := ⟨(r.val + k) % 64, Nat.mod_lt _ (by decide)⟩

/-- Lane i of a vector register (R20). -/
def State.laneN (s : State) (r : VReg) (i : Nat) : Nat := s.wsGet s.cur.core s.cur.ctx (0x200 + 64 * r.val + 4 * i) 4
def State.lane (s : State) (r : VReg) (i : Nat) : Lane := BitVec.ofNat 32 (s.laneN r i)
def State.setLaneN (s : State) (r : VReg) (i v : Nat) : State :=
  s.wsSet s.cur.core s.cur.ctx (0x200 + 64 * r.val + 4 * i) 4 v

/-- The sixteen lanes of a vector register. -/
def State.lanes (s : State) (r : VReg) : List Nat := (List.range 16).map (s.laneN r)

/-- A mask register of a context: m0 reads 0xFFFF (R21). -/
def State.mN (s : State) (r : MReg) : Nat := if r.val = 0 then 0xFFFF else s.wsGet s.cur.core s.cur.ctx (0xA00 + 2 * r.val) 2
/-- A write of a mask register: a write of m0 is discarded (R21). -/
def State.setMN (s : State) (r : MReg) (v : Nat) : State :=
  if r.val = 0 then s else s.wsSet s.cur.core s.cur.ctx (0xA00 + 2 * r.val) 2 v

/-- The context words of R20, by offset. -/
def cxPC : Nat := 0xA10
def cxSTATUS : Nat := 0xA18
def cxCNT : Nat := 0xA20
def cxCAUSE : Nat := 0xA28
def cxADDR : Nat := 0xA30
def cxAUX : Nat := 0xA38
def cxFUT : Nat := 0xA40
def cxREPS : Nat := 0xA48
def cxREPN : Nat := 0xA50
def cxREPB : Nat := 0xA58
/-- The deferred store fault log (R20). -/
def cxLOG : Nat := 0xA80

/-- A context word of any context. -/
def State.cxAt (s : State) (core ctx off : Nat) : Nat := s.wsGet core ctx off 8
def State.setCxAt (s : State) (core ctx off v : Nat) : State := s.wsSet core ctx off 8 v
/-- A context word of the executing context. -/
def State.cx (s : State) (off : Nat) : Nat := s.cxAt s.cur.core s.cur.ctx off
def State.setCx (s : State) (off v : Nat) : State := s.setCxAt s.cur.core s.cur.ctx off v

/-- CX.PC of the executing context; its bits [1:0] read as zero (R20). -/
def State.pc (s : State) : Nat := s.cx cxPC / 4 * 4
def State.setPC (s : State) (v : Nat) : State := s.setCx cxPC (v % 2 ^ 64 / 4 * 4)

/-- The states of a context (R16). -/
def stEMPTY : Nat := 0
def stREADY : Nat := 1
def stSTALLED : Nat := 2
def stHELD : Nat := 3

/-- CX.STATUS.STATE of a context (R22). -/
def State.stateAt (s : State) (core ctx : Nat) : Nat := bits (s.cxAt core ctx cxSTATUS) 3 0
/-- A context put in a state; CTX always holds the context's number (R22). -/
def State.setStateAt (s : State) (core ctx st : Nat) : State :=
  s.setCxAt core ctx cxSTATUS (setBits (setBits (s.cxAt core ctx cxSTATUS) 3 0 st) 7 4 ctx)

/-- A context word with its reserved bits clear, as it is held (R20, R22, R28, R32). CX.STATUS keeps the context's own number and state,
and CANREQ is zero in the control and handler contexts (R22, R190). -/
def cxHeld (ctx st off v : Nat) : Nat :=
  if off = cxPC ∨ off = cxREPB then v / 4 * 4
  else if off = cxSTATUS then bits v 24 10 * 2 ^ 10 + (if ctx < 2 then 0 else bits v 9 9 * 2 ^ 9) + ctx * 16 + st
  else if off = cxCNT then
    bits v 37 32 * 2 ^ 32 + bits v 29 24 * 2 ^ 24 + bits v 21 16 * 2 ^ 16 + bits v 13 8 * 2 ^ 8 + bits v 5 0
  else if off = cxCAUSE then v % 2 ^ 9
  else if off = cxREPS then bits v 63 32 * 2 ^ 32 + bits v 26 20 * 2 ^ 20 + v % 2
  else if off = cxREPN then v % 2 ^ 32
  else v

/-- The context words with reserved bits or fixed fields (R20, R22, R28, R32). -/
def heldWords : List Nat := [cxPC, cxSTATUS, cxCNT, cxCAUSE, cxREPS, cxREPN, cxREPB]

/-- Some context words whose reserved bits and fixed fields are held, whatever was put in their bytes: by the core's own state `st` of the
context. -/
def State.holdIn (s : State) (core ctx st : Nat) (offs : List Nat) : State :=
  offs.foldl (fun t o =>
    let v := t.cxAt core ctx o
    if cxHeld ctx st o v = v then t else t.setCxAt core ctx o (cxHeld ctx st o v)) s

/-- The same of all of them. -/
def State.holdWords (s : State) (core ctx st : Nat) : State := s.holdIn core ctx st heldWords

/-- A field of CX.STATUS of the executing context (R22). -/
def State.status (s : State) (hi lo : Nat) : Nat := bits (s.cx cxSTATUS) hi lo
def State.setStatus (s : State) (hi lo v : Nat) : State := s.setCx cxSTATUS (setBits (s.cx cxSTATUS) hi lo v)

/-- The bits of a counter in CX.CNT (R28). -/
def Cnt.lo : Cnt → Nat
  | .sn => 0
  | .sg => 8
  | .cp => 16
  | .tl => 24
  | .at_ => 32

/-- The counter class of a deferred fault's log entry (R22, R126); the other counters log nothing. -/
def Cnt.cls : Cnt → Nat
  | .sn => 0
  | .sg => 1
  | .at_ => 2
  | .cp => 3
  | .tl => 3

/-- An outstanding counter of a context (R28). -/
def State.cntAt (s : State) (core ctx : Nat) (c : Cnt) : Nat := bits (s.cxAt core ctx cxCNT) (c.lo + 5) c.lo
def State.setCntAt (s : State) (core ctx : Nat) (c : Cnt) (v : Nat) : State :=
  s.setCxAt core ctx cxCNT (setBits (s.cxAt core ctx cxCNT) (c.lo + 5) c.lo v)
def State.cnt (s : State) (c : Cnt) : Nat := s.cntAt s.cur.core s.cur.ctx c
def State.setCnt (s : State) (c : Cnt) (v : Nat) : State := s.setCntAt s.cur.core s.cur.ctx c v

/-- Whether all five counters of a context are zero (R30). -/
def State.quietAt (s : State) (core ctx : Nat) : Bool :=
  s.cntAt core ctx .sn == 0 && s.cntAt core ctx .sg == 0 && s.cntAt core ctx .cp == 0 &&
  s.cntAt core ctx .tl == 0 && s.cntAt core ctx .at_ == 0

/-- A flight added at the end, with a number of its own (R225: arrivals are numbered in issue order). -/
def State.launchFlight (s : State) (f : Flight) : State :=
  { s with flights := s.flights ++ [(s.nextId, f)], nextId := s.nextId + 1 }
/-- A flight removed. -/
def State.dropFlight (s : State) (id : Nat) : State := { s with flights := dropId id s.flights }

/-- Whether a partition in this state occupies its clusters: at most one such partition holds a cluster (R307). -/
def PartStatus.onChip : PartStatus → Bool
  | .stopped => true
  | .running => true
  | .resetting => true
  | .unused => false
  | .swapped => false

/-- The partition that holds a cluster, if any (R307). -/
def State.partOfCluster (s : State) (cl : Nat) : Option Nat :=
  (s.parts.find? (fun p => p.2.status.onChip && p.2.clusters.contains cl)).map (·.1)
/-- The partition of a core; 0 when none holds it. -/
def State.partOf (s : State) (core : Nat) : Nat := (s.partOfCluster (core / 8)).getD 0

/-- What the protection unit of a cluster does with an arrival that carries a partition's tag (R308). -/
inductive Guard where
  | deliver | log | refuse
  deriving DecidableEq, Repr

/-- The protection unit's judgement (R308). While a log is replayed, new arrivals go behind it (R314). -/
def State.guard (s : State) (cl part : Nat) : Guard :=
  let p := s.part part
  if p.clusters.contains cl then
    match p.status with
    | .running => if p.replaying then .log else .deliver
    | .stopped => .deliver
    | .swapped => .log
    | _ => .refuse
  else .refuse

end Sys2Proof.Machine
end

