-- ==== Sys2Proof/Machine/Translate.lean ====
section
/-! DEFINITION. Machine/Translate.lean: home slices, page tables, TLBs, and global memory at its single copy (R217,
R326 to R335). -/
namespace Sys2Proof.Machine

/-- The dies that hold clusters of a partition, ascending (R328). -/
def Part.dies (p : Part) : List Nat := (List.range 4).filter (fun d => p.clusters.any (fun c => c / 128 == d))

/-- The home die of a global address (R328). -/
def homeDie (p : Part) (va : Nat) : Nat :=
  let f := bits va 23 16 ^^^ bits va 31 24 ^^^ bits va 39 32 ^^^ bits va 47 40 ^^^ bits va 55 48 ^^^ bits va 58 56
  let d := p.dies
  d.getD (f % max d.length 1) 0

/-- The index of the home slice within its die, before fencing (R329). -/
def sliceIndex (va : Nat) : Nat :=
  bits va 12 6 ^^^ bits va 19 13 ^^^ bits va 26 20 ^^^ bits va 33 27 ^^^ bits va 40 34 ^^^ bits va 47 41 ^^^
    bits va 54 48 ^^^ bits va 58 55

/-- The home slice of a global address of a partition, as a cluster of the package (R328, R329). -/
def State.home (s : State) (part va : Nat) : Nat :=
  let d := homeDie (s.part part) va
  let i := sliceIndex va
  d * 128 + (((List.range 128).map (fun k => (i + k) % 128)).find?
    (fun c => !(s.cluster (d * 128 + c)).fenced)).getD i

/-- Bytes of global memory at their single copy: the L2 slice's dirty bytes over HBM, or HBM for an uncached page
(R217, R335). -/
def State.gRd (s : State) (part pa : Nat) (uc : Bool) (n : Nat) : List Byte :=
  (List.range n).map (fun i =>
    if uc then s.mem.get (pa + i)
    else match s.l2.find (l2Key part (pa + i)) with
      | some b => b
      | none => s.mem.get (pa + i))

/-- Bytes written at their single copy, which join those that a partition has had there (R9). -/
def State.gWr (s : State) (part pa : Nat) (uc : Bool) (bs : List Byte) : State :=
  let t := if uc then s.wr pa bs
    else { s with l2 := s.l2.overlay (l2Key part pa) bs,
                  poisoned := s.poisoned.filter (fun w => !(decide (pa ≤ w) && decide (w + 8 ≤ pa + bs.length))),
                  released := s.released.filter (fun a => decide (a < pa) || decide (pa + bs.length ≤ a)) }
  { t with past := (l2Key part pa, bs) :: t.past }

/-- What a release writes at a location is marked for the acquires that read it (R229). -/
def State.markReleased (s : State) (loc n : Nat) : State :=
  { s with released := (List.range n).foldl (fun l i => insertNat (loc + i) l) s.released }

/-- Whether any of `n` bytes at a location was written by a release (R229). -/
def State.sawRelease (s : State) (loc n : Nat) : Bool := s.released.any (fun a => decide (loc ≤ a) && decide (a < loc + n))

/-- Bytes written at their single copy by the home slice of an address: the line's held bit names the slice that first
dirties it (R381). -/
def State.gPut (s : State) (part va pa : Nat) (uc : Bool) (bs : List Byte) : State :=
  let t := s.gWr part pa uc bs
  let k := l2Key part pa / 64
  if uc ∨ Tbl.get (0, 0) t.holders k ≠ (0, 0) then t
  else { t with holders := Tbl.set (0, 0) t.holders k (s.home part va + 1, va / 64 * 64) }

/-- What an access is, for its permissions and for CX.AUX (R334). -/
inductive Access where
  | read | write | fetch
  deriving DecidableEq, Repr

/-- The word of R334 that goes to CX.AUX. -/
def xlAux (level : Nat) (a : Access) : Nat :=
  level + (if a = .write then 8 else 0) + (if a = .fetch then 16 else 0)

/-- The size in bytes of a page by its SIZE code (R332). -/
def pageBytes : Nat → Nat
  | 0 => 2 ^ 16
  | 1 => 2 ^ 21
  | _ => 2 ^ 30

/-- The lowest index bit of a level (R331). -/
def levelLo : Nat → Nat
  | 1 => 49
  | 2 => 38
  | 3 => 27
  | _ => 16

/-- Whether a valid entry is well formed for its level (R332, R334 step 3). -/
def pteOk (level e : Nat) : Bool :=
  let leaf := bitOf e 1
  let size := bits e 3 2
  let addr := bits e 47 14 * 2 ^ 14
  bits e 63 48 == 0 && bits e 13 9 == 0 && decide (addr < 2 ^ 40) &&
    (if leaf then
      ((level == 3 && size == 2) || (level == 4 && (size == 0 || size == 1))) && addr % pageBytes size == 0
     else bits e 8 2 == 0 && level != 4)

/-- A leaf found by a walk: the entry, the level, and the location of its group's first entry (R333). -/
structure Leaf where
  pte : Nat
  level : Nat
  first : Nat
  deriving DecidableEq, Repr

/-- The table that a walker's cached entry of a level gives (R330). -/
def Die.cached (d : Die) (part level va : Nat) : Option Nat :=
  (d.walkCache.find? (fun e => e.part == part && e.level == level && e.tag == va / 2 ^ levelLo level)).map (·.table)

/-- The walk from a level on (R331, R334): the non-leaf entries that it reads, and a leaf, or a cause with the level of the entry that
failed. A cached non-leaf entry is not read again (R330). -/
def State.walkFrom (s : State) (die part va : Nat) : Nat → Nat → Nat → List WalkEnt × Except (Nat × Nat) Leaf
  | 0, _, level => ([], .error (cPAGE_INVALID, level))
  | fuel + 1, table, level =>
    match (s.die die).cached part level va with
    | some next => s.walkFrom die part va fuel next (level + 1)
    | none =>
      let idx := bits va (levelLo level + 10) (levelLo level)
      let loc := table + 8 * idx
      let e := natOf (s.rd loc 8)
      if s.tainted loc 8 then ([], .error (cPAGE_WALK, level))
      else if !bitOf e 0 then ([], .error (cPAGE_ABSENT, level))
      else if !pteOk level e then ([], .error (cPAGE_INVALID, level))
      else if bitOf e 1 then
        let span := if bits e 3 2 = 0 then 1 else if bits e 3 2 = 1 then 32 else 8
        ([], .ok { pte := e, level := level, first := table + 8 * (idx / span * span) })
      else
        let next := bits e 47 14 * 2 ^ 14
        let r := s.walkFrom die part va fuel next (level + 1)
        ({ part := part, level := level, tag := va / 2 ^ levelLo level, table := next } :: r.1, r.2)

/-- The walk of an address of a partition by the walker of its home die, from the root that the walkers hold (R331). -/
def State.walkSteps (s : State) (part va : Nat) : List WalkEnt × Except (Nat × Nat) Leaf :=
  s.walkFrom (s.home part va / 128) part va 4 (s.part part).root 1
def State.walk (s : State) (part va : Nat) : Except (Nat × Nat) Leaf := (s.walkSteps part va).2

/-- The non-leaf entries that a walk has read are kept by its walker (R330). -/
def State.keepWalk (s : State) (part va : Nat) : State :=
  let die := s.home part va / 128
  s.setDie die { s.die die with walkCache := (s.walkSteps part va).1 ++ (s.die die).walkCache }

/-- The TLB entry of a slice that covers an address. -/
def State.tlbFind (s : State) (slice part va : Nat) : Option TlbEnt :=
  s.tlb.find? (fun e => e.slice == slice && e.part == part && e.vbase == va / pageBytes e.size * pageBytes e.size)

/-- The TLB entry that a leaf gives (R330). -/
def tlbOf (slice part va : Nat) (l : Leaf) : TlbEnt :=
  let size := bits l.pte 3 2
  { slice := slice, part := part, vbase := va / pageBytes size * pageBytes size, size := size, pte := l.pte,
    pteLoc := l.first }

/-- The level of a leaf by its page size. -/
def leafLevel (size : Nat) : Nat := if size = 2 then 3 else 4

/-- A permission failure of a leaf (R334 steps 4 and 5). -/
def permFault (e : TlbEnt) (a : Access) : Option (Nat × Nat) :=
  match a with
  | .write => if bitOf e.pte 4 then none else some (cPAGE_WRITE, xlAux (leafLevel e.size) a)
  | .fetch => if bitOf e.pte 5 then none else some (cPAGE_EXEC, xlAux (leafLevel e.size) a)
  | .read => none

/-- The physical address of a virtual one under a TLB entry. -/
def TlbEnt.pa (e : TlbEnt) (va : Nat) : Nat := bits e.pte 47 14 * 2 ^ 14 + va % pageBytes e.size

/-- A bit of a page table entry set at the memory channel (R335). -/
def State.setPteBit (s : State) (loc bit : Nat) : State :=
  s.wr loc (bytesOf 8 (setBits (natOf (s.rd loc 8)) bit bit 1))

/-- The TLB entry of a leaf, its D taken from the group's first entry (R333). -/
def State.leafEnt (s : State) (slice part va : Nat) (l : Leaf) : TlbEnt :=
  tlbOf slice part va { l with pte := setBits l.pte 7 7 (bits (natOf (s.rd l.first 8)) 7 7) }

/-- A leaf entered in a slice's TLB, A set first in the group's first entry (R333, R334). -/
def State.fillTlb (s : State) (slice part va : Nat) (l : Leaf) : State :=
  let t := s.setPteBit l.first 6
  { t with tlb := s.leafEnt slice part va l :: t.tlb }

/-- D set before the first write through an entry that has it clear (R334). -/
def State.markDirty (s : State) (e : TlbEnt) : State :=
  if bitOf e.pte 7 then s
  else
    let t := s.setPteBit e.pteLoc 7
    { t with tlb := t.tlb.map (fun x => if x = e then { e with pte := setBits e.pte 7 7 1 } else x) }

/-- Whether the entry whose D a write would set through a TLB entry is still valid (R342). -/
def State.dirtyOk (s : State) (e : TlbEnt) : Bool := bitOf e.pte 7 || bitOf (natOf (s.rd e.pteLoc 8)) 0

/-- The TLB entry by which a slice translates an access: a first write whose page table entry is no longer valid walks (R342). -/
def State.tlbFor (s : State) (slice part va : Nat) (a : Access) : Option TlbEnt :=
  (s.tlbFind slice part va).bind (fun e => if a = .write ∧ !s.dirtyOk e then none else some e)

/-- What a walk finds for an access: for a write, V of the group's first entry, in which D is set, is checked with the rest (R333,
R342). -/
def State.walkFor (s : State) (part va : Nat) (a : Access) : Except (Nat × Nat) Leaf :=
  match s.walk part va with
  | .error f => .error f
  | .ok l => if a = .write ∧ !bitOf (natOf (s.rd l.first 8)) 0 then .error (cPAGE_ABSENT, l.level) else .ok l

/-- A translation through a TLB entry: the state after D is set, the physical address, and whether the page is uncached. -/
def State.useTlb (s : State) (e : TlbEnt) (va : Nat) (a : Access) : Except (Nat × Nat) (State × Nat × Bool) :=
  match permFault e a with
  | some f => .error f
  | none => .ok (if a = .write then s.markDirty e else s, e.pa va, bitOf e.pte 8)

/-- A whole translation in one step, as agents that own their accesses make it (log entry 6): the TLB, else a walk. -/
def State.translate (s : State) (part va : Nat) (a : Access) : Except (Nat × Nat) (State × Nat × Bool) :=
  if 2 ^ 59 ≤ va then .error (cUNMAPPED, xlAux 0 a)
  else
    let slice := s.home part va
    match s.tlbFor slice part va a with
    | some e => s.useTlb e va a
    | none =>
      match s.walkFor part va a with
      | .error (c, level) => .error (c, xlAux level a)
      | .ok l => ((s.keepWalk part va).fillTlb slice part va l).useTlb (s.leafEnt slice part va l) va a

/-- Whether an access need not wait for the page walker: its slice's TLB covers it, or no request waits for the walker before it
(R330). -/
def State.walkTurn (s : State) (part va : Nat) (a : Access) : Bool :=
  let slice := s.home part va
  (s.tlbFor slice part va a).isSome || (s.die (slice / 128)).walkQueue.isEmpty

/-- Bytes read by an agent at a global address within one 64 KiB page: cause and AUX, or the state after the translation,
the bytes, and the places of those that lie in poisoned words. -/
def State.agentFetch (s : State) (part va n : Nat) : Except (Nat × Nat) (State × List Byte × List Nat) :=
  match s.translate part va .read with
  | .error f => .error f
  | .ok (t, pa, uc) => .ok (t, t.gRd part pa uc n, t.badAt pa n)

/-- The same where the agent consumes what it reads (R366). -/
def State.agentRead (s : State) (part va n : Nat) : Except (Nat × Nat) (State × List Byte) :=
  match s.agentFetch part va n with
  | .error f => .error f
  | .ok (t, bs, bad) => if bad = [] then .ok (t, bs) else .error (cUE, 0)

/-- Bytes written by an agent at a global address within one 64 KiB page, with the poison they carry. -/
def State.agentStore (s : State) (part va : Nat) (bs : List Byte) (bad : List Nat) : Except (Nat × Nat) State :=
  match s.translate part va .write with
  | .error f => .error f
  | .ok (t, pa, uc) => .ok ((t.gPut part va pa uc bs).poisonAt pa bad)

/-- Bytes written by an agent at a global address within one 64 KiB page. -/
def State.agentWrite (s : State) (part va : Nat) (bs : List Byte) : Except (Nat × Nat) State := s.agentStore part va bs []

/-- The address of the first byte of each line that `n` bytes from an address touch. -/
def linesOf (va n : Nat) : List Nat :=
  if n = 0 then [] else (List.range ((va % 64 + n + 63) / 64)).map (fun i => if i = 0 then va else va / 64 * 64 + 64 * i)

/-- The bytes of a range that lie in the line of an address. -/
def inLine (va n a : Nat) : Nat := Nat.min (a / 64 * 64 + 64) (va + n) - a

/-- A read of any bytes by an agent, line by line: cause, address and AUX, or the state and the bytes. -/
def State.agentReadAll (s : State) (part va n : Nat) : Except (Nat × Nat × Nat) (State × List Byte) :=
  (linesOf va n).foldl (fun acc a =>
    match acc with
    | .error e => .error e
    | .ok (t, bs) => match t.agentRead part a (inLine va n a) with
      | .error (c, aux) => .error (c, a, aux)
      | .ok (t, more) => .ok (t, bs ++ more)) (.ok (s, []))

/-- A write of any bytes by an agent, line by line: what failed, with the state as far as it was written. -/
def State.agentWriteAll (s : State) (part va : Nat) (bs : List Byte) : State × Option (Nat × Nat × Nat) :=
  (linesOf va bs.length).foldl (fun acc a =>
    match acc with
    | (t, some e) => (t, some e)
    | (t, none) => match t.agentWrite part a ((bs.drop (a - va)).take (inLine va bs.length a)) with
      | .error (c, aux) => (t, some (c, a, aux))
      | .ok t => (t, none)) (s, none)

/-- Bytes of an on-chip location copied to global memory with their poison, line by line (R202). -/
def State.copyOut (s : State) (part loc va n : Nat) : State × Option (Nat × Nat × Nat) :=
  (linesOf va n).foldl (fun acc a =>
    match acc with
    | (t, some e) => (t, some e)
    | (t, none) =>
      let k := inLine va n a
      match t.agentStore part a (t.rd (loc + (a - va)) k) (t.badAt (loc + (a - va)) k) with
      | .error (c, aux) => (t, some (c, a, aux))
      | .ok t => (t, none)) (s, none)

/-- Bytes of global memory copied to an on-chip location with their poison, line by line (R202). -/
def State.copyIn (s : State) (part va loc n : Nat) : State × Option (Nat × Nat × Nat) :=
  (linesOf va n).foldl (fun acc a =>
    match acc with
    | (t, some e) => (t, some e)
    | (t, none) => match t.agentFetch part a (inLine va n a) with
      | .error (c, aux) => (t, some (c, a, aux))
      | .ok (t, bs, bad) => ((t.wr (loc + (a - va)) bs).poisonAt (loc + (a - va)) bad, none)) (s, none)

end Sys2Proof.Machine
end

