-- ==== Sys2Proof/Machine/Futures.lean ====
section
/-! DEFINITION. Machine/Futures.lean: future handles, future tables and their spill areas, creation, finality and wakes
(R167 to R177). -/
namespace Sys2Proof.Machine

def fFREE : Nat := 0
def fPENDING : Nat := 1
def fRESOLVED : Nat := 2
def fFAULTED : Nat := 3
def fCANCELLED : Nat := 4

/-- A future handle (R167). -/
def mkHandle (pkg core slot gen part : Nat) : Nat :=
  2 * 2 ^ 62 + pkg * 2 ^ 52 + core * 2 ^ 40 + slot * 2 ^ 30 + gen * 2 ^ 14 + part * 2 ^ 10
def hPkg (h : Nat) : Nat := bits h 61 52
def hCore (h : Nat) : Nat := bits h 51 40
def hSlot (h : Nat) : Nat := bits h 39 30
def hGen (h : Nat) : Nat := bits h 29 14
def hPart (h : Nat) : Nat := bits h 13 10
/-- Step 1 of R168. -/
def hOk (h : Nat) : Bool := bits h 63 62 == 2 && bits h 9 0 == 0

/-- The waiter token that means none (R175). -/
def noToken : Nat := 0xFFFFFFFF
/-- A waiter token (R175). -/
def mkToken (pkg cluster id : Nat) : Nat := pkg * 2 ^ 22 + cluster / 128 * 2 ^ 20 + cluster % 128 * 2 ^ 13 + id
def tokPkg (t : Nat) : Nat := bits t 31 22
def tokCluster (t : Nat) : Nat := bits t 21 20 * 128 + bits t 19 13
def tokId (t : Nat) : Nat := bits t 12 0

/-- The location of a task in its PENDING entry's value (R169). -/
def taskPlace (pkg cluster : Nat) : Nat := 2 ^ 63 + mkToken pkg cluster 0

/-- A slot of a future table. -/
def State.fut (s : State) (core slot : Nat) : FutEntry := Tbl.get FutEntry.reset (s.core core).futs slot
def State.setFut (s : State) (core slot : Nat) (e : FutEntry) : State :=
  s.setCore core { s.core core with futs := Tbl.set FutEntry.reset (s.core core).futs slot e }

/-- Where an entry is found. -/
inductive FutLoc where
  | table
  | spill (va : Nat)
  deriving DecidableEq, Repr

/-- A failure of the spill walker: cause, address, AUX (R173). -/
abbrev Bad := Nat × Nat × Nat

/-- The tokens from a head to a tail along the schedulers' links (R173). -/
def chain (links : Tbl Nat) (tail : Nat) : Nat → Nat → List Nat
  | 0, _ => []
  | fuel + 1, t =>
    if t = noToken then [] else if t = tail then [t] else t :: chain links tail fuel (Tbl.get noToken links t)

/-- The address of an entry of a core's spill area (R170, R173). -/
def State.spillVa (s : State) (core i : Nat) : Nat :=
  (s.core core).ftSpBase + 32 * (s.core core).ftSpEnt * core + 32 * (i % max (s.core core).ftSpEnt 1)

/-- The first probe of a key (R173). -/
def State.spillStart (s : State) (core slot gen : Nat) : Nat :=
  ((gen * 1024 + slot) * 0x9E3779B1) % 2 ^ 32 % max (s.core core).ftSpEnt 1

/-- A spill entry read by the walker. -/
def State.spillRead (s : State) (core va : Nat) : Except Bad (State × Nat) :=
  match s.agentRead (s.partOf core) va 32 with
  | .error (c, aux) => .error (c, va, aux)
  | .ok (t, bs) => .ok (t, natOf bs)

/-- A spilled entry as a table entry (R173). It has no bit for the task that a future is tied to, which the core lists beside it (R182;
DESIGN CHOICE, log entry 117). -/
def State.spillEntry (s : State) (core w : Nat) : FutEntry :=
  { state := bits w 37 35, value := bits w 127 64, gen := bits w 63 48, part := bits w 23 20, cause := bits w 34 26,
    cons := bitOf w 25, dcan := bitOf w 24,
    tied := (s.core core).tiedSpill.contains (bits w 63 48 * 1024 + bits w 47 38),
    parent := bits w 255 192, waiters := chain s.links (bits w 191 160) 65536 (bits w 159 128), bad := false }

/-- The 32 bytes of a spilled entry (R173). -/
def spillBytes (slot : Nat) (e : FutEntry) : List Byte :=
  bytesOf 8 (e.gen * 2 ^ 48 + slot * 2 ^ 38 + e.state * 2 ^ 35 + e.cause * 2 ^ 26 + e.cons.toNat * 2 ^ 25 +
    e.dcan.toNat * 2 ^ 24 + e.part * 2 ^ 20 + 1) ++
  bytesOf 8 e.value ++
  bytesOf 4 (e.waiters.headD noToken) ++ bytesOf 4 (e.waiters.getLastD noToken) ++ bytesOf 8 e.parent

/-- The links of a waiter list entered in the schedulers (R175). -/
def setLinks (links : Tbl Nat) : List Nat → Tbl Nat
  | [] => links
  | [t] => Tbl.set noToken links t noToken
  | t :: u :: rest => setLinks (Tbl.set noToken links t u) (u :: rest)

/-- The spill walker's search (R173). -/
def State.spillProbe (s : State) (core slot gen i : Nat) : Nat → Except Bad (State × Option (Nat × Nat))
  | 0 => .ok (s, none)
  | fuel + 1 =>
    let va := s.spillVa core i
    match s.spillRead core va with
    | .error b => .error b
    | .ok (t, w) =>
      if bitOf w 0 && bits w 63 48 == gen && bits w 47 38 == slot then .ok (t, some (va, w))
      else if !bitOf w 0 && !bitOf w 1 then .ok (t, none)
      else t.spillProbe core slot gen (i + 1) fuel

/-- A lookup at the home core (R172). An entry with a poisoned word fails the operation (R366). -/
def State.futFind (s : State) (core slot gen : Nat) : Except Bad (State × Option (FutLoc × FutEntry)) :=
  let e := s.fut core slot
  if e.state ≠ fFREE ∧ e.gen = gen then (if e.bad then .error (cUE, 0, 0) else .ok (s, some (.table, e)))
  else if (s.core core).ftSpEnt = 0 then .ok (s, none)
  else match s.spillProbe core slot gen (s.spillStart core slot gen) 32 with
    | .error b => .error b
    | .ok (t, none) => .ok (t, none)
    | .ok (t, some (va, w)) => .ok (t, some (.spill va, t.spillEntry core w))

/-- An entry written back where it was found, with the poison of its words. -/
def State.futPut (s : State) (core slot : Nat) (l : FutLoc) (e : FutEntry) : Except Bad State :=
  match l with
  | .table => .ok (s.setFut core slot e)
  | .spill va =>
    let t := { s with links := setLinks s.links e.waiters }
    match t.agentStore (s.partOf core) va (spillBytes slot e) (if e.bad then List.range 32 else []) with
    | .error (c, aux) => .error (c, va, aux)
    | .ok t => .ok t

/-- The wakes of a waiter list, in list order (R176). -/
def State.sendWakes (s : State) (handle st v : Nat) (ws : List Nat) : State :=
  ws.foldl (fun t w => t.launchFlight (.wake w handle st v)) s

/-- The entry that a final state leaves: the list taken, and consumed by the first wake (R176). -/
def FutEntry.final (e : FutEntry) (st v cause : Nat) : FutEntry :=
  { e with state := st, value := v, cause := cause, cons := e.cons || !e.waiters.isEmpty, waiters := [] }

/-- A PENDING future made final at its home (R176, R180): the state, and whether it was PENDING. -/
def State.futFinish (s : State) (core slot gen st v : Nat) : Except Bad (State × Bool) :=
  match s.futFind core slot gen with
  | .error b => .error b
  | .ok (t, none) => .ok (t, false)
  | .ok (t, some (l, e)) =>
    if e.state = fPENDING then
      let e' := e.final st (if st = fRESOLVED then v else 0) (if st = fFAULTED then v else 0)
      match t.futPut core slot l e' with
      | .error b => .error b
      | .ok t => .ok (t.sendWakes (mkHandle s.pkgId core slot gen e.part) st v e.waiters, true)
    else .ok (t, false)

/-- A waiter of the home core's own cluster (R171). -/
def State.localToken (s : State) (core tok : Nat) : Bool := tokPkg tok == s.pkgId && tokCluster tok == clusterOf core

/-- The victim of R171 step 2, if any. -/
def State.futVictim (s : State) (core : Nat) : Option Nat :=
  let c := s.core core
  let free := fun i => !((s.fut core i).waiters.any (s.localToken core))
  let slots := List.range c.ftLimit
  match slots.find? (fun i => decide (2 ≤ (s.fut core i).state) && free i) with
  | some i => some i
  | none => slots.find? (fun i => (s.fut core i).state == fPENDING && free i)

/-- The first spill entry that can take a key (R173). -/
def State.spillRoom (s : State) (core i : Nat) : Nat → Except Bad (State × Option Nat)
  | 0 => .ok (s, none)
  | fuel + 1 =>
    let va := s.spillVa core i
    match s.spillRead core va with
    | .error b => .error b
    | .ok (t, w) => if bitOf w 0 then t.spillRoom core (i + 1) fuel else .ok (t, some va)

/-- A slot for a new future (R171): a FREE one, or a victim's after it is spilled (R173). -/
def State.futSlot (s : State) (core : Nat) : Except Bad (State × Nat) :=
  let c := s.core core
  match (List.range c.ftLimit).find? (fun i => (s.fut core i).state == fFREE) with
  | some i => .ok (s, i)
  | none =>
    match s.futVictim core with
    | none => .error (cFUT_EXHAUSTED, 0, 0)
    | some v =>
      if c.ftSpEnt = 0 then .error (cFUT_EXHAUSTED, 0, 0)
      else
        let e := s.fut core v
        match s.spillRoom core (s.spillStart core v e.gen) 32 with
        | .error b => .error b
        | .ok (_, none) => .error (cFUT_EXHAUSTED, 0, 0)
        | .ok (t, some va) =>
          match t.futPut core v (.spill va) e with
          | .error b => .error b
          | .ok t =>
            let k := e.gen * 1024 + v
            let t := if e.tied then t.setCore core { t.core core with tiedSpill := insertNat k (t.core core).tiedSpill }
              else t
            .ok (t.setFut core v { FutEntry.reset with gen := (e.gen + 1) % 2 ^ 16 }, v)

/-- A future created at a core (R171): the state and its handle. -/
def State.futNew (s : State) (core part value parent : Nat) (tied : Bool) : Except Bad (State × Nat) :=
  match s.futSlot core with
  | .error b => .error b
  | .ok (t, slot) =>
    let gen := (t.fut core slot).gen
    let e : FutEntry :=
      { state := fPENDING, value := value, gen := gen, part := part, cause := 0, cons := false, dcan := false,
        tied := tied, parent := parent, waiters := [], bad := false }
    .ok (t.setFut core slot e, mkHandle s.pkgId core slot gen part)

/-- A final future without waiters freed (R187). -/
def State.futFree (s : State) (core slot : Nat) (l : FutLoc) (e : FutEntry) : Except Bad State :=
  match l with
  | .table => .ok (s.setFut core slot { FutEntry.reset with gen := (e.gen + 1) % 2 ^ 16 })
  | .spill va =>
    let w := natOf (spillBytes slot e)
    let t := s.setCore core { s.core core with
      tiedSpill := (s.core core).tiedSpill.filter (fun k => k != e.gen * 1024 + slot) }
    match t.agentWrite (s.partOf core) va (bytesOf 32 (setBits w 1 0 2)) with
    | .error (c, aux) => .error (c, va, aux)
    | .ok t => .ok t

/-- The allocation of a future undone (R13, R178, R210), wherever its entry is by now. A slot that it still occupies is as it was before
the allocation: it holds again the entry that made room for it (R171), if one did, and else is FREE with the generation it had. -/
def State.futUndo (s : State) (core slot gen : Nat) : State :=
  match s.futFind core slot gen with
  | .ok (t, some (.spill va, e)) => (match t.futFree core slot (.spill va) e with
    | .ok u => u
    | .error _ => t)
  | .ok (t, none) => t
  | _ =>
    let t := s.setFut core slot { FutEntry.reset with gen := gen }
    match t.futFind core slot ((gen + 2 ^ 16 - 1) % 2 ^ 16) with
    | .ok (t, some (.spill va, e)) => (match t.futFree core slot (.spill va) e with
      | .ok u => u.setFut core slot e
      | .error _ => t)
    | _ => t

end Sys2Proof.Machine
end

