-- ==== Sys2Proof/Machine/Ops.lean ====
section
/-! DEFINITION. Machine/Ops.lean: what instructions share: completing, stalling, branching, taking a trap (R13, R358,
R359), posting, raising deferred faults, and the return from a trap (R362). -/
namespace Sys2Proof.Machine

/-- The system core number of a core of this package (R11). -/
def State.sysCore (s : State) (core : Nat) : Nat := s.pkgId * 4096 + core

/-- The address of the instruction's first word, and of the word after its last (R38, R41). -/
def State.nextPC (s : State) : Nat := s.pc + 4 * s.cur.len

/-- The state after an instruction that does not branch: CX.PC passes it, or the pass of an active REP ends (R95). -/
def State.advance (s : State) : State :=
  let reps := s.cx cxREPS
  if s.cur.last && bitOf reps 0 then
    if bits reps 63 32 + 1 < bits (s.cx cxREPN) 31 0 then
      (s.setCx cxREPS (setBits reps 63 32 (bits reps 63 32 + 1))).setPC (s.cx cxREPB)
    else (s.setCx cxREPS 0).setPC s.nextPC
  else s.setPC s.nextPC

/-- A result written to a general register, and the instruction complete. -/
def State.done (s : State) (d : GReg) (v : Word) : State := (s.setG d v).advance

/-- The executing context is STALLED for a reason (R16). -/
def State.stall (s : State) (w : Wait) : State :=
  (s.setMyCtx { s.myCtx with wait := w }).setStateAt s.cur.core s.cur.ctx stSTALLED

/-- A context made READY again, waiting for nothing. -/
def State.readyAt (s : State) (core ctx : Nat) : State :=
  (s.setCtxAt core ctx { s.ctxAt core ctx with wait := .none }).setStateAt core ctx stREADY

/-- A context that waits to execute its instruction again becomes READY; one that waits in BANKMODE still holds its bank's
port (R223). -/
def State.wakeAt (s : State) (core ctx : Nat) : State :=
  if s.stateAt core ctx = stSTALLED then
    match (s.ctxAt core ctx).wait with
    | .retry => s.readyAt core ctx
    | .bank _ => s.setStateAt core ctx stREADY
    | _ => s
  else s

/-- The same for every context of a core. -/
def State.wakeCore (s : State) (core : Nat) : State := (List.range 12).foldl (fun t c => t.wakeAt core c) s

/-- Words fetched ahead for a context are discarded (R34). -/
def State.dropAheadAt (s : State) (core ctx : Nat) : State :=
  s.setCtxAt core ctx { s.ctxAt core ctx with ahead := [] }
def State.dropAhead (s : State) : State := s.dropAheadAt s.cur.core s.cur.ctx

/-- The completion of an instruction with acquire effect (R34, R229). -/
def State.acquire (s : State) : State := s.dropAhead

/-- The first word of a mailbox entry (R363). -/
def postWord (kind ctx cause src : Nat) : Nat :=
  2 ^ 63 + kind * 2 ^ 60 + ctx * 2 ^ 56 + cause * 2 ^ 47 + src

/-- A post sent to the supervisor of a partition (R363, R364). -/
def State.post (s : State) (p : Post) : State := s.launchFlight (.post p)

/-- A post whose source is a context of this package (R409). -/
def State.postFrom (s : State) (kind core ctx cause pc addr aux : Nat) (source : Option (Nat × Nat)) : State :=
  s.post { pkg := s.pkgId, part := s.partOf core, w0 := postWord kind ctx cause (s.sysCore core), pc := pc,
           addr := addr, aux := aux, source := source }

/-- The post of the fault in a context's words: KIND 0 for a task, 1 for a helper or the control context (R363). -/
def State.postFault (s : State) (core ctx : Nat) : State :=
  let cause := bits (s.cxAt core ctx cxCAUSE) 8 0
  let pc := s.cxAt core ctx cxPC / 4 * 4
  let isTask := decide (2 ≤ ctx) && !(s.ctxAt core ctx).helper
  if isTask then s.postFrom 0 core ctx cause pc (s.cxAt core ctx cxADDR) (s.cxAt core ctx cxFUT) (some (core, ctx))
  else s.postFrom 1 core ctx cause pc (s.cxAt core ctx cxADDR) (s.cxAt core ctx cxAUX) (some (core, ctx))

/-- A context's fault is posted, and it becomes HELD once the post has been written: a full mailbox ends it instead (R16, R364). -/
def State.holdAndPost (s : State) (core ctx : Nat) : State :=
  ((s.setCtxAt core ctx { s.ctxAt core ctx with wait := .posting }).setStateAt core ctx stSTALLED).postFault core ctx

/-- A failed command is posted for the context that issued it, which becomes HELD at its next instruction boundary unless a fault holds it
already (R73, R143). -/
def State.holdFailed (s : State) (core ctx cause addr aux : Nat) : State :=
  let c := s.ctxAt core ctx
  let isTask := decide (2 ≤ ctx) && !c.helper
  let t := s.postFrom (if isTask then 0 else 1) core ctx cause (s.cxAt core ctx cxPC / 4 * 4) addr
    (if isTask then s.cxAt core ctx cxFUT else aux) (some (core, ctx))
  if c.wait = .posting ∨ s.stateAt core ctx = stHELD then t
  else t.setCtxAt core ctx { c with holdReq := c.holdReq ++ [(cause, addr, aux)] }

/-- A context at an instruction boundary whose failed commands have been posted: it is HELD once the posts are written, with the words of
the first (R16, R143). -/
def State.holdPosted (s : State) (core ctx cause addr aux : Nat) : State :=
  let t := s.setCtxAt core ctx { s.ctxAt core ctx with holdReq := [], wait := .posting }
  let t := ((t.setCxAt core ctx cxCAUSE cause).setCxAt core ctx cxADDR (addr % 2 ^ 64)).setCxAt core ctx cxAUX (aux % 2 ^ 64)
  if t.flights.any (fun f => match f.2 with
      | .post p => decide (p.source = some (core, ctx))
      | _ => false) then t.setStateAt core ctx stSTALLED
  else (t.setCtxAt core ctx { t.ctxAt core ctx with wait := .none }).setStateAt core ctx stHELD

/-- The class of a cause in the order of R356, as TR.MASK numbers them (R357). -/
def causeClass (cause : Nat) : Nat :=
  if cause < 0x040 then 0 else if cause < 0x080 then 1 else if cause < 0x100 then 2 else if cause < 0x140 then 3
  else if cause < 0x180 then 4 else if cause < 0x1C0 then 5 else if cause < 0x1E0 then 6 else 7

/-- The private-memory offset that `n` bytes at an address name, when all of them lie in the program area of a core's own
private memory, by its self window or its near address (R359, R362). -/
def State.frameOff (s : State) (core f n : Nat) : Option Nat :=
  let self := 0x09 * 2 ^ 56
  let near := pmLoc core 0 + s.pkgId * 2 ^ 46
  if self ≤ f ∧ f + n ≤ self + 0x30000 then some (f - self)
  else if near ≤ f ∧ f + n ≤ near + 0x30000 then some (f - near)
  else none

/-- An ending for the context of a task: it is STALLED, and leaves once its counters are zero (R16, R30). -/
def State.endWith (s : State) (core ctx : Nat) (e : Ending) : State :=
  (s.setCtxAt core ctx { s.ctxAt core ctx with wait := .none, ending := some e }).setStateAt core ctx stSTALLED

/-- Poisoned data consumed outside the handler context, by no twin member (R366): a helper ends with a post of KIND 1, a task runs again
when it was spawned with .RST and has not yet been, and else ends with a post of KIND 2; the control context posts. The context words
hold the trap. -/
def State.consumed (s : State) : State :=
  let core := s.cur.core
  let ctx := s.cur.ctx
  if ctx < 2 then s.holdAndPost core ctx
  else if s.myCtx.helper then
    (s.postFrom 1 core ctx cUE s.pc (s.cx cxADDR) (s.cx cxAUX) none).endWith core ctx .final
  else if s.myCtx.rst then s.endWith core ctx .restart
  else s.endWith core ctx (.faulted cUE (some
    { pkg := s.pkgId, part := s.partOf core, w0 := postWord 2 ctx cUE (s.sysCore core), pc := s.pc,
      addr := s.cx cxADDR, aux := s.cx cxFUT, source := none }))

/-- The context words of a trap (R13, R20), with every word fetched ahead discarded (R34). -/
def State.setCause (s : State) (cause addr aux : Nat) : State :=
  let t := (((s.setCx cxCAUSE cause).setCx cxADDR (addr % 2 ^ 64)).setCx cxAUX (aux % 2 ^ 64)).dropAhead
  t.setMyCtx { t.myCtx with draining := false }

/-- The core enters a trap routine (R359), or posts and holds the context when the frame has no place. The words of g4 to g6 carry their
poison to the frame (R365); a poisoned g2 is consumed (R366). -/
def State.enterRoutine (s : State) (vec : Nat) : State :=
  let c := s.cur.core
  let x := s.cur.ctx
  let f := (s.gAt c x 2 + 2 ^ 64 - 64) % 2 ^ 64
  if s.tainted (s.wsLoc c x 16) 8 then (s.setCause cUE 0 0).consumed
  else match s.frameOff c f 64 with
  | none => s.holdAndPost c x
  | some off =>
    if f % 16 ≠ 0 then s.holdAndPost c x
    else
      let g (r : Nat) := s.gAt c x r
      let cause := bits (s.cx cxCAUSE) 8 0
      let frame := bytesOf 8 s.pc ++ bytesOf 8 (s.cx cxREPS) ++ bytesOf 8 (s.cx cxREPN) ++ bytesOf 8 (s.cx cxREPB) ++
        bytesOf 8 (g 4) ++ bytesOf 8 (g 5) ++ bytesOf 8 (g 6) ++ bytesOf 8 cause
      let t := (s.wr (pmLoc c off) frame).poisonAt (pmLoc c (off + 32)) (s.badAt (s.wsLoc c x 32) 24)
      ((((((t.setGAt c x 2 f).setGAt c x 4 cause).setGAt c x 5 (s.cx cxADDR)).setGAt c x 6 (s.cx cxAUX)).setCx
        cxREPS 0).setPC vec).readyAt c x

/-- The handler context becomes EMPTY, and the inbox slot of its activation is freed (R209, R210). -/
def State.endActivation (s : State) (core : Nat) (freeSlot : Bool) : State :=
  let c := s.core core
  let inbox := match c.act with
    | some a => if freeSlot then c.inbox.filter (fun e => e.slot != a.slot) else c.inbox
    | none => c.inbox
  let t := s.setCore core { c with act := none, inbox := inbox }
  (t.setCtxAt core 1 { t.ctxAt core 1 with wait := .none, ahead := [], badFetch := none }).setStateAt core 1 stEMPTY

/-- The word at +0x08 of a message in an inbox slot (R204). -/
def State.msgWord (s : State) (core slot : Nat) : Nat := natOf (s.rd (pmLoc core (0x3B000 + 128 * slot + 8)) 8)
/-- The handler PC of a message in an inbox slot (R204). -/
def State.msgHpc (s : State) (core slot : Nat) : Nat := natOf (s.rd (pmLoc core (0x3B000 + 128 * slot)) 8)

/-- The KIND 6 post of a NACK, to the sender's own supervisor (R363, R367, R409). -/
def State.nack (s : State) (core slot : Nat) : State :=
  let w := s.msgWord core slot
  s.post { pkg := bits w 21 12, part := bits w 25 22, w0 := postWord 6 0 cUE (bits w 21 0), pc := s.msgHpc core slot,
           addr := 0, aux := w, source := none }

/-- An activation that traps (R210, R367): buffered effects dropped, futures undone, the slot freed and the fault posted;
or, for consumed poison, the message kept for redelivery, up to three times. -/
def State.rollback (s : State) (cause pc addr : Nat) : State :=
  let core := s.cur.core
  match s.me.act with
  | none => s.setStateAt core 1 stEMPTY
  | some a =>
    let t := a.futs.foldl (fun u f => u.futUndo core f.1 f.2) s
    if cause = cUE then
      let c := t.core core
      if c.inbox.any (fun e => e.slot == a.slot && decide (3 ≤ e.tries)) then
        (t.nack core a.slot).endActivation core true
      else
        let t := t.setCore core { c with
          inbox := c.inbox.map (fun e => if e.slot = a.slot then { e with tries := e.tries + 1 } else e) }
        t.endActivation core false
    else
      (t.postFrom 3 core 1 cause pc addr (t.msgWord core a.slot) none).endActivation core true

/-- What becomes of a trap whose cause, address and AUX are in the context words: the rows of R358, in order. `pc` is the
address of the trapping instruction. -/
def State.dispose (s : State) (cause pc : Nat) : State :=
  let core := s.cur.core
  let ctx := s.cur.ctx
  let c := s.myCtx
  if ctx = 1 then s.rollback cause pc (if cause = cSOFTWARE_TRAP then s.cx cxAUX else s.cx cxADDR)
  else if c.twin then
    (if cause = cUE then s.endWith core ctx (.mismatch cUE)
    else if cause = cCANCEL_REQ then s.endWith core ctx .cancelled
    else s.holdAndPost core ctx)
  else if cause = cUE ∧ 2 ≤ ctx then s.consumed
  else if cause = cFORMAT_CODE ∨ cause = cFORMAT_SCALE then s.holdAndPost core ctx
  else if ctx = 0 then
    (if s.me.trCvec ≠ 0 then s.enterRoutine s.me.trCvec else s.holdAndPost core ctx)
  else if s.me.trVec ≠ 0 ∧ bitOf s.me.trMask (causeClass cause) then s.enterRoutine s.me.trVec
  else if cause = cCANCEL_REQ then s.endWith core ctx .cancelled
  else s.holdAndPost core ctx

/-- Taking an exception: the one operation by which every instruction traps (R13, R358, R359). CX.PC stays at the
instruction, or is what the routine's entry makes it. -/
def State.takeTrap (s : State) (cause addr aux : Nat) : State := (s.setCause cause addr aux).dispose cause s.pc

/-- An instruction that traps: a next state. -/
def State.trap (s : State) (cause addr aux : Nat) : Host.Outcome State Fault Refusal := .next (s.takeTrap cause addr aux)

/-- An instruction that a handler activation and a twin member may not use (R208, R369). -/
def State.unitGate (s : State) (k : Host.Outcome State Fault Refusal) : Host.Outcome State Fault Refusal :=
  if s.cur.ctx = 1 then s.trap cHANDLER_WRITE 0 0
  else if s.myCtx.twin then s.trap cTWIN_FORBIDDEN 0 0
  else k

/-- TRAP (R361): SOFTWARE_TRAP with CX.PC past the instruction. -/
def State.softTrap (s : State) (v : Nat) : State :=
  ((s.setPC s.nextPC).setCause cSOFTWARE_TRAP 0 v).dispose cSOFTWARE_TRAP s.pc

/-- The reserved bits of a saved CX.REPS (R32). -/
def repsReserved (r : Nat) : Bool := bits r 31 27 != 0 || bits r 19 1 != 0

/-- The return from a trap (R362); a frame that holds poisoned words is consumed (R366). -/
def State.trapReturn (s : State) : State :=
  let core := s.cur.core
  let ctx := s.cur.ctx
  let f := s.gAt core ctx 2
  match s.frameOff core f 64 with
  | none => s.takeTrap cTRAP_FRAME f 0
  | some off =>
    let w (i : Nat) := natOf (s.rd (pmLoc core (off + 8 * i)) 8)
    let reps := w 1
    if ctx ≠ 1 ∧ f % 16 = 0 ∧ s.tainted (pmLoc core off) 64 then s.takeTrap cUE f 0
    else if ctx = 1 ∨ f % 16 ≠ 0 ∨ w 0 % 4 ≠ 0 ∨ repsReserved reps ∨ (bitOf reps 0 ∧ bits (w 2) 31 0 ≤ bits reps 63 32) then
      s.takeTrap cTRAP_FRAME f 0
    else
      (((((((((s.setGAt core ctx 4 (w 4)).setGAt core ctx 5 (w 5)).setGAt core ctx 6 (w 6)).setCx cxREPS reps).setCx
        cxREPN (w 2 % 2 ^ 32)).setCx cxREPB (w 3 / 4 * 4)).setGAt core ctx 2 ((f + 64) % 2 ^ 64)).setPC (w 0)).dropAhead)

/-- A covering wait that finds a logged fault of a class it covers (R132, R339, R340): the trap it raises, if any. The
log is searched from its oldest entry. -/
def State.raiseLogged (s : State) (covers : Nat → Bool) : Option State :=
  let core := s.cur.core
  let ctx := s.cur.ctx
  let n := s.status 23 19
  let ent (i : Nat) := natOf (s.rd (s.wsLoc core ctx (cxLOG + 24 * i)) 24)
  match (List.range n).find? (fun i => covers (bits (ent i) 138 137)) with
  | some i =>
    let e := ent i
    let rest := (List.range n).filter (fun j => j != i)
    let bytes := (rest.map (fun j => bytesOf 24 (ent j))).flatten ++ bytesOf 24 0
    let t := (s.cacheWr core ctx cxLOG bytes).setStatus 23 19 (n - 1)
    some (t.takeTrap (bits e 136 128) (bits e 127 64) (bits e 63 0))
  | none =>
    if s.status 24 24 = 1 then some ((s.setStatus 24 24 0).takeTrap cLOG_OVERFLOW 0 0) else none

/-- A deferred fault entered in a context's log (R22, R339). -/
def State.logFault (s : State) (core ctx pc addr cause cls : Nat) : State :=
  let st := s.cxAt core ctx cxSTATUS
  let n := bits st 23 19
  if 16 ≤ n then s.setCxAt core ctx cxSTATUS (setBits st 24 24 1)
  else
    let t := s.cacheWr core ctx (cxLOG + 24 * n) (bytesOf 8 pc ++ bytesOf 8 addr ++ bytesOf 8 (cause + cls * 512))
    t.setCxAt core ctx cxSTATUS (setBits st 23 19 (n + 1))

end Sys2Proof.Machine
end

