-- ==== Sys2Proof/Machine/Flags.lean ====
section
/-! DEFINITION. Machine/Flags.lean: the rounding mode and the sticky flags of CX.STATUS (R22, R58, R62, R85). -/
namespace Sys2Proof.Machine

/-- CX.STATUS.RM (R22). -/
def State.rm (s : State) : RoundMode := RoundMode.ofCode (s.status 13 12)

/-- The rounding of an RRR-C conversion (R45). -/
def State.rmOf (s : State) : RoundSel → RoundMode
  | .named m => m
  | .dynamic => s.rm

/-- Flags accrued in CX.STATUS.FPF (R62). -/
def State.accrue (s : State) (f : FFlags) : State := s.setStatus 18 14 (s.status 18 14 ||| f.toNat)

/-- A scalar floating-point result and its flags, and the instruction complete (R77, R85). -/
def State.doneF (s : State) (d : GReg) (r : Nat × FFlags) : State := ((s.setGN d r.1).accrue r.2).advance

/-- The low `n` bits of a general register operand (R77). -/
def State.gLow (s : State) (r : GReg) (n : Nat) : Nat := s.gN r % 2 ^ n

/-- An FP32 operand (R77). -/
def State.f (s : State) (r : GReg) : Nat := s.gLow r 32

end Sys2Proof.Machine
end

