-- ==== Sys2Proof/Machine/Held.lean ====
section
/-! DEFINITION. Machine/Held.lean: the lines and granules that engines hold (R232, R233), and the order of the posted
operations of one context (R206, R226). -/
namespace Sys2Proof.Machine

/-- The location of an address in near space of this package, if it is one. -/
def vaLoc (va : Nat) : Option Nat := if bits va 59 56 = 8 then some (0x08 * 2 ^ 56 + va % 2 ^ 46) else none

/-- The key of a granule of 64 bytes in near space. -/
def nearGran (loc : Nat) : Nat := 2 ^ 70 + loc / 64

/-- The key of the line or granule of an address of a partition. -/
def granKey (part va : Nat) : Nat :=
  match vaLoc va with
  | some loc => nearGran loc
  | none => part * 2 ^ 64 + va / 64

/-- Whether an engine holds a line or granule (R232). -/
def State.engHeld (s : State) (key : Nat) : Bool := s.running.any (fun r => r.2.held.contains key)

/-- Whether a command other than one holds a line or granule (R233, R234). -/
def State.heldByOther (s : State) (id key : Nat) : Bool := s.running.any (fun r => r.1 != id && r.2.held.contains key)

/-- Whether an engine holds any granule of `n` bytes at a near location. -/
def State.nearHeld (s : State) (loc n : Nat) : Bool :=
  s.engHeld (nearGran loc) || s.engHeld (nearGran (loc + (n - 1)))

/-- The near address of a core of this or another package, by system core number. -/
def coreVa (sysCore : Nat) : Nat :=
  0x08 * 2 ^ 56 + bits sysCore 21 12 * 2 ^ 46 + bits sysCore 11 10 * 2 ^ 44 + bits sysCore 9 3 * 2 ^ 37 +
    bits sysCore 2 0 * 2 ^ 33

/-- The context whose posted operations a flight is ordered with: one of this package, or one of another, whose requests arrive in
issue order (R350). -/
def Back.orders : Back → Option (Nat × Nat)
  | .count c x _ _ _ => some (c, x)
  | .remote _ c x => some (2 ^ 22 + c, x)
  | _ => Option.none

/-- Whose posted operation a flight that has not been performed yet is, and the address that it goes to (R226 item 3); a load is none. -/
def Flight.posted : Flight → Option (Nat × Nat × Nat)
  | .mem r => match r.op with
    | .load _ => none
    | _ => r.back.orders.map (fun o => (o.1, o.2, r.va))
  | .accum a => a.back.orders.map (fun o => (o.1, o.2, a.va))
  | .flush a => a.back.orders.map (fun o => (o.1, o.2, a.va))
  | .msg m => m.back.orders.map (fun o => (o.1, o.2, coreVa m.target))
  | _ => none

/-- The same for a flight that has been performed and is not yet acknowledged. -/
def Flight.counted (f : Flight) : Option (Nat × Nat × Nat) :=
  match f with
  | .ack (.count c x _ _ _) va _ => some (c, x, va)
  | f => f.posted

/-- The target of an access as R226 item 3 compares targets: a core or cluster store in near space, a line in global
space. -/
def State.targetKey (s : State) (core ea : Nat) : Nat :=
  if bits ea 59 56 = 9 then 2 ^ 64 + (pmLoc core 0 + s.pkgId * 2 ^ 46) / 2 ^ 33
  else if bits ea 59 56 = 8 then 2 ^ 64 + ea / 2 ^ 33
  else ea / 64

/-- Whether a flight is the first of its context's posted operations to its target (R206, R226 item 3). -/
def State.inOrder (s : State) (id : Nat) : Bool :=
  match (lookupId id s.flights).bind Flight.posted with
  | none => true
  | some (c, x, va) =>
    match s.flights.find? (fun f => match f.2.posted with
        | some (c', x', va') => c' == c && x' == x && s.targetKey c va' == s.targetKey c va
        | none => false) with
    | some f => f.1 == id
    | none => true

/-- A flight replaced by what becomes of it, in its place. -/
def State.become (s : State) (id : Nat) (f : Flight) : State := { s with flights := putId id f s.flights }

end Sys2Proof.Machine
end

