-- ==== Sys2Proof/Machine/Access.lean ====
section
/-! DEFINITION. Machine/Access.lean: effective addresses and the checks on them (R116, R117, R24, R26), the waits before
an access (R121, R128, R132), local accesses, and requests to remote targets. -/
namespace Sys2Proof.Machine

/-- The CLASS of the route to a package (R347). -/
def State.routeClass (s : State) (pkg : Nat) : Nat := bits (Tbl.get 0 s.routes pkg) 1 0

/-- Whether a partition holds a port on the route to a package (R349). -/
def State.routeOpen (s : State) (part pkg : Nat) : Bool :=
  s.routeClass pkg != 0 && (Tbl.get [] s.routePorts pkg).any (fun p => (s.part part).ports.contains p)

/-- A cluster's router in the package mesh of 32 columns and 16 rows (R2), and the cluster at a router. -/
def routerOf (cl : Nat) : Nat × Nat := (cl / 128 % 2 * 16 + cl % 16, cl / 256 * 8 + cl % 128 / 16)
def clusterAt (p : Nat × Nat) : Nat := (p.2 / 8 * 2 + p.1 / 16) * 128 + p.2 % 8 * 16 + p.1 % 16

/-- Routers reached from given ones by hops to the north, south and east through live routers (R382). -/
def State.spread (s : State) : Nat → List (Nat × Nat) → List (Nat × Nat)
  | 0, at_ => at_
  | fuel + 1, at_ =>
    let near := at_.flatMap (fun p => [(p.1 + 1, p.2), (p.1, p.2 + 1), (p.1, p.2 - 1)])
    let new := (near.filter (fun p => decide (p.1 < 32) && decide (p.2 < 16) && !at_.contains p &&
      !(s.cluster (clusterAt p)).fenced)).eraseDups
    if new = [] then at_ else s.spread fuel (at_ ++ new)

/-- Whether west-first routing leads from a cluster to another (R382); what a fenced cluster does is its own check. -/
def State.reaches (s : State) (a b : Nat) : Bool :=
  if !(s.clusters.any (fun c => c.2.fenced)) ∨ (s.cluster b).fenced then true
  else
    let (x, y) := routerOf a
    let west := ((List.range (x + 1)).takeWhile (fun k => k == 0 || !(s.cluster (clusterAt (x - k, y))).fenced)).map
      (fun k => (x - k, y))
    (s.spread 512 west).contains (routerOf b)

/-- Where an address leads after steps 1 and 3 of R116: a cluster's unit and offset, another package, or global space. -/
inductive Dest where
  | unit (cluster unit off : Nat)
  | away (pkg : Nat)
  | global
  deriving DecidableEq, Repr

/-- The size of a near unit (R116 step 3). -/
def unitSize (u : Nat) : Nat := if u < 8 then 0x40000 else if u = 8 then 0x400000 else 0x80000

/-- What an access is, as R116 distinguishes it. -/
inductive Kind where
  | load | store | nibble | atomic
  deriving DecidableEq, Repr

/-- Step 1 of R116. -/
def unmapped (ea : Nat) : Bool := bits ea 63 60 != 0 || decide (10 ≤ bits ea 59 56)

/-- Step 3 of R116, and R382: the place, or the failing check. -/
def State.place (s : State) (core ea : Nat) : Except Nat Dest :=
  if bits ea 59 56 = 8 then
    let u := bits ea 36 33
    let off := bits ea 32 0
    if 10 ≤ u then .error cNEAR_ABSENT
    else if unitSize u ≤ off then .error cNEAR_RANGE
    else if bits ea 55 46 ≠ s.pkgId then
      (if s.routeOpen (s.partOf core) (bits ea 55 46) then .ok (.away (bits ea 55 46)) else .error cNEAR_ABSENT)
    else if !s.reaches (clusterOf core) (bits ea 45 44 * 128 + bits ea 43 37) then .error cNEAR_ABSENT
    else .ok (.unit (bits ea 45 44 * 128 + bits ea 43 37) u off)
  else if bits ea 59 56 = 9 then
    if 0x40000 ≤ bits ea 55 0 then .error cNEAR_RANGE
    else .ok (.unit (clusterOf core) (core % 8) (bits ea 55 0))
  else if !s.reaches (clusterOf core) (s.home (s.partOf core) ea) then .error cNEAR_ABSENT
  else .ok .global

/-- The mode of the bank that holds an offset of a cluster store; the task queue above bank 7's mode region is plain
memory in every mode (R218). -/
def State.bankMode (s : State) (cl off : Nat) : Nat :=
  if 0x3F8000 ≤ off then 0 else bits (s.cluster cl).csMode (2 * (off / 0x80000) + 1) (2 * (off / 0x80000))

/-- The core whose private memory a unit is. -/
def coreOfUnit (cl u : Nat) : Nat := cl * 8 + u

/-- Whether a near offset lies in the workspace that is current for some context of a core other than `ctx`, at its state
words, while that context is neither EMPTY nor HELD (R26). -/
def State.liveStateWord (s : State) (core ctx off n : Nat) : Bool :=
  (List.range 12).any (fun c =>
    let w := (s.ctxAt core c).wp + 0xA10
    c != ctx && decide (off < w + 0x70) && decide (w < off + n) &&
      s.stateAt core c != stEMPTY && s.stateAt core c != stHELD)

/-- Step 4 of R116: access to the PM system area (R24, R26, R207, R262). -/
def State.systemAreaOk (s : State) (core ctx : Nat) (k : Kind) (cl u off n : Nat) : Bool :=
  if 8 ≤ u ∨ off + n ≤ 0x30000 then true
  else if coreOfUnit cl u ≠ core then false
  else if ctx = 0 then
    match k with
    | .load => true
    | _ => !(decide (0x3C000 < off + n)) && !(s.liveStateWord core ctx off n)
  else if ctx = 1 then
    match k, (s.core core).act with
    | .load, some a => decide (0x3B000 + 128 * a.slot ≤ off) && decide (off + n ≤ 0x3B000 + 128 * a.slot + 128)
    | _, _ => false
  else false

/-- Whether the executing context may reach an offset of a cluster store in the task queue (R194): the control context of a
core of the cluster, and a task's loads of its own record. -/
def State.queueOk (s : State) (k : Kind) (cl off : Nat) : Bool :=
  decide (off < 0x3F8000) || (cl == clusterOf s.cur.core && (s.cur.ctx == 0 || (decide (k = .load) &&
    (match s.myCtx.task with
     | some (c, rid) => c == cl && off / 64 == 0x3F8000 / 64 + rid
     | none => false))))

/-- The checks of R116 on an access of `n` bytes aligned to `align`: the place, or the failing cause. -/
def State.addrR116 (s : State) (k : Kind) (ea n align : Nat) : Except Nat Dest :=
  let core := s.cur.core
  if unmapped ea then .error cUNMAPPED
  else if ea % align ≠ 0 then .error cMISALIGNED
  else match s.place core ea with
    | .error c => .error c
    | .ok .global => .ok .global
    | .ok (.away p) =>
      -- the PM system area of another package's core (R24)
      if bits ea 36 33 < 8 ∧ 0x30000 < bits ea 32 0 + n then .error cPROTECTION
      else if (k = .atomic ∧ 8 ≤ bits ea 36 33) ∨ (k = .nibble ∧ 9 ≤ bits ea 36 33) then .error cATOMIC_TARGET
      else if (k = .atomic ∨ k = .nibble) ∧ s.routeClass p ≠ 1 then .error cATOMIC_PATH
      else .ok (.away p)
    | .ok (.unit cl u off) =>
      if !s.systemAreaOk core s.cur.ctx k cl u off n then .error cPROTECTION
      else if u = 8 ∧ cl = clusterOf core ∧ s.bankMode cl off = 1 then .error cBANK_CONFLICT
      else if (k = .atomic ∧ 8 ≤ u) ∨ (k = .nibble ∧ (u = 9 ∨ (u = 8 ∧ cl = clusterOf core ∧ s.bankMode cl off ≠ 0))) then
        .error cATOMIC_TARGET
      else .ok (.unit cl u off)

/-- The checks of R116, and on a load that of R194: the place, or the failing cause. -/
def State.checkAddr (s : State) (k : Kind) (ea n align : Nat) : Except Nat Dest :=
  match s.addrR116 k ea n align with
  | .ok (.unit cl u off) => if k = .load ∧ u = 8 ∧ !s.queueOk k cl off then .error cPROTECTION else .ok (.unit cl u off)
  | p => p

/-- Whether an access is local (R117): the core's own PM, or its cluster's store in SCRATCH mode. -/
def State.isLocal (s : State) (k : Kind) (p : Dest) : Bool :=
  match p with
  | .unit cl u off =>
    (u == s.cur.core % 8 && cl == clusterOf s.cur.core) ||
      (u == 8 && cl == clusterOf s.cur.core && s.bankMode cl off == 0 && s.queueOk k cl off)
  | _ => false

/-- The address of a posted operation of a context that is in flight or not acknowledged yet. -/
def countedVa (core ctx : Nat) (f : Flight) : Option Nat :=
  match f.counted with
  | some (c, x, va) => if c = core ∧ x = ctx then some va else none
  | none => none

/-- The flights of a context's requests: those sent, those of a twin member that the comparator holds, and, of a partner, those of its
primary that stand for its own, as its own (R370). -/
def State.ownFlights (s : State) : List Flight :=
  s.flights.map (·.2) ++ s.pairs.flatMap (fun p => (p.2.qa ++ p.2.qb).map (·.2)) ++
    s.aliases.filterMap (fun a => match lookupId a.1 s.flights with
      | some (.mem r) => some (.mem { r with back := a.2.2 })
      | some (.msg m) => some (.msg { m with back := a.2.2 })
      | some (.ack _ va c) => some (.ack a.2.2 va c)
      | _ => none)

/-- Whether a posted operation of the executing context to the same target or line is outstanding (R119). -/
def State.pendingTo (s : State) (ea : Nat) : Bool :=
  s.ownFlights.any (fun f => match countedVa s.cur.core s.cur.ctx f with
    | some va => s.targetKey s.cur.core va == s.targetKey s.cur.core ea
    | none => false)

/-- The private-memory offset that an address of the executing core names, if any. -/
def State.ownOff (s : State) (ea : Nat) : Option Nat :=
  match s.place s.cur.core ea with
  | .ok (.unit cl u off) => if coreOfUnit cl u = s.cur.core ∧ u < 8 then some off else none
  | _ => none

/-- The width of an atomic in bytes (R126). -/
def AOp.width : AOp → Nat
  | .fadd => 4
  | _ => 8

/-- Whether a posted atomic of the executing context on bytes of its own PM has not been performed yet (R117). -/
def State.pendingOwnAtomic (s : State) (off n : Nat) : Bool :=
  s.ownFlights.any (fun f => match f with
    | .mem { op := .atomic op _, back := .count c x _ _ _, va := va, .. } =>
      c == s.cur.core && x == s.cur.ctx && (match s.ownOff va with
        | some o => decide (o < off + n) && decide (off < o + op.width)
        | none => false)
    | _ => false)

/-- Whether a cluster waits for a bank to be switched (R223). -/
def State.switching (s : State) (cl bank : Nat) : Bool :=
  (List.range 8).any (fun u => (List.range 12).any (fun x => match (s.ctxAt (coreOfUnit cl u) x).wait with
    | .bank n => n == bank
    | _ => false))

/-- Whether a local access of `n` bytes waits: for an atomic of the context on the location (R117), for an engine (R233), for a switch of
its bank (R223), or, but for a store, for a posted operation of the context to a FIFO bank of the same cluster store (R119, R226). -/
def State.localWait (s : State) (k : Kind) (cl u off n ea : Nat) : Bool :=
  (decide (u < 8) && s.pendingOwnAtomic off n) || s.nearHeld (nearLoc cl u off) n ||
    (u == 8 && decide (off < 0x3F8000) && s.switching cl (off / 0x80000)) || (u == 8 && decide (k ≠ .store) && s.pendingTo ea)

/-- Whether a wedge entry holds a command of a context. -/
def WedgeEnt.holds (e : WedgeEnt) (core ctx : Nat) : Bool := e.members.any (fun m => m.core == core && m.ctx == ctx)

/-- Every open wedge entry that satisfies a test is released now, behind those released before (R244). -/
def State.releaseWhere (s : State) (cl : Nat) (p : WedgeEnt → Bool) : State :=
  let c := s.cluster cl
  let hit := fun e => e.released.isNone && p e
  if c.wedge.any hit then
    s.setCluster cl { c with wedge := c.wedge.filter (fun e => !hit e) ++
      (c.wedge.filter hit).map (fun e => { e with released := some s.clock }) }
  else s

/-- MSYNC's effect: every wedge entry that holds a command of the executing context is released (R161, R244). -/
def State.msync (s : State) : State :=
  s.releaseWhere (clusterOf s.cur.core) (fun e => e.holds s.cur.core s.cur.ctx)

/-- A wait on all counters begins: the context's wedge members are released, and it is STALLED (R133, R244). -/
def State.waitAll (s : State) : State := s.msync.stall .retry

/-- The wait of a .REL operation (R120, R128) with the faults it raises (R132), then `k`. -/
def State.relGate (s : State) (k : Host.Outcome State Fault Refusal) : Host.Outcome State Fault Refusal :=
  if !s.quietAt s.cur.core s.cur.ctx then .next s.waitAll
  else match s.raiseLogged (fun c => decide (c ≤ 2)) with
    | some t => .next t
    | none => k

/-- The wait of the W field (R121) with the faults it raises (R132), then `k`. -/
def State.wGate (s : State) (w : WaitSel) (k : Host.Outcome State Fault Refusal) : Host.Outcome State Fault Refusal :=
  if !w.sn && !w.sg then k
  else if (w.sn && s.cnt .sn != 0) || (w.sg && s.cnt .sg != 0) then .next (s.stall .retry)
  else match s.raiseLogged (fun c => (w.sn && c == 0) || (w.sg && c == 1)) with
    | some t => .next t
    | none => k

/-- The wait before a store, atomic or STN: the release wait, which covers the W field, or the W field's (R120, R128). -/
def State.orderGate (s : State) (rel : Bool) (w : WaitSel) (k : Host.Outcome State Fault Refusal) :
    Host.Outcome State Fault Refusal :=
  if rel then s.relGate k else s.wGate w k

/-- Bytes of a near unit of this package. -/
def State.nearRd (s : State) (cl u off n : Nat) : List Byte := s.rd (nearLoc cl u off) n

/-- A store's bytes in a near unit. In a private memory the bytes of a current workspace are written through the register cache (R25),
the low byte of CX.STATUS, which holds CTX and STATE, is not changed by stores (R16, R22; log entry 7), and reserved bits of the context
words stay zero (R20). -/
def State.nearWr (s : State) (cl u off : Nat) (bs : List Byte) : State :=
  match if u < 8 then s.wsAt (coreOfUnit cl u) off else none with
  | none => s.wr (nearLoc cl u off) bs
  | some (x, o) =>
    let core := coreOfUnit cl u
    let t := s.cacheWr core x o bs
    if o + bs.length ≤ cxPC ∨ cxLOG ≤ o then t
    else t.holdIn core x (s.stateAt core x) (heldWords.filter (fun w => decide (o < w + 8) && decide (w < o + bs.length)))

/-- A nibble merged into a byte (R124). -/
def mergeNibble (hi : Bool) (v : Nat) (old : Byte) : Byte :=
  if hi then BitVec.ofNat 8 (v % 16 * 16 + old.toNat % 16) else BitVec.ofNat 8 (old.toNat / 16 * 16 + v % 16)

/-- The new value of an atomic (R126). -/
def AOp.apply (op : AOp) (old b : Nat) : Nat :=
  match op with
  | .xchg => b
  | .add => (old + b) % 2 ^ 64
  | .and => old &&& b
  | .or => old ||| b
  | .xor => old ^^^ b
  | .min => if toSigned old 64 < toSigned b 64 then old else b
  | .max => if toSigned old 64 < toSigned b 64 then b else old
  | .minu => Nat.min old b
  | .maxu => Nat.max old b
  | .fadd => (fAdd .rne old (b % 2 ^ 32)).1

/-- A read-modify-write or store on bytes: the new bytes and the value returned (R124 to R127). -/
def MemOp.run (op : MemOp) (old : List Byte) : List Byte × Nat :=
  match op with
  | .load _ => ([], natOf old)
  | .fetch => ([], natOf old)
  | .prefetch => ([], 0)
  | .store bs _ => (bs, 0)
  | .nibble hi v => ([mergeNibble hi v (old.headD 0)], 0)
  | .atomic o b => (bytesOf o.width (o.apply (natOf old) b), natOf old)
  | .cas len e n => (if natOf old = e then bytesOf len n else [], natOf old)

/-- The number of bytes an operation touches. -/
def MemOp.size : MemOp → Nat
  | .load n => n
  | .fetch => 4
  | .prefetch => 1
  | .store bs _ => bs.length
  | .nibble _ _ => 1
  | .atomic o _ => o.width
  | .cas len _ _ => len

/-- Whether an operation writes, for translation (R334). -/
def MemOp.access : MemOp → Access
  | .load _ => .read
  | .fetch => .fetch
  | .prefetch => .read
  | _ => .write

/-- Whether an operation reads the data it finds as a value (R366). -/
def MemOp.consumes : MemOp → Bool
  | .store _ _ => false
  | .prefetch => false
  | _ => true

/-- An operation at a near location: the new state and the value returned. -/
def State.nearRun (s : State) (cl u off : Nat) (op : MemOp) : State × Nat :=
  let r := op.run (s.nearRd cl u off op.size)
  (if r.1 = [] then s else s.nearWr cl u off r.1, r.2)

/-- The state that a handler's loads see: its own buffered stores applied (R208). -/
def State.handlerView (s : State) : State :=
  match s.me.act with
  | some a =>
    if s.cur.ctx = 1 then
      a.buf.foldl (fun t b => (t.nearRun (clusterOf s.cur.core) (s.cur.core % 8) b.off b.op).1) s
    else s
  | none => s

/-- The sequence pair of an atomic or nibble store that leaves the core (R129), with the counter advanced. -/
def State.takeSeq (s : State) : State × (Nat × Nat) :=
  let c := s.me
  (s.setMe { c with seq := (c.seq + 1) % 2 ^ 32 }, (s.sysCore s.cur.core, c.seq))

/-- The location of a near address of this package. -/
def Dest.near : Dest → Option Nat
  | .unit cl u off => some (nearLoc cl u off)
  | _ => none

/-- A blocking request, a release or not: the context is STALLED until its reply (R119). -/
def State.request (s : State) (p : Dest) (ea : Nat) (op : MemOp) (rel : Bool) (seq : Option (Nat × Nat)) (k : Kont) : State :=
  let r : MemReq :=
    { part := s.partOf s.cur.core, va := ea, near := p.near, op := op, back := .ctx s.cur.core s.cur.ctx, seq := seq,
      stage := .travelling, refused := none, rel := rel, again := false }
  (s.launchFlight (.mem r)).stall (.reply s.nextId k s.cur)

/-- The counter of a posted store by its target (R28). -/
def Dest.cnt : Dest → Cnt
  | .global => .sg
  | _ => .sn

/-- A posted operation sent, a release or not, without counting it. -/
def State.sendPosted (s : State) (p : Dest) (ea : Nat) (op : MemOp) (rel : Bool) (c : Cnt) (seq : Option (Nat × Nat)) (group : Nat) :
    State :=
  s.launchFlight (.mem
    { part := s.partOf s.cur.core, va := ea, near := p.near, op := op,
      back := .count s.cur.core s.cur.ctx c s.pc group, seq := seq, stage := .travelling, refused := none,
      rel := rel, again := false })

/-- A counter's increment at issue (R29), or the wait for room in it. -/
def State.counted (s : State) (c : Cnt) (k : State → State) : State :=
  if 63 ≤ s.cnt c then s.stall .retry else k (s.setCnt c (s.cnt c + 1))

/-- A posted operation: counted, sent and retired (R120, R126). -/
def State.posted (s : State) (p : Dest) (ea : Nat) (op : MemOp) (rel : Bool) (c : Cnt) (seq : Bool) : State :=
  s.counted c (fun t =>
    let u := if seq then t.takeSeq else (t, (0, 0))
    (u.1.sendPosted p ea op rel c (if seq then some u.2 else none) u.1.nextId).advance)

/-- A store of an activation, buffered until HRET (R208). -/
def State.bufferStores (s : State) (bs : List BufStore) (n : Nat) : State :=
  match s.me.act with
  | none => s.advance
  | some a =>
    if 32 < a.stores + n then s.takeTrap cHANDLER_STORES 0 0
    else (s.setMe { s.me with act := some { a with stores := a.stores + n, buf := a.buf ++ bs } }).advance

/-- The acquire effect of a completion, when the value that it returns was written by a release (R229). -/
def State.acquireIf (s : State) (saw : Bool) : State := if saw then s.acquire else s

/-- A store or nibble store after its waits, a release or not (R120, R124): local and immediate, buffered by an activation, or posted. A
handler's store outside its own private memory traps after the checks of R116 (DESIGN CHOICE, log entry 108). -/
def State.storeTo (s : State) (k : Kind) (ea align : Nat) (op : MemOp) (rel : Bool) : State :=
  match s.checkAddr k ea op.size align with
  | .error c => s.takeTrap c ea 0
  | .ok p =>
    if s.cur.ctx = 1 then
      match s.ownOff ea with
      | some off => s.bufferStores [{ off := off, op := op }] 1
      | none => s.takeTrap cHANDLER_WRITE 0 0
    else if s.isLocal k p then
      match p with
      | .unit cl u off =>
        if s.localWait k cl u off op.size ea then s.stall .retry
        else
          let t := (s.nearRun cl u off op).1
          (if rel then t.markReleased (nearLoc cl u off) op.size else t).advance
      | _ => s
    else s.posted p ea op rel p.cnt (k = .nibble)

/-- A load after its waits (R119): local and immediate, or a request; `k` says what its data does. -/
def State.loadFrom (s : State) (ea n align : Nat) (k : Kont) (fin : State → List Byte → State) : State :=
  match s.checkAddr .load ea n align with
  | .error c => s.takeTrap c ea 0
  | .ok p =>
    if s.isLocal .load p then
      match p with
      | .unit cl u off =>
        if s.localWait .load cl u off n ea then s.stall .retry
        else if s.tainted (nearLoc cl u off) n then s.takeTrap cUE ea 0
        else (fin s (s.handlerView.nearRd cl u off n)).acquireIf (s.sawRelease (nearLoc cl u off) n)
      | _ => s
    else if s.pendingTo ea then s.stall .retry
    else s.request p ea (.load n) false none k

end Sys2Proof.Machine
end

