-- ==== Sys2Proof/Machine/Vector.lean ====
section
/-! DEFINITION. Machine/Vector.lean: vector arithmetic, compares, permutes, conversions, reductions and moves
(R97 to R111). -/
namespace Sys2Proof.Machine

/-- The lanes of a vector register where a mask is set replaced by new values (R97): the other lanes keep theirs, and a
64-bit word is cleared of poison only when both of its lanes are written (R365). The whole register counts as written for the
chunk's dirty bit (R25). -/
def State.setV (s : State) (d : VReg) (mask : Nat) (f : Nat → Nat) : State :=
  let loc := s.wsLoc s.cur.core s.cur.ctx (0x200 + 64 * d.val)
  let bs := ((List.range 16).map (fun i => bytesOf 4 (if bitOf mask i then f i else s.laneN d i))).flatten
  { s.cacheWr s.cur.core s.cur.ctx (0x200 + 64 * d.val) bs with poisoned := s.poisoned.filter (fun w => !(decide (loc ≤ w) && decide (w < loc + 64) &&
      bitOf mask ((w - loc) / 4) && bitOf mask ((w - loc) / 4 + 1))) }

/-- A lane-wise result under the governing mask, and the instruction complete. -/
def State.doneV (s : State) (d : VReg) (m : MReg) (f : Nat → Nat) : State := (s.setV d (s.mN m) f).advance

/-- A result written to all sixteen lanes. -/
def State.doneAll (s : State) (d : VReg) (v : Nat) : State := (s.setV d 0xFFFF (fun _ => v)).advance

/-- A mask result, bit by bit, and the instruction complete (R97). -/
def State.doneM (s : State) (d : MReg) (f : Nat → Bool) : State :=
  (s.setMN d ((List.range 16).foldl (fun acc i => acc + (f i).toNat * 2 ^ i) 0)).advance

/-- The active lanes of a register, lane number and value, from lane 0 up (R108, R109). -/
def State.active (s : State) (a : VReg) (m : MReg) : List (Nat × Nat) :=
  ((List.range 16).filter (fun i => bitOf (s.mN m) i)).map (fun i => (i, s.laneN a i))

/-- The value of the lane of BF16 element i of a packed vector (R106). -/
def halfOf (x i : Nat) : Nat := x / 2 ^ (16 * (i % 2)) % 2 ^ 16

/-- VBFMA on one lane (R101): an exact sum with one rounding. -/
def bfmaLane (mode : RoundMode) (a b d : Nat) : Nat :=
  let v (x : Nat) := bf16.decode (x % 2 ^ 16)
  (f32 mode (sumVals (decide (mode = .rdn))
    [some (fp32.decode d), mulFin (v a) (v b), mulFin (v (a / 2 ^ 16)) (v (b / 2 ^ 16))])).1

/-- Signed saturation to 32 bits (R103). -/
def sat32 (x : Int) : Nat := ofSigned (max (-2 ^ 31) (min x (2 ^ 31 - 1))) 32

/-- One level of the tree of VREDFADD (R108). -/
def treeLevel (mode : RoundMode) : List (Option Nat) → List (Option Nat)
  | x :: y :: rest => (match x, y with
      | none, y => y
      | x, none => x
      | some x, some y => some (fAdd mode x y).1) :: treeLevel mode rest
  | xs => xs

/-- VREDFADD's sum (R108). -/
def treeSum (mode : RoundMode) (xs : List (Option Nat)) : Nat :=
  match treeLevel mode (treeLevel mode (treeLevel mode (treeLevel mode xs))) with
  | some v :: _ => canonNan v
  | _ => 0

/-- The running values of VSCANF: lane and result (R109). -/
def scanF (mode : RoundMode) : Option Nat → List (Nat × Nat) → List (Nat × Nat)
  | _, [] => []
  | none, (i, x) :: t => (i, canonNan x) :: scanF mode (some x) t
  | some r, (i, x) :: t => (i, (fAdd mode r x).1) :: scanF mode (some (fAdd mode r x).1) t

/-- VREDFMAX and VREDFMIN (R108). -/
def extreme (low : Bool) (dflt : Nat) : List (Nat × Nat) → Nat
  | [] => dflt
  | (_, x) :: t => canonNan (t.foldl (fun acc y => (fMinMax low acc y.2).1) x)

/-- VPRUNE on one lane (R110). -/
def pruneKeep (c t : Nat) : Bool :=
  let x := fp32.decode c
  let y := fp32.decode t
  if x.isNan then false else if y.isNan then true else !(x.lt y)

/-- VFADD (R100). -/
def execVfadd (d a b : VReg) (m : MReg) (s : State) : Host.Outcome State Fault Refusal :=
  .next (s.doneV d m (fun i => (fAdd s.rm (s.laneN a i) (s.laneN b i)).1))

/-- VFSUB (R100). -/
def execVfsub (d a b : VReg) (m : MReg) (s : State) : Host.Outcome State Fault Refusal :=
  .next (s.doneV d m (fun i => (fSub s.rm (s.laneN a i) (s.laneN b i)).1))

/-- VFMUL (R100). -/
def execVfmul (d a b : VReg) (m : MReg) (s : State) : Host.Outcome State Fault Refusal :=
  .next (s.doneV d m (fun i => (fMul s.rm (s.laneN a i) (s.laneN b i)).1))

/-- VFDIV (R100). -/
def execVfdiv (d a b : VReg) (m : MReg) (s : State) : Host.Outcome State Fault Refusal :=
  .next (s.doneV d m (fun i => (fDiv s.rm (s.laneN a i) (s.laneN b i)).1))

/-- VFMA (R100). -/
def execVfma (d a b : VReg) (m : MReg) (s : State) : Host.Outcome State Fault Refusal :=
  .next (s.doneV d m (fun i => (fMadd s.rm (s.laneN a i) (s.laneN b i) (s.laneN d i)).1))

/-- VFMS (R100). -/
def execVfms (d a b : VReg) (m : MReg) (s : State) : Host.Outcome State Fault Refusal :=
  .next (s.doneV d m (fun i => (fMsub s.rm (s.laneN a i) (s.laneN b i) (s.laneN d i)).1))

/-- VFMIN (R100). -/
def execVfmin (d a b : VReg) (m : MReg) (s : State) : Host.Outcome State Fault Refusal :=
  .next (s.doneV d m (fun i => (fMinMax true (s.laneN a i) (s.laneN b i)).1))

/-- VFMAX (R100). -/
def execVfmax (d a b : VReg) (m : MReg) (s : State) : Host.Outcome State Fault Refusal :=
  .next (s.doneV d m (fun i => (fMinMax false (s.laneN a i) (s.laneN b i)).1))

/-- VFABS (R100). -/
def execVfabs (d a : VReg) (m : MReg) (s : State) : Host.Outcome State Fault Refusal :=
  .next (s.doneV d m (fun i => fAbs (s.laneN a i)))

/-- VFNEG (R100). -/
def execVfneg (d a : VReg) (m : MReg) (s : State) : Host.Outcome State Fault Refusal :=
  .next (s.doneV d m (fun i => fNeg (s.laneN a i)))

/-- VFSQRT (R100). -/
def execVfsqrt (d a : VReg) (m : MReg) (s : State) : Host.Outcome State Fault Refusal :=
  .next (s.doneV d m (fun i => (fSqrt s.rm (s.laneN a i)).1))

/-- VFRCP (R102). -/
def execVfrcp (d a : VReg) (m : MReg) (s : State) : Host.Outcome State Fault Refusal :=
  .next (s.doneV d m (fun i => fRcp (s.laneN a i)))

/-- VFRSQ (R102). -/
def execVfrsq (d a : VReg) (m : MReg) (s : State) : Host.Outcome State Fault Refusal :=
  .next (s.doneV d m (fun i => fRsq (s.laneN a i)))

/-- VFEXP2 (R102). -/
def execVfexp2 (d a : VReg) (m : MReg) (s : State) : Host.Outcome State Fault Refusal :=
  .next (s.doneV d m (fun i => fExp2 (s.laneN a i)))

/-- VFLOG2 (R102). -/
def execVflog2 (d a : VReg) (m : MReg) (s : State) : Host.Outcome State Fault Refusal :=
  .next (s.doneV d m (fun i => fLog2 (s.laneN a i)))

/-- VBFMA (R101). -/
def execVbfma (d a b : VReg) (m : MReg) (s : State) : Host.Outcome State Fault Refusal :=
  .next (s.doneV d m (fun i => bfmaLane s.rm (s.laneN a i) (s.laneN b i) (s.laneN d i)))

/-- VADD (R103). -/
def execVadd (d a b : VReg) (m : MReg) (s : State) : Host.Outcome State Fault Refusal :=
  .next (s.doneV d m (fun i => (s.laneN a i) + (s.laneN b i)))

/-- VSUB (R103). -/
def execVsub (d a b : VReg) (m : MReg) (s : State) : Host.Outcome State Fault Refusal :=
  .next (s.doneV d m (fun i => (s.laneN a i) + 2 ^ 32 - (s.laneN b i)))

/-- VMUL (R103). -/
def execVmul (d a b : VReg) (m : MReg) (s : State) : Host.Outcome State Fault Refusal :=
  .next (s.doneV d m (fun i => (s.laneN a i) * (s.laneN b i)))

/-- VMULH (R103). -/
def execVmulh (d a b : VReg) (m : MReg) (s : State) : Host.Outcome State Fault Refusal :=
  .next (s.doneV d m (fun i => ofSigned (toSigned (s.laneN a i) 32 * toSigned (s.laneN b i) 32 / 2 ^ 32) 32))

/-- VMIN (R103). -/
def execVmin (d a b : VReg) (m : MReg) (s : State) : Host.Outcome State Fault Refusal :=
  .next (s.doneV d m (fun i => if toSigned (s.laneN a i) 32 < toSigned (s.laneN b i) 32 then (s.laneN a i) else (s.laneN b i)))

/-- VMAX (R103). -/
def execVmax (d a b : VReg) (m : MReg) (s : State) : Host.Outcome State Fault Refusal :=
  .next (s.doneV d m (fun i => if toSigned (s.laneN a i) 32 < toSigned (s.laneN b i) 32 then (s.laneN b i) else (s.laneN a i)))

/-- VMINU (R103). -/
def execVminu (d a b : VReg) (m : MReg) (s : State) : Host.Outcome State Fault Refusal :=
  .next (s.doneV d m (fun i => min (s.laneN a i) (s.laneN b i)))

/-- VMAXU (R103). -/
def execVmaxu (d a b : VReg) (m : MReg) (s : State) : Host.Outcome State Fault Refusal :=
  .next (s.doneV d m (fun i => max (s.laneN a i) (s.laneN b i)))

/-- VAND (R103). -/
def execVand (d a b : VReg) (m : MReg) (s : State) : Host.Outcome State Fault Refusal :=
  .next (s.doneV d m (fun i => (s.laneN a i) &&& (s.laneN b i)))

/-- VOR (R103). -/
def execVor (d a b : VReg) (m : MReg) (s : State) : Host.Outcome State Fault Refusal :=
  .next (s.doneV d m (fun i => (s.laneN a i) ||| (s.laneN b i)))

/-- VXOR (R103). -/
def execVxor (d a b : VReg) (m : MReg) (s : State) : Host.Outcome State Fault Refusal :=
  .next (s.doneV d m (fun i => (s.laneN a i) ^^^ (s.laneN b i)))

/-- VSHL (R103). -/
def execVshl (d a b : VReg) (m : MReg) (s : State) : Host.Outcome State Fault Refusal :=
  .next (s.doneV d m (fun i => (s.laneN a i) * 2 ^ ((s.laneN b i) % 32)))

/-- VSHR (R103). -/
def execVshr (d a b : VReg) (m : MReg) (s : State) : Host.Outcome State Fault Refusal :=
  .next (s.doneV d m (fun i => (s.laneN a i) / 2 ^ ((s.laneN b i) % 32)))

/-- VSRA (R103). -/
def execVsra (d a b : VReg) (m : MReg) (s : State) : Host.Outcome State Fault Refusal :=
  .next (s.doneV d m (fun i => ofSigned (toSigned (s.laneN a i) 32 / 2 ^ ((s.laneN b i) % 32)) 32))

/-- VADDS (R103). -/
def execVadds (d a b : VReg) (m : MReg) (s : State) : Host.Outcome State Fault Refusal :=
  .next (s.doneV d m (fun i => sat32 (toSigned (s.laneN a i) 32 + toSigned (s.laneN b i) 32)))

/-- VSUBS (R103). -/
def execVsubs (d a b : VReg) (m : MReg) (s : State) : Host.Outcome State Fault Refusal :=
  .next (s.doneV d m (fun i => sat32 (toSigned (s.laneN a i) 32 - toSigned (s.laneN b i) 32)))

/-- VFCMPEQ: the result lies within the governing mask (R104). -/
def execVfcmpeq (d : MReg) (a b : VReg) (m : MReg) (s : State) : Host.Outcome State Fault Refusal :=
  .next (s.doneM d (fun i => bitOf (s.mN m) i && (fCmpEq (s.laneN a i) (s.laneN b i)).1))

/-- VFCMPLT: the result lies within the governing mask (R104). -/
def execVfcmplt (d : MReg) (a b : VReg) (m : MReg) (s : State) : Host.Outcome State Fault Refusal :=
  .next (s.doneM d (fun i => bitOf (s.mN m) i && (fCmpLt (s.laneN a i) (s.laneN b i)).1))

/-- VFCMPLE: the result lies within the governing mask (R104). -/
def execVfcmple (d : MReg) (a b : VReg) (m : MReg) (s : State) : Host.Outcome State Fault Refusal :=
  .next (s.doneM d (fun i => bitOf (s.mN m) i && (fCmpLe (s.laneN a i) (s.laneN b i)).1))

/-- VCMPEQ: the result lies within the governing mask (R104). -/
def execVcmpeq (d : MReg) (a b : VReg) (m : MReg) (s : State) : Host.Outcome State Fault Refusal :=
  .next (s.doneM d (fun i => bitOf (s.mN m) i && (s.laneN a i) == (s.laneN b i)))

/-- VCMPLT: the result lies within the governing mask (R104). -/
def execVcmplt (d : MReg) (a b : VReg) (m : MReg) (s : State) : Host.Outcome State Fault Refusal :=
  .next (s.doneM d (fun i => bitOf (s.mN m) i && decide (toSigned (s.laneN a i) 32 < toSigned (s.laneN b i) 32)))

/-- VCMPLTU: the result lies within the governing mask (R104). -/
def execVcmpltu (d : MReg) (a b : VReg) (m : MReg) (s : State) : Host.Outcome State Fault Refusal :=
  .next (s.doneM d (fun i => bitOf (s.mN m) i && decide ((s.laneN a i) < (s.laneN b i))))

/-- VSEL: every lane is written (R104). -/
def execVsel (d a b : VReg) (m : MReg) (s : State) : Host.Outcome State Fault Refusal :=
  .next (s.setV d 0xFFFF (fun i => if bitOf (s.mN m) i then s.laneN a i else s.laneN b i)).advance

/-- MAND (R104). -/
def execMand (d a b : MReg) (s : State) : Host.Outcome State Fault Refusal :=
  .next (s.setMN d (s.mN a &&& s.mN b)).advance

/-- MOR (R104). -/
def execMor (d a b : MReg) (s : State) : Host.Outcome State Fault Refusal :=
  .next (s.setMN d (s.mN a ||| s.mN b)).advance

/-- MXOR (R104). -/
def execMxor (d a b : MReg) (s : State) : Host.Outcome State Fault Refusal :=
  .next (s.setMN d (s.mN a ^^^ s.mN b)).advance

/-- MNOT (R104). -/
def execMnot (d a : MReg) (s : State) : Host.Outcome State Fault Refusal :=
  .next (s.setMN d (0xFFFF - s.mN a)).advance

/-- VPERM (R105). -/
def execVperm (d a b : VReg) (m : MReg) (s : State) : Host.Outcome State Fault Refusal :=
  .next (s.doneV d m (fun i => s.laneN a (s.laneN b i % 16)))

/-- VROTL (R105). -/
def execVrotl (d a b : VReg) (m : MReg) (s : State) : Host.Outcome State Fault Refusal :=
  .next (s.doneV d m (fun i => s.laneN a ((i + s.laneN b 0 % 16) % 16)))

/-- VZIPLO (R105). -/
def execVziplo (d a b : VReg) (m : MReg) (s : State) : Host.Outcome State Fault Refusal :=
  .next (s.doneV d m (fun i => if i % 2 = 0 then s.laneN a (i / 2) else s.laneN b ((i - 1) / 2)))

/-- VZIPHI (R105). -/
def execVziphi (d a b : VReg) (m : MReg) (s : State) : Host.Outcome State Fault Refusal :=
  .next (s.doneV d m (fun i => if i % 2 = 0 then s.laneN a (8 + i / 2) else s.laneN b (8 + (i - 1) / 2)))

/-- VCVTIF (R106). -/
def execVcvtif (d a : VReg) (m : MReg) (s : State) : Host.Outcome State Fault Refusal :=
  .next (s.doneV d m (fun i => (ofInt s.rm (toSigned (s.laneN a i) 32)).1))

/-- VCVTFI (R106). -/
def execVcvtfi (d a : VReg) (m : MReg) (s : State) : Host.Outcome State Fault Refusal :=
  .next (s.doneV d m (fun i => ofSigned (toInt s.rm (-2 ^ 31) (2 ^ 31 - 1) (fp32.decode (s.laneN a i))).1 32))

/-- VCVTFBF: element k from lane k of vA, or from lane k − 16 of vB (R106). -/
def execVcvtfbf (d a b : VReg) (m : MReg) (s : State) : Host.Outcome State Fault Refusal :=
  let el (k : Nat) := (bf16.narrow false s.rm (fp32.decode (if k < 16 then s.laneN a k else s.laneN b (k - 16)))).1
  .next (s.doneV d m (fun i => el (2 * i) + el (2 * i + 1) * 2 ^ 16))

/-- VCVTBFF, exact (R56, R106). -/
def execVcvtbff (d a : VReg) (m : MReg) (s : State) : Host.Outcome State Fault Refusal :=
  .next (s.doneV d m (fun i => halfOf (s.laneN a (i / 2)) i * 2 ^ 16))

/-- Sixteen narrow codes packed in lanes 0 to 3, zero above (R106). -/
def packed8 (el : Nat → Nat) (i : Nat) : Nat :=
  if i < 4 then el (4 * i) + el (4 * i + 1) * 2 ^ 8 + el (4 * i + 2) * 2 ^ 16 + el (4 * i + 3) * 2 ^ 24 else 0

/-- VCVTFE4 (R106). -/
def execVcvtfe4 (d a : VReg) (m : MReg) (s : State) : Host.Outcome State Fault Refusal :=
  .next (s.doneV d m (packed8 (fun k => (e4m3.narrow true s.rm (fp32.decode (s.laneN a k))).1)))

/-- VCVTFE5, saturating (R106). -/
def execVcvtfe5 (d a : VReg) (m : MReg) (s : State) : Host.Outcome State Fault Refusal :=
  .next (s.doneV d m (packed8 (fun k => (e5m2.narrow true s.rm (fp32.decode (s.laneN a k))).1)))

/-- VCVTFE5.INF, infinities kept (R106). -/
def execVcvtfe5Inf (d a : VReg) (m : MReg) (s : State) : Host.Outcome State Fault Refusal :=
  .next (s.doneV d m (packed8 (fun k => (e5m2.narrow false s.rm (fp32.decode (s.laneN a k))).1)))

/-- Byte i of a vector register (R106). -/
def State.byteN (s : State) (a : VReg) (i : Nat) : Nat := s.laneN a (i / 4) / 2 ^ (8 * (i % 4)) % 2 ^ 8

/-- VCVTFB4: two blocks quantised by R74, or FORMAT_BAD_SCALE before any lane is written (R73, R107). -/
def execVcvtfb4 (d a b : VReg) (m : MReg) (s : State) : Host.Outcome State Fault Refusal :=
  let band := s.laneN b 0 % 2 ^ 16
  if badBand band then s.trap cFORMAT_SCALE 0 0
  else
    let q0 := quantBlock s.rm band ((List.range 8).map (s.laneN a))
    let q1 := quantBlock s.rm band ((List.range 8).map (fun i => s.laneN a (8 + i)))
    let word (cs : List Nat) := cs.foldr (fun c acc => c + 16 * acc) 0
    .next (s.doneV d m (fun i =>
      if i = 0 then word q0.1 else if i = 1 then word q1.1 else if i = 2 then q0.2 + q1.2 * 2 ^ 8 else 0))

/-- VCVTE4F, exact (R106). -/
def execVcvte4f (d a : VReg) (m : MReg) (s : State) : Host.Outcome State Fault Refusal :=
  .next (s.doneV d m (fun i => widen (e4m3.decode (s.byteN a i))))

/-- VCVTE5F, exact (R106). -/
def execVcvte5f (d a : VReg) (m : MReg) (s : State) : Host.Outcome State Fault Refusal :=
  .next (s.doneV d m (fun i => widen (e5m2.decode (s.byteN a i))))

/-- VREDADD, modulo 2^32 (R108). -/
def execVredadd (d a : VReg) (m : MReg) (s : State) : Host.Outcome State Fault Refusal :=
  .next (s.doneAll d ((s.active a m).foldl (fun acc x => acc + x.2) 0))

/-- VREDFADD, by its fixed tree (R108). -/
def execVredfadd (d a : VReg) (m : MReg) (s : State) : Host.Outcome State Fault Refusal :=
  .next (s.doneAll d (treeSum s.rm ((List.range 16).map (fun i => if bitOf (s.mN m) i then some (s.laneN a i) else none))))

/-- VREDFMAX (R108). -/
def execVredfmax (d a : VReg) (m : MReg) (s : State) : Host.Outcome State Fault Refusal :=
  .next (s.doneAll d (extreme false 0xFF800000 (s.active a m)))

/-- VREDFMIN (R108). -/
def execVredfmin (d a : VReg) (m : MReg) (s : State) : Host.Outcome State Fault Refusal :=
  .next (s.doneAll d (extreme true 0x7F800000 (s.active a m)))

/-- VSCAN (R109). -/
def execVscan (d a : VReg) (m : MReg) (s : State) : Host.Outcome State Fault Refusal :=
  .next (s.doneV d m (fun i => ((s.active a m).filter (fun x => decide (x.1 ≤ i))).foldl (fun acc x => acc + x.2) 0))

/-- VSCANF (R109). -/
def execVscanf (d a : VReg) (m : MReg) (s : State) : Host.Outcome State Fault Refusal :=
  .next (s.doneV d m (fun i => (lookupId i (scanF s.rm none (s.active a m))).getD 0))

/-- VSCANX (R109). -/
def execVscanx (d a : VReg) (m : MReg) (s : State) : Host.Outcome State Fault Refusal :=
  .next (s.doneV d m (fun i => ((s.active a m).filter (fun x => decide (x.1 < i))).foldl (fun acc x => acc + x.2) 0))

/-- VPRUNE (R110). -/
def execVprune (d : MReg) (a b : VReg) (m : MReg) (s : State) : Host.Outcome State Fault Refusal :=
  .next (s.doneM d (fun i => bitOf (s.mN m) i && pruneKeep (s.laneN a i) (s.laneN b i)))

/-- VBCAST (R111). -/
def execVbcast (d : VReg) (a : GReg) (m : MReg) (s : State) : Host.Outcome State Fault Refusal :=
  .next (s.doneV d m (fun _ => s.gN a))

/-- VEXTR (R111). -/
def execVextr (d : GReg) (a : VReg) (b : GReg) (s : State) : Host.Outcome State Fault Refusal :=
  .next (s.done d (BitVec.ofNat 64 (s.laneN a (s.gN b % 16))))

/-- VINSR (R111). -/
def execVinsr (d : VReg) (a b : GReg) (s : State) : Host.Outcome State Fault Refusal :=
  .next (s.setV d (2 ^ (s.gN b % 16)) (fun _ => s.gN a)).advance

/-- MTOG (R111). -/
def execMtog (d : GReg) (a : MReg) (s : State) : Host.Outcome State Fault Refusal :=
  .next (s.done d (BitVec.ofNat 64 (s.mN a)))

/-- GTOM (R111). -/
def execGtom (d : MReg) (a : GReg) (s : State) : Host.Outcome State Fault Refusal :=
  .next (s.setMN d (s.gN a)).advance

end Sys2Proof.Machine
end

