-- ==== Sys2Proof/Machine/Memory.lean ====
section
/-! DEFINITION. Machine/Memory.lean: loads, stores, prefetches, nibble stores, vector accesses, atomics, CAS and CASP
(R112 to R130). -/
namespace Sys2Proof.Machine

/-- The effective address of format MEM (R38, R119). -/
def State.ea (s : State) (a : GReg) (off : Imm) (size : Nat) : Nat := (s.g a + BitVec.ofNat 64 size * off.val).toNat

/-- A scalar load's data in gD (R119); .ACQ discards what was fetched ahead (R34). -/
def State.finishLoad (s : State) (d : GReg) (h : Hint) (bs : List Byte) : State :=
  let t := (s.setGN d (natOf bs)).advance
  match h with
  | .order => t.acquire
  | _ => t

/-- LDB, LDH, LDW and LDD (R119). -/
def State.loadScalar (s : State) (size : Nat) (d a : GReg) (off : Imm) (h : Hint) (w : WaitSel) :
    Host.Outcome State Fault Refusal :=
  s.wGate w (.next (s.loadFrom (s.ea a off size) size size (.load d.val (h == .order)) (fun t bs => t.finishLoad d h bs)))

/-- STB, STH, STW and STD (R120). -/
def State.storeScalar (s : State) (size : Nat) (d a : GReg) (off : Imm) (h : Hint) (w : WaitSel) :
    Host.Outcome State Fault Refusal :=
  s.orderGate (h == .order) w
    (.next (s.storeTo .store (s.ea a off size) size (.store (bytesOf size (s.gN d)) false) (h == .order)))

/-- LDB (R119). -/
def execLdb (d a : GReg) (off : Imm) (h : Hint) (w : WaitSel) (s : State) : Host.Outcome State Fault Refusal :=
  s.loadScalar 1 d a off h w

/-- LDH (R119). -/
def execLdh (d a : GReg) (off : Imm) (h : Hint) (w : WaitSel) (s : State) : Host.Outcome State Fault Refusal :=
  s.loadScalar 2 d a off h w

/-- LDW (R119). -/
def execLdw (d a : GReg) (off : Imm) (h : Hint) (w : WaitSel) (s : State) : Host.Outcome State Fault Refusal :=
  s.loadScalar 4 d a off h w

/-- PREF (R123): after the checks of R116 alone it blocks nothing and never traps; only a global address is prefetched. -/
def State.prefetch (s : State) (a : GReg) (off : Imm) (w : WaitSel) : Host.Outcome State Fault Refusal :=
  s.wGate w (
    let ea := s.ea a off 8
    match s.addrR116 .load ea 8 8 with
    | .error c => s.trap c ea 0
    | .ok .global => .next (s.launchFlight (.mem { part := s.partOf s.cur.core, va := ea, near := none, op := .prefetch,
                                                   back := .none, seq := none, stage := .travelling,
                                                   refused := none, rel := false, again := false })).advance
    | .ok _ => .next s.advance)

/-- LDD (R119); with D = 0 and no .ACQ it is a prefetch (R123). -/
def execLdd (d a : GReg) (off : Imm) (h : Hint) (w : WaitSel) (s : State) : Host.Outcome State Fault Refusal :=
  if d = 0 ∧ h ≠ .order then s.prefetch a off w else s.loadScalar 8 d a off h w

/-- PREF, the prefetch form of LDD (R123). -/
def execPref (a : GReg) (off : Imm) (_stream : Bool) (w : WaitSel) (s : State) : Host.Outcome State Fault Refusal :=
  s.prefetch a off w

/-- STB (R120). -/
def execStb (d a : GReg) (off : Imm) (h : Hint) (w : WaitSel) (s : State) : Host.Outcome State Fault Refusal :=
  s.storeScalar 1 d a off h w

/-- STH (R120). -/
def execSth (d a : GReg) (off : Imm) (h : Hint) (w : WaitSel) (s : State) : Host.Outcome State Fault Refusal :=
  s.storeScalar 2 d a off h w

/-- STW (R120). -/
def execStw (d a : GReg) (off : Imm) (h : Hint) (w : WaitSel) (s : State) : Host.Outcome State Fault Refusal :=
  s.storeScalar 4 d a off h w

/-- STD (R120). -/
def execStd (d a : GReg) (off : Imm) (h : Hint) (w : WaitSel) (s : State) : Host.Outcome State Fault Refusal :=
  s.storeScalar 8 d a off h w

/-- STN (R124). -/
def execStn (a b : GReg) (hi rel : Bool) (w : WaitSel) (s : State) : Host.Outcome State Fault Refusal :=
  s.orderGate rel w (.next (s.storeTo .nibble (s.gN a) 1 (.nibble hi (s.gN b % 16)) rel))

/-- The 64 bytes of a vector register. -/
def State.vecBytes (s : State) (d : VReg) : List Byte := ((List.range 16).map (fun i => bytesOf 4 (s.laneN d i))).flatten

/-- A vector load's data in vD (R112). -/
def State.finishVload (s : State) (d : VReg) (acq : Bool) (bs : List Byte) : State :=
  let x := natOf bs
  let t := (s.setV d 0xFFFF (fun i => bits x (32 * i + 31) (32 * i))).advance
  if acq then t.acquire else t

/-- VLD (R112). -/
def execVld (d : VReg) (a : GReg) (off : Imm) (h : Hint) (w : WaitSel) (s : State) : Host.Outcome State Fault Refusal :=
  s.wGate w (.next (s.loadFrom (s.ea a off 64) 64 64 (.vload d.val (h == .order)) (fun t bs => t.finishVload d (h == .order) bs)))

/-- VST (R112). -/
def execVst (d : VReg) (a : GReg) (off : Imm) (h : Hint) (w : WaitSel) (s : State) : Host.Outcome State Fault Refusal :=
  s.orderGate (h == .order) w (.next (s.storeTo .store (s.ea a off 64) 64 (.store (s.vecBytes d) false) (h == .order)))

/-- The address of a lane of a gather or scatter (R113, R114). -/
def State.laneEa (s : State) (a : GReg) (b : VReg) (i : Nat) : Nat :=
  (s.g a + BitVec.ofInt 64 (toSigned (s.laneN b i) 32)).toNat

/-- The active lanes of a gather or scatter with their addresses, ascending. -/
def State.laneEas (s : State) (a : GReg) (b : VReg) (m : MReg) : List (Nat × Nat) :=
  ((List.range 16).filter (fun i => bitOf (s.mN m) i)).map (fun i => (i, s.laneEa a b i))

/-- The first lane whose address checks fail at issue, with its cause and address (R113, R114). -/
def State.badLane (s : State) (k : Kind) (ls : List (Nat × Nat)) : Option (Nat × Nat × Nat) :=
  ls.findSome? (fun l => match s.checkAddr k l.2 4 4 with
    | .error c => some (l.1, c, l.2)
    | .ok _ => none)

/-- The trap of a lane: its number goes to CX.AUX[11:8], and for a translation cause the word of R334 to CX.AUX[4:0] (R113). -/
def State.laneTrap (s : State) (bad : Nat × Nat × Nat) (aux : Nat) : State :=
  s.takeTrap bad.2.1 bad.2.2 (bad.1 * 256 + (if cPAGE_ABSENT ≤ bad.2.1 ∧ bad.2.1 ≤ cPAGE_WALK then aux % 32 else 0))

/-- Whether any lane waits for an outstanding posted operation (R117, R119). -/
def State.lanesWait (s : State) (k : Kind) (ls : List (Nat × Nat)) : Bool :=
  ls.any (fun l => match s.checkAddr k l.2 4 4 with
    | .ok p => if s.isLocal k p then (match p with
        | .unit cl u off => s.localWait k cl u off 4 l.2
        | _ => false)
      else k == .load && s.pendingTo l.2
    | .error _ => false)

/-- A gather's lanes after some have been read at once and the others requested: values, and flights by number. The local lanes are read
together (DESIGN CHOICE, log entry 109). -/
def State.gatherLanes (s : State) : List (Nat × Nat) → State × List (Nat × Nat) × List (Nat × Nat) × Option (Nat × Nat × Nat × Nat)
  | [] => (s, [], [], none)
  | (i, ea) :: rest =>
    let r := s.gatherLanes rest
    match s.checkAddr .load ea 4 4 with
    | .error c => (r.1, r.2.1, r.2.2.1, some (i, c, ea, 0))
    | .ok p =>
      if s.isLocal .load p then
        match p with
        | .unit cl u off =>
          if s.tainted (nearLoc cl u off) 4 then (r.1, r.2.1, r.2.2.1, some (i, cUE, ea, 0))
          else
            (if s.sawRelease (nearLoc cl u off) 4 then r.1.setMyCtx { r.1.myCtx with acq := true } else r.1, r.2.1,
              (i, natOf (s.handlerView.nearRd cl u off 4)) :: r.2.2.1, r.2.2.2)
        | _ => r
      else
        let t := r.1
        let q : MemReq :=
          { part := s.partOf s.cur.core, va := ea, near := p.near, op := .load 4,
            back := .ctx s.cur.core s.cur.ctx, seq := none, stage := .travelling, refused := none, rel := false,
            again := false }
        (t.launchFlight (.mem q), (t.nextId, i) :: r.2.1, r.2.2.1, r.2.2.2)

/-- The acquire effect of a completed instruction that has read what a release wrote (R229). -/
def State.acquireSeen (s : State) : State :=
  if s.myCtx.acq then (s.setMyCtx { s.myCtx with acq := false }).acquire else s

/-- A gather complete: the lowest faulting lane's trap, or every lane written (R113). -/
def State.finishGather (s : State) (d : VReg) (vals : List (Nat × Nat)) (bad : Option (Nat × Nat × Nat × Nat)) : State :=
  match bad with
  | some (i, c, ea, aux) => s.laneTrap (i, c, ea) aux
  | none =>
    (s.setV d (vals.foldl (fun acc v => acc + 2 ^ v.1) 0) (fun i => (lookupId i vals).getD 0)).advance

/-- VGATH (R113): the trap of a lane that faults at issue waits for the others, since a lower lane may fault at its home. -/
def execVgath (d : VReg) (a : GReg) (b : VReg) (m : MReg) (s : State) : Host.Outcome State Fault Refusal :=
  let ls := s.laneEas a b m
  if s.lanesWait .load ls then .next (s.stall .retry)
  else
    let r := s.gatherLanes ls
    if r.2.1 = [] then .next (r.1.finishGather d r.2.2.1 r.2.2.2).acquireSeen
    else .next (r.1.stall (.reply (r.2.1.headD (0, 0)).1 (.gather d.val r.2.1 r.2.2.1 r.2.2.2) s.cur))

/-- The lanes of a scatter, with the values that they had at issue, applied in ascending order: local ones at once, the others sent
(R114). -/
def State.scatterLanes (s : State) (vals : List Nat) (group : Nat) : List (Nat × Nat) → State
  | [] => s
  | (i, ea) :: rest =>
    let op := MemOp.store (bytesOf 4 (vals.getD i 0)) false
    let t := match s.checkAddr .store ea 4 4 with
      | .error _ => s
      | .ok p =>
        if s.isLocal .store p then
          match p with
          | .unit cl u off => (s.nearRun cl u off op).1
          | _ => s
        else s.sendPosted p ea op false p.cnt none group
    t.scatterLanes vals group rest

/-- The lanes of a scatter counted in a class, other than local ones. -/
def State.scatterCounts (s : State) (ls : List (Nat × Nat)) (c : Cnt) : Bool :=
  ls.any (fun l => match s.checkAddr .store l.2 4 4 with
    | .ok p => !s.isLocal .store p && decide (p.cnt = c)
    | .error _ => false)

/-- VSCAT (R114). -/
def execVscat (d : VReg) (a : GReg) (b : VReg) (m : MReg) (s : State) : Host.Outcome State Fault Refusal :=
  let ls := s.laneEas a b m
  match s.badLane .store ls with
  | some bad => .next (s.laneTrap bad 0)
  | none =>
    if s.cur.ctx = 1 then
      if ls.all (fun l => (s.ownOff l.2).isSome) then
        .next (s.bufferStores (ls.map (fun l =>
          { off := (s.ownOff l.2).getD 0, op := .store (bytesOf 4 (s.laneN d l.1)) false })) ls.length)
      else s.trap cHANDLER_WRITE 0 0
    else
      let sn := s.scatterCounts ls .sn
      let sg := s.scatterCounts ls .sg
      if (sn && decide (63 ≤ s.cnt .sn)) || (sg && decide (63 ≤ s.cnt .sg)) ||
          s.lanesWait .store ls then .next (s.stall .retry)
      else
        let t := if sn then s.setCnt .sn (s.cnt .sn + 1) else s
        let t := if sg then t.setCnt .sg (t.cnt .sg + 1) else t
        .next (t.scatterLanes (s.lanes d) t.nextId ls).advance

/-- Atomics are executed by another agent than the issuing core, except on its own PM (R125, R129). -/
def State.withSeq (s : State) (ea : Nat) : State × Option (Nat × Nat) :=
  if (s.ownOff ea).isSome then (s, none)
  else
    let u := s.takeSeq
    (u.1, some u.2)

/-- A value-returning atomic, CAS or CASP after its waits, a release or not (R126, R127). In the handler context it traps before the
checks of R116 (DESIGN CHOICE, log entry 108). -/
def State.atomicValue (s : State) (ea align : Nat) (op : MemOp) (rel : Bool) (k : Kont) : State :=
  if s.cur.ctx = 1 then s.takeTrap cHANDLER_WRITE 0 0
  else match s.checkAddr .atomic ea op.size align with
    | .error c => s.takeTrap c ea 0
    | .ok p =>
      if s.pendingTo ea then s.stall .retry
      else
        let u := s.withSeq ea
        u.1.request p ea op rel u.2 k

/-- A posted atomic after its waits (R126). -/
def State.atomicPosted (s : State) (op : AOp) (a b : GReg) (rel : Bool) : State :=
  let ea := s.gN a
  if s.cur.ctx = 1 then s.takeTrap cHANDLER_WRITE 0 0
  else match s.checkAddr .atomic ea op.width op.width with
    | .error c => s.takeTrap c ea 0
    | .ok p => s.posted p ea (.atomic op (s.gN b)) rel .at_ ((s.ownOff ea).isNone)

/-- A value-returning atomic (R126, R128). -/
def State.atomicRet (s : State) (op : AOp) (d a b : GReg) (acq rel : Bool) (w : WaitSel) :
    Host.Outcome State Fault Refusal :=
  s.orderGate rel w (.next (s.atomicValue (s.gN a) op.width (.atomic op (s.gN b)) rel (.load d.val acq)))

/-- AXCHG (R126). -/
def execAxchg (d a b : GReg) (acq rel : Bool) (w : WaitSel) (s : State) : Host.Outcome State Fault Refusal :=
  s.atomicRet .xchg d a b acq rel w

/-- AADD (R126). -/
def execAadd (d a b : GReg) (acq rel : Bool) (w : WaitSel) (s : State) : Host.Outcome State Fault Refusal :=
  s.atomicRet .add d a b acq rel w

/-- AAND (R126). -/
def execAand (d a b : GReg) (acq rel : Bool) (w : WaitSel) (s : State) : Host.Outcome State Fault Refusal :=
  s.atomicRet .and d a b acq rel w

/-- AOR (R126). -/
def execAor (d a b : GReg) (acq rel : Bool) (w : WaitSel) (s : State) : Host.Outcome State Fault Refusal :=
  s.atomicRet .or d a b acq rel w

/-- AXOR (R126). -/
def execAxor (d a b : GReg) (acq rel : Bool) (w : WaitSel) (s : State) : Host.Outcome State Fault Refusal :=
  s.atomicRet .xor d a b acq rel w

/-- AMIN (R126). -/
def execAmin (d a b : GReg) (acq rel : Bool) (w : WaitSel) (s : State) : Host.Outcome State Fault Refusal :=
  s.atomicRet .min d a b acq rel w

/-- AMAX (R126). -/
def execAmax (d a b : GReg) (acq rel : Bool) (w : WaitSel) (s : State) : Host.Outcome State Fault Refusal :=
  s.atomicRet .max d a b acq rel w

/-- AMINU (R126). -/
def execAminu (d a b : GReg) (acq rel : Bool) (w : WaitSel) (s : State) : Host.Outcome State Fault Refusal :=
  s.atomicRet .minu d a b acq rel w

/-- AMAXU (R126). -/
def execAmaxu (d a b : GReg) (acq rel : Bool) (w : WaitSel) (s : State) : Host.Outcome State Fault Refusal :=
  s.atomicRet .maxu d a b acq rel w

/-- AFADD (R126). -/
def execAfadd (d a b : GReg) (acq rel : Bool) (w : WaitSel) (s : State) : Host.Outcome State Fault Refusal :=
  s.atomicRet .fadd d a b acq rel w

/-- AXCHG.POST (R126). -/
def execAxchgPost (a b : GReg) (rel : Bool) (w : WaitSel) (s : State) : Host.Outcome State Fault Refusal :=
  s.orderGate rel w (.next (s.atomicPosted .xchg a b rel))

/-- AADD.POST (R126). -/
def execAaddPost (a b : GReg) (rel : Bool) (w : WaitSel) (s : State) : Host.Outcome State Fault Refusal :=
  s.orderGate rel w (.next (s.atomicPosted .add a b rel))

/-- AAND.POST (R126). -/
def execAandPost (a b : GReg) (rel : Bool) (w : WaitSel) (s : State) : Host.Outcome State Fault Refusal :=
  s.orderGate rel w (.next (s.atomicPosted .and a b rel))

/-- AOR.POST (R126). -/
def execAorPost (a b : GReg) (rel : Bool) (w : WaitSel) (s : State) : Host.Outcome State Fault Refusal :=
  s.orderGate rel w (.next (s.atomicPosted .or a b rel))

/-- AXOR.POST (R126). -/
def execAxorPost (a b : GReg) (rel : Bool) (w : WaitSel) (s : State) : Host.Outcome State Fault Refusal :=
  s.orderGate rel w (.next (s.atomicPosted .xor a b rel))

/-- AMIN.POST (R126). -/
def execAminPost (a b : GReg) (rel : Bool) (w : WaitSel) (s : State) : Host.Outcome State Fault Refusal :=
  s.orderGate rel w (.next (s.atomicPosted .min a b rel))

/-- AMAX.POST (R126). -/
def execAmaxPost (a b : GReg) (rel : Bool) (w : WaitSel) (s : State) : Host.Outcome State Fault Refusal :=
  s.orderGate rel w (.next (s.atomicPosted .max a b rel))

/-- AMINU.POST (R126). -/
def execAminuPost (a b : GReg) (rel : Bool) (w : WaitSel) (s : State) : Host.Outcome State Fault Refusal :=
  s.orderGate rel w (.next (s.atomicPosted .minu a b rel))

/-- AMAXU.POST (R126). -/
def execAmaxuPost (a b : GReg) (rel : Bool) (w : WaitSel) (s : State) : Host.Outcome State Fault Refusal :=
  s.orderGate rel w (.next (s.atomicPosted .maxu a b rel))

/-- AFADD.POST (R126). -/
def execAfaddPost (a b : GReg) (rel : Bool) (w : WaitSel) (s : State) : Host.Outcome State Fault Refusal :=
  s.orderGate rel w (.next (s.atomicPosted .fadd a b rel))

/-- CAS (R127). -/
def execCas (d a b : GReg) (acq rel : Bool) (w : WaitSel) (s : State) : Host.Outcome State Fault Refusal :=
  s.orderGate rel w (.next (s.atomicValue (s.gN a) 8 (.cas 8 (s.gN d) (s.gN b)) rel (.cas d.val 8 acq)))

/-- CASP (R127): the pairs are gD, gD+1 and gB, gB+1. -/
def execCasp (d a b : GReg) (acq rel : Bool) (w : WaitSel) (s : State) : Host.Outcome State Fault Refusal :=
  let pair (r : GReg) := s.gN r + s.gN (regPlus r 1) * 2 ^ 64
  s.orderGate rel w (.next (s.atomicValue (s.gN a) 16 (.cas 16 (pair d) (pair b)) rel (.cas d.val 16 acq)))

end Sys2Proof.Machine
end

