-- ==== Sys2Proof/Machine/Order.lean ====
section
/-! DEFINITION. Machine/Order.lean: WAIT and FENCE (R131 to R134) and the barrier instructions (R135 to R139, R214 to
R216). -/
namespace Sys2Proof.Machine

/-- One counter is at or below its immediate; 31 places no constraint (R131). -/
def State.within (s : State) (c : Cnt) (imm : Fin 32) : Bool := imm.val == 31 || decide (s.cnt c ≤ imm.val)

/-- WAIT (R131, R132, R134). -/
def execWait (at_ tl cp sg sn : Fin 32) (s : State) : Host.Outcome State Fault Refusal :=
  if s.cur.ctx = 1 then s.trap cHANDLER_BLOCKING 0 0
  else if s.within .at_ at_ && s.within .tl tl && s.within .cp cp && s.within .sg sg && s.within .sn sn then
    if at_.val = 31 ∧ tl.val = 31 ∧ cp.val = 31 ∧ sg.val = 31 ∧ sn.val = 31 then .next s.advance
    else match s.raiseLogged
        (fun c => (c == 0 && sn.val != 31) || (c == 1 && sg.val != 31) || (c == 2 && at_.val != 31)) with
      | some t => .next t
      | none => .next s.advance
  else .next ((if s.within .tl tl then s else s.msync).stall .retry)

/-- FENCE (R133, R134). -/
def execFence (scope : Scope) (s : State) : Host.Outcome State Fault Refusal :=
  if s.cur.ctx = 1 then s.trap cHANDLER_BLOCKING 0 0
  else if !s.quietAt s.cur.core s.cur.ctx then .next s.waitAll
  else match s.raiseLogged (fun c => decide (c ≤ 2)) with
    | some t => .next t
    | none =>
      if scope = .system ∧ s.myCtx.away ≠ 0 then .next (s.stall .retry)
      else .next s.advance.acquire

/-- The number of a barrier level (R36). -/
def lvlNum : Level → Nat
  | .quad => 0
  | .cluster => 1
  | .die => 2
  | .package => 3

/-- The quad, cluster, die or package that holds a core. -/
def lvlUnit (lvl : Level) (core : Nat) : Nat :=
  match lvl with
  | .quad => core / 4
  | .cluster => core / 8
  | .die => core / 1024
  | .package => 0

/-- The table key of a barrier object. -/
def barKey (lvl : Level) (unit obj : Nat) : Nat := lvlNum lvl * 2 ^ 20 + unit * 16 + obj

def State.barrier (s : State) (key : Nat) : Barrier := Tbl.get Barrier.reset s.barriers key
def State.setBarrier (s : State) (key : Nat) (b : Barrier) : State :=
  { s with barriers := Tbl.set Barrier.reset s.barriers key b }

def Barrier.gen (b : Barrier) : Nat := bits b.word 63 48
def Barrier.arrived (b : Barrier) : Nat := bits b.word 47 32
def Barrier.countMode (b : Barrier) : Bool := bitOf b.word 16
def Barrier.expect (b : Barrier) : Nat := bits b.word 15 0

/-- The barrier object that an instruction of the executing core names. -/
def State.myBarKey (s : State) (lvl : Level) (obj : Fin 16) : Nat := barKey lvl (lvlUnit lvl s.cur.core) obj.val

/-- A die or package object is assigned to the issuer's partition (R136, R214). -/
def State.barMine (s : State) (lvl : Level) (obj : Fin 16) : Bool :=
  let ent (w : Nat) := bits w (5 * obj.val + 4) (5 * obj.val)
  match lvl with
  | .quad => true
  | .cluster => true
  | .die => ent (s.die (dieOf s.cur.core)).barPart == 16 + s.partOf s.cur.core
  | .package => ent s.barPart == 16 + s.partOf s.cur.core

/-- The number of the issuing core within its quad or cluster (R135). -/
def memberBit (lvl : Level) (core : Nat) : Nat := if lvl = .quad then core % 4 else core % 8

/-- A configuration that BARARM refuses (R136). -/
def badConfig (lvl : Level) (v : Nat) : Bool :=
  let expect := bits v 15 0
  let mask := !bitOf v 16
  decide (2 ^ 17 ≤ v) || expect == 0 || (mask && (decide (lvl = .die) || decide (lvl = .package))) ||
    (mask && decide (lvl = .quad) && decide (16 ≤ expect)) || (mask && decide (lvl = .cluster) && decide (256 ≤ expect))

/-- BARARM (R136, R216). PROTECTION_VIOLATION is tested before BARRIER_BAD_CONFIG (DESIGN CHOICE, log entry 110). -/
def execBararm (lvl : Level) (obj : Fin 16) (a : GReg) (s : State) : Host.Outcome State Fault Refusal :=
  let v := s.gN a
  let key := s.myBarKey lvl obj
  let b := s.barrier key
  if !s.barMine lvl obj then s.trap cPROTECTION 0 0
  else if badConfig lvl v then s.trap cBARRIER_CONFIG 0 0
  else if b.arrived ≠ 0 ∧ !b.timedOut then s.trap cBARRIER_BUSY 0 0
  else .next (s.setBarrier key { word := b.gen * 2 ^ 48 + v, start := none, timedOut := false }).advance

/-- An arrival (R137): the phase completes when ARRIVED equals EXPECT. -/
def Barrier.arrive (b : Barrier) (bit clock : Nat) : Barrier :=
  let arrived := if b.countMode then (b.arrived + 1) % 2 ^ 16 else b.arrived ||| 2 ^ bit
  if arrived = b.expect then
    { word := setBits (setBits b.word 63 48 (b.gen + 1)) 47 32 0, start := none, timedOut := false }
  else { b with word := setBits b.word 47 32 arrived, start := some (b.start.getD clock) }

/-- BARRIVE (R137). PROTECTION_VIOLATION is tested after the release wait (DESIGN CHOICE, log entry 110). -/
def execBarrive (lvl : Level) (obj : Fin 16) (d : GReg) (s : State) : Host.Outcome State Fault Refusal :=
  if !s.quietAt s.cur.core s.cur.ctx then .next s.waitAll
  else match s.raiseLogged (fun c => decide (c ≤ 2)) with
    | some t => .next t
    | none =>
      let key := s.myBarKey lvl obj
      let b := s.barrier key
      let n := memberBit lvl s.cur.core
      if !s.barMine lvl obj then s.trap cPROTECTION 0 0
      else if !b.countMode && !bitOf b.expect n then s.trap cBARRIER_MEMBER 0 0
      else if !b.countMode && bitOf b.arrived n then s.trap cBARRIER_OVER 0 0
      else .next ((s.setBarrier key (b.arrive n s.clock)).done d (BitVec.ofNat 64 b.gen))

/-- BARWAIT (R138, R216): the context is STALLED while GEN equals gA[15:0]. -/
def execBarwait (lvl : Level) (obj : Fin 16) (a : GReg) (s : State) : Host.Outcome State Fault Refusal :=
  if s.cur.ctx = 1 then s.trap cHANDLER_BLOCKING 0 0
  else if !s.barMine lvl obj then s.trap cPROTECTION 0 0
  else
    let key := s.myBarKey lvl obj
    let b := s.barrier key
    if b.gen ≠ s.gN a % 2 ^ 16 then .next s.advance.acquire
    else if b.timedOut then s.trap cBARRIER_TIMEOUT 0 b.word
    else .next (s.stall (.barrier key (s.gN a % 2 ^ 16) s.cur))

/-- BARQ (R139). -/
def execBarq (lvl : Level) (obj : Fin 16) (d : GReg) (s : State) : Host.Outcome State Fault Refusal :=
  if !s.barMine lvl obj then s.trap cPROTECTION 0 0
  else .next (s.done d (BitVec.ofNat 64 (s.barrier (s.myBarKey lvl obj)).word))

end Sys2Proof.Machine
end

