-- ==== Sys2Proof/Machine/Ranked.lean ====
section
/-! DEFINITION. Machine/Ranked.lean: pairs, ranked lists and ranked heaps (R247, R248, R252, R253, R256). -/
namespace Sys2Proof.Machine

/-- A pair: the bits of an FP32 value, and an index (R247). -/
abbrev RPair := Nat × Nat

def RPair.val (p : RPair) : FVal := fp32.decode p.1
/-- R247. -/
def RPair.outranks (p q : RPair) : Bool := q.val.lt p.val || (p.val.eq q.val && decide (p.2 < q.2))
/-- R247. -/
def RPair.same (p q : RPair) : Bool := p.val.eq q.val && p.2 == q.2
def RPair.isNan (p : RPair) : Bool := p.val.isNan

/-- The place that holds no pair (R158, R256). -/
def noPair : RPair := (0xFF800000, 0xFFFFFFFF)

/-- A pair put in rank order, best first. -/
def rankIn (p : RPair) : List RPair → List RPair
  | [] => [p]
  | q :: t => if RPair.outranks p q then p :: q :: t else q :: rankIn p t

/-- A candidate offered to a list of at most `k` pairs, best first (R248). -/
def offer (k : Nat) (l : List RPair) (p : RPair) : List RPair :=
  if RPair.isNan p || l.any (RPair.same p) then l
  else if l.length < k then rankIn p l
  else match l.getLast? with
    | some w => if RPair.outranks p w then rankIn p l.dropLast else l
    | none => l

/-- The threshold of a list (R248). -/
def threshold (k : Nat) (l : List RPair) : Nat := if k ≤ l.length then (l.getLast?.map (·.1)).getD 0xFF800000 else 0xFF800000

/-- The pair at a place of bytes. -/
def pairAt (bs : List Byte) (j : Nat) : RPair := (natOf ((bs.drop (8 * j)).take 4), natOf ((bs.drop (8 * j + 4)).take 4))

/-- The pairs in the first `k` places of bytes, empty places left out. -/
def pairsIn (k : Nat) (bs : List Byte) : List RPair := ((List.range k).map (pairAt bs)).filter (fun p => p != noPair)

/-- The bytes of a pair. -/
def pairBytes (p : RPair) : List Byte := bytesOf 4 p.1 ++ bytesOf 4 p.2

/-- A list's pairs in `k` places. -/
def placesOf (k : Nat) (l : List RPair) : List Byte := ((List.range k).map (fun j => pairBytes (l.getD j noPair))).flatten

/-- The pairs of an addend that its mask makes active (R256). -/
def activePairs (bs : List Byte) (mask : Nat) : List RPair :=
  ((List.range 8).filter (fun j => bitOf mask (2 * j))).map (pairAt bs) |>.filter (fun p => p != noPair)

/-- An entry moved towards the root of a heap while its parent outranks it (R253). -/
def siftUp (h : List RPair) : Nat → Nat → List RPair
  | 0, _ => h
  | fuel + 1, j =>
    if j = 0 then h
    else
      let p := (j - 1) / 2
      if RPair.outranks (h.getD p noPair) (h.getD j noPair) then
        siftUp ((h.set p (h.getD j noPair)).set j (h.getD p noPair)) fuel p
      else h

/-- An entry moved away from the root while it outranks a child (R253). -/
def siftDown (h : List RPair) : Nat → Nat → List RPair
  | 0, _ => h
  | fuel + 1, j =>
    let w := [2 * j + 1, 2 * j + 2].foldl
      (fun w ch => if ch < h.length ∧ RPair.outranks (h.getD w noPair) (h.getD ch noPair) then ch else w) j
    if w = j then h else siftDown ((h.set j (h.getD w noPair)).set w (h.getD j noPair)) fuel w

/-- A heap's capacity, NAN flag and entries (R252). -/
structure Heap where
  cap : Nat
  nan : Bool
  ents : List RPair
  deriving DecidableEq, Repr

/-- HSIFT's effect on a heap, and its code (R253). -/
def Heap.sift (h : Heap) (p : RPair) : Heap × Nat :=
  if RPair.isNan p then ({ h with nan := true }, 3)
  else if h.ents.any (RPair.same p) then (h, 4)
  else if h.ents.length < h.cap then
    ({ h with ents := siftUp (h.ents ++ [p]) 7 h.ents.length }, 1)
  else if RPair.outranks p (h.ents.headD noPair) then ({ h with ents := siftDown (h.ents.set 0 p) 7 0 }, 2)
  else (h, 0)

/-- HMERGE's effect on a heap (R253). -/
def Heap.merge (h g : Heap) : Heap :=
  let m := g.ents.foldl (fun x p => (x.sift p).1) h
  { m with nan := m.nan || g.nan }

/-- The bytes of a heap (R252): the header and the entries; those beyond N are left as they are. -/
def Heap.bytes (h : Heap) : List Byte :=
  bytesOf 8 (h.nan.toNat * 2 ^ 32 + h.ents.length * 2 ^ 8 + h.cap) ++ (h.ents.map pairBytes).flatten

end Sys2Proof.Machine
end

