-- ==== Sys2Proof/Machine/Accumulate.lean ====
section
/-! DEFINITION. Machine/Accumulate.lean: the saggar, ACC, RMERGE and FLUSHRES (R255, R256, R258, R262, R264), and the
ranked heaps of HSIFT and HMERGE (R252, R253). -/
namespace Sys2Proof.Machine

/-- The location of a saggar entry (R262). -/
def sagLoc (core n : Nat) : Nat := pmLoc core (0x3C000 + 128 * n)

/-- The saggar entry of a line (R263). -/
def sagIndex (va : Nat) : Nat := bits va 12 6 ^^^ bits va 19 13 ^^^ bits va 26 20

/-- An occupied saggar entry (R262). -/
def State.sag (s : State) (core n : Nat) : Option Accum :=
  let l := sagLoc core n
  let a := natOf (s.rd (l + 64) 8)
  let w := natOf (s.rd (l + 72) 8)
  if bitOf w 31 then some
    { part := bits w 23 20, va := bits a 59 6 * 64, kind := bits w 27 26, ks := bits w 25 24, data := s.rd l 64,
      mask := bits w 63 48, back := .none, core := core, ctx := bits w 19 16, task := bits w 13 0 }
  else none

/-- A saggar entry installed (R262, R263). -/
def State.setSag (s : State) (core n : Nat) (a : Accum) : State :=
  let w := a.mask % 2 ^ 16 * 2 ^ 48 + 2 ^ 31 + a.kind * 2 ^ 26 + a.ks * 2 ^ 24 + a.part * 2 ^ 20 + a.ctx * 2 ^ 16 + a.task
  s.wr (sagLoc core n) (a.data ++ bytesOf 8 (bits a.va 59 6 * 64) ++ bytesOf 8 w ++ List.replicate 48 0)

/-- OCC cleared. -/
def State.clearSag (s : State) (core n : Nat) : State :=
  let l := sagLoc core n + 72
  s.wr l (bytesOf 8 (setBits (natOf (s.rd l 8)) 31 31 0))

/-- Whether two accumulates match: line, kind and k (R262). -/
def Accum.matches (a b : Accum) : Bool := a.va == b.va && a.kind == b.kind && (a.kind != 2 || a.ks == b.ks)

/-- The k of a k code (R148). -/
def kOf (ks : Nat) : Nat := 2 ^ (ks % 4)

/-- One element of a sum in the kind of an accumulate, rounded once (R255, R260). -/
def accAdd (kind x a : Nat) : Nat :=
  if kind = 1 then (bf16.deliver false .rne (addVal .rne (bf16.decode x) (bf16.decode a))).1 else (fAdd .rne x a).1

/-- A lane of a line: a word of FP32, or two elements of BF16, added in a kind. -/
def laneAdd (kind : Nat) (x a : Nat) : Nat :=
  if kind = 1 then accAdd 1 (x % 2 ^ 16) (a % 2 ^ 16) + accAdd 1 (x / 2 ^ 16) (a / 2 ^ 16) * 2 ^ 16 else accAdd 0 x a

/-- A lane of a line's bytes. -/
def laneOf (bs : List Byte) (i : Nat) : Nat := natOf ((bs.drop (4 * i)).take 4)

/-- The residual `x` combined with an addend `a` (R255, R256): data and mask. -/
def combine (x a : Accum) : List Byte × Nat :=
  if a.kind = 2 then
    let l := ((activePairs x.data x.mask) ++ (activePairs a.data a.mask)).foldl (offer (kOf a.ks)) []
    (placesOf 8 l, (List.range l.length).foldl (fun m j => m + 2 ^ (2 * j)) 0)
  else
    (((List.range 16).map (fun i =>
      let v := laneOf a.data i
      bytesOf 4 (if bitOf x.mask i then (if bitOf a.mask i then laneAdd a.kind (laneOf x.data i) v else laneOf x.data i)
        else v))).flatten, a.mask ||| x.mask)

/-- A post of KIND 5: a flush accumulate that was dropped (R261, R363, R409). -/
def State.flushDropped (s : State) (a : Accum) (cause : Nat) : State :=
  s.post { pkg := s.pkgId, part := a.part, w0 := postWord 5 a.ctx cause (s.sysCore a.core), pc := 0, addr := a.va,
           aux := a.task, source := none }

/-- An occupied saggar entry sent as a flush accumulate (R258, R261, R263); poisoned residuals are consumed there. `by_` names the context
whose instruction sends it, with whose posted operations it keeps its order (R226, R266). -/
def State.sendFlush (s : State) (core n : Nat) (by_ : Back) : State :=
  match s.sag core n with
  | none => s
  | some a =>
    if s.tainted (sagLoc core n) 80 then (s.flushDropped a cUE).clearSag core n
    else
      let t := s.clearSag core n
      let t := t.setCore core { t.core core with flushing := (t.core core).flushing ++ [t.nextId] }
      t.launchFlight (.flush { a with back := by_ })

/-- Selected entries sent as flush accumulates, counted once in AT until these and every flush accumulate of the core in
flight have been applied (R258, R264). -/
def State.flushSelected (s : State) (core ctx pc : Nat) (sel : Accum → Bool) : State :=
  let t := (List.range 128).foldl (fun t n => match t.sag core n with
    | some a => if sel a then t.sendFlush core n (.count core ctx .at_ pc 0) else t
    | none => t) s
  let t := t.setCntAt core ctx .at_ (t.cntAt core ctx .at_ + 1)
  let c := t.core core
  if c.flushing = [] then t.launchFlight (.ack (.count core ctx .at_ pc t.nextId) 0 0)
  else t.setCore core { c with flushes := c.flushes ++ [{ ctx := ctx, pc := pc, waits := c.flushing }] }

/-- The TASK code of a context (R262): the record id plus one, or 0. -/
def State.taskCode (s : State) (core ctx : Nat) : Nat :=
  match (s.ctxAt core ctx).task with
  | some (_, rid) => rid + 1
  | none => 0

/-- Whether an entry leaves with the task or helper in a context (R264). -/
def State.ownsSag (s : State) (core ctx : Nat) (a : Accum) : Bool :=
  let k := s.taskCode core ctx
  a.task == k && (k != 0 || a.ctx == ctx)

/-- Whether the saggar holds an entry that leaves with the task or helper in a context (R264). -/
def State.hasOwnSag (s : State) (core ctx : Nat) : Bool :=
  (List.range 128).any (fun n => match s.sag core n with
    | some a => s.ownsSag core ctx a
    | none => false)

/-- Whether the flush of R264 has something to wait for: entries of the context's own, or flush accumulates in flight. -/
def State.hasSag (s : State) (core ctx : Nat) : Bool := s.hasOwnSag core ctx || (s.core core).flushing != []

/-- Whether a task may leave its context at once: flushed, and every counter zero (R30, R264). -/
def State.mayLeave (s : State) (core ctx : Nat) : Bool :=
  s.quietAt core ctx && (if (s.ctxAt core ctx).draining then !s.hasOwnSag core ctx else !s.hasSag core ctx)

/-- Before a task gives up its context: its saggar entries are flushed (R264), then its counters are waited for (R30); what an
accumulate refused during that wait has left is flushed in turn. The answer says whether it may leave. -/
def State.leaveGate (s : State) (core ctx pc : Nat) : State × Bool :=
  let c := s.ctxAt core ctx
  if (c.draining ∧ ¬(s.quietAt core ctx ∧ s.hasOwnSag core ctx)) ∨ !s.hasSag core ctx then
    (if s.quietAt core ctx then s else s.setCtxAt core ctx { c with draining := true }, s.quietAt core ctx)
  else if 63 ≤ s.cntAt core ctx .at_ then (s, false)
  else
    let t := s.flushSelected core ctx pc (s.ownsSag core ctx)
    (t.setCtxAt core ctx { t.ctxAt core ctx with draining := true }, false)

/-- The parking wait of the executing context is over without its leaving. -/
def State.undrain (s : State) : State := if s.myCtx.draining then s.setMyCtx { s.myCtx with draining := false } else s

/-- The checks that R255 makes on a line's address: steps 1 to 4 of R116 with alignment 64, then global space. -/
def State.accTarget (s : State) (ea : Nat) : Option Nat :=
  if unmapped ea then some cUNMAPPED
  else if ea % 64 ≠ 0 then some cMISALIGNED
  else match s.place s.cur.core ea with
    | .error c => some c
    | .ok .global => none
    | .ok (.away p) => if bits ea 36 33 < 8 ∧ 0x30000 < bits ea 32 0 + 64 then some cPROTECTION
      else if s.routeClass p = 0 then some cNEAR_ABSENT else some cATOMIC_TARGET
    | .ok (.unit cl u off) =>
      if !s.systemAreaOk s.cur.core s.cur.ctx .store cl u off 64 then some cPROTECTION else some cATOMIC_TARGET

/-- ACC, ACC.BF16 and RMERGE (R255, R256). -/
def State.accumulate (s : State) (kind ks : Nat) (a : GReg) (b : VReg) (m : MReg) : State :=
  let ea := s.gN a
  let core := s.cur.core
  match s.accTarget ea with
  | some c => s.takeTrap c ea 0
  | none =>
    if 63 ≤ s.cnt .at_ then s.stall .retry
    else
      let n := sagIndex ea
      let own : Accum :=
        { part := s.partOf core, va := ea, kind := kind, ks := ks, data := s.vecBytes b, mask := s.mN m,
          back := .count core s.cur.ctx .at_ s.pc s.nextId, core := core, ctx := s.cur.ctx,
          task := s.taskCode core s.cur.ctx }
      let send := fun (t : State) (x : Accum) => ((t.setCnt .at_ (t.cnt .at_ + 1)).launchFlight (.accum x)).advance
      match s.sag core n with
      | none => send s own
      | some x =>
        if x.matches own then
          (if s.tainted (sagLoc core n) 80 then s.takeTrap cUE ea 0
           else
             let r := combine x own
             send (s.clearSag core n) { own with data := r.1, mask := r.2 })
        else if x.va = ea then send (s.sendFlush core n own.back) own
        else send s own

/-- ACC (R255). -/
def execAcc (a : GReg) (b : VReg) (m : MReg) (s : State) : Host.Outcome State Fault Refusal :=
  s.unitGate (.next (s.accumulate 0 0 a b m))

/-- ACC.BF16 (R255). -/
def execAccBf16 (a : GReg) (b : VReg) (m : MReg) (s : State) : Host.Outcome State Fault Refusal :=
  s.unitGate (.next (s.accumulate 1 0 a b m))

/-- RMERGE (R256). -/
def execRmerge (a : GReg) (b : VReg) (m : MReg) (ks : Fin 4) (s : State) : Host.Outcome State Fault Refusal :=
  s.unitGate (.next (s.accumulate 2 ks.val a b m))

/-- FLUSHRES (R258): room in AT, then the flush. -/
def State.flushres (s : State) (sel : Accum → Bool) : Host.Outcome State Fault Refusal :=
  s.unitGate (.next (if 63 ≤ s.cnt .at_ then s.stall .retry else (s.flushSelected s.cur.core s.cur.ctx s.pc sel).advance))

/-- FLUSHRES of every entry (R258). -/
def execFlushresAll (s : State) : Host.Outcome State Fault Refusal := s.flushres (fun _ => true)

/-- FLUSHRES of a range of lines (R258): the sum saturates at 2^64. -/
def execFlushresRange (a b : GReg) (s : State) : Host.Outcome State Fault Refusal :=
  s.flushres (fun x => decide (s.gN a ≤ x.va) && decide (x.va < s.gN a + s.gN b))

/-- The heap at an address (R252, R253): its offset in the issuer's private memory and its contents, or the failing cause. -/
def State.heapAt (s : State) (ea : Nat) : Except Nat (Nat × Heap) :=
  if unmapped ea then .error cUNMAPPED
  else if ea % 8 ≠ 0 then .error cMISALIGNED
  else match s.place s.cur.core ea with
    | .error c => .error c
    | .ok .global => .error cHEAP_INVALID
    | .ok (.away _) => .error (if bits ea 36 33 < 8 ∧ 0x30000 < bits ea 32 0 + 8 then cPROTECTION else cHEAP_INVALID)
    | .ok (.unit cl u off) =>
      if !s.systemAreaOk s.cur.core s.cur.ctx .load cl u off 8 then .error cPROTECTION
      else if u ≠ s.cur.core % 8 ∨ cl ≠ clusterOf s.cur.core then .error cHEAP_INVALID
      else
        let h := natOf (s.rd (pmLoc s.cur.core off) 8)
        let k := bits h 7 0
        let n := bits h 15 8
        if k = 0 ∨ 64 < k ∨ k < n ∨ bits h 31 16 ≠ 0 ∨ bits h 63 33 ≠ 0 ∨ 0x30000 < off + 8 + 8 * k then .error cHEAP_INVALID
        else .ok (off, { cap := k, nan := bitOf h 32,
                         ents := (List.range n).map (pairAt (s.rd (pmLoc s.cur.core (off + 8)) (8 * n))) })

/-- Whether the entries of a heap hold poison, or a granule of it is held by an engine or by a posted atomic. -/
def State.heapWaits (s : State) (off k : Nat) : Bool :=
  (List.range (k + 1)).any (fun i => s.pendingOwnAtomic (off + 8 * i) 8 || s.nearHeld (pmLoc s.cur.core (off + 8 * i)) 8)

/-- HSIFT (R253). -/
def execHsift (d a b : GReg) (s : State) : Host.Outcome State Fault Refusal :=
  if s.cur.ctx = 1 then s.trap cHANDLER_WRITE 0 0
  else
    let ea := s.gN a
    match s.heapAt ea with
    | .error c => s.trap c ea 0
    | .ok (off, h) =>
      let l := pmLoc s.cur.core off
      if s.heapWaits off h.cap then .next (s.stall .retry)
      else if s.tainted l (8 + 8 * h.ents.length) then s.trap cUE ea 0
      else
        let r := h.sift (s.gN b % 2 ^ 32, s.gN b / 2 ^ 32)
        .next ((s.wr l r.1.bytes).done d (BitVec.ofNat 64 r.2))

/-- HMERGE (R253). -/
def execHmerge (d a b : GReg) (s : State) : Host.Outcome State Fault Refusal :=
  if s.cur.ctx = 1 then s.trap cHANDLER_WRITE 0 0
  else
    match s.heapAt (s.gN a) with
    | .error c => s.trap c (s.gN a) 0
    | .ok (off, h) =>
      match s.heapAt (s.gN b) with
      | .error c => s.trap c (s.gN b) 0
      | .ok (off', g) =>
        if off ≠ off' ∧ off < off' + 8 + 8 * g.cap ∧ off' < off + 8 + 8 * h.cap then s.trap cHEAP_INVALID (s.gN b) 0
        else if s.heapWaits off h.cap || s.heapWaits off' g.cap then .next (s.stall .retry)
        else if s.tainted (pmLoc s.cur.core off) (8 + 8 * h.ents.length) then s.trap cUE (s.gN a) 0
        else if s.tainted (pmLoc s.cur.core off') (8 + 8 * g.ents.length) then s.trap cUE (s.gN b) 0
        else
          let m := if off = off' then h else h.merge g
          .next ((s.wr (pmLoc s.cur.core off) m.bytes).done d (BitVec.ofNat 64 m.ents.length))

end Sys2Proof.Machine
end

