-- ==== Sys2Proof/Machine/Tasks.lean ====
section
/-! DEFINITION. Machine/Tasks.lean: the cluster scheduler: records, stages, workspaces, dispatch, and how a task leaves its
context (R193 to R203, R264, R360, R368, R369). -/
namespace Sys2Proof.Machine

def State.task (s : State) (cl rid : Nat) : Task := Tbl.get Task.reset (s.cluster cl).tasks rid
def State.setTask (s : State) (cl rid : Nat) (t : Task) : State :=
  s.setCluster cl { s.cluster cl with tasks := Tbl.set Task.reset (s.cluster cl).tasks rid t }

/-- The stage codes of R195. -/
def sgQUEUED : Nat := 0
def sgPREFETCHING : Nat := 1
def sgREADY : Nat := 2
def sgRUNNING : Nat := 3
def sgPARKED : Nat := 4

/-- The address of a record: in the queue region, or in the overflow area (R194). -/
def State.recVa (s : State) (cl rid : Nat) : Nat :=
  if rid < 512 then s.pkgId * 2 ^ 46 + nearLoc cl 8 (0x3F8000 + 64 * rid) else (s.cluster cl).ovBase + 64 * (rid - 512)

/-- Bytes of a record read by the scheduler on behalf of its task: cause and address, or the state and the bytes (R194). -/
def State.recRead (s : State) (cl rid off n : Nat) : Except (Nat × Nat) (State × List Byte) :=
  if rid < 512 then
    let l := nearLoc cl 8 (0x3F8000 + 64 * rid + off)
    if s.tainted l n then .error (cUE, s.recVa cl rid) else .ok (s, s.rd l n)
  else match s.agentRead (hPart (s.task cl rid).handle) (s.recVa cl rid + off) n with
    | .error (c, _) => .error (c, s.recVa cl rid)
    | .ok r => .ok r

/-- Bytes of a record written by the scheduler (R194). -/
def State.recWrite (s : State) (cl rid off : Nat) (bs : List Byte) (part : Nat) : Except (Nat × Nat) State :=
  if rid < 512 then .ok (s.wr (nearLoc cl 8 (0x3F8000 + 64 * rid + off)) bs)
  else match s.agentWrite part (s.recVa cl rid + off) bs with
    | .error (c, _) => .error (c, s.recVa cl rid)
    | .ok t => .ok t

/-- A future made final by the device at a core, through a request to its home (R178, R191). -/
def State.sendFinish (s : State) (core handle st v : Nat) : State :=
  s.launchFlight (.fut { handle := handle, op := .finish st v, part := hPart handle, back := .none, root := 0, src := s.sysCore core })

/-- A record and all that its task holds freed: the task is DONE (R197, R202). -/
def State.freeTask (s : State) (cl rid : Nat) : State :=
  let k := s.task cl rid
  let t := match k.ws with
    | .resident c _ => s.setCore c { s.core c with resident := (s.core c).resident.filter (fun r => r.2 != (cl, rid)) }
    | _ => s
  let c := t.cluster cl
  t.setCluster cl { c with tasks := Tbl.set Task.reset c.tasks rid Task.reset, queued := c.queued.filter (fun x => x != rid),
                           ready := c.ready.filter (fun x => x != rid) }

/-- A task that holds no context ends with its future FAULTED (R194, R198, R203). -/
def State.failTask (s : State) (cl rid cause : Nat) : State :=
  let h := (s.task cl rid).handle
  (s.sendFinish (8 * cl) h fFAULTED cause).freeTask cl rid

/-- The KIND 2 post of a failed access to an overflow entry or to the save area (R363, R409). -/
def State.postTask (s : State) (core cause addr handle : Nat) : State :=
  s.post { pkg := s.pkgId, part := hPart handle, w0 := postWord 2 0 cause (s.sysCore core), pc := 0, addr := addr,
           aux := handle, source := none }

/-- A task ends by a fault of the scheduler's access on its behalf, with its post: `core` is the source of R409. -/
def State.failPosted (s : State) (cl rid core cause addr : Nat) : State :=
  (s.postTask core cause addr (s.task cl rid).handle).failTask cl rid cause

/-- STAGE and PRI of a record brought to what the scheduler holds (R195, R201). -/
def State.putStage (s : State) (cl rid : Nat) (k : Task) : State :=
  let t := s.setTask cl rid k
  match t.recRead cl rid 0 16 with
  | .error (c, a) => t.failPosted cl rid (8 * cl) c a
  | .ok (t, bs) =>
    let w := natOf bs
    let w := setBits (setBits w 1 0 k.pri) 71 69 k.stage
    match t.recWrite cl rid 0 (bytesOf 16 w) (hPart k.handle) with
    | .error (c, a) => t.failPosted cl rid (8 * cl) c a
    | .ok t => t

/-- A task enters READY behind those of its priority (R176, R197, R201). -/
def State.makeReady (s : State) (cl rid : Nat) (k : Task) : State :=
  let c := s.cluster cl
  let t := s.setCluster cl { c with ready := c.ready.filter (fun x => x != rid) ++ [rid],
                                    queued := c.queued.filter (fun x => x != rid) }
  t.putStage cl rid { k with stage := sgREADY, since := s.clock }

/-- The number of the lowest workspace slot of a core that is no context's current one and no resident one (R23, R202). -/
def State.freeSlot (s : State) (core : Nat) : Option Nat :=
  ((List.range 14).map (fun n => 0x30000 + 0xC00 * n)).find? (fun w =>
    (List.range 12).all (fun x => (s.ctxAt core x).wp != w) && (s.core core).resident.all (fun r => r.1 != w))

/-- The save-area address of a task (R193, R202). -/
def State.saveVa (s : State) (cl rid : Nat) : Nat := (s.cluster cl).wsBase + 0xC00 * rid

/-- A resident workspace copied to the save area, and its slot freed; a fault ends its task (R202, R203). -/
def State.evict (s : State) (core wp cl rid : Nat) : State :=
  let k := s.task cl rid
  let r := s.copyOut (hPart k.handle) (pmLoc core wp) (s.saveVa cl rid) 0xC00
  let t := r.1.setCore core { r.1.core core with resident := (r.1.core core).resident.filter (fun x => x.2 != (cl, rid)) }
  match r.2 with
  | some (c, a, _) => t.failPosted cl rid core c a
  | none => t.setTask cl rid { t.task cl rid with ws := .saved }

/-- A context becomes EMPTY, with nothing of its last task (R16). -/
def State.vacate (s : State) (core ctx : Nat) : State :=
  let c := s.ctxAt core ctx
  (s.setCtxAt core ctx { Ctx.reset ctx with wp := c.wp, away := c.away }).setStateAt core ctx stEMPTY

/-- A task leaves its context: its slot becomes resident and the context takes another, after an eviction when there is
none (R202). The workspace keeps the task's state. -/
def State.leaveSlot (s : State) (core ctx cl rid : Nat) : State :=
  let s := match s.freeSlot core, (s.core core).resident with
    | none, (wp, cl', rid') :: _ => s.evict core wp cl' rid'
    | _, _ => s
  let wp := (s.ctxAt core ctx).wp
  let slot := (s.freeSlot core).getD wp
  let t := s.setCore core { s.core core with resident := (s.core core).resident ++ [(wp, cl, rid)] }
  let t := ((t.leaveChunks core ctx).setCtxAt core ctx { t.ctxAt core ctx with wp := slot }).vacate core ctx
  t.setTask cl rid { t.task cl rid with ws := .resident core wp }

/-- The task of a context parks (R179, R197, R202), or re-enters READY (R189, R315). -/
def State.parkTask (s : State) (core ctx : Nat) (how : Resume) (ready : Bool) : State :=
  match (s.ctxAt core ctx).task with
  | none => s
  | some (cl, rid) =>
    let t := s.leaveSlot core ctx cl rid
    let k := { t.task cl rid with resume := how }
    if ready then t.makeReady cl rid k else t.putStage cl rid { k with stage := sgPARKED }

/-- The task of a context is DONE: its record, its pool space and its workspace slot are freed (R197). -/
def State.taskDone (s : State) (core ctx : Nat) : State :=
  let t := match (s.ctxAt core ctx).task with
    | some (cl, rid) => s.freeTask cl rid
    | none => s
  t.vacate core ctx

/-- A restart (R368): the task's record re-enters READY with its entry PC and arguments. -/
def State.restartTask (s : State) (core ctx : Nat) : State :=
  match (s.ctxAt core ctx).task with
  | none => s.vacate core ctx
  | some (cl, rid) =>
    let t := s.vacate core ctx
    t.makeReady cl rid { t.task cl rid with ws := .fresh, resume := .fresh, rst := false }

/-- The load hint of a cluster (R200). -/
def State.hint (s : State) (cl : Nat) : Nat :=
  ((s.cluster cl).tasks.filter (fun k => decide (k.2.stage ≤ sgREADY))).length +
  ((List.range 8).map (fun i => ((List.range 12).filter (fun x =>
    decide (2 ≤ x) && s.stateAt (8 * cl + i) x != stEMPTY)).length)).sum

/-- A partition's clusters in rising order. -/
def Part.rising (p : Part) : List Nat := p.clusters.foldl (fun l c => insertNat c l) []

/-- Of some clusters, the one with the lowest value, ties to the first. -/
def leastOf (f : Nat → Nat) : List Nat → Option Nat
  | [] => none
  | c :: t => match leastOf f t with
    | none => some c
    | some d => if f d < f c then some d else some c

/-- The router position of a cluster within its die, as R165 and R369 count hops. -/
def hops (a b : Nat) : Nat :=
  let d := fun (x y : Nat) => (x - y) + (y - x)
  d (a % 16) (b % 16) + d (a % 128 / 16) (b % 128 / 16)

/-- The cluster of a twin's partner (R369). -/
def State.partnerCluster (s : State) (cl part : Nat) : Option Nat :=
  leastOf (fun c => (s.cluster c).hintDie)
    ((s.part part).rising.filter (fun c => c / 128 == cl / 128 && decide (2 ≤ hops c cl) && !(s.cluster c).fenced))

/-- A tile pointer encoded in a record (R195). -/
def encodeTile (base p : Nat) : Nat :=
  if p = 0 then 0
  else if p % 32 ≠ 0 ∨ p < base ∨ (p - base) / 32 + 1 > 0xFFFFFFFE ∨ (p - base) % 32 ≠ 0 then 0xFFFFFFFF
  else (p - base) / 32 + 1

/-- The 64 bytes of a new record (R195). -/
def recordBytes (base : Nat) (r : TaskRec) : List Byte :=
  bytesOf 8 (bits r.pc 59 2 * 4 + r.pri) ++
  bytesOf 8 (r.handle / 2 ^ 10 * 2 ^ 10 + r.twin.toNat * 2 ^ 9 + r.rst.toNat * 2 ^ 8) ++
  ((List.range 4).map (fun i => bytesOf 8 (r.args.getD i 0))).flatten ++
  ((List.range 4).map (fun i => bytesOf 4 (encodeTile base (r.tiles.getD i 0)))).flatten

/-- The lowest free place of a record, queue slots before the overflow area (R197). -/
def State.freeRecord (s : State) (cl : Nat) : Option Nat :=
  let c := s.cluster cl
  match (List.range 512).find? (fun i => !(s.task cl i).used) with
  | some i => some i
  | none => ((List.range c.ovEnt).map (· + 512)).find? (fun i => !(s.task cl i).used)

/-- A record that arrives at its scheduler (R197): where it was put, if anywhere. -/
def State.takeRecord (s : State) (cl : Nat) (r : TaskRec) : State × Option Nat :=
  match s.freeRecord cl with
  | none => (s.sendFinish (8 * cl) r.handle fFAULTED cTASK_OVERFLOW, none)
  | some rid =>
    match s.recWrite cl rid 0 (recordBytes (s.cluster cl).trBase r) (hPart r.handle) with
    | .error (c, a) => ((s.postTask (8 * cl) c a r.handle).sendFinish (8 * cl) r.handle fFAULTED c, none)
    | .ok t =>
      let k : Task := { Task.reset with used := true, handle := r.handle, pri := r.pri, elig := r.elig, rst := r.rst,
                                        twin := r.pair, since := s.clock }
      if r.tiles.all (fun p => p == 0) then (t.makeReady cl rid k, some rid)
      else
        let u := t.setTask cl rid k
        (u.setCluster cl { u.cluster cl with queued := (u.cluster cl).queued ++ [rid] }, some rid)

/-- A free task context of a core (R199). -/
def State.freeCtx (s : State) (core : Nat) : Option Nat :=
  (List.range 12).find? (fun x => decide (2 ≤ x) && s.stateAt core x == stEMPTY && !bitOf (s.cluster (clusterOf core)).resv x)

/-- The task contexts of a core that are not EMPTY. -/
def State.busy (s : State) (core : Nat) : Nat :=
  ((List.range 12).filter (fun x => decide (2 ≤ x) && s.stateAt core x != stEMPTY)).length

/-- The core and context for a READY task, if an eligible core has a free one (R199). -/
def State.chooseCore (s : State) (cl : Nat) (k : Task) : Option (Nat × Nat) :=
  let open_ := ((List.range 8).filter (bitOf k.elig)).map (8 * cl + ·) |>.filter (fun c => (s.freeCtx c).isSome)
  let least := leastOf s.busy open_
  let core := match k.ws with
    | .resident c _ => if open_.contains c then some c else least
    | _ => least
  core.bind (fun c => (s.freeCtx c).map (fun x => (c, x)))

/-- The READY tasks in the order of the scan: priorities downwards, each in FIFO order (R199). -/
def State.scanOrder (s : State) (cl : Nat) : List Nat :=
  let r := (s.cluster cl).ready
  [3, 2, 1, 0].flatMap (fun p => r.filter (fun rid => (s.task cl rid).pri == p))

/-- A context word that a dispatch leaves undefined: one of its earlier values or zero, within the word's width (R9). -/
def State.freeCx (s : State) (core ctx off lo hi : Nat) : State :=
  let v := natOf (s.undefinedBytes (s.wsLoc core ctx off) 8)
  ({ s with free := s.free + 8 }).setCxAt core ctx off (setBits 0 hi lo (bits v hi lo))

/-- Bytes of a workspace that become undefined (R9). -/
def State.freeWs (s : State) (core ctx off n : Nat) : State :=
  { s.cacheWr core ctx off (s.undefinedBytes (s.wsLoc core ctx off) n) with free := s.free + n }

/-- Every register of a workspace that is not initialised holds an undefined value (R9, R27). -/
def State.freeRegs (s : State) (core ctx : Nat) : State :=
  let t := (s.freeWs core ctx 8 0x9F8).freeWs core ctx 0xA02 14
  ((((t.freeCx core ctx cxCAUSE 0 8).freeCx core ctx cxADDR 0 63).freeCx core ctx cxAUX 0 63).freeCx core ctx cxREPN 0
    31).freeCx core ctx cxREPB 2 63

/-- The state words of a context that starts at a PC (R202, R207, R212, R310), every field of CX.STATUS but CTX, PRI and
STATE zero. -/
def State.startWords (s : State) (core ctx pc fut pri : Nat) : State :=
  (((((s.setCxAt core ctx cxPC (pc / 4 * 4)).setCxAt core ctx cxFUT fut).setCxAt core ctx cxCNT 0).setCxAt core ctx cxREPS
    0).setCxAt core ctx cxSTATUS (pri * 2 ^ 10)).setStateAt core ctx stREADY

/-- A fresh task put in a context (R27, R202). -/
def State.dispatchFresh (s : State) (cl rid core ctx : Nat) (k : Task) : State :=
  match s.recRead cl rid 0 48 with
  | .error (c, a) => s.failPosted cl rid (8 * cl) c a
  | .ok (t, bs) =>
    let w (i : Nat) := natOf ((bs.drop (8 * i)).take 8)
    let tiles := ((List.range 4).map (fun i => bytesOf 4 (k.offs.getD i 0xFFFFFFFF))).flatten
    match t.recWrite cl rid 48 tiles (hPart k.handle) with
    | .error (c, a) => t.failPosted cl rid (8 * cl) c a
    | .ok t =>
      let t := (t.freeRegs core ctx).startWords core ctx (bits (w 0) 59 2 * 4) (k.handle / 2 ^ 10 * 2 ^ 10) k.pri
      let t := [2, 3, 4, 5].foldl (fun t i => t.setGAt core ctx (i + 2) (w i)) (t.setGAt core ctx 3 (s.recVa cl rid))
      t.setCtxAt core ctx { Ctx.reset ctx with wp := (t.ctxAt core ctx).wp, away := (t.ctxAt core ctx).away,
                                               task := some (cl, rid), twin := k.twin.isSome, rst := k.rst }

/-- A woken TOUCH completes from the carried state (R177, R179). -/
def State.finishTouch (s : State) (d handle st v : Nat) : State :=
  if st = fRESOLVED then ((s.setGAt s.cur.core s.cur.ctx d v).advance).acquire
  else if st = fFAULTED then s.takeTrap cFUT_POISONED handle v
  else s.takeTrap cFUT_CANCELLED handle 0

/-- What a task that comes back to a context does first. -/
def State.resumeTask (s : State) (core ctx : Nat) (how : Resume) : State :=
  let at_ := fun (c : Cur) => ({ s with cur := { c with core := core, ctx := ctx } } : State)
  match how with
  | .touched d h st v c => (at_ c).finishTouch d h st v
  | .waited d v c => (((at_ c).setGAt core ctx d v).advance).acquire
  | .lost h c => (at_ c).takeTrap cLINK_FAILED h 0
  | _ => s

/-- A context takes a woken task whose workspace is its current one (R202); reserved bits of its words are held clear (R20). -/
def State.takeBack (s : State) (cl rid core ctx : Nat) (k : Task) : State :=
  let c := s.ctxAt core ctx
  let t := (s.holdWords core ctx stREADY).setCtxAt core ctx
    { Ctx.reset ctx with wp := c.wp, away := c.away, task := some (cl, rid), twin := k.twin.isSome, rst := k.rst }
  let t := (t.setCxAt core ctx cxSTATUS (setBits (t.cxAt core ctx cxSTATUS) 11 10 k.pri)).setStateAt core ctx stREADY
  (t.setTask cl rid { t.task cl rid with resume := .again, ws := .fresh }).resumeTask core ctx k.resume

/-- A READY task dispatched to a context (R199, R202). -/
def State.dispatchTo (s : State) (cl rid core ctx : Nat) : State :=
  let c := s.cluster cl
  let k := { s.task cl rid with stage := sgRUNNING, core := core, ctx := ctx }
  let t := (s.setCluster cl { c with ready := c.ready.filter (fun x => x != rid) }).putStage cl rid k
  if !(t.task cl rid).used then t
  else match k.resume, k.ws with
    | .fresh, _ => t.dispatchFresh cl rid core ctx k
    | _, .resident c' wp =>
      if c' = core then
        let t := t.setCore core { t.core core with resident := (t.core core).resident.filter (fun r => r.2 != (cl, rid)) }
        ((t.leaveChunks core ctx).setCtxAt core ctx { t.ctxAt core ctx with wp := wp }).takeBack cl rid core ctx k
      else
        let t := t.evict c' wp cl rid
        if !(t.task cl rid).used then t
        else ((t.setCtxAt core ctx { t.ctxAt core ctx with wait := .copyIn, task := some (cl, rid) })).setStateAt core ctx stSTALLED
    | _, _ =>
      (t.setCtxAt core ctx { t.ctxAt core ctx with wait := .copyIn, task := some (cl, rid) }).setStateAt core ctx stSTALLED

/-- Whether the partition of a cluster lets tasks and activations start (R311, R314). -/
def State.clusterRuns (s : State) (cl : Nat) : Bool :=
  match s.partOfCluster cl with
  | some p => decide ((s.part p).status = .running) && !(s.part p).stopping
  | none => false

/-- DISPATCH (R199, R202): at most one task, the first of the scan that an eligible core can take. -/
def State.dispatch (s : State) (cl : Nat) : State :=
  let go := s.clusterRuns cl && (match s.partOfCluster cl with
    | some p => !(s.part p).replaying
    | none => false) && !(s.cluster cl).fenced
  if !go then s
  else match (s.scanOrder cl).findSome? (fun rid => (s.chooseCore cl (s.task cl rid)).map (fun p => (rid, p))) with
    | none => s
    | some (rid, core, ctx) => s.dispatchTo cl rid core ctx

/-- WORKSPACE_COPY_DONE (R202, R203). -/
def State.copyDone (s : State) (cl rid : Nat) : State :=
  let k := s.task cl rid
  if !k.used ∨ k.stage ≠ sgRUNNING ∨ (s.ctxAt k.core k.ctx).wait ≠ .copyIn ∨
      (s.ctxAt k.core k.ctx).task ≠ some (cl, rid) then s
  else
    let loc := pmLoc k.core (s.ctxAt k.core k.ctx).wp
    let r := s.copyIn (hPart k.handle) (s.saveVa cl rid) loc 0xC00
    match r.2 with
    | some (c, a, _) => (r.1.failPosted cl rid k.core c a).vacate k.core k.ctx
    | none => r.1.takeBack cl rid k.core k.ctx k

/-- TASK_AGING (R201). -/
def State.ageTask (s : State) (cl rid : Nat) : State :=
  let k := s.task cl rid
  if k.used ∧ k.stage = sgREADY ∧ k.pri < 3 ∧ k.since + 65536 ≤ s.clock then
    s.makeReady cl rid { k with pri := k.pri + 1 }
  else s

/-- LOAD_HINT_PUBLICATION (R200): every 256 clocks to the die, every 1,024 to the package. -/
def State.publishHint (s : State) (cl : Nat) (wide : Bool) : State :=
  let c := s.cluster cl
  if wide then
    (if s.clock < c.hintPkgAt + 1024 then s else s.setCluster cl { c with hintPkg := s.hint cl, hintPkgAt := s.clock })
  else if s.clock < c.hintDieAt + 256 then s
  else s.setCluster cl { c with hintDie := s.hint cl, hintDieAt := s.clock }

/-- The publications that are due, so that no hint is older than a period (R200). -/
def State.publishDue (s : State) : State :=
  (s.parts.filter (fun p => p.2.status.onChip)).foldl (fun t p =>
    p.2.clusters.foldl (fun t c => (t.publishHint c false).publishHint c true) t) s

/-- DISPATCH (R199). -/
def execDispatch (cl : Nat) (s : State) : Host.Outcome State Fault Refusal := .next (s.dispatch cl)

/-- WORKSPACE_COPY_DONE (R202). -/
def execWorkspaceCopyDone (cl rid : Nat) (s : State) : Host.Outcome State Fault Refusal := .next (s.copyDone cl rid)

/-- TASK_AGING (R201). -/
def execTaskAging (cl rid : Nat) (s : State) : Host.Outcome State Fault Refusal := .next (s.ageTask cl rid)

/-- LOAD_HINT_PUBLICATION (R200). -/
def execLoadHintPublication (cl : Nat) (wide : Bool) (s : State) : Host.Outcome State Fault Refusal :=
  .next (s.publishHint cl wide)

end Sys2Proof.Machine
end

