-- ==== Sys2Proof/Machine/FutOps.lean ====
section
/-! DEFINITION. Machine/FutOps.lean: operations on futures where they are applied (R168, R172, R176, R179 to R187), what
their answers do to the context that issued them, and the end of a task (R188, R360). -/
namespace Sys2Proof.Machine

/-- The launch that counts a root future, if any (R300, R301). -/
def rootKey (part core slot gen : Nat) : Nat := part * 2 ^ 40 + core * 2 ^ 26 + gen * 2 ^ 10 + slot

/-- A root future's final state reported to its launch's counting agent (R301). -/
def State.reportRoot (s : State) (core slot gen st : Nat) : State :=
  let k := rootKey (s.partOf core) core slot gen
  let l := Tbl.get 0 s.roots k
  if l = 0 then s
  else ({ s with roots := Tbl.set 0 s.roots k 0 }).launchFlight (.report (l - 1) (st == fRESOLVED))

/-- A future made final at its home if it is PENDING, with its waiters woken and its launch told (R176, R301). -/
def State.finishAt (s : State) (core slot gen st v : Nat) : Except Bad (State × Bool) :=
  match s.futFinish core slot gen st v with
  | .error b => .error b
  | .ok (t, true) => .ok (t.reportRoot core slot gen st, true)
  | .ok (t, false) => .ok (t, false)

/-- The waiter token of a context: its record's, or that of the control context or of a helper (R175). -/
def State.tokenOf (s : State) (core ctx : Nat) : Nat :=
  let cl := clusterOf core
  match (s.ctxAt core ctx).task with
  | some (c, rid) => mkToken s.pkgId c rid
  | none => if ctx = 0 then mkToken s.pkgId cl (0x1F00 + core % 8)
    else mkToken s.pkgId cl (0x1F08 + 10 * (core % 8) + (ctx - 2))

/-- The word of FSTAT (R182). -/
def statWord (l : FutLoc) (e : FutEntry) : Nat :=
  e.waiters.length * 2 ^ 32 + e.tied.toNat * 2 ^ 17 + (if l = .table then 0 else 1) * 2 ^ 16 +
    (if e.state = fFAULTED then e.cause else 0) * 2 ^ 5 + e.dcan.toNat * 2 ^ 4 + e.cons.toNat * 2 ^ 3 + e.state

/-- What a final entry gives a TOUCH (R179). -/
def touchAnswer (h : Nat) (e : FutEntry) : Answer :=
  if e.state = fRESOLVED then .data (fRESOLVED * 2 ^ 64 + e.value)
  else if e.state = fFAULTED then .fault cFUT_POISONED h e.cause
  else .fault cFUT_CANCELLED h 0

/-- What a look at an entry gives a TTOUCH: the state code and the value (R181). -/
def ttouchAnswer (e : FutEntry) : Answer :=
  .data (e.state * 2 ^ 64 + (if e.state = fRESOLVED then e.value else if e.state = fFAULTED then e.cause else 0))

/-- The launch that counts at a join future, if any (R306). -/
def State.joinTaken (s : State) (h : Nat) : Bool :=
  s.launches.any (fun l => l.2.join == h && l.2.queue.isNone && l.2.walker.isNone)

/-- An entry written back, and the answer given; a failure of the spill walker answers instead (R173). -/
def State.putAnswer (s : State) (core slot : Nat) (l : FutLoc) (e : FutEntry) (a : Answer) : State × Answer :=
  match s.futPut core slot l e with
  | .error (c, va, aux) => (s, .fault c va aux)
  | .ok t => (t, a)

/-- An operation other than a cancellation applied at the home of a future (R192): the new state and the answer. A TOUCH that traps on a
final state has delivered it: its consumed flag stays set (DESIGN CHOICE, log entry 111). -/
def State.futApply (s : State) (h : Nat) (op : FutOp) : State × Answer :=
  let core := hCore h
  let slot := hSlot h
  match s.futFind core slot (hGen h) with
  | .error (c, va, aux) => (s, .fault c va aux)
  | .ok (t, none) =>
    match op with
    | .ttouch => (t, .data 0)
    | .stat => (t, .data 0)
    | .finish _ _ => (t, .fault cFUT_STALE h 0)
    | _ => (t, .fault cFUT_STALE h 0)
  | .ok (t, some (l, e)) =>
    match op with
    | .touch tok =>
      if e.state = fPENDING then
        match tok with
        | none => (t, .data (fPENDING * 2 ^ 64))
        | some w => t.putAnswer core slot l { e with waiters := e.waiters ++ [w] } (.data (fPENDING * 2 ^ 64))
      else t.putAnswer core slot l { e with cons := true } (touchAnswer h e)
    | .ttouch =>
      if e.state = fPENDING then (t, ttouchAnswer e) else t.putAnswer core slot l { e with cons := true } (ttouchAnswer e)
    | .finish st v =>
      match t.finishAt core slot (hGen h) st v with
      | .error (c, va, aux) => (t, .fault c va aux)
      | .ok (u, done) => (u, .data done.toNat)
    | .free =>
      if e.state = fPENDING ∨ e.waiters ≠ [] then (t, .fault cFUT_IN_USE h 0)
      else match t.futFree core slot l e with
        | .error (c, va, aux) => (t, .fault c va aux)
        | .ok u => (u, .data 0)
    | .stat => (t, .data (statWord l e))
    | .cancel _ => (t, .data 0)
    | .unlist w => t.putAnswer core slot l { e with waiters := e.waiters.filter (fun x => x != w) } (.data 0)
    | .join launch count done =>
      if e.state = fPENDING ∧ !e.tied ∧ !t.joinTaken h then
        ({ t with launches := t.launches ++ [(launch, { part := hPart h, count := count, got := 0, bad := 0, done := done,
                                                        join := h, queue := none, walker := none, joining := false })] }, .data 0)
      else (t, .fault cLAUNCH_BLOCK 0 0)

/-- Step 2 of R168: the handle's partition is the issuer's, and the home core belongs to it; the partition of a core of
another package is confirmed where the request arrives (R349). -/
def State.handleMine (s : State) (part h : Nat) : Bool :=
  hPart h == part && (hPkg h != s.pkgId || s.partOfCluster (clusterOf (hCore h)) == some part)

/-- Step 3 of R168 for a requester in a cluster: the home can be reached (R382) and is not fenced; a POSTED path carries no
future operation (R348). -/
def State.handleReach (s : State) (from_ part h : Nat) : Option Nat :=
  if hPkg h = s.pkgId then
    (if (s.cluster (clusterOf (hCore h))).fenced || !s.reaches from_ (clusterOf (hCore h)) then some cNEAR_ABSENT else none)
  else if !s.routeOpen part (hPkg h) then some cNEAR_ABSENT
  else if s.routeClass (hPkg h) ≠ 1 then some cATOMIC_PATH
  else none

/-- Steps 1 and 2 of R168 for the executing context: the failing cause. -/
def State.handleCheck (s : State) (h : Nat) : Option Nat :=
  if !hOk h then some cFUT_HANDLE
  else if !s.handleMine (s.partOf s.cur.core) h then some cPROTECTION
  else none

/-- What an answer does to the executing context, when it is that of a future operation that wrote no list (R168, R177 to
R190). -/
def State.takeAnswer (s : State) (k : Kont) (a : Answer) : State :=
  let core := s.cur.core
  let ctx := s.cur.ctx
  match a, k with
  | .fault c addr aux, .ended =>
    -- a future that has been final and freed is final all the same (R188); any other failure is the instruction's (R173, R378)
    if c = cFUT_STALE then s.taskDone core ctx else s.takeTrap c addr aux
  | .data _, .ended => s.taskDone core ctx
  | .fault c addr aux, .pair d =>
    -- TTOUCH takes no trap from a handle that it cannot use (R181)
    if c = cPROTECTION ∨ c = cNEAR_ABSENT then ((s.setGAt core ctx d 0).setGAt core ctx (d + 1) 7).advance
    else s.takeTrap c addr aux
  | .fault c addr aux, _ => s.takeTrap c addr aux
  | .data v, .word d => (s.setGAt core ctx d (v % 2 ^ 64)).advance
  | .data _, .flood w => (s.launchFlight (.kwake w)).advance
  | .data v, .pair d =>
    let t := ((s.setGAt core ctx d (v % 2 ^ 64)).setGAt core ctx (d + 1) (v / 2 ^ 64)).advance
    if fRESOLVED ≤ v / 2 ^ 64 then t.acquire else t
  | .data v, .touch d h listed =>
    if v / 2 ^ 64 ≠ fPENDING then ((s.undrain.setGAt core ctx d (v % 2 ^ 64)).advance).acquire
    else if !listed then
      -- PENDING: the parking wait comes before the waiter is appended (R179)
      let r := s.leaveGate core ctx s.pc
      if r.2 then r.1 else r.1.waitAll
    else if (s.ctxAt core ctx).task.isSome then s.parkTask core ctx (.inTouch d h s.cur) false
    else s.stall (.listed d h s.cur)
  | .data _, _ => s.advance

/-- A future operation of the executing context: applied at once at its own core, or sent to the home while the context is
STALLED (R167). Requests of a twin member always leave its core (R370). -/
def State.futureOp (s : State) (h : Nat) (op : FutOp) (k : Kont) : State :=
  if hPkg h = s.pkgId ∧ hCore h = s.cur.core ∧ !s.myCtx.twin then
    let r := s.futApply h op
    r.1.takeAnswer k r.2
  else
    let q : FutReq :=
      { handle := h, op := op, part := s.partOf s.cur.core, back := .ctx s.cur.core s.cur.ctx, root := s.nextId,
        src := s.sysCore s.cur.core }
    (s.launchFlight (.fut q)).stall (.reply s.nextId k s.cur)

/-- The future of the executing task made final by the device, and the task ended when that is done (R185, R188). -/
def State.endFuture (s : State) (st v : Nat) : State :=
  let h := s.cx cxFUT
  if h = 0 then s.taskDone s.cur.core s.cur.ctx
  else if (hPkg h ≠ s.pkgId ∨ hCore h ≠ s.cur.core) ∧ (s.handleReach (clusterOf s.cur.core) (s.partOf s.cur.core) h).isSome then
    s.takeTrap ((s.handleReach (clusterOf s.cur.core) (s.partOf s.cur.core) h).getD 0) h 0
  else if s.status 9 9 = 1 then s.futureOp h (.finish fCANCELLED 0) .ended
  else s.futureOp h (.finish st v) .ended

/-- Whether a requester's outcome is counted in a class as one of a group (R28, R114). -/
def Back.inGroup (b : Back) (cnt : Cnt) (group : Nat) : Bool :=
  match b with
  | .count _ _ c _ g => c == cnt && g == group
  | _ => false

/-- Whether a flight belongs to a group of posted operations that are counted together in a class (R28, R114). -/
def Flight.inGroup (cnt : Cnt) (group : Nat) (f : Flight) : Bool :=
  let back := match f with
    | .mem r => r.back
    | .accum a => a.back
    | .msg m => m.back
    | .ack b _ _ => b
    | .refusal a => a.back
    | _ => .none
  back.inGroup cnt group

/-- Whether an operation of a group is still outstanding, a request kept for a twin comparison among them (R370). -/
def State.groupOpen (s : State) (cnt : Cnt) (group : Nat) : Bool :=
  s.flights.any (fun f => f.2.inGroup cnt group) || s.aliases.any (fun x => x.2.2.inGroup cnt group) ||
    s.pairs.any (fun p => (p.2.qa ++ p.2.qb).any (fun f => f.2.inGroup cnt group))

/-- A counter falls when the last operation of a group is no longer outstanding (R28), and its core goes on. -/
def State.uncount (s : State) (core ctx : Nat) (c : Cnt) (group : Nat) : State :=
  if s.groupOpen c group then s else (s.setCntAt core ctx c (s.cntAt core ctx c - 1)).wakeCore core

/-- A twin pair by number. -/
def State.pair? (s : State) (p : Nat) : Option Pair := lookupId p s.pairs
def State.setPair (s : State) (p : Nat) (x : Pair) : State := { s with pairs := putId p x s.pairs }

/-- The pair of the task in a context. -/
def State.pairOf (s : State) (core ctx : Nat) : Option (Nat × Pair) :=
  match (s.ctxAt core ctx).task with
  | some (cl, rid) => (s.task cl rid).twin.bind (fun p => (s.pair? p).map (fun x => (p, x)))
  | none => none

/-- The requests of a pair that are not matched are dropped and no longer counted, and its hashes begin again (R371). -/
def State.clearPair (s : State) (p : Nat) : State :=
  match s.pair? p with
  | none => s
  | some x =>
    (x.qa ++ x.qb).foldl (fun t f => match f.2 with
      | .mem r => (match r.back with
        | .count c k n _ g => t.uncount c k n g
        | _ => t)
      | .msg m => (match m.back with
        | .count c k n _ g => t.uncount c k n g
        | _ => t)
      | _ => t) (s.setPair p { x with qa := [], qb := [], crcA := 0xFFFFFFFF, crcB := 0xFFFFFFFF })

/-- The other member of a pair ends with it (R371): run again, or gone. A copy of its workspace under way is given up. -/
def State.endOther (s : State) (o : Nat × Nat) (gone : Bool) : State :=
  let k := s.task o.1 o.2
  let inCtx := decide (k.stage = sgRUNNING ∧ (s.ctxAt k.core k.ctx).task = some o)
  if !k.used then s
  else if inCtx ∧ (s.ctxAt k.core k.ctx).wait ≠ .copyIn then s.endWith k.core k.ctx (if gone then .final else .restart)
  else
    let t := if inCtx then s.vacate k.core k.ctx else s
    if gone then t.freeTask o.1 o.2 else t.makeReady o.1 o.2 { k with ws := .fresh, resume := .fresh }

/-- The other member of the pair that a member of which runs in a context, if it does. -/
def Pair.otherOf (x : Pair) (me : Option (Nat × Nat)) : Nat × Nat := if some x.mine = me then x.other else x.mine

/-- A member of a twin pair ends with its pair, to be run again once or, the second time, with a cause (R371) and a post that names
the primary's core and context (R409). A pair that is to be cancelled is not run again (R185, R371). -/
def State.endMember (s : State) (cause : Nat) : State :=
  let core := s.cur.core
  let ctx := s.cur.ctx
  match s.pairOf core ctx with
  | none => s.endFuture fFAULTED cause
  | some (p, x) =>
    let gone := x.again || s.status 9 9 == 1
    let t := (s.setPair p { x with again := true }).endOther (x.otherOf (s.ctxAt core ctx).task) gone
    if x.again then
      let k := s.task x.mine.1 x.mine.2
      let q : Post := { pkg := s.pkgId, part := s.partOf core, w0 := postWord 2 k.ctx cause (s.sysCore k.core), pc := s.pc,
                        addr := s.cx cxADDR, aux := s.cx cxFUT, source := none }
      (t.post q).endFuture fFAULTED cause
    else if gone then t.endFuture fFAULTED cause
    else t.restartTask core ctx

/-- The requests of a member's pair that are not matched are dropped (R371). -/
def State.clearMine (s : State) (core ctx : Nat) : State :=
  match s.pairOf core ctx with
  | some (p, _) => s.clearPair p
  | none => s

/-- The other member of a pair that ends, cancelled or by a full mailbox, ends with it (R185, R371). -/
def State.cancelOther (s : State) (core ctx : Nat) : State :=
  match s.pairOf core ctx with
  | some (_, x) => s.endOther (x.otherOf (s.ctxAt core ctx).task) true
  | none => s

/-- A context whose task is ending: its saggar entries are flushed and its counters waited for, then it leaves (R30, R264, R360, R366,
R368). -/
def State.finishEnding (s : State) (e : Ending) : State :=
  let core := s.cur.core
  let ctx := s.cur.ctx
  let s := match e with
    | .mismatch _ => s.clearMine core ctx
    | .cancelled => s.clearMine core ctx
    | .faulted _ _ => s.clearMine core ctx
    | _ => s
  let r := s.leaveGate core ctx s.pc
  if !r.2 then r.1.msync.stall .none
  else
    let t := r.1.setCtxAt core ctx { r.1.ctxAt core ctx with ending := none }
    match e with
    | .cancelled => (t.cancelOther core ctx).endFuture fRESOLVED 0
    | .faulted c p => (match p with
      | some p => (t.cancelOther core ctx).post p
      | none => t.cancelOther core ctx).endFuture fFAULTED c
    | .restart => t.restartTask core ctx
    | .final => t.taskDone core ctx
    | .mismatch c => t.endMember c

end Sys2Proof.Machine
end

