-- ==== Sys2Proof/Machine/FutureFam.lean ====
section
/-! DEFINITION. Machine/FutureFam.lean: SPAWN to TERM (R178 to R190), SEND and HRET (R205, R209), and CWAIT (R147). -/
namespace Sys2Proof.Machine

/-- The activation has used its four sends and spawns (R208). -/
def State.sendsSpent (s : State) : Bool :=
  match s.me.act with
  | some a => s.cur.ctx == 1 && decide (4 ≤ a.sends)
  | none => false

/-- A flight that leaves the core: sent, or by an activation kept until HRET with the future it allocated (R208). -/
def State.sendOut (s : State) (f : Flight) (fut : Option (Nat × Nat)) : State :=
  if s.cur.ctx = 1 then
    match s.me.act with
    | some a => s.setMe { s.me with act := some { a with sends := a.sends + 1, out := a.out ++ [f],
                                                         futs := a.futs ++ fut.toList } }
    | none => s.launchFlight f
  else s.launchFlight f

/-- The cluster that a placement names, and the cores of it that may run the task (R178, R199, R200, R369). -/
def State.placeTask (s : State) (p : Place) (twin : Bool) : Nat × Nat :=
  let core := s.cur.core
  let cl := clusterOf core
  let mine := (s.part (s.partOf core)).rising
  match p with
  | .here => (cl, 0xFF)
  | .quad => (cl, if twin then 0xFF else if core % 8 < 4 then 0x0F else 0xF0)
  | .die => ((leastOf (fun c => (s.cluster c).hintDie) (mine.filter (fun c => c / 128 == cl / 128))).getD cl, 0xFF)
  | .any => ((leastOf (fun c => (s.cluster c).hintPkg) mine).getD cl, 0xFF)

/-- The common steps of SPAWN, SPAWNT and CALLAT after their checks (R178): a future at the issuing core, its handle in gD,
and the record sent to a cluster of a package. A record for another package may fail precisely (R378): the context waits until
that package has it. A cluster of this package that no route reaches fails the request at issue (R382). -/
def State.spawnTo (s : State) (d a b : GReg) (pri : Nat) (twin rst : Bool) (tiles : List Nat) (pkg cl elig : Nat) : State :=
  let core := s.cur.core
  if pkg = s.pkgId ∧ !s.reaches (clusterOf core) cl then s.takeTrap cNEAR_ABSENT 0 0
  else match s.futNew core (s.partOf core) (taskPlace pkg cl) (s.cx cxFUT) true with
  | .error (c, va, aux) => s.takeTrap c va aux
  | .ok (t, h) =>
    let r : TaskRec :=
      { pc := s.gN a, pri := pri, handle := h, twin := twin, rst := rst,
        args := (List.range 4).map (fun i => s.gN (regPlus b i)), tiles := tiles, elig := elig, pair := none }
    if pkg ≠ s.pkgId ∧ s.cur.ctx ≠ 1 then
      (t.launchFlight (.record core pkg cl r)).stall (.reply t.nextId (.spawned d.val h) s.cur)
    else ((t.sendOut (.record core pkg cl r) (some (hSlot h, hGen h))).setGN d h).advance

/-- The waits and checks before a spawn (R178, R184, R208). -/
def State.spawnGate (s : State) (a : GReg) (k : Host.Outcome State Fault Refusal) : Host.Outcome State Fault Refusal :=
  if s.sendsSpent then s.trap cHANDLER_SENDS 0 0
  else s.relGate (
    if s.status 9 9 = 1 then s.trap cCANCEL_REQ 0 0
    else if s.gN a % 4 ≠ 0 then s.trap cMISALIGNED_TARGET (s.gN a) 0
    else k)

/-- SPAWN (R178). -/
def execSpawn (d a b : GReg) (plc : Place) (pri : Fin 4) (twin rst : Bool) (s : State) :
    Host.Outcome State Fault Refusal :=
  s.spawnGate a (
    let p := s.placeTask plc twin
    .next (s.spawnTo d a b pri.val twin rst [] s.pkgId p.1 p.2))

/-- SPAWNT (R178). -/
def execSpawnt (d a b : GReg) (plc : Place) (pri : Fin 4) (twin rst : Bool) (s : State) :
    Host.Outcome State Fault Refusal :=
  s.spawnGate a (
    let p := s.placeTask plc twin
    .next (s.spawnTo d a b pri.val twin rst ((List.range 4).map (fun i => s.gN (regPlus b (4 + i)))) s.pkgId p.1 p.2))

/-- CALLAT (R178, R347 to R349): the core of gB+4. A core of another package is absent where no open route leads to it, and fails as a
request there does (DESIGN CHOICE, log entry 112). -/
def execCallat (d a b : GReg) (pri : Fin 4) (s : State) : Host.Outcome State Fault Refusal :=
  s.spawnGate a (
    let t := s.gN (regPlus b 4)
    let pkg := bits t 21 12
    let core := bits t 11 0
    let cl := clusterOf core
    if 2 ^ 22 ≤ t then s.trap cSPAWN_TARGET 0 0
    else if pkg = s.pkgId then
      (if s.partOfCluster cl ≠ some (s.partOf s.cur.core) then s.trap cSPAWN_TARGET 0 0
       else .next (s.spawnTo d a b pri.val false false [] pkg cl (2 ^ (core % 8))))
    else if !s.routeOpen (s.partOf s.cur.core) pkg then s.trap cNEAR_ABSENT 0 0
    else if s.routeClass pkg ≠ 1 then s.trap cATOMIC_PATH 0 0
    else .next (s.spawnTo d a b pri.val false false [] pkg cl (2 ^ (core % 8))))

/-- The checks of R168 at the issuing core, then `k`; the handle goes to CX.ADDR. -/
def State.handleGate (s : State) (h : Nat) (k : Host.Outcome State Fault Refusal) : Host.Outcome State Fault Refusal :=
  match s.handleCheck h with
  | some c => s.trap c h 0
  | none => match s.handleReach (clusterOf s.cur.core) (s.partOf s.cur.core) h with
    | some c => s.trap c h 0
    | none => k

/-- TOUCH (R179): a waiter is appended only by a control context, a helper, or a task that may leave its context. -/
def execTouch (d a : GReg) (s : State) : Host.Outcome State Fault Refusal :=
  let h := s.gN a
  match s.handleCheck h with
  | some c => s.trap c h 0
  | none =>
    if s.cur.ctx = 1 then s.trap cHANDLER_BLOCKING 0 0
    else if s.status 9 9 = 1 then s.trap cCANCEL_REQ 0 0
    else if h = s.cx cxFUT then s.trap cSELF_WAIT h 0
    else match s.handleReach (clusterOf s.cur.core) (s.partOf s.cur.core) h with
      | some c => s.trap c h 0
      | none =>
        let list := s.myCtx.task.isNone || s.mayLeave s.cur.core s.cur.ctx
        .next (s.futureOp h (.touch (if list then some (s.tokenOf s.cur.core s.cur.ctx) else none)) (.touch d.val h list))

/-- TTOUCH (R181): it takes no trap from the handle. -/
def execTtouch (d a : GReg) (s : State) : Host.Outcome State Fault Refusal :=
  let h := s.gN a
  if (s.handleCheck h).isSome || (s.handleReach (clusterOf s.cur.core) (s.partOf s.cur.core) h).isSome then
    .next ((s.setGN d 0).setGN (regPlus d 1) 7).advance
  else .next (s.futureOp h .ttouch (.pair d.val))

/-- RESOLVE (R180). -/
def execResolve (d a b : GReg) (s : State) : Host.Outcome State Fault Refusal :=
  s.relGate (s.handleGate (s.gN a) (.next (s.futureOp (s.gN a) (.finish fRESOLVED (s.gN b)) (.word d.val))))

/-- POISON (R180): the cause is gB[8:0], or USER_POISON for zero. -/
def execPoison (d a b : GReg) (s : State) : Host.Outcome State Fault Refusal :=
  let c := s.gN b % 512
  s.relGate (s.handleGate (s.gN a)
    (.next (s.futureOp (s.gN a) (.finish fFAULTED (if c = 0 then cUSER_POISON else c)) (.word d.val))))

/-- A cancellation sent to the future's home (R184); the context is STALLED until the home has acted. -/
def State.sendCancel (s : State) (d : GReg) (h : Nat) (tree : Bool) : State :=
  let q : FutReq :=
    { handle := h, op := .cancel tree, part := s.partOf s.cur.core, back := .ctx s.cur.core s.cur.ctx, root := s.nextId,
      src := s.sysCore s.cur.core }
  (s.launchFlight (.fut q)).stall (.reply s.nextId (.word d.val) s.cur)

/-- CANCEL (R184). -/
def execCancel (d a : GReg) (s : State) : Host.Outcome State Fault Refusal :=
  s.handleGate (s.gN a) (.next (s.sendCancel d (s.gN a) false))

/-- CANCEL.TREE (R184, R186). -/
def execCancelTree (d a : GReg) (s : State) : Host.Outcome State Fault Refusal :=
  s.handleGate (s.gN a) (.next (s.sendCancel d (s.gN a) true))

/-- FNEW (R183). In an activation the allocation is undone with it (R178, R210). -/
def execFnew (d : GReg) (s : State) : Host.Outcome State Fault Refusal :=
  match s.futNew s.cur.core (s.partOf s.cur.core) 0 0 false with
  | .error (c, va, aux) => s.trap c va aux
  | .ok (t, h) =>
    let t := match t.me.act with
      | some a => if s.cur.ctx = 1 then t.setMe { t.me with act := some { a with futs := a.futs ++ [(hSlot h, hGen h)] } } else t
      | none => t
    .next (t.setGN d h).advance

/-- FFREE (R187). -/
def execFfree (a : GReg) (s : State) : Host.Outcome State Fault Refusal :=
  s.handleGate (s.gN a) (.next (s.futureOp (s.gN a) .free .plain))

/-- FSTAT (R182). -/
def execFstat (d a : GReg) (s : State) : Host.Outcome State Fault Refusal :=
  s.handleGate (s.gN a) (.next (s.futureOp (s.gN a) .stat (.word d.val)))

/-- CHKC (R190). -/
def execChkc (s : State) : Host.Outcome State Fault Refusal :=
  if s.status 9 9 = 1 then s.trap cCANCEL_REQ 0 0 else .next s.advance

/-- A task's context given up, once it may leave, to re-enter READY with its state as it stands (R189, R315). -/
def State.yieldTask (s : State) : State :=
  let r := s.leaveGate s.cur.core s.cur.ctx s.pc
  if r.2 then (r.1.advance).parkTask s.cur.core s.cur.ctx .again true else r.1.waitAll

/-- YIELD (R189). -/
def execYield (s : State) : Host.Outcome State Fault Refusal :=
  if s.cur.ctx = 1 then s.trap cHANDLER_BLOCKING 0 0
  else if s.myCtx.task.isNone then .next s.advance
  else if s.status 9 9 = 1 then s.trap cCANCEL_REQ 0 0
  else .next s.yieldTask

/-- TERM (R188): the flush, the .REL wait with its deferred faults, and the end. -/
def execTerm (a : GReg) (s : State) : Host.Outcome State Fault Refusal :=
  if s.cur.ctx < 2 then s.trap cTASK_CONTEXT 0 0
  else
    let r := s.leaveGate s.cur.core s.cur.ctx s.pc
    if !r.2 then .next r.1.waitAll
    else match r.1.raiseLogged (fun c => decide (c ≤ 2)) with
      | some t => .next t
      | none => .next (r.1.endFuture fRESOLVED (s.gN a))

/-- The word at +0x08 of a message (R204). -/
def msgWordOf (kind n part src : Nat) : Nat := kind * 2 ^ 30 + n * 2 ^ 26 + part * 2 ^ 22 + src

/-- SEND (R205, R206, R382): counted in SN, or buffered by an activation (R208). -/
def execSend (d a b : GReg) (n : Fin 9) (s : State) : Host.Outcome State Fault Refusal :=
  let t := s.gN d
  let part := s.partOf s.cur.core
  let pkg := bits t 21 12
  if s.sendsSpent then s.trap cHANDLER_SENDS 0 0
  else if 2 ^ 22 ≤ t then s.trap cMESSAGE_TARGET 0 0
  else if pkg = s.pkgId ∧ s.partOfCluster (clusterOf (bits t 11 0)) ≠ some part then s.trap cMESSAGE_TARGET 0 0
  else if (if pkg = s.pkgId then !s.reaches (clusterOf s.cur.core) (clusterOf (bits t 11 0)) else !s.routeOpen part pkg) then
    s.trap cNEAR_ABSENT 0 0
  else if s.gN a % 4 ≠ 0 then s.trap cMISALIGNED_TARGET (s.gN a) 0
  else
    let m : Msg :=
      { part := part, target := t, hpc := s.gN a, word := msgWordOf 0 n.val part (s.sysCore s.cur.core),
        pay := (List.range n.val).map (fun i => s.gN (regPlus b i)),
        back := .count s.cur.core s.cur.ctx .sn s.pc s.nextId, refused := none, drain := none }
    if s.cur.ctx = 1 then .next ((s.sendOut (.msg { m with back := .none }) none).advance)
    else .next (s.counted .sn (fun u => (u.launchFlight (.msg m)).advance))

/-- HRET (R209): the activation committed in one step. -/
def execHret (s : State) : Host.Outcome State Fault Refusal :=
  if s.cur.ctx ≠ 1 then s.trap cHANDLER_CONTEXT 0 0
  else match s.me.act with
    | none => .next (s.endActivation s.cur.core true)
    | some a =>
      if a.buf.any (fun b => s.nearHeld (pmLoc s.cur.core b.off) b.op.size) then .next (s.stall .retry)
      else
        let t := a.buf.foldl (fun t b => (t.nearRun (clusterOf s.cur.core) (s.cur.core % 8) b.off b.op).1) s
        let t := t.setMe { t.me with outbox := (List.range a.out.length).map (· + t.nextId) }
        let t := a.out.foldl (fun t f => t.launchFlight f) t
        .next (t.endActivation s.cur.core true)

/-- The location of a completion object (R145): in the issuer's own private memory outside the system area, or in its own
cluster's store in a SCRATCH bank. -/
def State.objLoc (s : State) (ea : Nat) : Option Nat :=
  if ea % 16 ≠ 0 then none
  else match s.place s.cur.core ea with
    | .ok (.unit cl u off) =>
      if cl = clusterOf s.cur.core ∧ ((u = s.cur.core % 8 ∧ off < 0x30000) ∨
          (u = 8 ∧ off < 0x3F8000 ∧ s.bankMode cl off = 0)) then some (nearLoc cl u off) else none
    | _ => none

/-- The word of an object that CWAIT returns (R147). -/
def State.objWord (s : State) (loc : Nat) : Nat := natOf (s.rd (loc + 8) 8)
/-- Whether an object's BYTES and CMDS are zero (R144, R147). -/
def State.objIdle (s : State) (loc : Nat) : Bool := natOf (s.rd loc 8) == 0

/-- CWAIT (R147). -/
def execCwait (d a : GReg) (s : State) : Host.Outcome State Fault Refusal :=
  if s.cur.ctx = 1 then s.trap cHANDLER_BLOCKING 0 0
  else if 2 ≤ s.cur.ctx ∧ s.status 9 9 = 1 then s.trap cCANCEL_REQ 0 0
  else
    let ea := s.gN a
    if unmapped ea then s.trap cUNMAPPED ea 0
    else match s.place s.cur.core ea with
      | .error c => s.trap c ea 0
      | .ok _ => match s.objLoc ea with
        | none => s.trap cCOMPLETION ea 0
        | some loc =>
          if s.tainted loc 16 then s.trap cUE ea 0
          else if s.objIdle loc then .next (((s.undrain.setGN d (s.objWord loc)).advance).acquire)
          else match s.myCtx.task with
            | none =>
              let t : State := { s with cwaits := s.cwaits ++ [(loc, false, s.cur.core, s.cur.ctx)] }
              .next (t.stall (.object d.val loc s.cur))
            | some (cl, rid) =>
              let r := s.leaveGate s.cur.core s.cur.ctx s.pc
              if !r.2 then .next r.1.waitAll
              else
                let t : State := { r.1 with cwaits := r.1.cwaits ++ [(loc, true, cl, rid)] }
                .next (t.parkTask s.cur.core s.cur.ctx (.inCwait d.val loc s.cur) false)

end Sys2Proof.Machine
end

