-- ==== Sys2Proof/Machine/Engine.lean ====
section
/-! DEFINITION. Machine/Engine.lean: tile commands in general: places and checks (R116, R162), capture and issue (R141),
completion objects (R146), the writes of a command and the ownership of their destinations (R162, R231 to R235), and how a
command ends (R143, R159). -/
namespace Sys2Proof.Machine

/-- Which of a core's two queues a command goes through (R142). -/
def CmdOp.isCopy : CmdOp → Bool
  | .tcopy .. => true
  | .tgather .. => true
  | .tscatter .. => true
  | .tmcast .. => true
  | .tfill .. => true
  | .shelfput .. => true
  | .shelfclose .. => true
  | .bytes .. => true
  | _ => false

/-- A self-window address as the near address of the same byte of a core's private memory. -/
def State.nearForm (s : State) (core va : Nat) : Nat :=
  if bits va 63 56 = 9 ∧ bits va 55 0 < 0x40000 then coreVa (s.sysCore core) + bits va 55 0 else va

/-- A near address of this package as its cluster, unit and offset. -/
def nearParts (va : Nat) : Nat × Nat × Nat := (bits va 45 44 * 128 + bits va 43 37, bits va 36 33, bits va 32 0)

/-- Whether a byte may be read and written by engine commands of a context, as far as its issue can tell: steps 1 and 3 to 5 of R116,
then R162 and R194: the failing cause. The control context's own PM system area passes step 4 and fails R162, which names no cause for it
(DESIGN CHOICE, log entry 118). -/
def State.copyBar (s : State) (core ctx va : Nat) : Option Nat :=
  if unmapped va then some cUNMAPPED
  else match s.place core va with
    | .error c => some c
    | .ok .global => none
    | .ok (.away _) => some (if bits va 36 33 < 8 ∧ 0x30000 ≤ bits va 32 0 then cPROTECTION else cCOPY_TARGET)
    | .ok (.unit cl u off) =>
      if u < 8 then
        (if off < 0x30000 then none else some (if ctx = 0 ∧ coreOfUnit cl u = core then cCOPY_TARGET else cPROTECTION))
      else if u = 9 then some cCOPY_TARGET
      else if 0x3F8000 ≤ off then some cPROTECTION
      else if cl = clusterOf core ∧ s.bankMode cl off = 1 then some cBANK_CONFLICT
      else if s.bankMode cl off = 2 then some cCOPY_TARGET
      else none

/-- The same where the engine reaches the byte (R116, R162, R308): also the mode of another cluster's bank, a fenced cluster
and the partition of the cluster. -/
def State.engineBar (s : State) (core ctx part va : Nat) : Option Nat :=
  match s.copyBar core ctx va with
  | some c => some c
  | none =>
    if bits va 59 56 = 8 then
      let (cl, u, off) := nearParts va
      if (s.cluster cl).fenced then some cNEAR_ABSENT
      else if s.partOfCluster cl ≠ some part then some cPROTECTION
      else if u = 8 ∧ s.bankMode cl off = 1 then some cBANK_CONFLICT
      else none
    else none

/-- What a command finds when it reads: it waits for a held line, it fails with a cause at an address, or bytes. -/
inductive Got where
  | wait
  | fail (cause addr : Nat)
  | got (s : State) (bs : List Byte) (bad : List Nat)
  deriving DecidableEq, Repr

/-- Bytes within one line read by command `id` of a core (R231, R233): `bar` says what may be read. A read that needs the page walker
waits for the requests before it (R330). -/
def State.engineLine (s : State) (id part va n : Nat) (bar : Nat → Option Nat) : Got :=
  match bar va with
  | some c => .fail c va
  | none =>
    if s.heldByOther id (granKey part va) then .wait
    else match vaLoc va with
      | some loc => .got s (s.rd loc n) (s.badAt loc n)
      | none =>
        if !s.walkTurn part va .read then .wait
        else match s.agentFetch part va n with
          | .error (c, _) => .fail c va
          | .ok (t, bs, bad) => .got t bs bad

/-- Bytes read line by line. -/
def State.engineRead (s : State) (id part va n : Nat) (bar : Nat → Option Nat) : Got :=
  (linesOf va n).foldl (fun acc a => match acc with
    | .got t bs bad => match t.engineLine id part a (inLine va n a) bar with
      | .got u more bad' => .got u (bs ++ more) (bad ++ bad'.map (· + bs.length))
      | g => g
    | g => g) (.got s [] [])

/-- The parts of a write, read in order. -/
def State.engineSrcs (s : State) (id part : Nat) (srcs : List Src) (bar : Nat → Option Nat) : Got :=
  srcs.foldl (fun acc x => match acc with
    | .got t bs bad => match x with
      | .data more bad' => .got t (bs ++ more) (bad ++ bad'.map (· + bs.length))
      | .at_ va n => match t.engineRead id part va n bar with
        | .got u more bad' => .got u (bs ++ more) (bad ++ bad'.map (· + bs.length))
        | g => g
    | g => g) (.got s [] [])

/-- The size in bytes of an element of a format (R54, R55, R163). -/
def fmtBytes (f : Nat) : Nat := if f = 0 ∨ f = 7 then 4 else if f = 1 then 2 else if f = 8 then 8 else 1

/-- One element converted (R65, R163), RNE. -/
def convertElem (sf df x : Nat) : Nat :=
  let v := (if sf = 0 then fp32 else if sf = 1 then bf16 else if sf = 2 then e4m3 else e5m2).decode x
  if df = 0 then widen v
  else if df = 1 then (bf16.narrow false .rne v).1
  else if df = 2 then (e4m3.narrow true .rne v).1
  else (e5m2.narrow true .rne v).1

/-- The bytes of a write after conversion. -/
def convertBytes (sf df : Nat) (bs : List Byte) : List Byte :=
  if sf = df then bs
  else
    let k := fmtBytes sf
    ((List.range (bs.length / k)).map (fun i =>
      bytesOf (fmtBytes df) (convertElem sf df (natOf ((bs.drop (k * i)).take k))))).flatten

/-- The pieces of `n` bytes to an address, `count` bytes into a command's write order: offsets and lengths, cut at lines and
at segments (R232). -/
def cuts : Nat → Nat → Nat → Nat → Nat → List (Nat × Nat)
  | 0, _, _, _, _ => []
  | fuel + 1, dst, count, off, n =>
    if n = 0 then []
    else
      let k := Nat.min n (Nat.min (64 - dst % 64) (2 ^ 18 - count % 2 ^ 18))
      (off, k) :: cuts fuel (dst + k) (count + k) (off + k) (n - k)

/-- The writes of `n` bytes in a row, the source of each piece given by its offset and length. -/
def rowChunks (dest count dst n : Nat) (src : Nat → Nat → Src) : List Chunk :=
  (cuts n dst count 0 n).map (fun p =>
    { va := (dst + p.1) % 2 ^ 64, dest := dest, n := p.2, parts := [src p.1 p.2], sf := 0, df := 0,
      seg := (count + p.1) / 2 ^ 18, loose := [] })

/-- The writes of bytes at hand. -/
def dataChunks (dest count dst : Nat) (bs : List Byte) (bad : List Nat) : List Chunk :=
  rowChunks dest count dst bs.length (fun o k =>
    .data ((bs.drop o).take k) ((bad.filter (fun i => decide (o ≤ i) && decide (i < o + k))).map (· - o)))

/-- The writes of a copy of `n` bytes. -/
def copyChunks (dest count dst src n : Nat) : List Chunk :=
  rowChunks dest count dst n (fun o k => .at_ ((src + o) % 2 ^ 64) k)

/-- A source part joined to the part before it when it goes on from there. -/
def joinSrc (ps : List Src) (va n : Nat) : List Src :=
  match ps.getLast? with
  | some (.at_ a m) => if a + m = va then ps.dropLast ++ [.at_ a (m + n)] else ps ++ [.at_ va n]
  | _ => ps ++ [.at_ va n]

/-- An element's write joined to the write before it within one line, or a write of its own; newest first (R163). -/
def addElem (sf df count dst src : Nat) (acc : List Chunk) : List Chunk :=
  let n := fmtBytes df
  match acc with
  | c :: t =>
    if c.va + c.n = dst ∧ c.va / 64 = (dst + n - 1) / 64 ∧ c.seg = count / 2 ^ 18 then
      { c with n := c.n + n, parts := joinSrc c.parts src (fmtBytes sf) } :: t
    else { va := dst, dest := 0, n := n, parts := [.at_ src (fmtBytes sf)], sf := sf, df := df, seg := count / 2 ^ 18,
           loose := [] } :: acc
  | [] => [{ va := dst, dest := 0, n := n, parts := [.at_ src (fmtBytes sf)], sf := sf, df := df, seg := count / 2 ^ 18,
             loose := [] }]

/-- The writes of a copy with those bytes marked that its sources also name: their contents are undefined (R162). -/
def markLoose (cs : List Chunk) : List Chunk :=
  let srcs := cs.flatMap (fun c => c.parts.filterMap (fun p => match p with
    | .at_ va n => some (va, n)
    | .data _ _ => none))
  cs.map (fun c => { c with loose := (List.range c.n).filter (fun i =>
    srcs.any (fun p => decide (p.1 ≤ c.va + i) && decide (c.va + i < p.1 + p.2))) })

/-- The bytes that a write leaves at a location that holds `now`: those at given places are undefined (R9, R162). -/
def State.loosen (s : State) (loc : Nat) (loose : List Nat) (now bs : List Byte) : List Byte :=
  if loose = [] then bs
  else (List.range bs.length).map (fun i =>
    let l := now.getD i 0 :: s.olds (loc + i)
    if loose.contains i then l.getD (Config.freeNat (s.free + i) % l.length) 0 else bs.getD i 0)

/-- The keys of the lines and granules that a write touches. -/
def Chunk.keys (part : Nat) (c : Chunk) : List Nat := (linesOf c.va c.n).map (granKey part)

/-- The keys of a command's current segment, ascending (R232). -/
def Cmd.segKeys (c : Cmd) : List Nat :=
  match c.todo with
  | [] => []
  | h :: _ => ((c.todo.filter (fun x => x.seg == h.seg && x.dest == h.dest)).flatMap (Chunk.keys c.part)).foldl
      (fun ks k => insertNat k ks) []

/-- Whether a command has acquired its last segment (R232). -/
def Cmd.acquired (c : Cmd) : Bool :=
  match c.todo with
  | [] => true
  | h :: t => t.all (fun x => x.seg == h.seg && x.dest == h.dest) && c.segKeys.all c.held.contains

def State.cmd? (s : State) (id : Nat) : Option Cmd := lookupId id s.running
def State.setCmd (s : State) (c : Cmd) : State := { s with running := putId c.id c s.running }

/-- Every context of a cluster that waits to execute its instruction again becomes READY. -/
def State.wakeCluster (s : State) (cl : Nat) : State := (List.range 8).foldl (fun t i => t.wakeCore (8 * cl + i)) s

/-- The cluster whose units hold a granule of near space, by its key. -/
def keyCluster (key : Nat) : Option Nat :=
  if key < 2 ^ 70 then none
  else
    let loc := (key - 2 ^ 70) * 64
    some (bits loc 45 44 * 128 + bits loc 43 37)

/-- A line or granule is released when no further write of the command's segment goes to it (R232). -/
def State.releaseHeld (s : State) (id : Nat) : State :=
  match s.cmd? id with
  | none => s
  | some c =>
    let flying := s.flights.filterMap (fun f => match f.2 with
      | .engWrite w => if w.cmd = id then some (granKey w.part w.va) else none
      | _ => none)
    let keep := c.held.filter (fun k => flying.contains k || c.segKeys.contains k)
    if keep = c.held then s
    else (c.held.filter (fun k => !keep.contains k)).foldl (fun t k => match keyCluster k with
      | some cl => t.wakeCluster cl
      | none => t) (s.setCmd { c with held := keep })

/-- A word computed from the word that a location held: poison stays with it (R365). -/
def State.rewrite (s : State) (loc v : Nat) : State := (s.wr loc (bytesOf 8 v)).poisonAt loc (if s.tainted loc 8 then [0] else [])

/-- The 16 bytes of a completion object changed (R144, R146): bytes and commands added, modulo their widths. -/
def State.objAdd (s : State) (loc bytes cmds : Nat) : State :=
  let w := natOf (s.rd loc 8)
  s.rewrite loc ((bits w 47 0 + bytes) % 2 ^ 48 + (bits w 63 48 + cmds) % 2 ^ 16 * 2 ^ 48)

/-- A failure entered in a completion object (R144, R146). -/
def State.objFail (s : State) (loc cause dmask : Nat) : State :=
  let w := natOf (s.rd (loc + 8) 8)
  let w := if bitOf w 0 then w else setBits (setBits w 9 1 cause) 0 0 1
  s.rewrite (loc + 8) (setBits w 25 10 (bits w 25 10 ||| dmask))

/-- An update of a command's completion object, if it has one: bytes and commands taken off. -/
def State.cwTake (s : State) (c : Cmd) (bytes cmds : Nat) : State :=
  match c.cw with
  | .obj va => match vaLoc va with
    | some loc => s.objAdd loc (2 ^ 48 - bytes % 2 ^ 48) (2 ^ 16 - cmds)
    | none => s
  | _ => s

/-- A command's failure at one destination (R143, R146, R162): the writes to it that are left are dropped, and their bytes
with `lost` more are taken off at once. -/
def State.cmdFail (s : State) (id dest cause addr lost : Nat) : State :=
  match s.cmd? id with
  | none => s
  | some c =>
    let gone := (c.todo.filter (fun x => x.dest == dest)).map (·.n)
    let dm := match c.op with
      | .tmcast .. => 2 ^ dest
      | _ => 0
    let c' := { c with todo := c.todo.filter (fun x => x.dest != dest), failed := some (c.failed.getD (cause, addr)),
                       dmask := c.dmask ||| dm }
    let t := (s.setCmd c').cwTake c (lost + gone.sum) 0
    (match c.cw with
      | .obj va => match vaLoc va with
        | some loc => t.objFail loc cause dm
        | none => t
      | _ => t).releaseHeld id

/-- A running command acquires its next line or granule, or reads the sources of its next write and sends it (R231 to
R233). -/
def State.engineMove (s : State) (id : Nat) : State :=
  match s.cmd? id with
  | none => s
  | some c =>
    match c.todo with
    | [] => s
    | h :: rest =>
      match c.segKeys.find? (fun k => !c.held.contains k) with
      | some k => if s.heldByOther id k then s else s.setCmd { c with held := c.held ++ [k] }
      | none =>
        match s.engineSrcs id c.part h.parts (fun va => s.engineBar c.core c.ctx c.part va) with
        | .wait => s
        | .fail cause addr => s.cmdFail id h.dest cause addr 0
        | .got t bs bad =>
          if h.sf ≠ h.df ∧ bad ≠ [] then s.cmdFail id h.dest cUE (bad.headD 0 + h.va) 0
          else
            let bs := convertBytes h.sf h.df bs
            (linesOf h.va h.n).foldl (fun u a =>
              let o := a - h.va
              let k := inLine h.va h.n a
              let here := fun (l : List Nat) => (l.filter (fun i => decide (o ≤ i) && decide (i < o + k))).map (· - o)
              u.launchFlight (.engWrite
                { cmd := id, part := c.part, va := a, dest := h.dest, bytes := (bs.drop o).take k, bad := here bad,
                  loose := here h.loose })) (t.setCmd { c with todo := rest })

/-- An engine's write performed at its destination, or the cause of its failure. -/
def State.enginePut (s : State) (core ctx : Nat) (w : EngWrite) : Except Nat State :=
  let n := w.bytes.length
  let drawn := fun (t : State) => if w.loose = [] then t else { t with free := t.free + n }
  match s.engineBar core ctx w.part w.va with
  | some c => .error c
  | none => match vaLoc w.va with
    | some loc =>
      let (cl, u, off) := nearParts w.va
      .ok (drawn ((s.nearWr cl u off (s.loosen loc w.loose (s.rd loc n) w.bytes)).poisonAt loc w.bad))
    | none => match s.translate w.part w.va .write with
      | .error (c, _) => .error c
      | .ok (t, pa, uc) =>
        let bs := t.loosen (l2Key w.part pa) w.loose (t.gRd w.part pa uc n) w.bytes
        .ok (drawn ((t.gPut w.part w.va pa uc bs).poisonAt pa w.bad))

/-- Whether a write must wait: for an earlier write of its command to the same line (R164, R232), or for the requests that the page walker
has before it (R330). -/
def State.writeWaits (s : State) (id : Nat) (w : EngWrite) : Bool :=
  (s.flights.takeWhile (fun f => f.1 != id)).any (fun f => match f.2 with
    | .engWrite x => x.cmd == w.cmd && x.va / 64 == w.va / 64
    | _ => false) || ((vaLoc w.va).isNone && !s.walkTurn w.part w.va .write)

/-- ENGINE_WRITE_ACKNOWLEDGEMENT (R146): the write is performed and acknowledged, or fails where it arrives. -/
def State.engineWriteDone (s : State) (id : Nat) : State :=
  match lookupId id s.flights with
  | some (.engWrite w) =>
    match s.cmd? w.cmd with
    | none => s.dropFlight id
    | some c =>
      if s.writeWaits id w then s
      else match s.enginePut c.core c.ctx w with
      | .error cause => (s.dropFlight id).cmdFail w.cmd w.dest cause w.va w.bytes.length
      | .ok t => ((t.dropFlight id).cwTake c w.bytes.length 0).releaseHeld w.cmd
  | _ => s

/-- Whether a flight belongs to a command that is not finished before it lands. -/
def Flight.ofCmd (id : Nat) : Flight → Bool
  | .engWrite w => w.cmd == id
  | .accum a => a.back == .cmd id
  | .refusal a => a.back == .cmd id
  | .ack b _ _ => b == .cmd id
  | .msg m => m.drain == some id
  | _ => false

/-- A failed command reported without a completion word, or for a format (R73, R143): posted, and the issuing context becomes HELD at its
next instruction boundary. -/
def State.holdFor (s : State) (c : Cmd) (cause addr : Nat) : State := s.holdFailed c.core c.ctx cause addr c.pc

/-- The future of a completion word or of a drain of a core made final as RESOLVE or POISON does, its status discarded (R143, R159). -/
def State.finishFuture (s : State) (core part h st v : Nat) : State :=
  if hOk h ∧ hPart h = part then s.sendFinish core h st v else s

/-- A drain that will send no wake poisons the future that it names (R159). -/
def State.drainFailed (s : State) (c : Cmd) (cause : Nat) : State :=
  match c.op with
  | .mdrain _ _ _ _ 1 x _ _ => s.finishFuture c.core c.part x fFAULTED cause
  | .mquant _ _ _ 1 x _ _ _ _ _ _ => s.finishFuture c.core c.part x fFAULTED cause
  | _ => s

/-- The counter of a command's queue (R28). -/
def CmdOp.cnt (op : CmdOp) : Cnt := if op.isCopy then .cp else .tl

/-- The counter that falls with a command's report: AT for ACCT, whose TL falls when its lines are sent (R257). -/
def CmdOp.last (op : CmdOp) : Cnt :=
  match op with
  | .acct .. => .at_
  | op => op.cnt

/-- ERRS of a queue's descriptor raised by one (R292, R295); a descriptor that cannot be reached is left. -/
def State.bumpErrs (s : State) (part q : Nat) : State :=
  let va := (s.part part).cqBase + 64 * q + 0x38
  match s.agentRead part va 4 with
  | .error _ => s
  | .ok (t, bs) => match t.agentWrite part va (bytesOf 4 (natOf bs + 1)) with
    | .error _ => t
    | .ok u => u

/-- A command whose writes have all landed or failed is reported and leaves (R143, R146, R159). -/
def State.reportCmd (s : State) (c : Cmd) : State :=
  let t : State := { s with running := dropId c.id s.running }
  match c.owner with
  | .ctx =>
    let t := t.cwTake c 0 1
    let t := match c.failed with
      | none => (match c.cw with
        | .fut h => t.finishFuture c.core c.part h fRESOLVED 0
        | _ => t)
      | some (cause, addr) =>
        let t := t.drainFailed c cause
        let t := match c.cw with
          | .fut h => t.finishFuture c.core c.part h fFAULTED cause
          | _ => t
        if c.cw = CWord.none ∨ cause = cFORMAT_CODE ∨ cause = cFORMAT_SCALE then t.holdFor c cause addr else t
    (t.setCntAt c.core c.ctx c.op.last (t.cntAt c.core c.ctx c.op.last - 1)).wakeCluster (clusterOf c.core)
  | .queue part q _ => (if c.failed.isSome then t.bumpErrs part q else t).wakeCluster (clusterOf c.core)
  | .task _ _ => t

/-- A scheduler's prefetch, whose end is PREFETCH_DONE's (R198). -/
def Owner.isTask : Owner → Bool
  | .task _ _ => true
  | _ => false

/-- COMMAND_COMPLETION (R143): nothing while writes, shelves or a wake are left; then the wake of a drain (R159); then the
report. -/
def State.cmdComplete (s : State) (id : Nat) : State :=
  match s.cmd? id with
  | none => s
  | some c =>
    if c.todo ≠ [] ∨ s.flights.any (fun f => f.2.ofCmd id) ∨ c.shelves ≠ [] ∨ c.owner.isTask then s
    else match c.wake, c.failed with
      | some m, none => (s.setCmd { c with wake := none }).launchFlight (.msg m)
      | _, _ => s.reportCmd c

/-- ENGINE_WRITE_ACKNOWLEDGEMENT (R146, R235). -/
def execEngineWriteAcknowledgement (id : Nat) (s : State) : Host.Outcome State Fault Refusal :=
  .next (s.engineWriteDone id)

/-- COMMAND_COMPLETION (R143). -/
def execCommandCompletion (id : Nat) (s : State) : Host.Outcome State Fault Refusal := .next (s.cmdComplete id)

/-- A completion operand captured (R141 step 2). -/
def State.cword (s : State) (cw : Completion) : CWord :=
  match cw with
  | .none => .none
  | .obj g => .obj (s.gN g)
  | .fut g => .fut (s.gN g)

/-- A completion word as a command keeps it: a self-window address by its near address. -/
def State.nearCw (s : State) (cw : CWord) : CWord :=
  match cw with
  | .obj va => .obj (s.nearForm s.cur.core va)
  | w => w

/-- The location of the object that a completion word names; `none` when the check of R145 fails. -/
def State.cwLoc (s : State) (cw : CWord) : Option (Option Nat) :=
  match cw with
  | .obj va => (s.objLoc va).map some
  | _ => some none

/-- A new command of the executing context (R141). -/
def State.newCmd (s : State) (cw : CWord) (op : CmdOp) (bytes : Nat) : Cmd :=
  { id := s.nextId, core := s.cur.core, ctx := s.cur.ctx, pc := s.pc, part := s.partOf s.cur.core,
    pri := s.status 11 10, since := s.clock, cw := cw, bytes := bytes, fmt := .reset, op := op, owner := .ctx, todo := [],
    failed := none, dmask := 0, wake := none, shelves := [], held := [] }

/-- A command put in its queue of the executing core. -/
def State.pushCmd (s : State) (c : Cmd) : State :=
  let t : State := { s with nextId := s.nextId + 1 }
  if c.op.isCopy then t.setMe { t.me with copyQ := t.me.copyQ ++ [c] } else t.setMe { t.me with matQ := t.me.matQ ++ [c] }

/-- Whether a queue of the executing core is full (R141 step 5). -/
def State.queueFull (s : State) (op : CmdOp) : Bool :=
  decide (16 ≤ (if op.isCopy then s.me.copyQ else s.me.matQ).length)

/-- Steps 4 to 6 of R141 for a counted command: the completion object, the wait for room, the count and the queue; `k` goes
on with the command's number. -/
def State.enqueue (s : State) (cw : CWord) (op : CmdOp) (bytes : Nat) (k : Nat → State → State) : State :=
  match s.cwLoc cw with
  | none => s.takeTrap cCOMPLETION (match cw with
    | .obj va => va
    | _ => 0) 0
  | some loc =>
    if s.queueFull op ∨ 63 ≤ s.cnt op.cnt ∨ loc.any (fun l => s.nearHeld l 16) then s.stall .retry
    else
      let t := s.setCnt op.cnt (s.cnt op.cnt + 1)
      let t := match loc with
        | some l => t.objAdd l bytes 1
        | none => t
      k s.nextId (t.pushCmd (s.newCmd (s.nearCw cw) op bytes))

/-- The same for a command whose context goes on. -/
def State.issueCmd (s : State) (cw : CWord) (op : CmdOp) (bytes : Nat) : State :=
  s.enqueue cw op bytes (fun _ t => t.advance)

/-- The first failing issue check, in order: cause and address. -/
def firstBad : List (Option (Nat × Nat)) → Option (Nat × Nat)
  | [] => none
  | some x :: _ => some x
  | none :: t => firstBad t

/-- A check with its cause and address. -/
def barIf (b : Bool) (cause addr : Nat) : Option (Nat × Nat) := if b then some (cause, addr) else none

/-- A tile command with issue checks (R141 step 3), then its capture and issue. -/
def State.tileCmd (s : State) (checks : List (Option (Nat × Nat))) (cw : Completion) (op : CmdOp) (bytes : Nat) :
    Host.Outcome State Fault Refusal :=
  s.unitGate (match firstBad checks with
    | some (c, a) => s.trap c a 0
    | none => .next (s.issueCmd (s.cword cw) op bytes))

/-- The checks of R116 on the first byte of a range, with an alignment, then those of R162. -/
def State.rangeBar (s : State) (va align : Nat) : Option (Nat × Nat) :=
  if unmapped va then some (cUNMAPPED, va)
  else if va % align ≠ 0 then some (cMISALIGNED, va)
  else (s.copyBar s.cur.core s.cur.ctx va).map (fun c => (c, va))

/-- The next command of a queue is at its head from now on (R240). -/
def headSince (clock : Nat) : List Cmd → List Cmd
  | [] => []
  | c :: t => { c with since := clock } :: t

/-- Whether every command of a core's matrix queue that has started has acquired its last segment (R232). -/
def State.matTurn (s : State) (core : Nat) : Bool :=
  s.running.all (fun r => r.2.core != core || r.2.op.isCopy || decide (r.2.owner ≠ .ctx) || r.2.acquired)

/-- The head of a core's matrix queue leaves it, and contexts that wait for room go on. -/
def State.popMat (s : State) (core : Nat) : State :=
  let c := s.core core
  (s.setCore core { c with matQ := headSince s.clock (c.matQ.drop 1) }).wakeCore core

/-- The same for the copy queue. -/
def State.popCopy (s : State) (core : Nat) : State :=
  let c := s.core core
  (s.setCore core { c with copyQ := headSince s.clock (c.copyQ.drop 1) }).wakeCore core

/-- A command in execution. -/
def State.runCmd (s : State) (c : Cmd) : State := { s with running := s.running ++ [(c.id, c)] }

/-- A command in execution that has failed before any write. -/
def State.runFailed (s : State) (c : Cmd) (cause addr : Nat) : State :=
  (s.runCmd c).cmdFail c.id 0 cause addr c.bytes

end Sys2Proof.Machine
end

