-- ==== Sys2Proof/Machine/Matrix.lean ====
section
/-! DEFINITION. Machine/Matrix.lean: the matrix commands (R148 to R161, R250, R251, R257), the format context, the arbiter and
the wedge (R238 to R246), and the arithmetic of matrix operations (R75, R76, R154). -/
namespace Sys2Proof.Machine

/-- The location of an accumulator row (R148). -/
def accRow (cl t r : Nat) : Nat := nearLoc cl 9 (t * 0x10000 + 512 * r)

/-- The group of a row of a tile (R148). -/
def State.rowGroup (s : State) (cl t r : Nat) : RowGroup := Tbl.get RowGroup.reset (s.cluster cl).groups (8 * t + r / 16)
def State.setGroup (s : State) (cl n : Nat) (g : RowGroup) : State :=
  s.setCluster cl { s.cluster cl with groups := Tbl.set RowGroup.reset (s.cluster cl).groups n g }

/-- Whether a row is lent to a core (R148, R150). -/
def State.rowHeld (s : State) (core t r : Nat) : Bool :=
  let g := s.rowGroup (clusterOf core) t r
  g.holder == some (core % 8) && g.mine

/-- The accumulator rows that a command reads or writes (R142), from row 128 t + r on: first rows and counts. -/
def CmdOp.rows (op : CmdOp) : List (Nat × Nat) :=
  match op with
  | .malloc _ t g0 ng _ _ => [(128 * t + 16 * g0, 16 * (ng + 1))]
  | .mfree t g0 ng => [(128 * t + 16 * g0, 16 * (ng + 1))]
  | .mzero t row0 nr => [(128 * t + row0, nr + 1)]
  | .mma t shp row0 nr _ _ _ _ => [(128 * t + row0 * 2 ^ shp, (nr + 1) * 2 ^ shp)]
  | .gmma t nt _ _ _ _ _ _ => [(128 * t, 128 * (nt + 1))]
  | .mdrain t row0 nr _ _ _ _ _ => [(128 * t + row0, nr + 1)]
  | .mquant t row0 nr _ _ _ _ _ _ _ _ => [(128 * t + row0, nr + 1)]
  | .mrank ts t row0 nr srow0 _ _ => [(128 * t + row0, nr + 1), (128 * ts + srow0, nr + 1)]
  | .mthr row0 t _ _ => [(128 * t + row0, 16)]
  | .acct t row0 nr _ _ _ => [(128 * t + row0, nr + 1)]
  | _ => []

/-- Whether two lists of rows meet. -/
def rowsMeet (a b : List (Nat × Nat)) : Bool :=
  a.any (fun x => b.any (fun y => decide (x.1 < y.1 + y.2) && decide (y.1 < x.1 + x.2)))

/-- The rows of a list one by one, as tile and row. -/
def eachRow (rs : List (Nat × Nat)) : List (Nat × Nat) :=
  rs.flatMap (fun p => (List.range p.2).map (fun i => ((p.1 + i) / 128, (p.1 + i) % 128)))

/-- Whether every row that a command names is lent to the executing core. -/
def State.rowsHeld (s : State) (op : CmdOp) : Bool := (eachRow op.rows).all (fun p => s.rowHeld s.cur.core p.1 p.2)

/-- Whether every row of some is of kinds that pass a test. -/
def State.rowKinds (s : State) (rs : List (Nat × Nat)) (ok : Nat → Bool) : Bool :=
  (eachRow rs).all (fun p => ok (s.rowGroup (clusterOf s.cur.core) p.1 p.2).kind)

/-- The format context that a command of the executing core issued now will meet: that of the last MFMT in its queue, or the
core's (R153). -/
def State.comingFmt (s : State) : FmtCtx :=
  s.me.matQ.foldl (fun f c => match c.op with
    | .mfmt accm rc bf af aS aB bS bB => { accm := accm, rc := rc, bf := bf, af := af, aS := aS, aB := aB, bS := bS, bB := bB }
    | _ => f) s.me.fmt

/-- The class of a format (R153): 0 for none. -/
def fmtClass (f : Nat) : Nat := if f = 1 then 1 else if f = 2 ∨ f = 3 then 2 else if f = 4 ∨ f = 5 then 3 else if f = 6 then 4 else 0

/-- The number of a rounding mode (R58). -/
def rcNum : RoundMode → Nat
  | .rne => 0
  | .rtz => 1
  | .rdn => 2
  | .rup => 3

/-- An uncounted command put in the queue when there is room (R141). -/
def State.pushPlain (s : State) (op : CmdOp) (k : Nat → State → State) : State :=
  if s.queueFull op then s.stall .retry else k s.nextId (s.pushCmd (s.newCmd .none op 0))

/-- MFMT (R153). -/
def execMfmt (accm : Bool) (rc : RoundMode) (bf af : Fin 16) (gAS gAB gBS gBB : GReg) (s : State) :
    Host.Outcome State Fault Refusal :=
  let fb := fun (f : Fin 16) => f.val == 5
  s.unitGate (match firstBad
      [barIf (decide (9 ≤ af.val) || decide (9 ≤ bf.val)) cFORMAT_CODE 0,
       barIf (fmtClass af.val == 0 || fmtClass af.val != fmtClass bf.val) cMATRIX_FORMAT 0,
       barIf (fb af && s.gN gAB % 2 != 0) cMISALIGNED (s.gN gAB), barIf (fb af && s.gN gAS % 8 != 0) cMISALIGNED (s.gN gAS),
       barIf (fb bf && s.gN gBB % 2 != 0) cMISALIGNED (s.gN gBB), barIf (fb bf && s.gN gBS % 8 != 0) cMISALIGNED (s.gN gBS)] with
    | some (c, a) => s.trap c a 0
    | none =>
      let n := fun r => s.nearForm s.cur.core (s.gN r)
      .next (s.pushPlain (.mfmt accm (rcNum rc) bf.val af.val (n gAS) (n gAB) (n gBS) (n gBB)) (fun _ t => t.advance)))

/-- The code of a group kind (R148). -/
def kindNum : GroupKind → Nat
  | .sum => 0
  | .isum => 1
  | .ranked => 2

/-- MALLOC (R149): the context is STALLED until the unit answers. -/
def execMalloc (d : GReg) (t g0 ng : Fin 8) (kind : GroupKind) (ks : Fin 4) (s : State) : Host.Outcome State Fault Refusal :=
  s.unitGate (if 7 < g0.val + ng.val then s.trap cMATRIX_SHAPE 0 0
    else .next (s.pushPlain (.malloc d.val t.val g0.val ng.val (kindNum kind) (kOf ks.val))
      (fun id u => u.stall (.reply id (.word d.val) s.cur))))

/-- MFREE (R150): the groups are no longer the core's own from its issue on. -/
def execMfree (t g0 ng : Fin 8) (s : State) : Host.Outcome State Fault Refusal :=
  let op : CmdOp := .mfree t.val g0.val ng.val
  let cl := clusterOf s.cur.core
  s.unitGate (if 7 < g0.val + ng.val then s.trap cMATRIX_SHAPE 0 0
    else if !s.rowsHeld op then s.trap cTILE_NOT_HELD 0 0
    else .next (s.pushPlain op (fun _ u => ((List.range (ng.val + 1)).foldl (fun v i =>
      let n := 8 * t.val + g0.val + i
      v.setGroup cl n { Tbl.get RowGroup.reset (v.cluster cl).groups n with mine := false }) u).advance)))

/-- MZERO (R151). -/
def execMzero (t : Fin 8) (row0 nr : Fin 128) (cw : Completion) (s : State) : Host.Outcome State Fault Refusal :=
  let op : CmdOp := .mzero t.val row0.val nr.val
  s.tileCmd [barIf (decide (127 < row0.val + nr.val)) cMATRIX_SHAPE 0, barIf (!s.rowsHeld op) cTILE_NOT_HELD 0] cw op 0

/-- Whether the matrix unit may read a byte as an operand for a context (R116 steps 1 and 3 to 5, R154, R194): the failing cause. -/
def State.operandBar (s : State) (core ctx va : Nat) : Option Nat :=
  if unmapped va then some cUNMAPPED
  else match s.place core va with
    | .error c => some c
    | .ok .global => none
    | .ok (.away _) => some (if bits va 36 33 < 8 ∧ 0x30000 ≤ bits va 32 0 then cPROTECTION else cMATRIX_PLACE)
    | .ok (.unit cl u off) =>
      if u < 8 ∧ 0x30000 ≤ off ∧ ¬(ctx = 0 ∧ coreOfUnit cl u = core) then some cPROTECTION
      else if u ≠ 8 ∨ cl ≠ clusterOf core then some cMATRIX_PLACE
      else if 0x3F8000 ≤ off then some cPROTECTION
      else if s.bankMode cl off = 1 then some cBANK_CONFLICT
      else none

/-- The issue checks of R154 on a base and its stride: the base's alignment, its place, the stride's alignment (DESIGN CHOICE, log entry
115). -/
def State.operandCheck (s : State) (va stride : Nat) : Option (Nat × Nat) :=
  if unmapped va then some (cUNMAPPED, va)
  else if va % 64 ≠ 0 then some (cMISALIGNED, va)
  else match s.operandBar s.cur.core s.cur.ctx va with
    | some c => some (c, va)
    | none => barIf (stride % 64 != 0) cMISALIGNED va

/-- The kind rule of R155 for the rows of an operation: ISUM for INT8, SUM for the float classes. -/
def State.kindOk (s : State) (op : CmdOp) : Bool :=
  s.rowKinds op.rows (fun k => k == (if s.comingFmt.af = 6 then 1 else 0))

/-- MMA (R155). -/
def execMma (t : Fin 8) (shp : Fin 4) (row0 nr : Fin 128) (gA gSA gB gSB : GReg) (cw : Completion) (s : State) :
    Host.Outcome State Fault Refusal :=
  let n := s.nearForm s.cur.core
  let op : CmdOp := .mma t.val shp.val row0.val nr.val (n (s.gN gA)) (s.gN gSA) (n (s.gN gB)) (s.gN gSB)
  s.tileCmd
    [barIf (decide (128 / 2 ^ shp.val ≤ row0.val + nr.val)) cMATRIX_SHAPE 0, barIf (!s.rowsHeld op) cTILE_NOT_HELD 0,
     barIf (!s.kindOk op) cTILE_KIND 0, s.operandCheck (s.gN gA) (s.gN gSA), s.operandCheck (s.gN gB) (s.gN gSB)] cw op 0

/-- GMMA (R156): the group table must be 16-byte aligned, and lie where a copy may read (DESIGN CHOICE, log entry 116). -/
def execGmma (t nt : Fin 8) (nw : Fin 4) (ng : Fin 64) (gA gSA gG gSB : GReg) (cw : Completion) (s : State) :
    Host.Outcome State Fault Refusal :=
  let n := s.nearForm s.cur.core
  let op : CmdOp := .gmma t.val nt.val nw.val ng.val (n (s.gN gA)) (s.gN gSA) (n (s.gN gG)) (s.gN gSB)
  s.tileCmd
    [barIf (decide (7 < t.val + nt.val)) cMATRIX_SHAPE 0, barIf (!s.rowsHeld op) cTILE_NOT_HELD 0,
     barIf (!s.kindOk op) cTILE_KIND 0, s.operandCheck (s.gN gA) (s.gN gSA), s.rangeBar (s.gN gG) 16,
     barIf (s.gN gSB % 64 != 0) cMISALIGNED (s.gN gG)] cw op 0

/-- The bytes that a row of a group drains to (R158). -/
def RowGroup.rowBytes (g : RowGroup) (df : Bool) : Nat := if g.kind = 2 then 8 * g.k else if df then 256 else 512

/-- The DST code and captured register of a drain (R158). -/
def State.drainDst (s : State) : DrainDst → Nat × Nat
  | .mem => (0, 0)
  | .fut x => (1, s.gN x)
  | .hnd x => (2, s.gN x)

/-- The issue checks of a drain on its destination, stride and DST (R158 items 3 to 5). -/
def State.drainChecks (s : State) (dst d sd : Nat) : List (Option (Nat × Nat)) :=
  [barIf (unmapped d) cUNMAPPED d, barIf (d % 64 != 0 || sd % 64 != 0) cMISALIGNED d,
   barIf (dst != 0 && !(bits d 59 56 == 8 && bits d 55 46 == s.pkgId && decide (bits d 36 33 < 8))) cDRAIN_TARGET d,
   (s.copyBar s.cur.core s.cur.ctx d).map (fun c => (c, d))]

/-- The range checks of R151. -/
def State.rangeChecks (s : State) (row0 nr : Nat) (op : CmdOp) : List (Option (Nat × Nat)) :=
  [barIf (decide (127 < row0 + nr)) cMATRIX_SHAPE 0, barIf (!s.rowsHeld op) cTILE_NOT_HELD 0]

/-- MDRAIN (R158). -/
def execMdrain (t : Fin 8) (row0 nr : Fin 128) (df : Bool) (dst : DrainDst) (gD gSD : GReg) (cw : Completion) (s : State) :
    Host.Outcome State Fault Refusal :=
  let x := s.drainDst dst
  let d := s.gN gD
  let op : CmdOp := .mdrain t.val row0.val nr.val df x.1 x.2 (s.nearForm s.cur.core d) (s.gN gSD)
  let bytes := ((eachRow op.rows).map (fun p => (s.rowGroup (clusterOf s.cur.core) p.1 p.2).rowBytes df)).sum
  s.tileCmd (s.rangeChecks row0.val nr.val op ++ [barIf (df && !s.rowKinds op.rows (· == 0)) cTILE_KIND 0] ++
    s.drainChecks x.1 d (s.gN gSD)) cw op bytes

/-- The number of bands of 64 rows among some (R70). -/
def bandsOf (rows : Nat) : Nat := (rows + 63) / 64

/-- MQUANT (R160). -/
def execMquant (t : Fin 8) (row0 nr : Fin 128) (dst : DrainDst) (qf : QuantFmt) (gD gSD : GReg) (cw : Completion) (s : State) :
    Host.Outcome State Fault Refusal :=
  let x := s.drainDst dst
  let d := s.gN gD
  let n := s.nearForm s.cur.core
  let rows := nr.val + 1
  match qf with
  | .fb4 gBS gBB gBAND =>
    let op : CmdOp := .mquant t.val row0.val nr.val x.1 x.2 3 (n (s.gN gBS)) (n (s.gN gBB)) (s.gN gBAND % 2 ^ 16) (n d) (s.gN gSD)
    s.tileCmd (s.rangeChecks row0.val nr.val op ++ s.drainChecks x.1 d (s.gN gSD) ++
      [barIf (!s.rowKinds op.rows (· == 0)) cTILE_KIND 0, barIf (x.1 != 0) cDRAIN_TARGET d,
       s.rangeBar (s.gN gBS) 16, s.rangeBar (s.gN gBB) 2, barIf (badBand (s.gN gBAND % 2 ^ 16)) cFORMAT_SCALE 0]) cw op
      (80 * rows + 2 * bandsOf rows)
  | q =>
    let code := if q = .e4m3 then 0 else if q = .e5m2 then 1 else 2
    let op : CmdOp := .mquant t.val row0.val nr.val x.1 x.2 code 0 0 0 (n d) (s.gN gSD)
    s.tileCmd (s.rangeChecks row0.val nr.val op ++ s.drainChecks x.1 d (s.gN gSD) ++
      [barIf (!s.rowKinds op.rows (· == 0)) cTILE_KIND 0]) cw op (128 * rows)

/-- MSYNC (R161). -/
def execMsync (s : State) : Host.Outcome State Fault Refusal := s.unitGate (.next s.msync.advance)

/-- MRANK (R250). -/
def execMrank (ts t : Fin 8) (row0 nr srow0 ncm : Fin 128) (gC : GReg) (cw : Completion) (s : State) :
    Host.Outcome State Fault Refusal :=
  let op : CmdOp := .mrank ts.val t.val row0.val nr.val srow0.val ncm.val (s.gN gC % 2 ^ 32)
  s.tileCmd
    [barIf (decide (127 < row0.val + nr.val) || decide (127 < srow0.val + nr.val)) cMATRIX_SHAPE 0,
     barIf (!s.rowsHeld op) cTILE_NOT_HELD 0,
     barIf (!(s.rowKinds (op.rows.take 1) (· == 2) && s.rowKinds (op.rows.drop 1) (· == 0))) cTILE_KIND 0] cw op 0

/-- MTHR (R251): the context is STALLED until the unit returns the result. -/
def execMthr (row0 : Fin 128) (t : Fin 8) (gF : GReg) (d : VReg) (cw : Completion) (s : State) :
    Host.Outcome State Fault Refusal :=
  let op : CmdOp := .mthr row0.val t.val gF.val d.val
  s.unitGate (match firstBad [barIf (decide (112 < row0.val)) cMATRIX_SHAPE 0, barIf (!s.rowsHeld op) cTILE_NOT_HELD 0] with
    | some (c, a) => s.trap c a 0
    | none => .next (s.enqueue (s.cword cw) op 0 (fun id u => u.stall (.reply id (.thresholds d.val gF.val) s.cur))))

/-- ACCT (R257): counted in TL and in AT. -/
def execAcct (t : Fin 8) (row0 nr : Fin 128) (df : Bool) (gD gSD : GReg) (cw : Completion) (s : State) :
    Host.Outcome State Fault Refusal :=
  let d := s.gN gD
  let op : CmdOp := .acct t.val row0.val nr.val df d (s.gN gSD)
  s.unitGate (match firstBad (s.rangeChecks row0.val nr.val op ++
      [barIf (!s.rowKinds op.rows (· == 0)) cTILE_KIND 0, barIf (unmapped d) cUNMAPPED d,
       barIf (d % 64 != 0 || s.gN gSD % 64 != 0) cMISALIGNED d,
       match s.addrR116 .store d 64 64 with
         | .error c => some (c, d)
         | .ok .global => none
         | .ok _ => some (cATOMIC_TARGET, d)]) with
    | some (c, a) => s.trap c a 0
    | none => .next (if 63 ≤ s.cnt .at_ ∧ (s.cwLoc (s.cword cw)).isSome then s.stall .retry
      else s.enqueue (s.cword cw) op ((nr.val + 1) * (if df then 256 else 512)) (fun _ u =>
        (u.setCnt .at_ (u.cnt .at_ + 1)).advance)))

/-- Wedge entries that hold a member of a core on some rows are released (R244). -/
def State.releaseRows (s : State) (core : Nat) (rs : List (Nat × Nat)) : State :=
  s.releaseWhere (clusterOf core) (fun e => e.members.any (fun m => m.core == core && rowsMeet m.op.rows rs))

/-- Whether no command of a core waits in the wedge on some rows (R142). -/
def State.rowsFree (s : State) (core : Nat) (rs : List (Nat × Nat)) : Bool :=
  (s.cluster (clusterOf core)).wedge.all (fun e => e.members.all (fun m => m.core != core || !rowsMeet m.op.rows rs))

/-- The full height and the width of a shape (R155). -/
def shapeH (shp : Nat) : Nat := 128 / 2 ^ shp
def shapeN (shp : Nat) : Nat := 128 * 2 ^ shp

/-- The rows of A of a wedge command, and its shape. -/
def Cmd.mmaRows (c : Cmd) : Nat :=
  match c.op with
  | .mma _ _ _ nr _ _ _ _ => nr + 1
  | _ => 0
def Cmd.mmaShp (c : Cmd) : Nat :=
  match c.op with
  | .mma _ shp _ _ _ _ _ _ => shp
  | _ => 0

/-- Whether a command goes to the wedge (R242). -/
def State.wedgeBound (s : State) (c : Cmd) : Bool :=
  match c.op with
  | .mma _ shp _ nr _ _ _ _ => decide (nr + 1 < shapeH shp) && (s.cluster (clusterOf c.core)).wedgeHold != 0
  | _ => false

/-- The key of a wedge command with its captured format context (R242). -/
def Cmd.wedgeKey (c : Cmd) : List Nat :=
  match c.op with
  | .mma _ shp _ _ _ _ b sb =>
    [b, sb, c.fmt.bf, c.fmt.af, shp, c.part] ++ (if c.fmt.bf = 5 then [c.fmt.bS, c.fmt.bB] else [])
  | _ => []

/-- The rows present in an entry. -/
def WedgeEnt.rows (e : WedgeEnt) : Nat := (e.members.map Cmd.mmaRows).sum

/-- A command with its format context captured, added to an entry (R241, R243). -/
def WedgeEnt.add (e : WedgeEnt) (c : Cmd) (clock : Nat) : WedgeEnt :=
  { e with members := e.members ++ [c], urgent := if c.pri = 3 then some (e.urgent.getD clock) else e.urgent }

/-- Whether the hold time of an entry, or the 32 clocks after its earliest priority-3 arrival, have passed (R244). -/
def WedgeEnt.due (e : WedgeEnt) (clock : Nat) : Bool :=
  decide (e.opened + e.hold ≤ clock) || (match e.urgent with
    | some u => decide (u + 32 ≤ clock)
    | none => false)

/-- Every entry whose time has passed is released (R244). -/
def State.releaseDue (s : State) (cl : Nat) : State := s.releaseWhere cl (fun e => e.due s.clock)

/-- A command reaches the wedge from the head of its queue, after the releases that are due (R243, R244). -/
def State.reachWedge (s : State) (core : Nat) (c : Cmd) : State :=
  let cl := clusterOf core
  let s := s.releaseDue cl
  let c := { c with fmt := (s.core core).fmt }
  let h := shapeH c.mmaShp
  let w := (s.cluster cl).wedge
  let fits := fun (e : WedgeEnt) => e.released.isNone && e.key == c.wedgeKey && decide (e.rows + c.mmaRows ≤ h)
  if w.any fits then
    let t := s.setCluster cl { s.cluster cl with wedge := w.map (fun e => if fits e then e.add c s.clock else e) }
    (t.releaseWhere cl (fun e => e.key == c.wedgeKey && decide (h ≤ e.rows))).popMat core
  else
    let s := s.releaseWhere cl (fun e => e.key == c.wedgeKey)
    let w := (s.cluster cl).wedge
    if w.length < 16 then
      let e : WedgeEnt := { key := c.wedgeKey, members := [], opened := s.clock, hold := (s.cluster cl).wedgeHold, urgent := none,
                            released := none }
      (s.setCluster cl { s.cluster cl with wedge := w ++ [e.add c s.clock] }).popMat core
    else if w.any (fun e => e.released.isSome) then s
    else match w with
      | e :: _ => s.releaseWhere cl (fun x => x.members == e.members)
      | [] => s

/-- WEDGE_HOLD_EXPIRY (R244). -/
def execWedgeHoldExpiry (cl entry : Nat) (s : State) : Host.Outcome State Fault Refusal :=
  match (s.cluster cl).wedge[entry]? with
  | some e => .next (if e.opened + e.hold ≤ s.clock then s.releaseWhere cl (fun x => x == e) else s)
  | none => .next s

/-- WEDGE_PRIORITY_RELEASE (R244). -/
def execWedgePriorityRelease (cl entry : Nat) (s : State) : Host.Outcome State Fault Refusal :=
  match (s.cluster cl).wedge[entry]? with
  | some e => .next (match e.urgent with
    | some u => if u + 32 ≤ s.clock then s.releaseWhere cl (fun x => x == e) else s
    | none => s)
  | none => .next s

/-- Groups of a tile, granted to a core or refused (R149). -/
def State.mallocAt (s : State) (core t g0 ng kind k : Nat) : State × Nat :=
  let cl := clusterOf core
  let gs := (List.range (ng + 1)).map (fun i => 8 * t + g0 + i)
  if gs.any (fun n => match (Tbl.get RowGroup.reset (s.cluster cl).groups n).holder with
      | some h => h != core % 8
      | none => false) then (s, 0)
  else (gs.foldl (fun u n =>
    (u.setGroup cl n { holder := some (core % 8), mine := true, kind := kind, k := if kind = 2 then k else 1, sat := false,
                       nan := false }).wrFree (nearLoc cl 9 (0x2000 * n)) 0x2000) s, 1)

/-- The empty state of a row of a group (R151), in the layout of its kind: 512 bytes, pairs first for RANKED. -/
def RowGroup.emptyRow (g : RowGroup) : List Byte :=
  if g.kind = 2 then placesOf g.k [] ++ List.replicate (512 - 8 * g.k) 0 else List.replicate 512 0

/-- MZERO's effect (R151). -/
def State.zeroRows (s : State) (cl t row0 nr : Nat) : State :=
  let u := (List.range (nr + 1)).foldl (fun u i => u.wr (accRow cl t (row0 + i)) (u.rowGroup cl t (row0 + i)).emptyRow) s
  (List.range 8).foldl (fun v g =>
    if row0 ≤ 16 * g ∧ 16 * g + 15 ≤ row0 + nr then
      v.setGroup cl (8 * t + g) { Tbl.get RowGroup.reset (v.cluster cl).groups (8 * t + g) with sat := false, nan := false }
    else v) u

/-- COMMAND_START in the matrix unit (R142, R240, R241): what takes effect at the head of a core's queue, or leaves it for the
wedge. -/
def State.startMatrix (s : State) (core : Nat) : State :=
  let cl := clusterOf core
  match (s.core core).matQ with
  | [] => s
  | c :: _ =>
    if !s.matTurn core then s
    else
    let s := s.releaseRows core c.op.rows
    match c.op with
    | .mfmt accm rc bf af aS aB bS bB =>
      let f : FmtCtx := { accm := accm, rc := rc, bf := bf, af := af, aS := aS, aB := aB, bS := bS, bB := bB }
      (s.setCore core { s.core core with fmt := f }).popMat core
    | op =>
      if !s.rowsFree core op.rows then s
      else match op with
        | .malloc _ t g0 ng kind k =>
          let r := s.mallocAt core t g0 ng kind k
          let u : State := { r.1 with flights := r.1.flights ++ [(c.id, .reply (.ctx c.core c.ctx) (.data r.2))] }
          u.popMat core
        | .mfree t g0 ng =>
          if s.running.any (fun x => x.2.core == core && rowsMeet x.2.op.rows op.rows) then s
          else ((List.range (ng + 1)).foldl (fun u i =>
            u.setGroup cl (8 * t + g0 + i) { Tbl.get RowGroup.reset (u.cluster cl).groups (8 * t + g0 + i) with holder := none })
            s).popMat core
        | .mzero t row0 nr =>
          ((s.zeroRows cl t row0 nr).runCmd c).popMat core
        | _ => if s.wedgeBound c then s.reachWedge core c else s

/-- The values of the 256 bytes of a float operand's vector (R154): block scales and band scale apply to FB4. -/
def opVals (f : Nat) (bs scales : List Byte) (band : Nat) : List FVal :=
  let byte (i : Nat) := (bs.getD i 0).toNat
  let nib (i : Nat) := e2m1.decode (byte (i / 2) / (if i % 2 = 0 then 1 else 16) % 16)
  if f = 1 then (List.range 128).map (fun i => bf16.decode (byte (2 * i) + 256 * byte (2 * i + 1)))
  else if f = 2 then (List.range 256).map (fun i => e4m3.decode (byte i))
  else if f = 3 then (List.range 256).map (fun i => e5m2.decode (byte i))
  else if f = 4 then (List.range 512).map nib
  else (List.range 512).map (fun i =>
    let sb := (mulFin (e3m5.magVal false (scales.getD (i / 8) 0).toNat) (bf16.decode band)).getD (.fin false 0 0)
    (mulFin (nib i) sb).getD (.fin false 0 0))

/-- The values of an INT8 vector. -/
def opInts (bs : List Byte) : List Int := bs.map (fun b => toSigned b.toNat 8)

/-- A decoded vector of an operand. -/
inductive OpVec where
  | flt (vs : List FVal)
  | int (vs : List Int)
  deriving DecidableEq, Repr

/-- What reading an operand gives: it waits, it fails, or its vectors. -/
inductive OpGot where
  | wait
  | fail (cause addr : Nat)
  | got (s : State) (vs : List OpVec)
  deriving DecidableEq, Repr

/-- Bytes that the tile fetch unit consumes (R154, R366). -/
def State.fetchTile (s : State) (core ctx part va n : Nat) : Got :=
  match s.engineRead s.nextId part va n (s.operandBar core ctx) with
  | .got t bs bad => if bad = [] then .got t bs [] else .fail cUE (va + bad.headD 0)
  | g => g

/-- One vector of an operand, number `i` of it (R71 to R73, R154): lines, then the band scale, then the block scales. The failing address
of a reserved block scale is that of the row's 64 scale bytes (DESIGN CHOICE, log entry 113). -/
def State.opVec (s : State) (core ctx part f va i sBase bBase : Nat) : OpGot :=
  match s.fetchTile core ctx part va 256 with
  | .wait => .wait
  | .fail c a => .fail c a
  | .got t bs _ =>
    if f = 6 then .got t [.int (opInts bs)]
    else if f ≠ 5 then .got t [.flt (opVals f bs [] 0)]
    else
      let ba := (bBase + 2 * (i / 64)) % 2 ^ 64
      let sa := (sBase + 64 * i) % 2 ^ 64
      match t.fetchTile core ctx part ba 2 with
      | .wait => .wait
      | .fail c a => .fail c a
      | .got t bb _ =>
        if badBand (natOf bb) then .fail cFORMAT_SCALE ba
        else match t.fetchTile core ctx part sa 64 with
          | .wait => .wait
          | .fail c a => .fail c a
          | .got t sc _ =>
            if sc.any (fun b => b.toNat == 0xFF) then .fail cFORMAT_CODE sa
            else .got t [.flt (opVals 5 bs sc (natOf bb))]

/-- The band scales of `n` vectors of an operand from number `i0` on, each read once (R72). -/
def State.opBands (s : State) (core ctx part f bBase i0 n : Nat) : OpGot :=
  if f ≠ 5 then .got s []
  else ((List.range n).filter (fun k => k == 0 || (i0 + k) % 64 == 0)).foldl (fun acc k => match acc with
    | .got t vs =>
      let ba := (bBase + 2 * ((i0 + k) / 64)) % 2 ^ 64
      match t.fetchTile core ctx part ba 2 with
      | .wait => .wait
      | .fail c a => .fail c a
      | .got t bb _ => if badBand (natOf bb) then .fail cFORMAT_SCALE ba else .got t vs
    | g => g) (.got s [])

/-- `n` vectors of an operand from number `i0` on: every band scale is checked before any block scale (R73). -/
def State.opVecs (s : State) (core ctx part f base stride sBase bBase i0 n : Nat) : OpGot :=
  (List.range n).foldl (fun acc k => match acc with
    | .got t vs => match t.opVec core ctx part f ((base + k * stride) % 2 ^ 64) (i0 + k) sBase bBase with
      | .got u more => .got u (vs ++ more)
      | g => g
    | g => g) (s.opBands core ctx part f bBase i0 n)

/-- An exact group sum rounded to FP32 (R75): an exact zero is +0. -/
def groupSum (ps : List (FVal × FVal)) : Nat :=
  match sumVals false (ps.map (fun p => mulFin p.1 p.2)) with
  | .fin _ 0 _ false => 0
  | r => (fp32.deliver false .rne r).1

/-- The groups of 32 of a list. -/
def groups32 {α : Type} (xs : List α) : List (List α) :=
  (List.range (xs.length / 32)).map (fun g => (xs.drop (32 * g)).take 32)

/-- An FP32 accumulator element after a row and a column (R75). -/
def macFloat (acc : Nat) (a b : List FVal) : Nat :=
  (groups32 (a.zip b)).foldl (fun x g => (fAdd .rne x (groupSum g)).1) acc

/-- An INT32 accumulator element after a row and a column, and whether an addition saturated (R76). -/
def macInt (acc : Int) (a b : List Int) : Int × Bool :=
  (groups32 (a.zip b)).foldl (fun x g =>
    let t := x.1 + (g.map (fun p => p.1 * p.2)).sum
    if t < -(2 ^ 31) then (-(2 ^ 31), true) else if 2 ^ 31 - 1 < t then (2 ^ 31 - 1, true) else (t, x.2)) (acc, false)

/-- One element of an operation: its new 32 bits, and whether it saturated. -/
def macElem (accm : Bool) (old : Nat) (a b : OpVec) : Nat × Bool :=
  match a, b with
  | .flt x, .flt y => (macFloat (if accm then 0 else old) x y, false)
  | .int x, .int y =>
    let r := macInt (if accm then 0 else toSigned old 32) x y
    (ofSigned r.1 32, r.2)
  | _, _ => (old, false)

/-- A row of A against every column of B, into consecutive elements from a linear element of a tile on (R155, R156). -/
def State.macRow (s : State) (cl t lin : Nat) (accm : Bool) (a : OpVec) (bs : List OpVec) : State :=
  let loc := nearLoc cl 9 (t * 0x10000 + 4 * lin)
  let rs := (List.range bs.length).map (fun j => macElem accm (natOf (s.rd (loc + 4 * j) 4)) a (bs.getD j (.flt [])))
  let u := s.wr loc ((rs.map (fun r => bytesOf 4 r.1)).flatten)
  (List.range bs.length).foldl (fun v j =>
    if ((rs.map (·.2)).getD j false) then
      let n := 8 * t + (lin + j) / 2048
      v.setGroup cl n { Tbl.get RowGroup.reset (v.cluster cl).groups n with sat := true }
    else v) u

/-- Whether an operation consumes a poisoned accumulator element (R246, R366). -/
def State.accTainted (s : State) (cl t lin n : Nat) (accm : Bool) : Bool :=
  !accm && s.tainted (nearLoc cl 9 (t * 0x10000 + 4 * lin)) (4 * n)

/-- One member of an MMA operation after B has been read (R155, R243, R246): the new state, or `none` while a line of its A is
held. -/
def State.runMember (s : State) (cl : Nat) (c : Cmd) (b : List OpVec) : Option State :=
  match c.op with
  | .mma t shp row0 nr a sa _ _ =>
    let n := shapeN shp
    match s.opVecs c.core c.ctx c.part c.fmt.af a sa c.fmt.aS c.fmt.aB 0 (nr + 1) with
    | .wait => none
    | .fail cause addr => some (s.runFailed c cause addr)
    | .got u as =>
      if u.accTainted cl t (row0 * n) ((nr + 1) * n) c.fmt.accm then some (u.runFailed c cUE 0)
      else some ((((List.range as.length).foldl (fun v i =>
        v.macRow cl t ((row0 + i) * n) c.fmt.accm (as.getD i (.flt [])) b) u).runCmd c))
  | _ => some s

/-- An MMA operation of one command, or the stacked operation of a wedge entry (R155, R243, R246). -/
def State.runMma (s : State) (cl : Nat) (ms : List Cmd) : Option State :=
  match ms with
  | [] => some s
  | c :: _ => match c.op with
    | .mma _ shp _ _ _ _ b sb =>
      match s.opVecs c.core c.ctx c.part c.fmt.bf b sb c.fmt.bS c.fmt.bB 0 (shapeN shp) with
      | .wait => none
      | .fail cause addr => some (ms.foldl (fun t m => t.runFailed m cause addr) s)
      | .got t bs => ms.foldl (fun acc m => acc.bind (fun u => u.runMember cl m bs)) (some t)
    | _ => some s

/-- A group of a GMMA ready to run: its rows of A, its B, and its first global row. -/
abbrev GGroup := List OpVec × List OpVec × Nat

/-- The operands of the groups of a GMMA, read before any element changes (R73, R156), group by group and B before A (DESIGN CHOICE, log
entry 114); `none` while a line is held. -/
def State.gmmaRead (s : State) (c : Cmd) (a sa sb w q : Nat) :
    List (Nat × Nat) → Except (Option (Nat × Nat)) (State × List GGroup)
  | [] => .ok (s, [])
  | (b, n) :: rest =>
    if n = 0 then s.gmmaRead c a sa sb w q rest
    else
      let b := s.nearForm c.core b
      if unmapped b then .error (some (cUNMAPPED, b))
      else if b % 64 ≠ 0 then .error (some (cMISALIGNED, b))
      else match s.opVecs c.core c.ctx c.part c.fmt.bf b sb c.fmt.bS c.fmt.bB 0 w with
        | .wait => .error none
        | .fail cause addr => .error (some (cause, addr))
        | .got t bs => match t.opVecs c.core c.ctx c.part c.fmt.af ((a + q * sa) % 2 ^ 64) sa c.fmt.aS c.fmt.aB q n with
          | .wait => .error none
          | .fail cause addr => .error (some (cause, addr))
          | .got t as => match t.gmmaRead c a sa sb w (q + n) rest with
            | .error x => .error x
            | .ok (t, gs) => .ok (t, (as, bs, q) :: gs)

/-- GMMA's operation (R156); the shapes of R157 change no element. -/
def State.runGmma (s : State) (cl : Nat) (c : Cmd) : Option State :=
  match c.op with
  | .gmma t nt nw ng a sa g sb =>
    let w := 128 * 2 ^ nw
    match s.engineRead s.nextId c.part g (16 * (ng + 1)) (fun va => s.engineBar c.core c.ctx c.part va) with
    | .wait => none
    | .fail cause addr => some (s.runFailed c cause addr)
    | .got u bs bad =>
      let ent (i : Nat) := natOf ((bs.drop (16 * i)).take 16)
      let ents := (List.range (ng + 1)).map (fun i => (bits (ent i) 63 0, bits (ent i) 79 64))
      if bad ≠ [] then some (s.runFailed c cUE (g + bad.headD 0))
      else if (List.range (ng + 1)).any (fun i => bits (ent i) 127 80 != 0) then some (s.runFailed c cCOPY_DESC g)
      else if 16384 * (nt + 1) < (ents.map (·.2)).sum * w then some (s.runFailed c cMATRIX_SHAPE 0)
      else match u.gmmaRead c a sa sb w 0 ents with
        | .error none => none
        | .error (some (cause, addr)) => some (s.runFailed c cause addr)
        | .ok (u, gs) =>
          if u.accTainted cl t 0 ((ents.map (·.2)).sum * w) c.fmt.accm then some (s.runFailed c cUE 0)
          else some ((gs.foldl (fun v x => (List.range x.1.length).foldl (fun v i =>
            let lin := (x.2.2 + i) * w
            v.macRow cl (t + lin / 16384) (lin % 16384) c.fmt.accm (x.1.getD i (.flt [])) x.2.1) v) u).runCmd c)
  | _ => some s

/-- A row as MDRAIN writes it (R158), with its poisoned places, or `none` when a conversion consumes poison. -/
def State.drainRow (s : State) (cl t r : Nat) (df : Bool) (rc : RoundMode) : Option (List Byte × List Nat) :=
  let g := s.rowGroup cl t r
  let loc := accRow cl t r
  if g.kind ≠ 2 ∧ df then
    (if s.tainted loc 512 then none
     else some (((List.range 128).map (fun i =>
       bytesOf 2 (bf16.narrow false rc (fp32.decode (natOf (s.rd (loc + 4 * i) 4)))).1)).flatten, []))
  else some (s.rd loc (g.rowBytes df), s.badAt loc (g.rowBytes df))

/-- A row quantised to FP8 (R160), or `none` when it holds poison. -/
def State.quantRow (s : State) (cl t r qf : Nat) (rc : RoundMode) : Option (List Byte) :=
  let loc := accRow cl t r
  if s.tainted loc 512 then none
  else some ((List.range 128).map (fun i =>
    let v := fp32.decode (natOf (s.rd (loc + 4 * i) 4))
    BitVec.ofNat 8 (if qf = 0 then (e4m3.narrow true rc v).1 else (e5m2.narrow (qf == 1) rc v).1)))

/-- A row quantised to FB4 (R74, R160): its element bytes and its block scales. -/
def State.quantFb4 (s : State) (cl t r band : Nat) (rc : RoundMode) : Option (List Byte × List Byte) :=
  let loc := accRow cl t r
  if s.tainted loc 512 then none
  else
    let qs := (List.range 16).map (fun b =>
      quantBlock rc band ((List.range 8).map (fun i => natOf (s.rd (loc + 4 * (8 * b + i)) 4))))
    some ((qs.map (fun q => (List.range 4).map (fun i =>
      BitVec.ofNat 8 (q.1.getD (2 * i) 0 + 16 * q.1.getD (2 * i + 1) 0)))).flatten, qs.map (fun q => BitVec.ofNat 8 q.2))

/-- The writes of rows at hand, row i at d + i·sd. -/
def drainChunks (d sd : Nat) (rows : List (List Byte × List Nat)) : List Chunk :=
  ((List.range rows.length).foldl (fun (acc : List Chunk × Nat) i =>
    let r := rows.getD i ([], [])
    (acc.1 ++ dataChunks 0 acc.2 ((d + i * sd) % 2 ^ 64) r.1 r.2, acc.2 + r.1.length)) ([], 0)).1

/-- The wake that closes a drain (R159): `first` and `total` are the bytes of its first row and of all its rows. -/
def State.drainWake (s : State) (c : Cmd) (dst x d rows first total : Nat) : Option Msg :=
  let src := s.sysCore c.core
  let target := s.pkgId * 4096 + coreOfUnit (nearParts d).1 (nearParts d).2.1
  let m : Msg := { part := c.part, target := target, hpc := x, word := msgWordOf 3 1 c.part src, pay := [d], back := .none,
                   refused := none, drain := some c.id }
  if dst = 1 then some m
  else if dst = 2 then some { m with word := msgWordOf 0 5 c.part src, pay := [d, rows, first, src, total] }
  else none

/-- The drains (R158, R160): rows read now, written as engine writes. -/
def State.runDrain (s : State) (cl : Nat) (c : Cmd) : State :=
  let rc := RoundMode.ofCode c.fmt.rc
  match c.op with
  | .mdrain t row0 nr df dst x d sd =>
    let rows := (List.range (nr + 1)).map (fun i => s.drainRow cl t (row0 + i) df rc)
    if rows.any Option.isNone then s.runFailed c cUE 0
    else
      let rs := rows.filterMap id
      s.runCmd { c with todo := drainChunks d sd rs,
                        wake := s.drainWake c dst x d (nr + 1) ((rs.map (fun r => r.1.length)).headD 0)
                          (rs.map (fun r => r.1.length)).sum }
  | .mquant t row0 nr dst x qf bS bB band d sd =>
    if qf = 3 then
      let rows := (List.range (nr + 1)).map (fun i => s.quantFb4 cl t (row0 + i) band rc)
      if rows.any Option.isNone then s.runFailed c cUE 0
      else
        let rs := rows.filterMap id
        let n := rs.length
        let el := drainChunks d sd (rs.map (fun r => (r.1, [])))
        let sc := (List.range n).flatMap (fun i => dataChunks 0 (64 * n + 16 * i) ((bS + 16 * i) % 2 ^ 64) (rs.getD i ([], [])).2 [])
        let bd := (List.range (bandsOf n)).flatMap (fun b =>
          dataChunks 0 (80 * n + 2 * b) ((bB + 2 * b) % 2 ^ 64) (bytesOf 2 band) [])
        s.runCmd { c with todo := el ++ sc ++ bd }
    else
      let rows := (List.range (nr + 1)).map (fun i => s.quantRow cl t (row0 + i) qf rc)
      if rows.any Option.isNone then s.runFailed c cUE 0
      else s.runCmd { c with todo := drainChunks d sd ((rows.filterMap id).map (fun r => (r, []))),
                             wake := s.drainWake c dst x d (nr + 1) 128 (128 * (nr + 1)) }
  | _ => s

/-- A RANKED row's list (R148, R248). -/
def State.rankedRow (s : State) (cl t r : Nat) : List RPair :=
  let k := (s.rowGroup cl t r).k
  pairsIn k (s.rd (accRow cl t r) (8 * k))

/-- MRANK's effect (R248, R250); a row or source element that holds poison fails it (R366). -/
def State.runRank (s : State) (cl : Nat) (c : Cmd) : State :=
  match c.op with
  | .mrank ts t row0 nr srow0 ncm base =>
    if (List.range (nr + 1)).any (fun r => s.tainted (accRow cl ts (srow0 + r)) (4 * (ncm + 1)) ||
        s.tainted (accRow cl t (row0 + r)) (8 * (s.rowGroup cl t (row0 + r)).k)) then s.runFailed c cUE 0
    else ((List.range (nr + 1)).foldl (fun u r =>
      let k := (u.rowGroup cl t (row0 + r)).k
      let cand (i : Nat) : RPair := (natOf (s.rd (accRow cl ts (srow0 + r) + 4 * i) 4), (base + i) % 2 ^ 32)
      let cs := (List.range (ncm + 1)).map cand
      let l := cs.foldl (offer k) (u.rankedRow cl t (row0 + r))
      let v := u.wr (accRow cl t (row0 + r)) (placesOf k l)
      if cs.any RPair.isNan then
        let n := 8 * t + (row0 + r) / 16
        v.setGroup cl n { Tbl.get RowGroup.reset (v.cluster cl).groups n with nan := true }
      else v) s).runCmd c
  | _ => s

/-- MTHR's result (R251): the lanes in the low 512 bits, the flags above. -/
def State.runThr (s : State) (cl : Nat) (c : Cmd) : State :=
  match c.op with
  | .mthr row0 t _ _ =>
    let rows := (List.range 16).map (fun i => row0 + i)
    let ranked := rows.filter (fun r => (s.rowGroup cl t r).kind == 2)
    let bad := ranked.any (fun r => s.tainted (accRow cl t r) (8 * (s.rowGroup cl t r).k))
    let lane (r : Nat) := if (s.rowGroup cl t r).kind = 2 then threshold (s.rowGroup cl t r).k (s.rankedRow cl t r) else 0
    let sat := rows.any (fun r => (s.rowGroup cl t r).sat)
    let nan := rows.any (fun r => (s.rowGroup cl t r).nan)
    let v := natOf ((rows.map (fun r => bytesOf 4 (lane r))).flatten) + (sat.toNat + 2 * nan.toNat) * 2 ^ 512
    let a : Answer := if bad then .fault cUE 0 0 else .data v
    let u : State := { s with flights := s.flights ++ [(c.id, .reply (.ctx c.core c.ctx) a)] }
    if bad then u.runFailed c cUE 0 else u.runCmd c
  | _ => s

/-- TL of a command's context falls by one. -/
def State.dropTl (s : State) (c : Cmd) : State := (s.setCntAt c.core c.ctx .tl (s.cntAt c.core c.ctx .tl - 1)).wakeCore c.core

/-- ACCT's lines sent (R257), and TL falls; a command that consumes poison is reported first (R143). -/
def State.runAcct (s : State) (cl : Nat) (c : Cmd) : State :=
  match c.op with
  | .acct t row0 nr df d sd =>
    let rows := (List.range (nr + 1)).map (fun i => s.drainRow cl t (row0 + i) df (RoundMode.ofCode c.fmt.rc))
    if (List.range (nr + 1)).any (fun i => s.tainted (accRow cl t (row0 + i)) 512) ∨ rows.any Option.isNone then
      ((s.runFailed c cUE 0).cmdComplete c.id).dropTl c
    else
      let rs := rows.filterMap id
      (List.range rs.length).foldl (fun u i =>
        let bs := (rs.getD i ([], [])).1
        (List.range (bs.length / 64)).foldl (fun u j =>
          u.launchFlight (.accum
            { part := c.part, va := (d + i * sd + 64 * j) % 2 ^ 64, kind := if df then 1 else 0, ks := 0,
              data := (bs.drop (64 * j)).take 64, mask := 0xFFFF, back := .cmd c.id, core := c.core, ctx := c.ctx,
              task := u.taskCode c.core c.ctx })) u) ((s.dropTl c).runCmd c)
  | _ => s

/-- An operation of the array or of the accumulator port on one command at its queue's head. -/
def State.runHead (s : State) (cl : Nat) (c : Cmd) : Option State :=
  match c.op with
  | .mma .. => s.runMma cl [c]
  | .gmma .. => s.runGmma cl c
  | .mdrain .. => some (s.runDrain cl c)
  | .mquant .. => some (s.runDrain cl c)
  | .mrank .. => some (s.runRank cl c)
  | .mthr .. => some (s.runThr cl c)
  | .acct .. => some (s.runAcct cl c)
  | _ => none

/-- Whether the arbiter takes a command from its queue's head (R240). -/
def State.arbitrated (s : State) (c : Cmd) : Bool :=
  match c.op with
  | .mma .. => !s.wedgeBound c
  | .gmma .. => true
  | .mdrain .. => true
  | .mquant .. => true
  | .mrank .. => true
  | .mthr .. => true
  | .acct .. => true
  | _ => false

/-- A candidate of the arbiter (R240): the core charged, its priority, and its place in the wedge, if it is an entry. -/
structure Cand where
  core : Nat
  pri : Nat
  entry : Option Nat
  deriving DecidableEq, Repr

/-- A priority after the aging of R240. -/
def State.agedPri (s : State) (pri since : Nat) : Nat := if since + 65536 ≤ s.clock then 3 else pri

/-- The candidates of a cluster's arbiter (R240, R245), released entries before heads, entries in release order. -/
def State.candidates (s : State) (cl : Nat) : List Cand :=
  let w := (s.cluster cl).wedge
  ((List.range w.length).filterMap (fun n => match w[n]? with
    | some e => e.released.map (fun r =>
        { core := (e.members.map (·.core)).headD 0 % 8, pri := s.agedPri ((e.members.map (·.pri)).foldl Nat.max 0) r, entry := some n })
    | none => none)) ++
  ((List.range 8).filterMap (fun i => match (s.core (8 * cl + i)).matQ with
    | c :: _ => if s.arbitrated c && s.rowsFree (8 * cl + i) c.op.rows && s.matTurn (8 * cl + i) then
        some { core := i, pri := s.agedPri c.pri c.since, entry := none } else none
    | [] => none))

/-- MX.WEIGHT of a core; 0 acts as 1 (R239). -/
def weightOf (w i : Nat) : Nat := Nat.max 1 (bits w (4 * i + 3) (4 * i))

/-- The arbiter's choice (R240): the cluster with its credits, and the candidate. -/
def State.arbiterChoice (s : State) (cl : Nat) : Option (State × Cand) :=
  let cs := s.candidates cl
  let p := (cs.map (·.pri)).foldl Nat.max 0
  let top := cs.filter (fun c => c.pri == p)
  let c := s.cluster cl
  let credit (t : Tbl Nat) (i : Nat) := Tbl.get 0 t i
  let cr := if top.all (fun x => credit c.credits x.core == 0) then
      (List.range 8).foldl (fun t i => Tbl.set 0 t i (weightOf c.mxWeight i)) c.credits
    else c.credits
  match ((List.range 8).map (fun k => (c.lastServed + 1 + k) % 8)).find? (fun i =>
      top.any (fun x => x.core == i) && decide (0 < credit cr i)) with
  | none => none
  | some i => (top.find? (fun x => x.core == i)).map (fun x =>
      (s.setCluster cl { c with credits := Tbl.set 0 cr i (credit cr i - 1), lastServed := i }, x))

/-- ARBITER_PICK (R240): nothing when there is no candidate, or while a line that the operation reads is held. -/
def State.arbiterPick (s : State) (cl : Nat) : State :=
  let s := s.releaseDue cl
  match s.arbiterChoice cl with
  | none => s
  | some (t, x) =>
    match x.entry with
    | some n =>
      (match (t.cluster cl).wedge[n]? with
       | some e =>
         let u := t.setCluster cl { t.cluster cl with wedge := (t.cluster cl).wedge.eraseIdx n }
         (u.runMma cl e.members).getD s
       | none => s)
    | none =>
      let core := 8 * cl + x.core
      (match (t.core core).matQ with
       | c :: _ => ((t.popMat core).runHead cl { c with fmt := (t.core core).fmt }).getD s
       | [] => s)

/-- ARBITER_PICK (R240). -/
def execArbiterPick (cl : Nat) (s : State) : Host.Outcome State Fault Refusal := .next (s.arbiterPick cl)

end Sys2Proof.Machine
end

