-- ==== Sys2Proof/Machine/Copies.lean ====
section
/-! DEFINITION. Machine/Copies.lean: the copy commands (R162 to R166) and their start in the copy engine (R142, R231, R232). -/
namespace Sys2Proof.Machine

/-- A tensor descriptor's fields (R163). -/
structure Desc where
  src : Nat
  dst : Nat
  esz : Nat
  df : Nat
  sf : Nat
  /-- Extent, source stride and destination stride of each dimension, innermost first. -/
  dims : List (Nat × Int × Int)
  /-- Reserved bits that are not zero, or a dimension beyond ND that is not. -/
  bad : Bool
  deriving DecidableEq, Repr

/-- The descriptor in 128 bytes (R163). -/
def descOf (bs : List Byte) : Desc :=
  let w (o n : Nat) := natOf ((bs.drop o).take n)
  let c := w 0x10 4
  let dim (d : Nat) := w (0x20 + 12 * d) 12
  let nd := bits c 3 0
  { src := w 0 8, dst := w 8 8, esz := bits c 15 12, df := bits c 11 8, sf := bits c 7 4,
    dims := (List.range (nd + 1)).map (fun d =>
      (bits (dim d) 31 0, toSigned (bits (dim d) 63 32) 32, toSigned (bits (dim d) 95 64) 32)),
    bad := bits c 31 16 != 0 || w 0x14 12 != 0 || decide (8 ≤ nd) ||
      (List.range 8).any (fun d => decide (nd < d) && dim d != 0) }

/-- The conversions that TCOPY accepts (R163). -/
def convOk (sf df : Nat) : Bool :=
  sf == df || (sf == 0 && (df == 1 || df == 2 || df == 3)) || (df == 0 && (sf == 1 || sf == 2 || sf == 3))

/-- The elements of a descriptor, as source and destination addresses, innermost dimension fastest; dimensions are given
outermost first (R163). -/
def descElems : List (Nat × Int × Int) → Int → Int → List (Nat × Nat)
  | [], src, dst => [(ofSigned src 64, ofSigned dst 64)]
  | (n, ss, ds) :: rest, src, dst => (List.range n).flatMap (fun i => descElems rest (src + i * ss) (dst + i * ds))

/-- The byte count of a descriptor (R163). -/
def Desc.bytes (d : Desc) : Nat := (d.dims.map (·.1)).foldl (· * ·) 1 * fmtBytes d.df

/-- TCOPY once its descriptor has been read (R163). -/
def State.tcopyGo (s : State) (ea : Nat) (cw : CWord) (bs : List Byte) : State :=
  let d := descOf bs
  match firstBad
      [barIf d.bad cCOPY_DESC ea, barIf (decide (9 ≤ d.df) || decide (9 ≤ d.sf)) cFORMAT_CODE ea,
       barIf (2 ^ d.esz != fmtBytes d.sf || !convOk d.sf d.df) cCOPY_DESC ea, s.rangeBar d.src 1, s.rangeBar d.dst 1] with
  | some (c, a) => s.takeTrap c a 0
  | none => s.issueCmd cw (.tcopy bs) d.bytes

/-- TCOPY (R163): the context is STALLED, as by a load, until the descriptor has been read. -/
def execTcopy (gT : GReg) (cw : Completion) (s : State) : Host.Outcome State Fault Refusal :=
  let ea := s.gN gT
  let w := s.cword cw
  s.unitGate (.next (s.loadFrom ea 128 64 (.desc ea w) (fun t bs => t.tcopyGo ea w bs)))

/-- The issue checks of TGATHER and TSCATTER (R164), and their capture. -/
def State.indexed (s : State) (gather : Bool) (gS gD gI gN gRB gSS gDS : GReg) (cw : Completion) :
    Host.Outcome State Fault Refusal :=
  let n := s.nearForm s.cur.core
  let cnt := s.gN gN % 2 ^ 32
  let rb := s.gN gRB % 2 ^ 32
  let src := n (s.gN gS)
  let dst := n (s.gN gD)
  let idx := n (s.gN gI)
  s.tileCmd [s.rangeBar (s.gN gS) 1, s.rangeBar (s.gN gD) 1, s.rangeBar (s.gN gI) 4] cw
    (if gather then .tgather src dst idx cnt rb (s.gN gSS) (s.gN gDS) else .tscatter src dst idx cnt rb (s.gN gSS) (s.gN gDS))
    (cnt * rb)

/-- TGATHER (R164). -/
def execTgather (gS gD gI gN gRB gSS gDS : GReg) (cw : Completion) (s : State) : Host.Outcome State Fault Refusal :=
  s.indexed true gS gD gI gN gRB gSS gDS cw

/-- TSCATTER (R164). -/
def execTscatter (gS gD gI gN gRB gSS gDS : GReg) (cw : Completion) (s : State) : Host.Outcome State Fault Refusal :=
  s.indexed false gS gD gI gN gRB gSS gDS cw

/-- The clusters that a multicast mask names from an origin, with their bits (R165): `none` stands for one outside the die. -/
def castSet (origin mask : Nat) : List (Nat × Option Nat) :=
  ((List.range 16).filter (bitOf mask)).map (fun n =>
    let x := origin % 16 + n % 4
    let y := origin % 128 / 16 + n / 4
    (n, if x < 16 ∧ y < 8 then some (origin / 128 * 128 + 16 * y + x) else none))

/-- TMCAST (R165). -/
def execTmcast (gS gD gM gN : GReg) (cw : Completion) (s : State) : Host.Outcome State Fault Refusal :=
  let d := s.gN gD
  let mask := s.gN gM % 2 ^ 16
  let set := castSet (nearParts d).1 mask
  let store := bits d 59 56 == 8 && bits d 55 46 == s.pkgId && bits d 36 33 == 8
  s.tileCmd [s.rangeBar (s.gN gS) 1, barIf (unmapped d) cUNMAPPED d, barIf (!store) cMULTICAST d, s.rangeBar d 1,
    barIf (set.any (fun p => p.2.isNone)) cMULTICAST d] cw (.tmcast (s.nearForm s.cur.core (s.gN gS)) d mask (s.gN gN))
    (s.gN gN * set.length)

/-- TFILL (R166). -/
def execTfill (esz : Fin 4) (gD gV gN : GReg) (cw : Completion) (s : State) : Host.Outcome State Fault Refusal :=
  let n := s.gN gN % 2 ^ 32
  s.tileCmd [s.rangeBar (s.gN gD) (2 ^ esz.val)] cw
    (.tfill esz.val (s.nearForm s.cur.core (s.gN gD)) (s.gN gV) n) (n * 2 ^ esz.val)

/-- The writes of rows copied one by one, in order: source and destination addresses of `rb` bytes. -/
def rowsPlan (rb : Nat) (rows : List (Nat × Nat)) : List Chunk :=
  markLoose ((List.range rows.length).flatMap (fun i =>
    let p := rows.getD i (0, 0)
    copyChunks 0 (i * rb) p.2 p.1 rb))

/-- The writes of a TCOPY (R163). -/
def tcopyPlan (d : Desc) : List Chunk :=
  let es := descElems d.dims.reverse d.src d.dst
  markLoose (((List.range es.length).foldl (fun acc i =>
    let e := es.getD i (0, 0)
    addElem d.sf d.df (i * fmtBytes d.df) e.2 e.1 acc) []).reverse)

/-- The base addresses of a descriptor in near form. -/
def State.nearDesc (s : State) (core : Nat) (d : Desc) : Desc :=
  { d with src := s.nearForm core d.src, dst := s.nearForm core d.dst }

/-- A copy command that starts: its writes, or its failure before any; `none` while a line of its index vector is held
(R142, R164, R231). -/
def State.startIndexed (s : State) (c : Cmd) (idx n : Nat) (plan : List Nat → List Chunk) : Option State :=
  match s.engineRead c.id c.part idx (4 * n) (fun va => s.engineBar c.core c.ctx c.part va) with
  | .wait => none
  | .fail cause addr => some (s.runFailed c cause addr)
  | .got t bs bad =>
    if bad ≠ [] then some (s.runFailed c cUE (idx + bad.headD 0))
    else some (t.runCmd { c with todo := plan ((List.range n).map (fun i => natOf ((bs.drop (4 * i)).take 4))) })

/-- A copy command of a core's queue put in execution (R142, R162 to R166). -/
def State.launchCopy (s : State) (c : Cmd) : Option State :=
  match c.op with
  | .tcopy bs => some (s.runCmd { c with todo := tcopyPlan (s.nearDesc c.core (descOf bs)) })
  | .tgather src dst idx n rb ss ds =>
    s.startIndexed c idx n (fun xs => rowsPlan rb ((List.range n).map (fun i =>
      ((src + xs.getD i 0 * ss) % 2 ^ 64, (dst + i * ds) % 2 ^ 64))))
  | .tscatter src dst idx n rb ss ds =>
    s.startIndexed c idx n (fun xs => rowsPlan rb ((List.range n).map (fun i =>
      ((src + i * ss) % 2 ^ 64, (dst + xs.getD i 0 * ds) % 2 ^ 64))))
  | .tmcast src dst mask n =>
    some (s.runCmd { c with todo := markLoose ((castSet (nearParts dst).1 mask).flatMap (fun p =>
      copyChunks p.1 0 (setBits (setBits dst 45 44 (p.2.getD 0 / 128)) 43 37 (p.2.getD 0 % 128)) src n)) })
  | .tfill esz dst v n =>
    some (s.runCmd { c with todo := dataChunks 0 0 dst ((List.replicate n (bytesOf (2 ^ esz) v)).flatten) [] })
  | .bytes src dst n => some (s.runCmd { c with todo := markLoose (copyChunks 0 0 dst src n) })
  | _ => none

/-- Whether the command before in a core's copy queue has acquired its last segment (R232). -/
def State.copyTurn (s : State) (core : Nat) : Bool :=
  s.running.all (fun r => !(r.2.core == core && r.2.op.isCopy && decide (r.2.owner = .ctx)) || r.2.acquired)

end Sys2Proof.Machine
end

