-- ==== Sys2Proof/Machine/Shelf.lean ====
section
/-! DEFINITION. Machine/Shelf.lean: shelves: SHELFPUT, SHELFCLOSE, the builder, the timer and the dock (R268 to R276), and
COMMAND_START. -/
namespace Sys2Proof.Machine

/-- The capacity of a shelf of rows of `rb` 64-byte units (R269). -/
def shelfCap (rb : Nat) : Nat :=
  ((List.range 256).filter (fun c => decide (64 + (4 * c + 63) / 64 * 64 + c * rb * 64 ≤ 16384))).foldl Nat.max 0

/-- One bit of CRC-32C (R270). -/
def crcBit (c : Nat) : Nat := if c % 2 = 1 then c / 2 ^^^ 0x82F63B78 else c / 2
/-- One byte of CRC-32C. -/
def crcByte (c : Nat) (b : Byte) : Nat := (List.range 8).foldl (fun x _ => crcBit x) (c ^^^ b.toNat)
/-- CRC-32C (R270). -/
def crc32c (bs : List Byte) : Nat := bs.foldl crcByte 0xFFFFFFFF ^^^ 0xFFFFFFFF

/-- The 64 header bytes of a shelf with its CRC field zero (R269). -/
def Shelf.header (x : Shelf) : List Byte :=
  bytesOf 8 (x.seq * 2 ^ 32 + x.src) ++ bytesOf 8 (x.rows.length * 2 ^ 16 + x.rb * 2 ^ 8 + x.ddie * 2 ^ 4 + x.part) ++
    List.replicate 48 0
/-- The CRC of a shelf (R270). -/
def Shelf.sum (x : Shelf) : Nat := crc32c (x.header ++ (x.rows.map (fun r => bytesOf 4 r.1)).flatten)

/-- An open shelf closed and sent to its dock (R271). -/
def State.closeShelf (s : State) (cl die : Nat) : State :=
  let c := s.cluster cl
  match lookupId die c.shelves with
  | none => s
  | some o =>
    let seq := Tbl.get 0 c.shelfSeq die
    let x : Shelf := { seq := seq, src := s.sysCore (8 * cl), part := o.part, ddie := die, rb := o.rb, rows := o.rows, dock := o.dock,
                       crc := 0 }
    (s.setCluster cl { c with shelves := dropId die c.shelves, shelfSeq := Tbl.set 0 c.shelfSeq die ((seq + 1) % 2 ^ 32)
                              }).launchFlight (.shelf { x with crc := x.sum })

/-- Whether the timer of an open shelf has expired in an earlier clock (R271, R276). -/
def State.shelfExpired (s : State) (cl : Nat) (o : OpenShelf) : Bool :=
  (s.cluster cl).shelfTimer != 0 && decide (o.first + (s.cluster cl).shelfTimer < s.clock)

/-- The open shelf of a die is closed before a row of another size is read, or when its time has passed (R271, R272). -/
def State.closeOther (s : State) (cl die rb : Nat) : State :=
  match lookupId die (s.cluster cl).shelves with
  | some o => if o.rb = rb ∧ !s.shelfExpired cl o then s else s.closeShelf cl die
  | none => s

/-- A row appended to the open shelf of a die (R271, R272). -/
def State.appendRow (s : State) (cl die part rb dock : Nat) (row : Nat × List Byte × List Nat) : State :=
  let c := s.cluster cl
  let o := (lookupId die c.shelves).getD { part := part, rb := rb, first := s.clock, rows := [], dock := dock }
  let o := { o with rows := o.rows ++ [row] }
  let t := s.setCluster cl { c with shelves := dropId die c.shelves ++ [(die, o)] }
  if shelfCap rb ≤ o.rows.length then t.closeShelf cl die else t

/-- SHELFPUT in execution (R272): the row is read and appended; `none` while a line of it is held. -/
def State.putRow (s : State) (c : Cmd) (ea token die rb : Nat) : Option State :=
  let cl := clusterOf c.core
  match s.engineRead c.id c.part ea (64 * rb) (fun va => s.engineBar c.core c.ctx c.part va) with
  | .wait => none
  | .fail cause addr => some (s.runFailed c cause addr)
  | .got t bs bad =>
    let xt := (s.cluster cl).xtBase
    match t.agentRead c.part xt 4 with
    | .error (cause, _) => some (s.runFailed c cause xt)
    | .ok (t, hd) =>
      let dock := die * 128 + (hd.getD die 0).toNat % 128
      some ((t.appendRow cl die c.part rb dock (token, bs, bad)).runCmd c)

/-- SHELFCLOSE in execution (R273): the command waits for the shelves that it closed. -/
def State.closeDies (s : State) (c : Cmd) (dies : List Nat) : State :=
  let cl := clusterOf c.core
  let r := dies.foldl (fun (acc : State × List Nat) d =>
    if (lookupId d (acc.1.cluster cl).shelves).isSome then (acc.1.closeShelf cl d, acc.2 ++ [acc.1.nextId]) else acc) (s, [])
  r.1.runCmd { c with shelves := r.2 }

/-- COMMAND_START in the copy engine (R142): the head of a core's queue, once the command before it has acquired its last
segment. -/
def State.startCopy (s : State) (core : Nat) : State :=
  match (s.core core).copyQ with
  | [] => s
  | c :: _ =>
    if !s.copyTurn core then s
    else match c.op with
      | .shelfput ea token die rb =>
        let t := s.closeOther (clusterOf core) die rb
        ((t.popCopy core).putRow c ea token die rb).getD t
      | .shelfclose dies => (s.popCopy core).closeDies c dies
      | _ => ((s.popCopy core).launchCopy c).getD s

/-- COMMAND_START (R142). -/
def execCommandStart (core : Nat) (eng : Engine) (s : State) : Host.Outcome State Fault Refusal :=
  .next (match eng with
    | .matrix => s.startMatrix core
    | .copy => s.startCopy core)

/-- An entry of the expert table (R268): owner cluster, core and bank, row units, handler PC and ring; `none` when it is
invalid. -/
structure Expert where
  die : Nat
  cl : Nat
  core : Nat
  bank : Nat
  rb : Nat
  hpc : Nat
  ring : Nat
  deriving DecidableEq, Repr

def expertOf (bs : List Byte) : Option Expert :=
  let w := natOf (bs.take 8)
  if !bitOf w 63 ∨ 8 < bits w 47 44 ∨ bits w 43 36 = 0 ∨ bits w 43 36 = 255 then none
  else some { die := bits w 62 61, cl := bits w 62 61 * 128 + bits w 60 54, core := bits w 53 51, bank := bits w 50 48,
              rb := bits w 43 36, hpc := natOf ((bs.drop 8).take 8), ring := natOf ((bs.drop 16).take 8) }

/-- SHELFPUT once its table entry has been read (R272). -/
def State.shelfputGo (s : State) (ea token va : Nat) (bs : List Byte) : State :=
  match expertOf bs with
  | none => s.takeTrap cSHELF_EXPERT va 0
  | some x => match s.rangeBar ea 64 with
    | some (c, a) => s.takeTrap c a 0
    | none => s.issueCmd .none (.shelfput (s.nearForm s.cur.core ea) token x.die x.rb) 0

/-- SHELFPUT (R272). -/
def execShelfput (a b : GReg) (s : State) : Host.Outcome State Fault Refusal :=
  let v := s.gN b
  let va := ((s.cluster (clusterOf s.cur.core)).xtBase + 0x40 + 32 * bits v 31 20) % 2 ^ 64
  s.unitGate (if 2 ^ 32 ≤ v then s.trap cRESERVED 0 0
    else if s.pendingTo va then .next (s.stall .retry)
    else .next (s.request .global va (.load 32) false none (.expert (s.gN a) v va)))

/-- SHELFCLOSE of every die (R273). -/
def execShelfcloseAll (s : State) : Host.Outcome State Fault Refusal :=
  s.unitGate (.next (s.issueCmd .none (.shelfclose [0, 1, 2, 3]) 0))

/-- SHELFCLOSE of the die gA[1:0] (R273). -/
def execShelfcloseDie (a : GReg) (s : State) : Host.Outcome State Fault Refusal :=
  s.unitGate (.next (s.issueCmd .none (.shelfclose [s.gN a % 4]) 0))

/-- SHELF_TIMER (R271): at the end of the clock in which the timer expires, since a row of that clock is appended first (R276). -/
def execShelfTimer (cl die : Nat) (s : State) : Host.Outcome State Fault Refusal :=
  match lookupId die (s.cluster cl).shelves with
  | some o => .next (if s.shelfExpired cl o then s.closeShelf cl die else s)
  | none => .next s

/-- The size of a bank's mode region (R221). -/
def bankSize (bank : Nat) : Nat := if bank = 7 then 0x78000 else 0x80000
/-- The location of a FIFO bank's control page (R221). -/
def fifoPage (cl bank : Nat) : Nat := nearLoc cl 8 (0x80000 * bank + bankSize bank - 0x1000)
/-- A word of a FIFO bank's control page: HEAD at 0, TAIL at 8, COUNT at 16. -/
def State.fifoWord (s : State) (cl bank off : Nat) : Nat := natOf (s.rd (fifoPage cl bank + off) 8)
/-- NENT and ENTSZ of a FIFO bank (R221). -/
def State.fifoNent (s : State) (cl bank : Nat) : Nat := bits (s.fifoWord cl bank 24) 31 16
def State.fifoEntsz (s : State) (cl bank : Nat) : Nat := bits (s.fifoWord cl bank 24) 7 0

/-- TAIL and COUNT advanced by a PUSH of `n` entries that fit (R222). -/
def State.fifoPush (s : State) (cl bank n : Nat) : State :=
  let p := fifoPage cl bank
  (s.wr (p + 8) (bytesOf 8 ((s.fifoWord cl bank 8 + n) % Nat.max 1 (s.fifoNent cl bank)))).wr (p + 16)
    (bytesOf 8 (s.fifoWord cl bank 16 + n))

/-- HEAD and COUNT changed by a POP of `n` entries that are held (R222). -/
def State.fifoPop (s : State) (cl bank n : Nat) : State :=
  let p := fifoPage cl bank
  (s.wr p (bytesOf 8 ((s.fifoWord cl bank 0 + n) % Nat.max 1 (s.fifoNent cl bank)))).wr (p + 16)
    (bytesOf 8 (s.fifoWord cl bank 16 - n))

/-- A dock's post (R276, R409): KIND 4, with SEQ and the index entry. -/
def State.dockPost (s : State) (x : Shelf) (cause pc addr entry : Nat) : State :=
  s.post { pkg := s.pkgId, part := x.part, w0 := postWord 4 0 cause x.src, pc := pc, addr := addr,
           aux := x.seq * 2 ^ 32 + entry, source := none }

/-- A row put in an overflow ring (R274, R275): where, or the post of its drop. -/
def State.ringRow (s : State) (x : Shelf) (e : Expert) (row : Nat × List Byte × List Nat) : Except State (State × Nat) :=
  match s.agentRead x.part e.ring 64 with
  | .error (c, _) => .error (s.dockPost x c e.ring e.ring row.1)
  | .ok (t, d) =>
    let w (o n : Nat) := natOf ((d.drop o).take n)
    let nent := w 8 4
    let tail := w 0x18 4
    if (tail + 2 ^ 32 - w 0x10 4) % 2 ^ 32 < nent then
      let at_ := w 0 8 + tail % nent * (64 * x.rb)
      let r := (linesOf at_ (64 * x.rb)).foldl (fun (acc : State × Option (Nat × Nat)) a => match acc with
        | (u, some f) => (u, some f)
        | (u, none) =>
          let o := a - at_
          let k := inLine at_ (64 * x.rb) a
          match u.agentStore x.part a ((row.2.1.drop o).take k)
              ((row.2.2.filter (fun i => decide (o ≤ i) && decide (i < o + k))).map (· - o)) with
          | .error (c, _) => (u, some (c, a))
          | .ok u => (u, none)) (t, none)
      match r with
      | (u, some (c, a)) => .error (u.dockPost x c e.ring a row.1)
      | (u, none) => match u.agentWrite x.part (e.ring + 0x18) (bytesOf 4 (tail + 1)) with
        | .error (c, _) => .error (u.dockPost x c e.ring (e.ring + 0x18) row.1)
        | .ok u => .ok (u, 2 ^ 63 + tail)
    else
      let u := match t.agentWrite x.part (e.ring + 0x20) (bytesOf 4 (w 0x20 4 + 1)) with
        | .error _ => t
        | .ok u => u
      .error (u.dockPost x cSHELF_RING e.ring e.ring row.1)

/-- One row unpacked by a dock (R274, R276). -/
def State.unpackRow (s : State) (x : Shelf) (row : Nat × List Byte × List Nat) : State :=
  let va := (s.cluster x.dock).xtBase + 0x40 + 32 * bits row.1 31 20
  match s.agentRead x.part va 32 with
  | .error (c, _) => s.dockPost x c 0 va row.1
  | .ok (s, bs) =>
    match expertOf bs with
    | none => s.dockPost x cSHELF_EXPERT 0 va row.1
    | some e =>
      if e.die ≠ x.ddie then s.dockPost x cSHELF_EXPERT 0 va row.1
      else if e.rb ≠ x.rb then s.dockPost x cSHELF_ROW 0 va row.1
      else if (s.cluster e.cl).fenced then s.dockPost x cNEAR_ABSENT 0 va row.1
      else if s.partOfCluster e.cl ≠ some x.part then s.dockPost x cPROTECTION 0 va row.1
      else
        let placed : Except State (State × Nat) :=
          if s.bankMode e.cl (0x80000 * e.bank) = 2 ∧ e.rb ≤ s.fifoEntsz e.cl e.bank ∧
              s.fifoWord e.cl e.bank 16 < s.fifoNent e.cl e.bank then
            let n := s.fifoWord e.cl e.bank 8
            let l := nearLoc e.cl 8 (0x80000 * e.bank + n * 64 * s.fifoEntsz e.cl e.bank)
            .ok (((s.wr l row.2.1).poisonAt l row.2.2).fifoPush e.cl e.bank 1, n)
          else s.ringRow x e row
        match placed with
        | .error t => t
        | .ok (t, place) =>
          t.launchFlight (.msg { part := x.part, target := s.pkgId * 4096 + 8 * e.cl + e.core, hpc := e.hpc,
                                 word := msgWordOf 0 3 x.part (s.sysCore (8 * x.dock)), pay := [bits row.1 31 20, place, bits row.1 19 0],
                                 back := .none, refused := none, drain := none })

/-- The messages that a dock has queued and no inbox has accepted (R274). -/
def State.dockQueue (s : State) (dock : Nat) : Nat :=
  (s.flights.filter (fun f => match f.2 with
    | .msg m => decide (m.back = .none) && m.word % 2 ^ 22 == s.sysCore (8 * dock)
    | _ => false)).length

/-- No command waits for a shelf any more (R273). -/
def State.shelfDone (s : State) (id : Nat) : State :=
  { s with running := s.running.map (fun r => (r.1, { r.2 with shelves := r.2.shelves.filter (fun x => x != id) })) }

/-- Whether a shelf is the first of its builder's to its dock (R271). -/
def State.shelfFirst (s : State) (id : Nat) (x : Shelf) : Bool :=
  match s.flights.find? (fun f => match f.2 with
    | .shelf y => y.src == x.src && y.ddie == x.ddie
    | _ => false) with
  | some f => f.1 == id
  | none => false

/-- The shelves in a dock's buffers, in order of arrival (R274). -/
def State.docked (s : State) (dock : Nat) : List Nat :=
  s.flights.filterMap (fun f => match f.2 with
    | .docked x => if x.dock = dock then some f.1 else none
    | _ => none)

/-- The rows of a buffered shelf unpacked in index order, while the dock's message queue has room (R274): what is left of it. -/
def State.unpackRows (s : State) (x : Shelf) : State × List (Nat × List Byte × List Nat) :=
  x.rows.foldl (fun acc r =>
    if acc.2 ≠ [] ∨ 256 ≤ acc.1.dockQueue x.dock then (acc.1, acc.2 ++ [r]) else (acc.1.unpackRow x r, [])) (s, [])

/-- A buffered shelf unpacked as far as the message queue lets it; its buffer is free once every row has gone (R273, R274). -/
def State.unpackOn (s : State) (id : Nat) (x : Shelf) : State :=
  if (s.docked x.dock).head? ≠ some id then s
  else
    let r := s.unpackRows x
    if r.2 = [] then (r.1.dropFlight id).shelfDone id else r.1.become id (.docked { x with rows := r.2 })

/-- SHELF_ARRIVAL (R274): a shelf takes a free buffer of its dock and is checked; then its rows are unpacked. -/
def State.dockShelf (s : State) (id : Nat) : State :=
  match lookupId id s.flights with
  | some (.shelf x) =>
    if !s.shelfFirst id x ∨ 4 ≤ (s.docked x.dock).length then s
    else
      let t := s.dropFlight id
      if x.crc ≠ x.sum then (t.shelfDone id).dockPost x cSHELF_CRC 0 0 0
      else if s.partOfCluster x.dock ≠ some x.part then (t.shelfDone id).dockPost x cPROTECTION 0 0 0
      else ({ t with flights := t.flights ++ [(id, .docked x)] } : State).unpackOn id x
  | some (.docked x) => s.unpackOn id x
  | _ => s

/-- SHELF_ARRIVAL (R274). -/
def execShelfArrival (id : Nat) (s : State) : Host.Outcome State Fault Refusal := .next (s.dockShelf id)

end Sys2Proof.Machine
end

