-- ==== Sys2Proof/Machine/Arrive.lean ====
section
/-! DEFINITION. Machine/Arrive.lean: what becomes of a memory request: at its home slice (R330, R334, R335), at the near unit
that it names (R152, R219 to R223, R308), at the agent that executes atomics (R124 to R129); and its acknowledgement (R224,
R228). -/
namespace Sys2Proof.Machine

/-- The cause that an acknowledgement carries; 0 for none. -/
def Answer.cause : Answer → Nat
  | .data _ => 0
  | .fault c _ _ => c

/-- What carries an answer to whoever waits for it: a reply, an acknowledgement, or nothing. -/
def Back.carrier (back : Back) (va : Nat) (a : Answer) : Option Flight :=
  match back with
  | .ctx _ _ => some (.reply back a)
  | .count .. => some (.ack back va a.cause)
  | .cmd _ => some (.ack back va a.cause)
  | .packet _ _ => some (.reply back a)
  | .join _ => some (.reply back a)
  | _ => Option.none

/-- The response of a control port to a request (R353). -/
def Back.response (back : Back) (a : Answer) : List HostMsg :=
  match back, a with
  | .host port _ 0, .data _ => [.done port]
  | .host port _ n, .data v => [.data port (bytesOf n v)]
  | .host port _ _, .fault c _ _ => [.refused port c]
  | _, _ => []

/-- The answer that leaves for a requester in another package (R349, R350). -/
def Back.farAnswer (back : Back) (a : Answer) : List (Nat × Answer) :=
  match back with
  | .remote n _ _ => [(n, a)]
  | _ => []

/-- A request answered: the answer travels in its place, and to the partner whose request it also answers (R370). -/
def State.answer (s : State) (id : Nat) (back : Back) (va : Nat) (a : Answer) : State :=
  let t := match back.carrier va a with
    | some f => s.become id f
    | none => { s.dropFlight id with toHost := s.toHost ++ back.response a, toFar := s.toFar ++ back.farAnswer a }
  let twins := t.aliases.filterMap (fun x => if x.1 = id then (x.2.2.carrier va a).map (fun f => (x.2.1, f)) else none)
  { t with aliases := t.aliases.filter (fun x => x.1 != id), flights := t.flights ++ twins }

/-- A request refused with a cause at its address. -/
def State.refuse (s : State) (id : Nat) (r : MemReq) (cause aux : Nat) : State :=
  s.answer id r.back r.va (.fault cause r.va aux)

/-- What an executing agent's record says of an arrival (R129). -/
inductive Replayed where
  | fresh
  | known (v : Nat)
  | lost
  deriving DecidableEq, Repr

/-- An arrival looked up among the sequences that an agent recorded for its source, newest first (R129). -/
def replayCheck (w : List (Nat × Nat)) (seq : Nat) : Replayed :=
  match lookupId seq w with
  | some v => .known v
  | none =>
    if 64 ≤ w.length ∧ w.all (fun e => let d := (e.1 + 2 ^ 32 - seq) % 2 ^ 32; decide (1 ≤ d) && decide (d < 2 ^ 31)) then .lost
    else .fresh

/-- The agents that execute atomics and nibble stores (R124, R125). -/
inductive Agent where
  | core (n : Nat)
  | slice (cl : Nat)
  | port (cl : Nat)
  deriving DecidableEq, Repr

/-- The records of an agent, by source (R129). -/
def State.records (s : State) (a : Agent) : Tbl (List (Nat × Nat)) :=
  match a with
  | .core n => (s.core n).replay
  | .slice cl => (s.cluster cl).sliceReplay
  | .port cl => (s.cluster cl).portReplay

/-- The result of an operation recorded by its agent, which keeps the last 64 of a source (R129). -/
def State.record (s : State) (a : Agent) (seq : Option (Nat × Nat)) (v : Nat) : State :=
  match seq with
  | none => s
  | some (src, n) =>
    let w := Tbl.set [] (s.records a) src (((n, v) :: Tbl.get [] (s.records a) src).take 64)
    match a with
    | .core c => s.setCore c { s.core c with replay := w }
    | .slice cl => s.setCluster cl { s.cluster cl with sliceReplay := w }
    | .port cl => s.setCluster cl { s.cluster cl with portReplay := w }

/-- An operation executed at most once (R129): `run` executes it, and gives the state and the value, or a cause with its AUX. -/
def State.onceAt (s : State) (a : Agent) (id : Nat) (r : MemReq) (run : State → Except (Nat × Nat) (State × Nat)) : State :=
  let check := match r.seq with
    | none => Replayed.fresh
    | some (src, n) => replayCheck (Tbl.get [] (s.records a) src) n
  match check with
  | .known v => s.answer id r.back r.va (.data v)
  | .lost => s.refuse id r cATOMIC_UNKNOWN 0
  | .fresh => match run s with
    | .error (c, aux) => s.refuse id r c aux
    | .ok (t, v) => (t.record a r.seq v).answer id r.back r.va (.data v)

/-- An atomic, CAS or nibble store (R125). -/
def MemOp.indivisible : MemOp → Bool
  | .atomic _ _ => true
  | .cas _ _ _ => true
  | .nibble _ _ => true
  | _ => false

/-- Whether an operation fails on poisoned data (R366): a nibble store stores bits and consumes nothing. -/
def MemOp.failsOnPoison : MemOp → Bool
  | .load _ => true
  | .fetch => true
  | .atomic _ _ => true
  | .cas _ _ _ => true
  | _ => false

/-- Whether an operation returns the value that it finds (R229). -/
def MemOp.acquires : MemOp → Bool
  | .load _ => true
  | .atomic _ _ => true
  | .cas _ _ _ => true
  | _ => false

/-- An operation performed at a location: a context that reads what a release wrote there, itself or through its primary, acquires when it
completes, and what a release writes there is marked (R229). `t` is the state in which the operation has been performed. -/
def State.noteRelease (s : State) (id : Nat) (r : MemReq) (loc : Nat) (t : State) : State :=
  let saw := r.op.acquires && s.sawRelease loc r.op.size
  let t := if r.rel then t.markReleased loc r.op.size else t
  if saw then (r.back :: (s.aliases.filter (fun x => x.1 == id)).map (·.2.2)).foldl (fun t b => match b with
    | .ctx c x => t.setCtxAt c x { t.ctxAt c x with acq := true }
    | _ => t) t
  else t

/-- Whether an engine holds any line that an access touches (R233). -/
def State.accessHeld (s : State) (r : MemReq) : Bool :=
  match r.near with
  | some loc => s.nearHeld loc r.op.size
  | none => (linesOf r.va r.op.size).any (fun a => s.engHeld (granKey r.part a))

/-- An access performed at the single copy of its line (R217, R224), within one page; D has been set. The 64 bytes of a vector access are
taken or written in one step, never a mix of old and new lanes (DESIGN CHOICE, log entry 109). -/
def State.performGlobal (s : State) (id : Nat) (r : MemReq) (pa : Nat) (uc : Bool) : Except Nat (State × Nat) :=
  if r.op.failsOnPoison && s.tainted (if r.op.indivisible then pa / 64 * 64 else pa) (if r.op.indivisible then 64 else r.op.size)
  then .error cUE
  else
    let x := r.op.run (s.gRd r.part pa uc r.op.size)
    let t := if x.1 = [] then s else s.gPut r.part r.va pa uc x.1
    .ok (s.noteRelease id r pa (match r.op with
      | .store bs true => t.poisonAt pa (List.range bs.length)
      | _ => t), x.2)

/-- A load of more than a line, read line by line by the home slices; a failure names the address of the whole (R163). It waits while
the page walker has requests before it (R330). -/
def State.longLoad (s : State) (id n : Nat) (r : MemReq) : State :=
  if !(linesOf r.va n).all (fun a => s.walkTurn r.part a .read) then s
  else match s.agentReadAll r.part r.va n with
  | .error (c, _, aux) => s.answer id r.back r.va (.fault c r.va aux)
  | .ok (t, bs) => t.answer id r.back r.va (.data (natOf bs))

/-- An access that waits for its die's page walker (R330). -/
def State.toWalker (s : State) (id slice : Nat) (r : MemReq) : State :=
  let d := slice / 128
  (s.become id (.mem { r with stage := .walking })).setDie d { s.die d with walkQueue := (s.die d).walkQueue ++ [id] }

/-- An access translated by a TLB entry (R334): refused, performed, or left to the slice's agent when it is indivisible. -/
def State.withTlb (s : State) (id slice : Nat) (r : MemReq) (e : TlbEnt) : State :=
  match permFault e r.op.access with
  | some (c, aux) => if r.op = .prefetch then s.dropFlight id else s.refuse id r c aux
  | none =>
    if r.op.indivisible then s.become id (.mem { r with stage := .ready (e.pa r.va) (bitOf e.pte 8) slice })
    else
      let t := if r.op.access = .write then s.markDirty e else s
      match t.performGlobal id r (e.pa r.va) (bitOf e.pte 8) with
      | .error c => t.refuse id r c 0
      | .ok (u, v) => u.answer id r.back r.va (.data v)

/-- HOME_SLICE_ACCESS (R330, R337, R338). -/
def State.homeAccess (s : State) (id : Nat) : State :=
  match lookupId id s.flights with
  | some (.mem r) =>
    if r.near.isSome ∨ 2 ^ 59 ≤ r.va ∨ r.stage ≠ .travelling ∨ !s.inOrder id ∨ s.accessHeld r then s
    else
      match r.op with
      | .load n => if 64 < n then s.longLoad id n r
        else (let slice := s.home r.part r.va
          match s.tlbFor slice r.part r.va .read with
          | some e => s.withTlb id slice r e
          | none => s.toWalker id slice r)
      | _ =>
        let slice := s.home r.part r.va
        match s.tlbFor slice r.part r.va r.op.access with
        | some e => s.withTlb id slice r e
        | none => s.toWalker id slice r
  | _ => s

/-- HOME_SLICE_ACCESS (R330). -/
def execHomeSliceAccess (id : Nat) (s : State) : Host.Outcome State Fault Refusal := .next (s.homeAccess id)

/-- PAGE_WALK (R334): the oldest request of the die's walker is translated, and goes back to its slice, or fails. -/
def State.pageWalk (s : State) (id : Nat) : State :=
  match lookupId id s.flights with
  | some (.mem r) =>
    let slice := s.home r.part r.va
    let d := slice / 128
    if r.stage ≠ .walking ∨ (s.die d).walkQueue.head? ≠ some id then s
    else
      let t := s.setDie d { s.die d with walkQueue := (s.die d).walkQueue.drop 1 }
      match t.walkFor r.part r.va r.op.access with
      | .error (c, level) => if r.op = .prefetch then t.dropFlight id else t.refuse id r c (xlAux level r.op.access)
      | .ok l => ((t.keepWalk r.part r.va).fillTlb slice r.part r.va l).become id (.mem { r with stage := .travelling })
  | _ => s

/-- PAGE_WALK (R334). -/
def execPageWalk (id : Nat) (s : State) : Host.Outcome State Fault Refusal := .next (s.pageWalk id)

/-- D set for a write that was translated before (R334), or the fault of the walk when its entry is no longer valid (R342). -/
def State.dirtyFor (s : State) (slice part va : Nat) : Except (Nat × Nat) State :=
  match s.tlbFor slice part va .write with
  | some e => .ok (s.markDirty e)
  | none => match s.walkFor part va .write with
    | .ok l => .ok (s.setPteBit l.first 7)
    | .error (c, level) => .error (c, xlAux level .write)

/-- ATOMIC_AT_AGENT in global space (R125, R129): indivisible at the home slice's agent. D is set when it writes. -/
def State.atomicAtSlice (s : State) (id : Nat) : State :=
  match lookupId id s.flights with
  | some (.mem r) =>
    match r.stage with
    | .ready pa uc slice =>
      if r.near.isSome ∨ s.accessHeld r then s
      else s.onceAt (.slice slice) id r (fun t =>
        let writes := (r.op.run (t.gRd r.part pa uc r.op.size)).1 ≠ []
        match if writes then t.dirtyFor slice r.part r.va else .ok t with
        | .error f => .error f
        | .ok t => (t.performGlobal id r pa uc).mapError (fun c => (c, 0)))
    | _ => s
  | _ => s

/-- ATOMIC_AT_AGENT (R125). -/
def execAtomicAtAgent (id : Nat) (s : State) : Host.Outcome State Fault Refusal := .next (s.atomicAtSlice id)

/-- An inbox accepts an arrival of a sender: a slot is free, and not reserved for another (R206, R384). -/
def State.admits (s : State) (core src : Nat) : Bool :=
  let c := s.core core
  let free := 32 - c.inbox.length
  decide (0 < free) && ((c.refusals.take free).contains src || decide (c.refusals.length < free))

/-- A refused sender recorded, when the refusal queue has room (R384). -/
def State.noteRefusal (s : State) (core src : Nat) : State :=
  let c := s.core core
  if c.refusals.contains src ∨ 32 ≤ c.refusals.length then s else s.setCore core { c with refusals := c.refusals ++ [src] }

/-- The lowest free slot of an inbox. -/
def State.inboxSlot (s : State) (core : Nat) : Nat :=
  ((List.range 32).find? (fun n => (s.core core).inbox.all (fun e => e.slot != n))).getD 0

/-- A message put in a free slot (R204). -/
def State.inboxPut (s : State) (core src : Nat) (sys : SysOp) (part hpc word seq : Nat) (pay : List Nat) : State :=
  let n := s.inboxSlot core
  let c := s.core core
  let t := s.setCore core { c with inbox := c.inbox ++ [{ slot := n, sys := sys, part := part, tries := 0 }],
                                   refusals := c.refusals.erase src }
  t.wr (pmLoc core (0x3B000 + 128 * n)) (bytesOf 8 hpc ++ bytesOf 8 word ++ bytesOf 8 seq ++ List.replicate 40 0 ++
    ((List.range 8).map (fun i => bytesOf 8 (pay.getD i 0))).flatten)

/-- Whether an arrival refused by an inbox may be tried again, 64 clocks after (R206). -/
def State.retryDue (s : State) (refused : Option Nat) : Bool :=
  match refused with
  | none => true
  | some t => decide (t + 64 ≤ s.clock)

/-- The core that issued a request; 0 when it is none of this package's. -/
def Back.core : Back → Nat
  | .ctx c _ => c
  | .count c _ _ _ _ => c
  | _ => 0

/-- The operand words of a system message (R204, R211). -/
def MemOp.words : MemOp → List Nat
  | .atomic _ b => [b]
  | .cas len e n => if len = 8 then [e, n] else [e % 2 ^ 64, e / 2 ^ 64, n % 2 ^ 64, n / 2 ^ 64]
  | .nibble _ v => [v]
  | _ => []

/-- A near atomic or nibble store enters the inbox of the core that owns the private memory (R124, R125, R211). -/
def State.inboxAccess (s : State) (id : Nat) (r : MemReq) (core : Nat) : State :=
  let src := match r.seq with
    | some (x, _) => x
    | none => s.sysCore r.back.core
  if !s.admits core src then
    (s.become id (.mem { r with refused := some s.clock })).noteRefusal core src
  else
    let kind := match r.op with
      | .nibble _ _ => 2
      | _ => 1
    let r := { r with stage := .ready 0 false 0, refused := none }
    (s.become id (.mem r)).inboxPut core src (.access id r) r.part r.va (msgWordOf kind r.op.words.length r.part src)
      ((r.seq.map (·.2)).getD 0) r.op.words

/-- A load or store performed at a store port (R220, R224); it waits while an engine holds the granule (R233). -/
def State.plainAt (s : State) (id : Nat) (r : MemReq) (cl u off : Nat) : State :=
  if s.accessHeld r then s
  else if r.op.failsOnPoison ∧ s.tainted (nearLoc cl u off) r.op.size then s.refuse id r cUE 0
  else
    let x := s.nearRun cl u off r.op
    let t := match r.op with
      | .store bs true => x.1.poisonAt (nearLoc cl u off) (List.range bs.length)
      | _ => x.1
    (s.noteRelease id r (nearLoc cl u off) t).answer id r.back r.va (.data x.2)

/-- The offset in a FIFO bank's control page that an offset of a cluster store names, if any (R221). -/
def State.pageOff (s : State) (cl off : Nat) : Option Nat :=
  let bank := off / 0x80000
  if off < 0x3F8000 ∧ s.bankMode cl off = 2 ∧ bankSize bank - 0x1000 ≤ off % 0x80000 then
    some (off % 0x80000 - (bankSize bank - 0x1000)) else none

/-- A store of 8 bytes to POP or PUSH of a FIFO bank: the store's value (R222). -/
def State.fifoStore (s : State) (r : MemReq) (cl u off place : Nat) : Option Nat :=
  match r.op with
  | .store bs _ => if u = 8 ∧ bs.length = 8 ∧ s.pageOff cl off = some place then some (natOf bs) else none
  | _ => none

/-- Whether the expert table of a cluster's partition names one of the cluster's banks as a dock target (R222, R268). -/
def State.dockTarget (s : State) (cl bank : Nat) : Bool :=
  match s.partOfCluster cl with
  | none => false
  | some part =>
    let xt := (s.cluster cl).xtBase
    (match s.agentFetch part xt 64 with
      | .ok _ => true
      | .error _ => false) &&
    (List.range 4096).any (fun e => match s.agentFetch part (xt + 0x40 + 32 * e) 32 with
      | .ok (_, bs, _) => (match expertOf bs with
        | some x => x.cl == cl && x.bank == bank
        | none => false)
      | .error _ => false)

/-- After a PUSH by software, the entries held in a bank that is a dock target are undefined (R9, R222). -/
def State.fifoLoose (s : State) (cl bank : Nat) : State :=
  if s.dockTarget cl bank then
    let size := 64 * s.fifoEntsz cl bank
    (List.range (s.fifoWord cl bank 16)).foldl (fun t i =>
      t.wrFree (nearLoc cl 8 (0x80000 * bank + (s.fifoWord cl bank 0 + i) % Nat.max 1 (s.fifoNent cl bank) * size)) size) s
  else s

/-- An access to a FIFO bank at its store port (R222). -/
def State.fifoAt (s : State) (id : Nat) (r : MemReq) (cl off : Nat) : State :=
  let bank := off / 0x80000
  match s.fifoStore r cl 8 off 0x20, s.fifoStore r cl 8 off 0x28 with
  | some n, _ =>
    if n ≤ s.fifoWord cl bank 16 then (s.fifoPop cl bank n).answer id r.back r.va (.data 0) else s.refuse id r cFIFO_UNDER 0
  | _, some n =>
    if n = 0 then s.answer id r.back r.va (.data 0)
    else if n ≤ s.fifoNent cl bank - s.fifoWord cl bank 16 then
      ((s.fifoPush cl bank n).fifoLoose cl bank).answer id r.back r.va (.data 0)
    else s.refuse id r cFIFO_OVER 0
  | none, none =>
    match r.op with
    | .load _ => s.plainAt id r cl 8 off
    | .store _ _ => if (s.pageOff cl off).isSome then s.refuse id r cPROTECTION 0 else s.plainAt id r cl 8 off
    | _ => s.refuse id r cATOMIC_TARGET 0

/-- An access to a cluster store at its port (R194, R218 to R223). -/
def State.storeAt (s : State) (id : Nat) (r : MemReq) (cl off : Nat) : State :=
  if 0x3F8000 ≤ off then s.refuse id r cPROTECTION 0
  else if s.switching cl (off / 0x80000) then s
  else if s.bankMode cl off = 1 then s.refuse id r cBANK_CONFLICT 0
  else if s.bankMode cl off = 2 then s.fifoAt id r cl off
  else match r.op with
    | .nibble _ _ =>
      if s.accessHeld r then s
      else s.onceAt (.port cl) id r (fun t => .ok (t.nearRun cl 8 off r.op))
    | .atomic _ _ => s.refuse id r cATOMIC_TARGET 0
    | .cas _ _ _ => s.refuse id r cATOMIC_TARGET 0
    | _ => s.plainAt id r cl 8 off

/-- The commands of a core not yet complete and issued before a flight that name a row of a tile (R152). -/
def State.rowBusy (s : State) (core id row : Nat) : Bool :=
  let before := fun (c : Cmd) => c.core == core && decide (c.id < id) && rowsMeet c.op.rows [(row, 1)]
  (s.core core).matQ.any before || s.running.any (fun r => before r.2) ||
    (s.cluster (clusterOf core)).wedge.any (fun e => e.members.any before)

/-- An access to accumulator memory (R152). -/
def State.accAt (s : State) (id : Nat) (r : MemReq) (cl off : Nat) : State :=
  let core := r.back.core
  let t := off / 0x10000
  let row := off % 0x10000 / 512
  let own := match r.back with
    | .ctx _ _ => true
    | .count .. => true
    | _ => false
  if !own ∨ clusterOf core ≠ cl ∨ !s.rowHeld core t row then s.refuse id r cTILE_NOT_HELD 0
  else if s.rowBusy core id (128 * t + row) then
    s.releaseWhere cl (fun e => e.members.any (fun c => c.core == core && rowsMeet c.op.rows [(128 * t + row, 1)]))
  else
    let g := s.rowGroup cl t row
    match r.op with
    | .load n =>
      if g.kind = 2 then
        if s.tainted (accRow cl t row) (8 * g.k) then s.refuse id r cUE 0
        else
          let bs := s.rd (accRow cl t row) (8 * g.k) ++ List.replicate 512 0
          s.answer id r.back r.va (.data (natOf ((bs.drop (off % 512)).take n)))
      else s.plainAt id r cl 9 off
    | .store _ _ => if g.kind = 2 then s.refuse id r cTILE_KIND 0 else s.plainAt id r cl 9 off
    | _ => s.refuse id r cATOMIC_TARGET 0

/-- A near access that the protection unit has let through, at its unit. -/
def State.nearAt (s : State) (id : Nat) (r : MemReq) (cl u off : Nat) : State :=
  if u = 9 then s.accAt id r cl off
  else if u = 8 then s.storeAt id r cl off
  else if r.op.indivisible then s.inboxAccess id r (coreOfUnit cl u)
  else s.plainAt id r cl u off

/-- The system core number of a flight's requester, for a record of the arrival log (R313). -/
def State.srcOf (s : State) (b : Back) : Nat :=
  match b with
  | .ctx c _ => s.sysCore c
  | .count c _ _ _ _ => s.sysCore c
  | .remote _ c _ => c
  | _ => 0

/-- The operation that an arrival-log record names beside its kind, as a number that stands for it (R126, R127, R179 to R187). -/
def Flight.logOp : Flight → Nat
  | .mem r => (match r.op with
    | .load n => n
    | .atomic o _ => 0x280 + (match o with
      | .xchg => 0
      | .add => 1
      | .and => 2
      | .or => 3
      | .xor => 4
      | .min => 5
      | .max => 6
      | .minu => 7
      | .maxu => 8
      | .fadd => 9)
    | .cas len _ _ => 0x2A0 + len / 16
    | .nibble hi _ => 0x2B0 + hi.toNat
    | _ => 0)
  | .fut q => (match q.op with
    | .touch _ => 0
    | .ttouch => 1
    | .finish st _ => 2 + st
    | .free => 8
    | .stat => 9
    | .cancel tree => 10 + tree.toNat
    | .join _ _ _ => 12
    | .unlist _ => 13)
  | .wake _ _ st _ => st
  | _ => 0

/-- The fields of an arrival-log record (R313): KIND, data bytes, target, ADDR, SEQ, SRC, AUX. -/
def State.logFields (s : State) (f : Flight) : Nat × List Byte × Nat × Nat × Nat × Nat × Nat :=
  let coreAt := fun (va : Nat) => s.pkgId * 4096 + 8 * (bits va 45 44 * 128 + bits va 43 37) + bits va 36 33 % 8
  let code := Config.logCode f.logOp s.free
  match f with
  | .mem r =>
    let seq := (r.seq.map (·.2)).getD 0
    match r.op with
    | .load _ => (5, [], coreAt r.va, r.va, seq, s.srcOf r.back, code)
    | .store bs _ => (1, bs, coreAt r.va, r.va, seq, s.srcOf r.back, code)
    | op => (2, (op.words.map (bytesOf 8)).flatten, coreAt r.va, r.va, seq, s.srcOf r.back, code)
  | .msg m => (0, (m.pay.map (bytesOf 8)).flatten, m.target, m.hpc, 0, bits m.word 21 0, m.word)
  | .fut q => (3, [], s.pkgId * 4096 + hCore q.handle, q.handle, 0, q.src, code)
  | .wake tok h _ v => (4, bytesOf 8 v, s.pkgId * 4096 + 8 * tokCluster tok, h, 0, s.pkgId * 4096 + hCore h, code)
  | _ => (4, [], 0, 0, 0, 0, code)

/-- The 128 bytes of an arrival-log record (R313). -/
def State.logRecord (s : State) (f : Flight) : List Byte :=
  let (kind, data, target, addr, seq, src, aux) := s.logFields f
  let data := data.take 64
  bytesOf 8 (kind * 2 ^ 60 + data.length * 2 ^ 52 + target) ++ bytesOf 8 addr ++ bytesOf 8 (seq * 2 ^ 32 + src) ++ bytesOf 8 aux ++
    List.replicate 32 0 ++ data ++ List.replicate (64 - data.length) 0

/-- Who hears of a flight, and its address, for a failure or an acceptance. -/
def Flight.backOf : Flight → Back × Nat
  | .mem r => (r.back, r.va)
  | .msg m => (m.back, coreVa m.target)
  | .fut q => (q.back, q.handle)
  | .xlInv v back => (back, v)
  | _ => (.none, 0)

/-- Whether a flight's requester waits for a value, or for the outcome of a step, and not only for its acceptance (R313). -/
def Flight.awaited (f : Flight) : Bool :=
  match f with
  | .mem r => (match r.back with
    | .ctx _ _ => true
    | .host _ _ n => n != 0
    | .remote _ _ _ => (match r.op with
      | .store _ _ => false
      | .nibble _ _ => false
      | _ => true)
    | _ => false)
  | .fut q => decide (q.back ≠ .none)
  | _ => false

/-- A flight that has been accepted: nobody counts it any more. -/
def Flight.uncounted (f : Flight) : Flight :=
  if f.awaited then f
  else match f with
    | .mem r => .mem { r with back := .device }
    | .msg m => .msg { m with back := .none }
    | f => f

/-- An arrival for a partition that is swapped out, or whose log is being replayed, appended to its arrival log (R308, R313,
R314): a posted one counts as accepted; a value-returning one waits for replay. A full log fails it. -/
def State.appendLog (s : State) (id part : Nat) (f : Flight) : State :=
  let p := s.part part
  let (back, va) := f.backOf
  if p.alsize ≤ p.logged.length then s.answer id back va (.fault cARRIVAL_LOG va 0)
  else
    match s.agentWriteAll part (p.alog + 128 * (p.appended % p.alsize)) (s.logRecord f) with
    | (t, some (c, _, _)) => t.answer id back va (.fault c va 0)
    | (t, none) =>
      let q := t.part part
      let t (n : Nat) := t.setPart part { q with appended := q.appended + 1, logged := q.logged ++ [(n, f.uncounted)] }
      if f.awaited then (t id).dropFlight id
      else ({ t s.nextId with nextId := s.nextId + 1 } : State).answer id back va (.data 0)

/-- The cause of a failed partition check at arrival (R308); of a message from another package, MESSAGE_BAD_TARGET (R205). -/
def Flight.barred (f : Flight) : Nat :=
  match f with
  | .msg m => (match m.back with
    | .remote _ _ _ => cMESSAGE_TARGET
    | _ => cPROTECTION)
  | _ => cPROTECTION

/-- What the protection unit of a cluster does with an arrival of a partition (R308): `k` takes it to its target. -/
def State.guarded (s : State) (id cl part : Nat) (f : Flight) (k : State) : State :=
  let (back, va) := f.backOf
  if (s.cluster cl).fenced then s.answer id back va (.fault cNEAR_ABSENT va 0)
  else match s.guard cl part with
    | .deliver => k
    | .log => s.appendLog id part f
    | .refuse => s.answer id back va (.fault f.barred va 0)

/-- A near access on arrival, before its unit: in issue order, not yet taken, and due (R206, R226). -/
def State.nearDue (s : State) (id : Nat) : Option (MemReq × Nat × Nat × Nat) :=
  match lookupId id s.flights with
  | some (.mem r) => match r.near with
    | some loc => if r.stage = .travelling ∧ s.inOrder id ∧ s.retryDue r.refused then
        some (r, nearParts loc) else none
    | none => none
  | _ => none

/-- NEAR_ARRIVAL (R308); stores to POP and PUSH are FIFO_POP's and FIFO_PUSH's. -/
def State.nearArrive (s : State) (id : Nat) : State :=
  match s.nearDue id with
  | some (r, cl, u, off) =>
    s.guarded id cl r.part (.mem r) (
      if (s.fifoStore r cl u off 0x20).isSome ∨ (s.fifoStore r cl u off 0x28).isSome then s else s.nearAt id r cl u off)
  | none => s

/-- NEAR_ARRIVAL (R308). -/
def execNearArrival (id : Nat) (s : State) : Host.Outcome State Fault Refusal := .next (s.nearArrive id)

/-- A store to POP or PUSH of a FIFO bank on arrival (R222). -/
def State.fifoArrive (s : State) (id place : Nat) : State :=
  match s.nearDue id with
  | some (r, cl, u, off) =>
    if (s.fifoStore r cl u off place).isSome ∧ s.guard cl r.part = .deliver ∧ !(s.cluster cl).fenced then s.storeAt id r cl off
    else s
  | none => s

/-- FIFO_POP (R222). -/
def execFifoPop (id : Nat) (s : State) : Host.Outcome State Fault Refusal := .next (s.fifoArrive id 0x20)

/-- FIFO_PUSH (R222). -/
def execFifoPush (id : Nat) (s : State) : Host.Outcome State Fault Refusal := .next (s.fifoArrive id 0x28)

/-- An acknowledgement at its context (R224, R339): a failure is a deferred fault. -/
def State.takeAck (s : State) (id : Nat) (back : Back) (va cause : Nat) : State :=
  let t := s.dropFlight id
  match back with
  | .count core ctx c pc group =>
    let t := if cause = 0 then t else t.logFault core ctx pc va cause c.cls
    t.uncount core ctx c group
  | .cmd n => if cause = 0 then (match t.cmd? n with
      | some c => t.cwTake c 64 0
      | none => t) else t.cmdFail n 0 cause va 64
  | _ => t

/-- The package that a flight has to be carried to, when it is another one (R346). -/
def State.farPkg (s : State) (f : Flight) : Option Nat :=
  let pkg := match f with
    | .mem r => if r.near.isNone ∧ bits r.va 59 56 = 8 then bits r.va 55 46 else s.pkgId
    | .msg m => bits m.target 21 12
    | .fut q => hPkg q.handle
    | .record _ dest _ _ => dest
    | .wake tok _ _ _ => tokPkg tok
    | .cancelReq _ dest _ _ _ => dest
    | .cancelRep h _ _ _ _ => hPkg h
    | .treeCancel _ dest _ _ => dest
    | .post p => p.pkg
    | _ => s.pkgId
  if pkg = s.pkgId then none else some pkg

/-- Whether a port holds a request because its route has changed (R350). -/
def State.portHolds (s : State) (id dest : Nat) : Bool := s.drains.any (fun d => d.dest == dest && !d.left.contains id)

/-- Whether a flight to another package has been sent: one that is counted leaves its context's counter first (R351). -/
def Flight.sentAway : Flight → Bool
  | .mem r => (match r.back with
    | .count .. => false
    | _ => true)
  | .msg m => decide (m.back = .none)
  | _ => true

/-- The package to which a flight goes or has gone. -/
def State.destOf (s : State) (f : Flight) : Option Nat :=
  match f with
  | .sent g => s.farPkg g
  | g => s.farPkg g

/-- The flights on the path to a package (R377). -/
def State.onPath (s : State) (dest : Nat) : List Nat :=
  (s.flights.filter (fun f => decide (s.destOf f.2 = some dest) && f.2.sentAway)).map (·.1)

/-- The requests sent to a package and not yet settled: while new ones are held, those that were sent before (R350). -/
def State.sentTo (s : State) (dest : Nat) : List Nat :=
  match s.drains.find? (fun d => d.dest == dest) with
  | some d => (s.onPath dest).filter d.left.contains
  | none => s.onPath dest

/-- New requests to a package are held until every request sent before is settled, without the rounds of a drain (R350). -/
def State.holdRoute (s : State) (dest : Nat) : State :=
  if s.drains.any (fun d => d.dest == dest) ∨ s.onPath dest = [] then s
  else { s with drains := s.drains ++ [{ dest := dest, round := 0, ends := 0, left := s.onPath dest }] }

/-- Whether a partition has a live port on the route to a package (R349, R373). -/
def State.portLive (s : State) (part dest : Nat) : Bool :=
  (Tbl.get [] s.routePorts dest).any (fun p => (s.part part).ports.contains p && !(Tbl.get Port.reset s.ports p).dead)

/-- A posted operation accepted by a Bexmo port (R228, R351): its counter falls, and the context's hidden count rises. -/
def State.portAccept (s : State) (id dest : Nat) (f : Flight) (back : Back) : State :=
  match back with
  | .count core ctx c _ group =>
    if s.portHolds id dest ∨ !s.inOrder id ∨ !s.portLive (s.partOf core) dest then s
    else
      let t := s.become id (.sent f)
      let x := t.ctxAt core ctx
      (t.setCtxAt core ctx { x with away := x.away + 1 }).uncount core ctx c group
  | _ => s

/-- ACKNOWLEDGEMENT (R224, R228). -/
def State.acknowledge (s : State) (id : Nat) : State :=
  match lookupId id s.flights with
  | some (.ack back va cause) => s.takeAck id back va cause
  | some f => match s.farPkg f with
    | some dest => s.portAccept id dest f f.backOf.1
    | none => s
  | none => s

/-- ACKNOWLEDGEMENT (R224). -/
def execAcknowledgement (id : Nat) (s : State) : Host.Outcome State Fault Refusal := .next (s.acknowledge id)

end Sys2Proof.Machine
end

