-- ==== Sys2Proof/Machine/Fetch.lean ====
section
/-! DEFINITION. Machine/Fetch.lean: the words of instructions, fetched from global memory (R33, R34, R337), the lengths
of instructions, and the body of an active REP (R95). -/
namespace Sys2Proof.Machine

/-- What a fetch of one word finds at once: a fault (cause and AUX), the word, or nothing yet. -/
inductive Fetched where
  | fault (cause aux : Nat)
  | word (w : Nat)
  | missing
  deriving DecidableEq, Repr

/-- A fetch of one word for a context (R34, R337): outside global space it fails; otherwise the word comes from those
fetched ahead, or, where the home slice's TLB covers its page, from its single copy. -/
def State.codeWord (s : State) (core ctx va : Nat) : Fetched :=
  if 2 ^ 60 ≤ va ∨ 10 ≤ bits va 59 56 then .fault cUNMAPPED (xlAux 0 .fetch)
  else if 8 ≤ bits va 59 56 then .fault cPAGE_EXEC (xlAux 0 .fetch)
  else match lookupId va (s.ctxAt core ctx).ahead with
    | some w => .word w
    | none =>
      let part := s.partOf core
      match s.tlbFind (s.home part va) part va with
      | none => .missing
      | some e =>
        match permFault e .fetch with
        | some (c, aux) => .fault c aux
        | none =>
          if s.tainted (e.pa va) 4 then .fault cUE 0
          else .word (natOf (s.gRd part (e.pa va) (bitOf e.pte 8) 4))

/-- The words of the instruction at an address (R33, R41), or the first word that cannot be had. -/
inductive Words where
  | ok (ws : List Nat)
  | fault (va cause aux : Nat)
  | missing (va : Nat)
  deriving DecidableEq, Repr

/-- The words fetched so far are extended until the instruction has all it needs. -/
def State.codeWords (s : State) (core ctx va : Nat) : Nat → List Nat → Words
  | 0, ws => .ok ws
  | fuel + 1, ws =>
    if ws.length ≠ 0 ∧ wordsNeeded ws ≤ ws.length then .ok ws
    else match s.codeWord core ctx (va + 4 * ws.length) with
      | .fault c aux => .fault (va + 4 * ws.length) c aux
      | .missing => .missing (va + 4 * ws.length)
      | .word w => s.codeWords core ctx va fuel (ws ++ [w])

/-- The instruction at an address, in words. -/
def State.instrWords (s : State) (core ctx va : Nat) : Words := s.codeWords core ctx va 4 []

/-- The address after `k` instructions from an address on, or the word that cannot be had (R95). -/
def State.skipInstrs (s : State) (core ctx va : Nat) : Nat → Words
  | 0 => .ok [va]
  | k + 1 => match s.instrWords core ctx va with
    | .ok ws => s.skipInstrs core ctx (va + 4 * ws.length) k
    | w => w

/-- Where the instructions of the body of the active REP begin, as far as the pass under way has come (R95). -/
def State.bodyStarts (s : State) (core ctx : Nat) : List Nat :=
  let base := s.cxAt core ctx cxREPB
  match (s.ctxAt core ctx).body with
  | some (b, l) => if b = base then l else [base]
  | none => [base]

/-- The place of an address among the starts of the body's instructions, which are followed by their lengths as far as needed (R95),
and the starts up to it: none when it is no start, nor the word after the body. -/
def State.bodySearch (s : State) (core ctx pc : Nat) : Nat → List Nat → Except Words (Option (Nat × List Nat))
  | fuel, starts =>
    match starts.findIdx? (fun a => a == pc) with
    | some k => .ok (some (k, starts.take k))
    | none => match fuel with
      | 0 => .ok none
      | fuel + 1 => match s.instrWords core ctx (starts.getLastD 0) with
        | .ok ws => s.bodySearch core ctx pc fuel (starts ++ [starts.getLastD 0 + 4 * ws.length])
        | w => .error w

/-- The number of the body instruction at CX.PC, counted from CX.REPB (R95), with the starts of those before it; the word after the
body counts as one more. -/
def State.bodyIndex (s : State) (core ctx : Nat) : Except Words (Option (Nat × List Nat)) :=
  let n := bits (s.cxAt core ctx cxREPS) 23 20 + 2
  let starts := (s.bodyStarts core ctx).take n
  s.bodySearch core ctx (s.cxAt core ctx cxPC / 4 * 4) (n - starts.length) starts

/-- The executing context has come to an instruction of the body of the active REP, after those that begin at `before`, and it is `len`
words long (R95). -/
def State.noteBody (s : State) (before : List Nat) (len : Nat) : State :=
  s.setMyCtx { s.myCtx with body := some (s.cx cxREPB, before ++ [s.pc, s.pc + 4 * len]) }

/-- A fetch sent to the home slice; the context is STALLED until the word returns (R34). -/
def State.requestFetch (s : State) (va : Nat) : State :=
  let core := s.cur.core
  let ctx := s.cur.ctx
  let t := s.launchFlight (.mem { part := s.partOf core, va := va, near := none, op := .fetch, back := .ctx core ctx,
                                  seq := none, stage := .travelling, refused := none, rel := false, again := false })
  t.stall (.reply s.nextId (.fetch va) s.cur)

end Sys2Proof.Machine
end

