-- ==== Sys2Proof/Machine/Control.lean ====
section
/-! DEFINITION. Machine/Control.lean: branches, jumps, LOOPNZ, REP and REPI (R90 to R96), TRAP and ERET (R361, R362). -/
namespace Sys2Proof.Machine

/-- The target of a displacement in words from the instruction's first word (R38). -/
def State.target (s : State) (imm : Imm) : Nat := (BitVec.ofNat 64 s.pc + 4 * imm.val).toNat

/-- A branch (R90). -/
def State.branch (s : State) (c : Bool) (imm : Imm) : State := if c then s.setPC (s.target imm) else s.advance

/-- REP and REPI with their count (R95): with a count of zero the body is stepped over, each of its instructions fetched
for its length. -/
def State.repeatBody (s : State) (n stride len : Nat) : State :=
  if n = 0 then
    match s.skipInstrs s.cur.core s.cur.ctx s.nextPC (len + 1) with
    | .ok va => s.setPC (va.headD 0)
    | .fault va c aux => s.takeTrap c va aux
    | .missing va => s.requestFetch va
  else
    (((s.setCx cxREPN n).setCx cxREPB s.nextPC).setCx cxREPS (stride * 2 ^ 24 + len * 2 ^ 20 + 1)).setPC s.nextPC

/-- BEQ (R90). -/
def execBeq (a b : GReg) (imm : Imm) (s : State) : Host.Outcome State Fault Refusal :=
  .next (s.branch (s.g a == s.g b) imm)

/-- BNE (R90). -/
def execBne (a b : GReg) (imm : Imm) (s : State) : Host.Outcome State Fault Refusal :=
  .next (s.branch (s.g a != s.g b) imm)

/-- BLT (R90). -/
def execBlt (a b : GReg) (imm : Imm) (s : State) : Host.Outcome State Fault Refusal :=
  .next (s.branch ((s.g a).slt (s.g b)) imm)

/-- BGE (R90). -/
def execBge (a b : GReg) (imm : Imm) (s : State) : Host.Outcome State Fault Refusal :=
  .next (s.branch (!((s.g a).slt (s.g b))) imm)

/-- BLTU (R90). -/
def execBltu (a b : GReg) (imm : Imm) (s : State) : Host.Outcome State Fault Refusal :=
  .next (s.branch ((s.g a).ult (s.g b)) imm)

/-- BGEU (R90). -/
def execBgeu (a b : GReg) (imm : Imm) (s : State) : Host.Outcome State Fault Refusal :=
  .next (s.branch (!((s.g a).ult (s.g b))) imm)

/-- JAL (R91). -/
def execJal (d : GReg) (imm : Imm) (s : State) : Host.Outcome State Fault Refusal :=
  .next ((s.setPC (s.target imm)).setGN d s.nextPC)

/-- JALR: gA is read before gD is written (R92). For MISALIGNED_TARGET the specification names CX.ADDR alone; CX.AUX is zero (DESIGN
CHOICE, log entry 107). -/
def execJalr (d a : GReg) (imm : Imm) (s : State) : Host.Outcome State Fault Refusal :=
  let t := (s.g a + 4 * imm.val).toNat
  if t % 4 ≠ 0 then s.trap cMISALIGNED_TARGET t 0
  else .next ((s.setPC t).setGN d s.nextPC)

/-- LOOPNZ: the test is on the computed count, also where gD is g0 (R93). -/
def execLoopnz (d : GReg) (imm : Imm) (s : State) : Host.Outcome State Fault Refusal :=
  let n := s.g d - 1
  let t := s.setG d n
  .next (if n ≠ 0 then t.setPC (s.target imm) else t.setPC s.nextPC)

/-- REP: the count is gA[31:0] (R94, R95). -/
def execRep (a : GReg) (stride : Fin 8) (len : Fin 16) (s : State) : Host.Outcome State Fault Refusal :=
  .next (s.repeatBody (s.gN a % 2 ^ 32) stride.val len.val)

/-- REPI: the count is an immediate (R94, R95). -/
def execRepi (count : Fin 4096) (stride : Fin 8) (len : Fin 16) (s : State) : Host.Outcome State Fault Refusal :=
  .next (s.repeatBody count.val stride.val len.val)

/-- TRAP (R361). -/
def execTrap (a : GReg) (s : State) : Host.Outcome State Fault Refusal := .next (s.softTrap (s.gN a))

/-- ERET (R362). -/
def execEret (s : State) : Host.Outcome State Fault Refusal := .next s.trapReturn

end Sys2Proof.Machine
end

