-- ==== Sys2Proof/Machine/Fp.lean ====
section
/-! DEFINITION. Machine/Fp.lean: scalar floating point and conversions (R85 to R89). -/
namespace Sys2Proof.Machine

/-- A comparison's truth value as a result with flags (R88). -/
def boolRes (r : Bool × FFlags) : Nat × FFlags := (r.1.toNat, r.2)

/-- An integer result in 64 bits, with flags (R69). -/
def intRes (r : Int × FFlags) : Nat × FFlags := (ofSigned r.1 64, r.2)

/-- FADD (R86). -/
def execFadd (d a b : GReg) (s : State) : Host.Outcome State Fault Refusal :=
  .next (s.doneF d (fAdd s.rm (s.f a) (s.f b)))

/-- FSUB (R86). -/
def execFsub (d a b : GReg) (s : State) : Host.Outcome State Fault Refusal :=
  .next (s.doneF d (fSub s.rm (s.f a) (s.f b)))

/-- FMUL (R86). -/
def execFmul (d a b : GReg) (s : State) : Host.Outcome State Fault Refusal :=
  .next (s.doneF d (fMul s.rm (s.f a) (s.f b)))

/-- FDIV (R86). -/
def execFdiv (d a b : GReg) (s : State) : Host.Outcome State Fault Refusal :=
  .next (s.doneF d (fDiv s.rm (s.f a) (s.f b)))

/-- FMADD, which reads gD (R86). -/
def execFmadd (d a b : GReg) (s : State) : Host.Outcome State Fault Refusal :=
  .next (s.doneF d (fMadd s.rm (s.f a) (s.f b) (s.f d)))

/-- FMSUB, which reads gD (R86). -/
def execFmsub (d a b : GReg) (s : State) : Host.Outcome State Fault Refusal :=
  .next (s.doneF d (fMsub s.rm (s.f a) (s.f b) (s.f d)))

/-- FMIN (R87). -/
def execFmin (d a b : GReg) (s : State) : Host.Outcome State Fault Refusal :=
  .next (s.doneF d (fMinMax true (s.f a) (s.f b)))

/-- FMAX (R87). -/
def execFmax (d a b : GReg) (s : State) : Host.Outcome State Fault Refusal :=
  .next (s.doneF d (fMinMax false (s.f a) (s.f b)))

/-- FSQRT (R86). -/
def execFsqrt (d a : GReg) (s : State) : Host.Outcome State Fault Refusal :=
  .next (s.doneF d (fSqrt s.rm (s.f a)))

/-- FABS, a bit operation without flags (R86). -/
def execFabs (d a : GReg) (s : State) : Host.Outcome State Fault Refusal :=
  .next (s.doneF d ((fAbs (s.f a), {})))

/-- FNEG, a bit operation without flags (R86). -/
def execFneg (d a : GReg) (s : State) : Host.Outcome State Fault Refusal :=
  .next (s.doneF d ((fNeg (s.f a), {})))

/-- FCOPYS, a bit operation without flags (R86). -/
def execFcopys (d a b : GReg) (s : State) : Host.Outcome State Fault Refusal :=
  .next (s.doneF d ((fCopys (s.f a) (s.f b), {})))

/-- FCMPEQ (R88). -/
def execFcmpeq (d a b : GReg) (s : State) : Host.Outcome State Fault Refusal :=
  .next (s.doneF d (boolRes (fCmpEq (s.f a) (s.f b))))

/-- FCMPLT (R88). -/
def execFcmplt (d a b : GReg) (s : State) : Host.Outcome State Fault Refusal :=
  .next (s.doneF d (boolRes (fCmpLt (s.f a) (s.f b))))

/-- FCMPLE (R88). -/
def execFcmple (d a b : GReg) (s : State) : Host.Outcome State Fault Refusal :=
  .next (s.doneF d (boolRes (fCmpLe (s.f a) (s.f b))))

/-- FCMPUN (R88). -/
def execFcmpun (d a b : GReg) (s : State) : Host.Outcome State Fault Refusal :=
  .next (s.doneF d (boolRes (fCmpUn (s.f a) (s.f b))))

/-- FCLASS (R88). -/
def execFclass (d a : GReg) (s : State) : Host.Outcome State Fault Refusal :=
  .next (s.doneF d ((fClass (s.f a), {})))

/-- ITOF (R89). -/
def execItof (d a : GReg) (rc : RoundSel) (s : State) : Host.Outcome State Fault Refusal :=
  .next (s.doneF d (ofInt (s.rmOf rc) (toSigned (s.gN a) 64)))

/-- UTOF (R89). -/
def execUtof (d a : GReg) (rc : RoundSel) (s : State) : Host.Outcome State Fault Refusal :=
  .next (s.doneF d (ofInt (s.rmOf rc) (s.gN a)))

/-- FTOI (R89). -/
def execFtoi (d a : GReg) (rc : RoundSel) (s : State) : Host.Outcome State Fault Refusal :=
  .next (s.doneF d (intRes (toInt (s.rmOf rc) (-2 ^ 63) (2 ^ 63 - 1) (fp32.decode (s.f a)))))

/-- FTOU (R89). -/
def execFtou (d a : GReg) (rc : RoundSel) (s : State) : Host.Outcome State Fault Refusal :=
  .next (s.doneF d (intRes (toInt (s.rmOf rc) 0 (2 ^ 64 - 1) (fp32.decode (s.f a)))))

/-- FTOBF (R89). -/
def execFtobf (d a : GReg) (rc : RoundSel) (s : State) : Host.Outcome State Fault Refusal :=
  .next (s.doneF d (bf16.narrow false (s.rmOf rc) (fp32.decode (s.f a))))

/-- BFTOF: sixteen zero bits appended, exact for every operand, `rc` ignored (R45, R56, R89). -/
def execBftof (d a : GReg) (_rc : RoundSel) (s : State) : Host.Outcome State Fault Refusal :=
  .next (s.doneF d (s.gLow a 16 * 2 ^ 16, {}))

/-- FTOE4, saturating (R65) (R89). -/
def execFtoe4 (d a : GReg) (rc : RoundSel) (s : State) : Host.Outcome State Fault Refusal :=
  .next (s.doneF d (e4m3.narrow true (s.rmOf rc) (fp32.decode (s.f a))))

/-- E4TOF, exact (R65, R89). -/
def execE4tof (d a : GReg) (_rc : RoundSel) (s : State) : Host.Outcome State Fault Refusal :=
  .next (s.doneF d (widen (e4m3.decode (s.gLow a 8)), {}))

/-- FTOE5: without .INF saturating, with it infinities are kept (R65, R89). -/
def execFtoe5 (d a : GReg) (rc : RoundSel) (inf : Bool) (s : State) : Host.Outcome State Fault Refusal :=
  .next (s.doneF d (e5m2.narrow (!inf) (s.rmOf rc) (fp32.decode (s.f a))))

/-- E5TOF, exact; a signalling NaN sets invalid (R65, R89). -/
def execE5tof (d a : GReg) (_rc : RoundSel) (s : State) : Host.Outcome State Fault Refusal :=
  .next (s.doneF d (widen (e5m2.decode (s.gLow a 8)), { nv := (e5m2.decode (s.gLow a 8)).isSig }))

/-- FTOE2, saturating (R65) (R89). -/
def execFtoe2 (d a : GReg) (rc : RoundSel) (s : State) : Host.Outcome State Fault Refusal :=
  .next (s.doneF d (e2m1.narrow true (s.rmOf rc) (fp32.decode (s.f a))))

/-- E2TOF, exact (R65, R89). -/
def execE2tof (d a : GReg) (_rc : RoundSel) (s : State) : Host.Outcome State Fault Refusal :=
  .next (s.doneF d (widen (e2m1.decode (s.gLow a 4)), {}))

end Sys2Proof.Machine
end

