-- ==== Sys2Proof/Machine/Messages.lean ====
section
/-! DEFINITION. Machine/Messages.lean: messages on arrival, activations of the handler context and of the system handlers (R204
to R211, R384), posts at a supervisor mailbox (R363, R364), the end of a HELD task (R360), and the barrier networks (R138,
R216). -/
namespace Sys2Proof.Machine

/-- Whether a message that nobody counts is the first of its sender's to its target (R206). -/
def State.msgFirst (s : State) (id : Nat) (m : Msg) : Bool :=
  match s.flights.find? (fun f => match f.2 with
      | .msg x => decide (x.back = .none) && x.word % 2 ^ 22 == m.word % 2 ^ 22 && x.target == m.target
      | _ => false) with
  | some f => f.1 == id
  | none => true

/-- What a message asks of the inbox that accepts it (R204, R211). -/
def Msg.sys (m : Msg) : SysOp := if m.word / 2 ^ 30 = 3 then .drain m.hpc (m.pay.headD 0) else .handler

/-- A message at its target's inbox: accepted, or refused when it is full (R206, R384). -/
def State.inboxMsg (s : State) (id : Nat) (m : Msg) : State :=
  let core := m.target % 4096
  let src := m.word % 2 ^ 22
  if s.admits core src then
    (s.inboxPut core src m.sys m.part m.hpc m.word 0 m.pay).answer id m.back (coreVa m.target) (.data 0)
  else (s.become id (.msg { m with refused := some s.clock })).noteRefusal core src

/-- A message in its turn at its target (R206, R308). -/
def State.msgArrive (s : State) (id : Nat) (again : Bool) : State :=
  match lookupId id s.flights with
  | some (.msg m) =>
    let ordered := if m.back = .none then s.msgFirst id m else s.inOrder id
    if (s.farPkg (.msg m)).isSome ∨ m.refused.isSome ≠ again ∨ !s.retryDue m.refused ∨ !ordered then s
    else s.guarded id (clusterOf (m.target % 4096)) m.part (.msg m) (s.inboxMsg id m)
  | _ => s

/-- MESSAGE_ARRIVAL (R206). -/
def execMessageArrival (id : Nat) (s : State) : Host.Outcome State Fault Refusal := .next (s.msgArrive id false)

/-- MESSAGE_RETRY (R206). -/
def execMessageRetry (id : Nat) (s : State) : Host.Outcome State Fault Refusal := .next (s.msgArrive id true)

/-- Whether the partition of a cluster is stopping (R311). -/
def State.clusterStops (s : State) (cl : Nat) : Bool :=
  match s.partOfCluster cl with
  | some p => decide ((s.part p).status = .running) && (s.part p).stopping
  | none => false

/-- The message that the next activation of a core takes (R207): the handler context is EMPTY, the outbox is free, and the
partition lets activations start. While the partition stops, no handler starts, and the operations of system handlers are still
performed, so that their counters fall (R311; DESIGN CHOICE, log entry 119). -/
def State.nextMessage (s : State) (core : Nat) : Option InboxEntry :=
  let c := s.core core
  if s.stateAt core 1 ≠ stEMPTY ∨ c.act.isSome ∨ (s.cluster (clusterOf core)).fenced ∨
      s.flights.any (fun f => c.outbox.contains f.1) then none
  else if s.clusterRuns (clusterOf core) then c.inbox.head?
  else if s.clusterStops (clusterOf core) then c.inbox.find? (fun e => decide (e.sys ≠ .handler))
  else none

/-- An inbox slot freed. -/
def State.freeInbox (s : State) (core slot : Nat) : State :=
  s.setCore core { s.core core with inbox := (s.core core).inbox.filter (fun e => e.slot != slot) }

/-- ACTIVATION (R207); the payload words carry their poison to g4 to g7 (R365). -/
def State.activate (s : State) (core : Nat) : State :=
  match s.nextMessage core with
  | none => s
  | some e =>
    if e.sys ≠ .handler then s
    else
      let t := (s.freeRegs core 1).startWords core 1 (s.msgHpc core e.slot) 0 0
      let pay := pmLoc core (0x3B040 + 128 * e.slot)
      let t := [0, 1, 2, 3].foldl (fun t i => t.setGAt core 1 (4 + i) (natOf (s.rd (pay + 8 * i) 8)))
        (t.setGAt core 1 3 (0x09 * 2 ^ 56 + 0x3B000 + 128 * e.slot))
      let t := t.poisonAt (t.wsLoc core 1 32) (s.badAt pay 32)
      let t := t.setCtxAt core 1 { Ctx.reset 1 with wp := (t.ctxAt core 1).wp, away := (t.ctxAt core 1).away }
      t.setCore core { t.core core with
        act := some { slot := e.slot, count := 0, sends := 0, stores := 0, buf := [], out := [], futs := [] } }

/-- ACTIVATION (R207). -/
def execActivation (core : Nat) (s : State) : Host.Outcome State Fault Refusal := .next (s.activate core)

/-- A system activation on a core's private memory (R211): one indivisible operation, which fails on poisoned data where it
reads (R366, R367). -/
def State.systemAccess (s : State) (core : Nat) (nibble : Bool) : State :=
  match s.nextMessage core with
  | some { slot := slot, sys := .access id r, part := _, tries := _ } =>
    let isNib := match r.op with
      | .nibble _ _ => true
      | _ => false
    if isNib ≠ nibble ∨ s.accessHeld r then s
    else
      let (cl, u, off) := nearParts (r.near.getD 0)
      (s.onceAt (.core core) id r (fun t =>
        if r.op.failsOnPoison && t.tainted (nearLoc cl u off) r.op.size then .error cUE
        else
          let x := t.nearRun cl u off r.op
          .ok (t.noteRelease id r (nearLoc cl u off) x.1, x.2))).freeInbox core slot
  | _ => s

/-- SYSTEM_ATOMIC (R211). -/
def execSystemAtomic (core : Nat) (s : State) : Host.Outcome State Fault Refusal := .next (s.systemAccess core false)

/-- SYSTEM_NIBBLE_STORE (R211). -/
def execSystemNibbleStore (core : Nat) (s : State) : Host.Outcome State Fault Refusal := .next (s.systemAccess core true)

/-- DRAIN_WAKE (R159, R211): the future is resolved with the drain's destination. -/
def State.drainWakeAt (s : State) (core : Nat) : State :=
  match s.nextMessage core with
  | some { slot := slot, sys := .drain h v, part := part, tries := _ } =>
    (s.finishFuture core part h fRESOLVED v).freeInbox core slot
  | _ => s

/-- DRAIN_WAKE (R159). -/
def execDrainWake (core : Nat) (s : State) : Host.Outcome State Fault Refusal := .next (s.drainWakeAt core)

/-- The V bit of a mailbox entry (R363). -/
def State.mailV (s : State) (core n : Nat) : Bool := bitOf (natOf (s.rd (pmLoc core (0x3A800 + 32 * (n % 64))) 8)) 63

/-- A context whose fault has been posted becomes HELD (R16, R364). -/
def State.nowHeld (s : State) (core ctx : Nat) : State :=
  if (s.ctxAt core ctx).wait = .posting then
    (s.setCtxAt core ctx { s.ctxAt core ctx with wait := .none }).setStateAt core ctx stHELD
  else s

/-- The source of a post that finds the mailbox full (R364): a task ends FAULTED and a helper ends, and neither becomes HELD; the
control context does. -/
def State.endSource (s : State) (p : Post) : State :=
  match p.source with
  | none => s
  | some (core, ctx) =>
    if s.stateAt core ctx = stEMPTY ∨ (s.ctxAt core ctx).ending.isSome then s
    else if bits p.w0 62 60 = 0 then
      (if s.cxAt core ctx cxFUT = p.aux then s.endWith core ctx (.faulted (bits p.w0 55 47) none) else s)
    else if (s.ctxAt core ctx).helper then s.endWith core ctx .final
    else if ctx = 0 then s.nowHeld core ctx
    else s

/-- A post written at its supervisor's mailbox, after which its source is HELD, or counted lost (R364). -/
def State.mailPost (s : State) (p : Post) : State :=
  let core := (s.part p.part).supv
  let c := s.core core
  if s.mailV core c.mbTail then
    (s.setCore core { c with mbLost := Nat.min (c.mbLost + 1) (2 ^ 32 - 1) }).endSource p
  else
    let n := c.mbTail % 64
    let t := s.wr (pmLoc core (0x3A800 + 32 * n)) (bytesOf 8 (setBits p.w0 63 63 1) ++ bytesOf 8 p.pc ++ bytesOf 8 p.addr ++
      bytesOf 8 p.aux)
    let t := t.setCore core { t.core core with mbTail := c.mbTail + 1 }
    let t := match p.source with
      | some (k, x) => t.nowHeld k x
      | none => t
    if c.mbFut = 0 then t else t.sendFinish core c.mbFut fRESOLVED n

/-- Whether a post is the first of its source (R364). -/
def State.postFirst (s : State) (id : Nat) (p : Post) : Bool :=
  match s.flights.find? (fun f => match f.2 with
      | .post q => q.part == p.part && q.w0 % 2 ^ 22 == p.w0 % 2 ^ 22 && bits q.w0 59 56 == bits p.w0 59 56
      | _ => false) with
  | some f => f.1 == id
  | none => false

/-- MAILBOX_POST (R364): while the partition holds its supervisor's cluster. -/
def State.mailArrive (s : State) (id : Nat) : State :=
  match lookupId id s.flights with
  | some (.post p) =>
    if p.pkg ≠ s.pkgId ∨ s.partOfCluster (clusterOf (s.part p.part).supv) ≠ some p.part ∨ !s.postFirst id p then s
    else (s.dropFlight id).mailPost p
  | _ => s

/-- MAILBOX_POST (R364). -/
def execMailboxPost (id : Nat) (s : State) : Host.Outcome State Fault Refusal := .next (s.mailArrive id)

/-- Whether a future is final: at its home in this package; of one homed elsewhere the event itself tells it (log entry 9). -/
def State.futureOver (s : State) (h : Nat) : Bool :=
  if hPkg h ≠ s.pkgId then true
  else match s.futFind (hCore h) (hSlot h) (hGen h) with
    | .ok (_, some (_, e)) => e.state != fPENDING
    | .ok (_, none) => true
    | .error _ => false

/-- HELD_TASK_END (R360, R371): the task ends, with the other member of its pair. -/
def State.heldEnd (s : State) (core ctx : Nat) : State :=
  match (s.ctxAt core ctx).task with
  | some me =>
    if s.stateAt core ctx ≠ stHELD ∨ !s.futureOver (s.cxAt core ctx cxFUT) then s
    else
      let t := match s.pairOf core ctx with
        | some (p, x) => (s.clearPair p).endOther (if x.mine = me then x.other else x.mine) true
        | none => s
      t.endWith core ctx .final
  | none => s

/-- HELD_TASK_END (R360). -/
def execHeldTaskEnd (core ctx : Nat) (s : State) : Host.Outcome State Fault Refusal := .next (s.heldEnd core ctx)

/-- BARRIER_COMPLETION (R138): a context STALLED on a phase that is complete goes on, with acquire effect. -/
def State.barrierDone (s : State) (core ctx : Nat) : State :=
  match (s.ctxAt core ctx).wait with
  | .barrier key gen at_ =>
    if s.stateAt core ctx ≠ stSTALLED ∨ (s.barrier key).gen = gen then s
    else (({ s.readyAt core ctx with cur := at_ } : State).advance).acquire
  | _ => s

/-- BARRIER_COMPLETION (R138). -/
def execBarrierCompletion (core ctx : Nat) (s : State) : Host.Outcome State Fault Refusal := .next (s.barrierDone core ctx)

/-- BAR.TMO over an object of a level and unit (R216). -/
def State.barTmoOf (s : State) (lvl : Level) (unit : Nat) : Nat :=
  match lvl with
  | .quad => (s.cluster (unit / 2)).barTmo
  | .cluster => (s.cluster unit).barTmo
  | .die => (s.die unit).barTmo
  | .package => s.barTmo

/-- A context STALLED in BARWAIT on a phase traps BARRIER_TIMEOUT (R216). -/
def State.timeOutAt (s : State) (key gen word core ctx : Nat) : State :=
  match (s.ctxAt core ctx).wait with
  | .barrier k g at_ =>
    if k = key ∧ g = gen ∧ s.stateAt core ctx = stSTALLED then
      ({ s.readyAt core ctx with cur := at_ } : State).takeTrap cBARRIER_TIMEOUT 0 word
    else s
  | _ => s

/-- BARRIER_TIMEOUT (R216): after the clock of the expiry, in which a last arrival still completes the phase. -/
def State.barrierTimeout (s : State) (lvl : Level) (unit obj : Nat) : State :=
  let key := barKey lvl unit obj
  let b := s.barrier key
  let tmo := s.barTmoOf lvl unit
  match b.start with
  | none => s
  | some t =>
    if tmo = 0 ∨ b.timedOut ∨ s.clock ≤ t + 1024 * tmo then s
    else
      (s.cores.map (·.1)).foldl (fun u core => (List.range 12).foldl (fun u ctx => u.timeOutAt key b.gen b.word core ctx) u)
        (s.setBarrier key { b with timedOut := true })

/-- BARRIER_TIMEOUT (R216). -/
def execBarrierTimeout (lvl : Level) (unit obj : Nat) (s : State) : Host.Outcome State Fault Refusal :=
  .next (s.barrierTimeout lvl unit obj)

end Sys2Proof.Machine
end

