-- ==== Sys2Proof/Machine/FutEvents.lean ====
section
/-! DEFINITION. Machine/FutEvents.lean: future requests at their homes, cancellations and their propagation, wakes, task records
on arrival, tile prefetches, twin comparison, and the replay of arrival logs (R176, R177, R184, R186, R192, R197, R198, R314,
R369 to R371). -/
namespace Sys2Proof.Machine

/-- Whether a flight works for the cancellation `root` (R186). -/
def Flight.cancels (root : Nat) : Flight → Bool
  | .fut q => q.root == root && (match q.op with
    | .cancel _ => true
    | _ => false)
  | .cancelReq _ _ _ r _ => r == root
  | .cancelRep _ _ _ r _ => r == root
  | .treeCancel _ _ _ r => r == root
  | _ => false

/-- A cancellation answered: its requester hears of it, and so does the partner whose request it also answers (R370). -/
def State.answerCancel (s : State) (root : Nat) (back : Back) (a : Answer) : State :=
  ({ s with cancels := s.cancels.filter (fun x => x.1 != root), flights := s.flights ++ [(root, .ack .none 0 0)] } : State).answer
    root back 0 a

/-- A spill walk for a cancellation has failed: the instruction that asked for it traps, once (R173). -/
def State.cancelFail (s : State) (root : Nat) (b : Bad) : State :=
  match s.cancels.find? (fun c => c.1 == root) with
  | some (_, back, _) => s.answerCancel root back (.fault b.1 b.2.1 b.2.2)
  | none => s

/-- Cancellations whose code is known and whose propagation is complete are answered (R184, R186). -/
def State.settleCancels (s : State) : State :=
  s.cancels.foldl (fun t c => match c with
    | (root, back, some code) =>
      if t.flights.any (fun f => f.2.cancels root) then t else t.answerCancel root back (.data code)
    | _ => t) s

/-- The outcome code of a cancellation whose first request is settled (R184). -/
def State.cancelCode (s : State) (root code : Nat) : State :=
  { s with cancels := s.cancels.map (fun c => if c.1 = root ∧ c.2.2 = none then (c.1, c.2.1, some code) else c) }

/-- The spill walk of a cancel request at its home has failed (R173): CANCEL traps; of a propagated one, the instruction that it belongs
to, and the request stays to be applied when the walk succeeds (DESIGN CHOICE, log entry 120). -/
def State.cancelWalk (s : State) (id : Nat) (q : FutReq) (b : Bad) : State :=
  if q.back = .none then s.cancelFail q.root b
  else (s.answer id q.back q.handle (.fault b.1 b.2.1 b.2.2)).settleCancels

/-- A cancel request at the home of a future (R184): the outcome at once, or a request to its task's scheduler. -/
def State.cancelHome (s : State) (id : Nat) (q : FutReq) (tree : Bool) : State :=
  let h := q.handle
  let core := hCore h
  let first := q.back ≠ .none
  match s.futFind core (hSlot h) (hGen h) with
  | .error b => s.cancelWalk id q b
  | .ok (t, none) => (t.answer id q.back h (.fault cFUT_STALE h 0)).settleCancels
  | .ok (t, some (l, e)) =>
    if e.state ≠ fPENDING then (t.answer id q.back h (.data 0)).settleCancels
    else if e.tied then
      let t := t.dropFlight id
      let t : State := if first then { t with cancels := t.cancels ++ [(q.root, q.back, none)] } else t
      t.launchFlight (.cancelReq h (tokPkg (e.value % 2 ^ 32)) (tokCluster (e.value % 2 ^ 32)) q.root tree)
    else match t.futPut core (hSlot h) l { e with dcan := e.dcan || tree } with
      | .error b => s.cancelWalk id q b
      | .ok t => match t.finishAt core (hSlot h) (hGen h) fCANCELLED 0 with
        | .error b => s.cancelWalk id q b
        | .ok (u, _) => (u.answer id q.back h (.data 4)).settleCancels

/-- What a scheduler's reply to a cancel request does to the future at its home (R184, R186): the state, the outcome code, and whether
the cancellation propagates. A task that was found RUNNING or PARKED has its request set: its code stands, and its cancellation
propagates, although the task may have ended since. -/
def State.cancelTry (s : State) (h code : Nat) (tree : Bool) : Except Bad (State × Nat × Bool) :=
  let core := hCore h
  match s.futFind core (hSlot h) (hGen h) with
  | .error b => .error b
  | .ok (t, none) => .ok (t, if code = 3 then 3 else 0, tree && code == 3)
  | .ok (t, some (l, e)) =>
    if code = 0 ∨ (e.state ≠ fPENDING ∧ code ≠ 3) then .ok (t, 0, false)
    else match if tree then t.futPut core (hSlot h) l { e with dcan := true } else .ok t with
      | .error b => .error b
      | .ok t =>
        if code = 3 then .ok (t, 3, tree)
        else match t.finishAt core (hSlot h) (hGen h) fCANCELLED 0 with
          | .error b => .error b
          | .ok (u, _) => .ok (u, code, tree)

/-- A scheduler's reply to a cancel request, applied at the future's home (R184, R186): `place` is the scheduler's cluster and package.
When the spill walk fails, the instruction traps (R173), and the reply stays to be applied when it succeeds (DESIGN CHOICE, log entry
120). -/
def State.cancelApply (s : State) (id h place code root : Nat) (tree : Bool) : State :=
  match (s.dropFlight id).cancelTry h code tree with
  | .error b => s.cancelFail root b
  | .ok (t, code, more) =>
    let t := if more then t.launchFlight (.treeCancel h (place / 512) (place % 512) root) else t
    (t.cancelCode root code).settleCancels

/-- A future request on arrival at its home (R192, R308). -/
def State.futAt (s : State) (id : Nat) (q : FutReq) : State :=
  match q.op with
  | .cancel tree => s.cancelHome id q tree
  | op =>
    let r := s.futApply q.handle op
    r.1.answer id q.back q.handle r.2

/-- Whether a request of the device's own to the same future, or another reply about it, travels ahead (R184). -/
def State.finishAhead (s : State) (id h : Nat) : Bool :=
  (s.flights.takeWhile (fun f => f.1 != id)).any (fun f => match f.2 with
    | .fut q => q.handle == h && decide (q.back = .none)
    | .cancelRep h' _ _ _ _ => h' == h
    | _ => false)

/-- FUTURE_REQUEST (R192). -/
def State.futureRequest (s : State) (id : Nat) : State :=
  match lookupId id s.flights with
  | some (.fut q) =>
    if hPkg q.handle ≠ s.pkgId then s
    else s.guarded id (clusterOf (hCore q.handle)) q.part (.fut q) (s.futAt id q)
  | some (.cancelRep h cl code root tree) =>
    if hPkg h ≠ s.pkgId ∨ s.finishAhead id h then s else s.cancelApply id h cl code root tree
  | _ => s

/-- FUTURE_REQUEST (R192). -/
def execFutureRequest (id : Nat) (s : State) : Host.Outcome State Fault Refusal := .next (s.futureRequest id)

/-- A waiter's token taken off a future's list, at its home (R184, R311): in one step, or by a request to another package. -/
def State.unlist (s : State) (h tok : Nat) : Except Bad State :=
  if hPkg h ≠ s.pkgId then .ok (s.launchFlight (.fut { handle := h, op := .unlist tok, part := hPart h, back := .none, root := 0,
                                                       src := s.sysCore (8 * tokCluster tok) }))
  else match s.futFind (hCore h) (hSlot h) (hGen h) with
    | .error b => .error b
    | .ok (t, none) => .ok t
    | .ok (t, some (l, e)) => t.futPut (hCore h) (hSlot h) l { e with waiters := e.waiters.filter (fun w => w != tok) }

/-- CANREQ set in the saved status of a task without a context (R184). -/
def State.cancelSaved (s : State) (cl rid : Nat) (k : Task) : State :=
  match k.ws with
  | .resident core wp =>
    let l := pmLoc core (wp + cxSTATUS)
    s.wr l (bytesOf 8 (setBits (natOf (s.rd l 8)) 9 9 1))
  | .saved =>
    let va := s.saveVa cl rid + cxSTATUS
    match s.agentRead (hPart k.handle) va 8 with
    | .error (c, _) => s.failPosted cl rid k.core c va
    | .ok (t, bs) => match t.agentWrite (hPart k.handle) va (bytesOf 8 (setBits (natOf bs) 9 9 1)) with
      | .error (c, _) => t.failPosted cl rid k.core c va
      | .ok u => u
  | .fresh => s

/-- A PARKED task taken off what it waits for and made READY, to execute again the instruction it parked in (R184). -/
def State.unpark (s : State) (cl rid : Nat) : Except Bad State :=
  let k := s.task cl rid
  let t := match k.resume with
    | .inTouch _ h _ => s.unlist h (mkToken s.pkgId cl rid)
    | .inCwait _ _ _ => .ok { s with cwaits := s.cwaits.filter (fun w => w.2 != (true, cl, rid)) }
    | _ => .ok s
  t.map (fun t => t.makeReady cl rid { t.task cl rid with resume := .again })

/-- The prefetch of a task aborted (R184): what is in flight lands with undefined contents (R9). -/
def State.abortPrefetch (s : State) (cl rid : Nat) : State :=
  let ids := (s.running.filter (fun r => decide (r.2.owner = .task cl rid))).map (·.1)
  let t := s.flights.foldl (fun t f => match f.2 with
    | .engWrite w => if ids.contains w.cmd then (match vaLoc w.va with
        | some l => (t.wrFree l w.bytes.length).dropFlight f.1
        | none => t.dropFlight f.1) else t
    | _ => t) s
  ({ t with running := t.running.filter (fun r => !ids.contains r.1) } : State).wakeCluster cl

/-- A cancel request at a scheduler, for one task by its stage (R184): the state and the outcome code, or a failed spill walk (R173). -/
def State.cancelTask (s : State) (cl rid : Nat) : Except Bad (State × Nat) :=
  let k := s.task cl rid
  if k.stage = sgQUEUED ∨ k.stage = sgREADY then .ok (s.freeTask cl rid, 1)
  else if k.stage = sgPREFETCHING then .ok ((s.abortPrefetch cl rid).freeTask cl rid, 2)
  else if k.stage = sgRUNNING then
    .ok (if (s.ctxAt k.core k.ctx).wait = .copyIn then s.cancelSaved cl rid { k with ws := .saved }
         else s.setCxAt k.core k.ctx cxSTATUS (setBits (s.cxAt k.core k.ctx cxSTATUS) 9 9 1), 3)
  else
    let t := s.cancelSaved cl rid k
    if (t.task cl rid).used then (t.unpark cl rid).map (fun t => (t, 3)) else .ok (t, 3)

/-- The members of the pair of a task, itself first; of an ordinary task, the task alone (R369). -/
def State.members (s : State) (cl rid : Nat) : List (Nat × Nat) :=
  match (s.task cl rid).twin.bind s.pair? with
  | some x => (cl, rid) :: (if (s.task (x.otherOf (some (cl, rid))).1 (x.otherOf (some (cl, rid))).2).used then
      [x.otherOf (some (cl, rid))] else [])
  | none => [(cl, rid)]

/-- A pair is cancelled jointly (R371): while neither member has begun, both records are removed; else those that have begun see the
request, and the pair ends with them. -/
def State.cancelMembers (s : State) (cl rid : Nat) : Except Bad (State × Nat) :=
  let ms := s.members cl rid
  let began := ms.filter (fun m => decide (sgRUNNING ≤ (s.task m.1 m.2).stage))
  (if began = [] then ms else began).foldlM (fun acc m => (acc.1.cancelTask m.1 m.2).map (fun r => (r.1, if acc.2 = 0 then r.2 else acc.2)))
    (s, 0)

/-- Whether a task's TERM is on its way to its future's home: what it resolves precedes the cancellation (R192). -/
def State.resolving (s : State) (m : Nat × Nat) : Bool :=
  let k := s.task m.1 m.2
  k.stage == sgRUNNING && (match (s.ctxAt k.core k.ctx).wait with
    | .reply _ .ended _ => true
    | _ => false)

/-- The record of a future's task in a cluster. -/
def State.recordOf (s : State) (cl h : Nat) : Option Nat :=
  ((s.cluster cl).tasks.find? (fun k => k.2.used && k.2.handle / 2 ^ 10 == h / 2 ^ 10)).map (·.1)

/-- CANCEL_REQUEST (R184, R371). A request never overtakes the record that it names, and waits while the task's TERM is being carried
out. -/
def State.cancelAtCluster (s : State) (id : Nat) : State :=
  match lookupId id s.flights with
  | some (.cancelReq h pkg cl root tree) =>
    let waits := s.flights.any (fun f => match f.2 with
      | .record _ _ _ r => r.handle == h
      | _ => false)
    if pkg ≠ s.pkgId ∨ waits then s
    else match s.recordOf cl h with
      | none => s.become id (.cancelRep h (s.pkgId * 512 + cl) 0 root tree)
      | some rid =>
        if (s.members cl rid).any s.resolving then s
        else match s.cancelMembers cl rid with
          | .error b => s.cancelFail root b
          | .ok (t, code) => t.become id (.cancelRep h (s.pkgId * 512 + cl) code root tree)
  | _ => s

/-- CANCEL_REQUEST (R184). -/
def execCancelRequest (id : Nat) (s : State) : Host.Outcome State Fault Refusal := .next (s.cancelAtCluster id)

/-- The PENDING futures of a core, in its table and its spill area, whose parent is a future (R186): core, slot, generation and
partition; or a failed walk (R173). -/
def State.childrenOf (s : State) (core h : Nat) : Except Bad (List (Nat × Nat × Nat × Nat)) :=
  let mine := ((s.core core).futs.filter (fun e => e.2.state == fPENDING && decide (e.2.parent = h) && e.2.parent != 0)).map
    (fun e => (core, e.1, e.2.gen, e.2.part))
  (List.range (s.core core).ftSpEnt).foldlM (fun l i => (s.spillRead core (s.spillVa core i)).map (fun r =>
    if bitOf r.2 0 ∧ bits r.2 37 35 = fPENDING ∧ bits r.2 255 192 = h ∧ h ≠ 0 then
      l ++ [(core, bits r.2 47 38, bits r.2 63 48, bits r.2 23 20)] else l)) mine

/-- TREE_CANCEL (R186): every such future of the cluster's cores is cancelled as by CANCEL.TREE. When a walk fails, the instruction
traps (R173), and the message stays to be carried out when it succeeds (DESIGN CHOICE, log entry 120). -/
def State.treeCancel (s : State) (id : Nat) : State :=
  match lookupId id s.flights with
  | some (.treeCancel h pkg cl root) =>
    if pkg ≠ s.pkgId then s
    else match (List.range 8).foldlM (fun l i => (s.childrenOf (8 * cl + i) h).map (fun m => l ++ m)) [] with
      | .error b => s.cancelFail root b
      | .ok found =>
        (found.foldl (fun t c => t.launchFlight (.fut
          { handle := mkHandle s.pkgId c.1 c.2.1 c.2.2.1 c.2.2.2, op := .cancel true, part := c.2.2.2, back := .none, root := root,
            src := s.sysCore (hCore h) })) (s.dropFlight id)).settleCancels
  | _ => s

/-- TREE_CANCEL (R186). -/
def execTreeCancel (id : Nat) (s : State) : Host.Outcome State Fault Refusal := .next (s.treeCancel id)

/-- A wake that cannot be delivered (R176, R372): a post of KIND 6 to the future's partition. -/
def State.undeliverable (s : State) (tok h : Nat) : State :=
  s.post { pkg := hPkg h, part := hPart h, w0 := postWord 6 0 cWAKE_UNDELIVERABLE (hPkg h * 4096 + hCore h), pc := 0, addr := tok,
           aux := h, source := none }

/-- Whether a context still waits for the answer that listed it on a future. -/
def State.listing (s : State) (core ctx h : Nat) : Bool :=
  match (s.ctxAt core ctx).wait with
  | .reply _ (.touch _ h' _) _ => h' == h
  | _ => false

/-- A wake at a waiter that stays STALLED in TOUCH (R176, R177): the control context or a helper. -/
def State.wakeCtx (s : State) (id core ctx h st v : Nat) : State :=
  if s.listing core ctx h then s
  else match (s.ctxAt core ctx).wait with
    | .listed d h' at_ =>
      if h' = h ∧ s.stateAt core ctx = stSTALLED then
        ({ (s.dropFlight id).readyAt core ctx with cur := at_ } : State).finishTouch d h st v
      else s.dropFlight id
    | _ => s.dropFlight id

/-- A task parked in TOUCH on a future made READY with the carried state (R176). -/
def State.wakeTask (s : State) (cl rid h st v : Nat) : State :=
  let k := s.task cl rid
  match k.resume with
  | .inTouch d h' at_ =>
    if k.used ∧ k.stage = sgPARKED ∧ h' = h then s.makeReady cl rid { k with resume := .touched d h st v at_ } else s
  | _ => s

/-- Whether a task is about to park in TOUCH on a future. -/
def State.parking (s : State) (cl rid h : Nat) : Bool :=
  let k := s.task cl rid
  k.used && k.stage == sgRUNNING && s.listing k.core k.ctx h

/-- A wake that the protection unit lets through (R176, R177, R370): a pair is one waiter. One whose waiter a reset has ended cannot be
delivered (R372). -/
def State.wakeDeliver (s : State) (id tok h st v : Nat) : State :=
  let cl := tokCluster tok
  let n := tokId tok
  if s.orphans.contains (tok, h) then
    ({ s.dropFlight id with orphans := s.orphans.erase (tok, h) } : State).undeliverable tok h
  else if 0x1F08 ≤ n then s.wakeCtx id (8 * cl + (n - 0x1F08) / 10) ((n - 0x1F08) % 10 + 2) h st v
  else if 0x1F00 ≤ n then s.wakeCtx id (8 * cl + (n - 0x1F00)) 0 h st v
  else
    let other := ((s.task cl n).twin.bind s.pair?).map (fun x => x.other)
    let late := s.parking cl n h || (match other with
      | some o => s.parking o.1 o.2 h
      | none => false)
    if late then s
    else
      let t := (s.dropFlight id).wakeTask cl n h st v
      match other with
      | some o => t.wakeTask o.1 o.2 h st v
      | none => t

/-- Whether a wake is the first from its home to its cluster (R176). -/
def State.wakeFirst (s : State) (id tok h : Nat) : Bool :=
  match s.flights.find? (fun f => match f.2 with
      | .wake t h' _ _ => tokCluster t == tokCluster tok && tokPkg t == tokPkg tok && hCore h' == hCore h && hPkg h' == hPkg h
      | _ => false) with
  | some f => f.1 == id
  | none => false

/-- FUTURE_WAKE (R177, R308); one to a package that no FULL path reaches is dropped (R379). -/
def State.futureWake (s : State) (id : Nat) : State :=
  match lookupId id s.flights with
  | some (.wake tok h st v) =>
    let cl := tokCluster tok
    if tokPkg tok ≠ s.pkgId then (if s.routeClass (tokPkg tok) ≠ 1 then (s.dropFlight id).undeliverable tok h else s)
    else if !s.wakeFirst id tok h then s
    else if (s.cluster cl).fenced then (s.dropFlight id).undeliverable tok h
    else match s.guard cl (hPart h) with
      | .deliver => s.wakeDeliver id tok h st v
      | .log => s.appendLog id (hPart h) (.wake tok h st v)
      | .refuse => (s.dropFlight id).undeliverable tok h
  | _ => s

/-- FUTURE_WAKE (R177). -/
def execFutureWake (id : Nat) (s : State) : Host.Outcome State Fault Refusal := .next (s.futureWake id)

/-- The pair of a twin's primary made, and its partner's record sent (R369): `none` when no cluster qualifies. -/
def State.takeTwin (s : State) (home cl : Nat) (r : TaskRec) : Option State :=
  match s.partnerCluster cl (hPart r.handle) with
  | none => none
  | some c =>
    let p := s.nextId
    let q := s.takeRecord cl { r with pair := some p }
    match q.2 with
    | none => some q.1
    | some rid =>
      let x : Pair := { mine := (cl, rid), other := (c, 0x2000), qa := [], qb := [], crcA := 0xFFFFFFFF, crcB := 0xFFFFFFFF, again := false }
      let t : State := { q.1 with nextId := Nat.max q.1.nextId (p + 1), pairs := q.1.pairs ++ [(p, x)] }
      some (t.launchFlight (.record home s.pkgId c { r with pair := some p, elig := 0xFF }))

/-- A record taken by its scheduler: an ordinary task, a primary, or a partner (R197, R369). -/
def State.admitRecord (s : State) (home cl : Nat) (r : TaskRec) : State :=
  match r.pair with
  | some p =>
    let q := s.takeRecord cl r
    (match q.2, q.1.pair? p with
    | some rid, some x => q.1.setPair p { x with other := (cl, rid) }
    | none, some x => q.1.endOther x.mine true
    | _, none => q.1)
  | none =>
    if r.twin then (match s.takeTwin home cl r with
      | some t => t
      | none => s.sendFinish (8 * cl) r.handle fFAULTED cTWIN_PARTNER)
    else (s.takeRecord cl r).1

/-- Whether a record is the first from its home to its cluster (R184). -/
def State.recordFirst (s : State) (id home pkg cl : Nat) : Bool :=
  match s.flights.find? (fun f => match f.2 with
      | .record h p c _ => h == home && p == pkg && c == cl
      | _ => false) with
  | some f => f.1 == id
  | none => false

/-- TASK_RECORD_ARRIVAL (R197). A record for a partition that is swapped out waits for its return. -/
def State.recordArrive (s : State) (id : Nat) : State :=
  match lookupId id s.flights with
  | some (.record home pkg cl r) =>
    if pkg ≠ s.pkgId ∨ !s.recordFirst id home pkg cl then s
    else if (s.cluster cl).fenced then (s.dropFlight id).sendFinish (8 * cl) r.handle fFAULTED cNEAR_ABSENT
    else match s.guard cl (hPart r.handle) with
      | .deliver => (s.dropFlight id).admitRecord home cl r
      | .log => s
      | .refuse => (s.dropFlight id).sendFinish (8 * cl) r.handle fFAULTED cPROTECTION
  | _ => s

/-- TASK_RECORD_ARRIVAL (R197). -/
def execTaskRecordArrival (id : Nat) (s : State) : Host.Outcome State Fault Refusal := .next (s.recordArrive id)

/-- A tile reference (R196): base, bytes per row, rows and stride; `none` when its reserved word is not zero. -/
def tileOf (bs : List Byte) : Option (Nat × Nat × Nat × Int) :=
  let w (o n : Nat) := natOf ((bs.drop o).take n)
  if w 24 8 ≠ 0 then none else some (w 0 8, w 8 4, w 12 4, toSigned (w 16 8) 64)

/-- The bytes of a tile's packed copy (R196). -/
def tileBytes (t : Nat × Nat × Nat × Int) : Nat := if t.2.1 = 0 then 0 else t.2.2.1 * ((t.2.1 + 63) / 64 * 64)

/-- The tiles that the TREFs of a record name (R195, R196), or the cause of a failed prefetch (R198). -/
def State.readTiles (s : State) (cl part : Nat) (trefs : List Nat) : Except Nat (State × List (Option (Nat × Nat × Nat × Int))) :=
  trefs.foldl (fun acc t => match acc with
    | .error c => .error c
    | .ok (u, ts) =>
      if t = 0 then .ok (u, ts ++ [none])
      else if t = 0xFFFFFFFF then .error cTASK_TILE
      else match u.agentRead part (((s.cluster cl).trBase + 32 * (t - 1)) % 2 ^ 64) 32 with
        | .error (c, _) => .error c
        | .ok (u, bs) => match tileOf bs with
          | none => .error cTASK_TILE
          | some x => .ok (u, ts ++ [some x])) (.ok (s, []))

/-- The parts of a cluster's prefetch pool in use: offsets and lengths. -/
def State.poolUsed (s : State) (cl : Nat) : List (Nat × Nat) :=
  (s.cluster cl).tasks.filterMap (fun k => if k.2.used then k.2.pool else none)

/-- The lowest free range of the pool that holds some bytes (R198): it starts where the pool or a part in use ends. -/
def State.poolRoom (s : State) (cl n : Nat) : Option Nat :=
  let c := s.cluster cl
  let used := (s.poolUsed cl).filter (fun p => p.2 != 0)
  let starts := (c.pfBase :: used.map (fun p => p.1 + p.2)).foldl (fun l x => insertNat x l) []
  starts.find? (fun a => decide (a + n ≤ c.pfBase + c.pfSize) &&
    used.all (fun p => decide (a + n ≤ p.1) || decide (p.1 + p.2 ≤ a)))

/-- Whether part of a cluster's prefetch pool lies in a bank that is not SCRATCH (R198). -/
def State.poolBarred (s : State) (cl : Nat) : Bool :=
  let c := s.cluster cl
  decide (0 < c.pfSize) && (List.range 8).any (fun b => decide (c.pfBase < 0x80000 * (b + 1)) &&
    decide (0x80000 * b < c.pfBase + c.pfSize) && s.bankMode cl (0x80000 * b) != 0)

/-- The places of tiles in a granted range, packed one after the other, and 0xFFFFFFFF for those without bytes (R196, R198). -/
def placeTiles (at_ : Nat) : List (Option (Nat × Nat × Nat × Int)) → List Nat
  | [] => []
  | t :: rest =>
    let n := (t.map tileBytes).getD 0
    (if n = 0 then 0xFFFFFFFF else at_) :: placeTiles (at_ + n) rest

/-- The writes of a prefetch (R196, R198). -/
def prefetchPlan (near : Nat → Nat) (offs : List Nat) (ts : List (Option (Nat × Nat × Nat × Int))) : List Chunk :=
  ((List.range ts.length).foldl (fun (acc : List Chunk × Nat) j =>
    match ts.getD j none with
    | some (base, rb, rows, stride) =>
      if rb = 0 ∨ rows = 0 then acc
      else (List.range rows).foldl (fun acc i =>
        (acc.1 ++ copyChunks 0 acc.2 (near (offs.getD j 0 + i * ((rb + 63) / 64 * 64))) (ofSigned (base + i * stride) 64) rb,
         acc.2 + rb)) acc
    | none => acc) ([], 0)).1

/-- The QUEUED task that the scheduler considers next: by priority, then in order of arrival (R198). -/
def State.prefetchHead (s : State) (cl : Nat) : Option Nat :=
  ([3, 2, 1, 0].flatMap (fun p => (s.cluster cl).queued.filter (fun r => (s.task cl r).pri == p))).head?

/-- A failed prefetch: the task is DONE with its future FAULTED (R198). -/
def State.failPrefetch (s : State) (cl rid cause : Nat) : State := s.failTask cl rid cause

/-- Whether every prefetch of a cluster that has started has acquired its last segment (R232). -/
def State.prefetchTurn (s : State) (cl : Nat) : Bool :=
  s.running.all (fun r => match r.2.owner with
    | .task c _ => c != cl || r.2.acquired
    | _ => true)

/-- PREFETCH_GRANT (R198, R232). -/
def State.prefetchGrant (s : State) (cl : Nat) : State :=
  match s.prefetchHead cl with
  | none => s
  | some rid =>
    if !s.prefetchTurn cl then s else
    let k := s.task cl rid
    match s.recRead cl rid 48 16 with
    | .error (c, a) => s.failPosted cl rid (8 * cl) c a
    | .ok (t, bs) =>
      match t.readTiles cl (hPart k.handle) ((List.range 4).map (fun i => natOf ((bs.drop (4 * i)).take 4))) with
      | .error c => t.failPrefetch cl rid c
      | .ok (t, ts) =>
        let total := (ts.map (fun x => (x.map tileBytes).getD 0)).sum
        if (t.cluster cl).pfSize < total then t.failPrefetch cl rid cTASK_TILE
        else if t.poolBarred cl then t.failPrefetch cl rid cBANK_CONFLICT
        else match t.poolRoom cl total with
          | none => s
          | some at_ =>
            let offs := placeTiles at_ ts
            let near := fun off => t.pkgId * 2 ^ 46 + nearLoc cl 8 off
            let c : Cmd :=
              { id := t.nextId, core := 8 * cl, ctx := 0, pc := 0, part := hPart k.handle, pri := k.pri, since := t.clock,
                cw := .none, bytes := total, fmt := .reset, op := .bytes 0 (near at_) total, owner := .task cl rid,
                todo := prefetchPlan near offs ts, failed := none, dmask := 0, wake := none, shelves := [], held := [] }
            let t : State := { t with nextId := t.nextId + 1 }
            let t := t.setCluster cl { t.cluster cl with queued := (t.cluster cl).queued.filter (fun x => x != rid) }
            (t.runCmd c).putStage cl rid { k with stage := sgPREFETCHING, pool := some (at_, total), offs := offs }

/-- PREFETCH_GRANT (R198). -/
def execPrefetchGrant (cl : Nat) (s : State) : Host.Outcome State Fault Refusal := .next (s.prefetchGrant cl)

/-- PREFETCH_DONE (R197, R198): every byte has landed, or the copy has failed. -/
def State.prefetchDone (s : State) (cl rid : Nat) : State :=
  match s.running.find? (fun r => decide (r.2.owner = .task cl rid)) with
  | none => s
  | some (id, c) =>
    if c.todo ≠ [] ∨ s.flights.any (fun f => f.2.ofCmd id) then s
    else
      let t : State := ({ s with running := dropId id s.running } : State).wakeCluster cl
      match c.failed with
      | some (cause, _) => t.failPrefetch cl rid cause
      | none => t.makeReady cl rid (t.task cl rid)

/-- PREFETCH_DONE (R197). -/
def execPrefetchDone (cl rid : Nat) (s : State) : Host.Outcome State Fault Refusal := .next (s.prefetchDone cl rid)

/-- A request without what names its member: its core and context, its sequence number, and its core in handles and messages (R370;
DESIGN CHOICE, log entry 121). -/
def Back.plain : Back → Back
  | .ctx _ _ => .ctx 0 0
  | .count _ _ c _ _ => .count 0 0 c 0 0
  | b => b

/-- A handle as the comparator sees it: the home of one homed at its member's core stands for the member's own (R370). -/
def ownHandle (core h : Nat) : Nat := if hCore h = core then setBits h 51 40 0 else h

/-- A future operation as the comparator sees it. -/
def FutOp.plain : FutOp → FutOp
  | .touch (some _) => .touch (some 0)
  | op => op

/-- A request of a member as the comparator sees it (R370). -/
def Flight.plain (core : Nat) : Flight → Flight
  | .mem r => .mem { r with near := none, back := r.back.plain, seq := none }
  | .fut q => .fut { q with handle := ownHandle core q.handle, op := q.op.plain, back := q.back.plain, root := 0 }
  | .record _ pkg cl r => .record 0 pkg cl { r with handle := ownHandle core r.handle }
  | .msg m => .msg { m with word := m.word / 2 ^ 22, back := m.back.plain }
  | f => f

/-- The operation of a request by number. -/
def MemOp.code : MemOp → Nat
  | .load n => 8 * n
  | .fetch => 1
  | .prefetch => 2
  | .store _ _ => 3
  | .nibble hi _ => 4 + 8 * hi.toNat
  | .atomic _ _ => 5
  | .cas len _ _ => 6 + 8 * len

/-- The fields of a request's header, and its data (R370). -/
def Flight.hashed : Flight → List Nat × List Byte
  | .mem r => ([0, r.part, r.va, r.op.code, (Flight.mem r).logOp, r.rel.toNat], match r.op with
    | .store bs _ => bs
    | op => (op.words.map (bytesOf 8)).flatten)
  | .fut q => ([1, q.part, q.handle, (Flight.fut q).logOp, match q.op with
    | .touch (some _) => 1
    | _ => 0], match q.op with
    | .finish _ v => bytesOf 8 v
    | .join _ count done => bytesOf 8 count ++ bytesOf 8 done
    | _ => [])
  | .record _ pkg cl r => ([2, pkg, cl, r.pc, r.pri, r.handle, r.twin.toNat, r.rst.toNat, r.elig], ((r.args ++ r.tiles).map (bytesOf 8)).flatten)
  | .msg m => ([3, m.part, m.target, m.hpc, m.word], (m.pay.map (bytesOf 8)).flatten)
  | _ => ([], [])

/-- The CRC-32C of a member's requests, chained over one more (R370). -/
def Flight.chained (core crc : Nat) (f : Flight) : Nat :=
  let x := (f.plain core).hashed
  (Config.requestHeader x.1 ++ x.2).foldl crcByte crc

/-- Whether a request leaves a member's core to be compared (R370). -/
def Flight.compared (core ctx : Nat) (f : Flight) : Bool :=
  let mine := fun (b : Back) => match b with
    | .ctx c x => c == core && x == ctx
    | .count c x _ _ _ => c == core && x == ctx
    | _ => false
  match f with
  | .mem r => mine r.back || (decide (r.back = .none) && decide (r.op = .prefetch))
  | .fut q => mine q.back
  | .record home _ _ _ => home == core
  | .msg m => mine m.back
  | _ => false

/-- A pair that has diverged (R371): what is not matched is dropped, and a member that runs ends as mismatched. -/
def State.diverge (s : State) (p : Nat) (x : Pair) : State :=
  let t := s.clearPair p
  let runs := fun (m : Nat × Nat) => (t.task m.1 m.2).used && (t.task m.1 m.2).stage == sgRUNNING
  let m := if runs x.mine then x.mine else x.other
  let k := t.task m.1 m.2
  if runs m then t.endWith k.core k.ctx (.mismatch cTWIN_MISMATCH) else t

/-- TWIN_COMPARE (R370, R371): the hashes chained over the members' next requests agree and the primary's is forwarded, or the pair has
diverged. -/
def State.twinCompare (s : State) (p : Nat) : State :=
  match s.pair? p with
  | none => s
  | some x =>
    match x.qa, x.qb with
    | (ia, fa) :: qa, (ib, fb) :: qb =>
      let a := (s.task x.mine.1 x.mine.2).core
      let b := (s.task x.other.1 x.other.2).core
      if fa.chained a x.crcA = fb.chained b x.crcB then
        let t := s.setPair p { x with qa := qa, qb := qb, crcA := fa.chained a x.crcA, crcB := fb.chained b x.crcB }
        let back := fb.backOf.1
        let alias_ := match back with
          | .ctx _ _ => [(ia, ib, back)]
          | .count .. => [(ia, ib, back)]
          | _ => []
        let t : State := { t with flights := t.flights ++ [(ia, fa)], aliases := t.aliases ++ alias_ }
        (t.wakeCore a).wakeCore b
      else s.diverge p x
    | _, _ => s

/-- TWIN_COMPARE (R370). -/
def execTwinCompare (pair : Nat) (s : State) : Host.Outcome State Fault Refusal := .next (s.twinCompare pair)

/-- A record of an arrival log delivered to its target (R314). -/
def State.redeliver (s : State) (id : Nat) (f : Flight) : State :=
  match f with
  | .mem r =>
    let (cl, u, off) := nearParts (r.near.getD 0)
    s.nearAt id { r with refused := none, again := false } cl u off
  | .msg m => s.inboxMsg id { m with refused := none }
  | .fut q => s.futAt id q
  | .wake tok h st v => s.wakeDeliver id tok h st v
  | _ => s.dropFlight id

/-- Whether a flight delivered from a log still waits to be accepted. -/
def State.stillWaits (s : State) (id : Nat) : Bool :=
  match lookupId id s.flights with
  | some (.mem r) => decide (r.stage = .travelling)
  | some (.msg _) => true
  | some (.fut _) => true
  | some (.wake _ _ _ _) => true
  | _ => false

/-- ARRIVAL_LOG_REPLAY (R314): the oldest record, once its target accepts it; replay ends when the log is empty. -/
def State.replayLog (s : State) (part : Nat) : State :=
  let p := s.part part
  if !p.replaying then s
  else match p.logged with
    | [] => s.setPart part { p with replaying := false }
    | (id, f) :: rest =>
      let t : State := { s with flights := s.flights ++ [(id, f)] }
      let u := t.redeliver id f
      if u.stillWaits id then s
      else u.setPart part { u.part part with logged := rest, replayed := p.replayed + 1, replaying := !rest.isEmpty }

/-- ARRIVAL_LOG_REPLAY (R314). -/
def execArrivalLogReplay (part : Nat) (s : State) : Host.Outcome State Fault Refusal := .next (s.replayLog part)

end Sys2Proof.Machine
end

