-- ==== Sys2Proof/Machine/Slices.lean ====
section
/-! DEFINITION. Machine/Slices.lean: accumulates at a home slice, its quotas and their windows, and refused addends on their
return to the saggar (R259 to R263, R265). -/
namespace Sys2Proof.Machine

/-- The window that a clock lies in (R259). -/
def accWindow (clock : Nat) : Nat := clock / 256

/-- The counts of a slice restart with each window, and its quotas as written come into force (R259). -/
def State.accRoll (s : State) (cl : Nat) : State :=
  let c := s.cluster cl
  if c.accWin = accWindow s.clock then s
  else s.setCluster cl { c with accWin := accWindow s.clock, accCount := 0, accLines := [], accLineNow := c.accLine,
                                accSliceNow := c.accSlice }

/-- ACCQ_WINDOW (R259). -/
def execAccqWindow (cl : Nat) (s : State) : Host.Outcome State Fault Refusal := .next (s.accRoll cl)

/-- The accepts of a line in a slice's window, if it is one of the lines counted (R259). -/
def Cluster.lineCount (c : Cluster) (part va : Nat) : Option Nat :=
  (c.accLines.find? (fun l => l.1 == part && l.2.1 == va)).map (fun l => l.2.2)

/-- Whether a slice accepts an accumulate to a line (R259, R260). -/
def Cluster.accepts (c : Cluster) (part va : Nat) : Bool :=
  let line := match c.lineCount part va with
    | some n => c.accLineNow == 0 || decide (n < c.accLineNow)
    | none => true
  line && (c.accSliceNow == 0 || decide (c.accCount < c.accSliceNow))

/-- An application counted (R259): a line not yet counted takes one of the 32 places, when one is left. -/
def Cluster.countLine (c : Cluster) (part va : Nat) : Cluster :=
  let lines := match c.lineCount part va with
    | some _ => c.accLines.map (fun l => if l.1 = part ∧ l.2.1 = va then (l.1, l.2.1, l.2.2 + 1) else l)
    | none => if c.accLines.length < 32 then c.accLines ++ [(part, va, 1)] else c.accLines
  { c with accCount := c.accCount + 1, accLines := lines }

/-- A line after an accumulate is applied to it (R256, R260). -/
def Accum.applyTo (a : Accum) (line : List Byte) : List Byte :=
  if a.kind = 2 then
    let k := kOf a.ks
    let l := (activePairs a.data a.mask).foldl (offer k) (pairsIn k line)
    placesOf k l ++ line.drop (8 * k)
  else
    ((List.range 16).map (fun i =>
      bytesOf 4 (if bitOf a.mask i then laneAdd a.kind (laneOf line i) (laneOf a.data i) else laneOf line i))).flatten

/-- An accumulate applied at its line's single copy (R260), or the cause of its failure (R366). -/
def State.accApply (s : State) (a : Accum) : Except Nat State :=
  match s.translate a.part a.va .write with
  | .error (c, _) => .error c
  | .ok (t, pa, uc) =>
    if t.tainted pa 64 then .error cUE
    else .ok (t.gPut a.part a.va pa uc (a.applyTo (t.gRd a.part pa uc 64)))

/-- The translation of an accumulate's line (R260), without its write: the state, in which A is set and the slice's TLB filled by a
walk (R334), and the cause of a failure. -/
def State.accBar (s : State) (a : Accum) : State × Option Nat :=
  match s.tlbFor (s.home a.part a.va) a.part a.va .write with
  | some e => (s, (permFault e .write).map (·.1))
  | none => match s.walkFor a.part a.va .write with
    | .error (c, _) => (s, some c)
    | .ok l =>
      let slice := s.home a.part a.va
      ((s.keepWalk a.part a.va).fillTlb slice a.part a.va l, (permFault (s.leafEnt slice a.part a.va l) .write).map (·.1))

/-- ACCUMULATE_ARRIVAL (R260). -/
def State.accArrive (s : State) (id : Nat) : State :=
  match lookupId id s.flights with
  | some (.accum a) =>
    if !s.inOrder id ∨ s.engHeld (granKey a.part a.va) ∨ !s.walkTurn a.part a.va .write then s
    else match s.accBar a with
      | (s, some c) => s.answer id a.back a.va (.fault c a.va 0)
      | (s, none) =>
        if a.mask % 2 ^ 16 = 0 then s.answer id a.back a.va (.data 0)
        else
          let cl := s.home a.part a.va
          let s := s.accRoll cl
          if !(s.cluster cl).accepts a.part a.va then s.become id (.refusal a)
          else match s.accApply a with
            | .error c => s.answer id a.back a.va (.fault c a.va 0)
            | .ok t => (t.setCluster cl ((t.cluster cl).countLine a.part a.va)).answer id a.back a.va (.data 0)
  | _ => s

/-- ACCUMULATE_ARRIVAL (R260). -/
def execAccumulateArrival (id : Nat) (s : State) : Host.Outcome State Fault Refusal := .next (s.accArrive id)

/-- A flush accumulate of a core is over: the groups that have none left to wait for are acknowledged (R258). -/
def State.flushOver (s : State) (core id : Nat) : State :=
  let c := s.core core
  let gs := c.flushes.map (fun g => { g with waits := g.waits.filter (fun w => w != id) })
  let t := s.setCore core { c with flushing := c.flushing.filter (fun w => w != id),
                                   flushes := gs.filter (fun g => !g.waits.isEmpty) }
  (gs.filter (fun g => g.waits.isEmpty)).foldl (fun t g =>
    t.launchFlight (.ack (.count core g.ctx .at_ g.pc t.nextId) 0 0)) t

/-- FLUSH_ACCUMULATE (R261): applied, never refused, and counted toward both quotas; or dropped with a post. It keeps its order with the
posted operations of the context that sent it (R226, R266). -/
def State.flushArrive (s : State) (id : Nat) : State :=
  match lookupId id s.flights with
  | some (.flush a) =>
    if !s.inOrder id ∨ s.engHeld (granKey a.part a.va) ∨ !s.walkTurn a.part a.va .write then s
    else
      let t := (s.dropFlight id).accBar a |>.1
      match t.accApply a with
      | .error c => (t.flushDropped a c).flushOver a.core id
      | .ok u =>
        let cl := u.home a.part a.va
        let u := u.accRoll cl
        (u.setCluster cl ((u.cluster cl).countLine a.part a.va)).flushOver a.core id
  | _ => s

/-- FLUSH_ACCUMULATE (R261). -/
def execFlushAccumulate (id : Nat) (s : State) : Host.Outcome State Fault Refusal := .next (s.flushArrive id)

/-- A refused addend put in the saggar (R263). -/
def State.installRefused (s : State) (a : Accum) : State :=
  let n := sagIndex a.va
  match s.sag a.core n with
  | none => s.setSag a.core n a
  | some x =>
    if x.matches a ∧ !s.tainted (sagLoc a.core n) 80 then
      let r := combine x a
      s.setSag a.core n { x with data := r.1, mask := r.2 }
    else (s.sendFlush a.core n .none).setSag a.core n a

/-- REFUSAL_RETURN (R263, R265): AT falls; a refused line of ACCT counts as landed (R257). -/
def State.refusalReturn (s : State) (id : Nat) : State :=
  match lookupId id s.flights with
  | some (.refusal a) => (s.installRefused a).takeAck id a.back a.va 0
  | _ => s

/-- REFUSAL_RETURN (R263). -/
def execRefusalReturn (id : Nat) (s : State) : Host.Outcome State Fault Refusal := .next (s.refusalReturn id)

end Sys2Proof.Machine
end

