-- ==== Sys2Proof/Machine/System.lean ====
section
/-! DEFINITION. Machine/System.lean: the context instructions START, SETWP, STOPC, PARK and BANKMODE (R212, R223, R317 to R320),
the control fields with CTRLR and CTRLW (R322 to R325), XL.INV (R341), and the frame sweeper (R343, R344). -/
namespace Sys2Proof.Machine

/-- START (R212). -/
def execStart (d a b : GReg) (s : State) : Host.Outcome State Fault Refusal :=
  let n := s.gN a
  let core := s.cur.core
  s.relGate (
    if n < 2 ∨ 11 < n ∨ !bitOf (s.cluster (clusterOf core)).resv n then s.trap cSTART_CONTEXT 0 0
    else if s.gN b % 4 ≠ 0 then s.trap cMISALIGNED_TARGET (s.gN b) 0
    else if s.stateAt core n = stEMPTY then
      let t := s.startWords core n (s.gN b) 0 0
      let c := t.ctxAt core n
      .next ((t.setCtxAt core n { Ctx.reset n with wp := c.wp, away := c.away, helper := true }).done d 1)
    else .next (s.done d 0))

/-- Whether an offset is that of a workspace slot (R23). -/
def isSlot (v : Nat) : Bool := (List.range 14).any (fun n => v == 0x30000 + 0xC00 * n)

/-- Bytes copied within a core's private memory with their poison. -/
def State.copyPm (s : State) (core src dst n : Nat) : State :=
  (s.wr (pmLoc core dst) (s.rd (pmLoc core src) n)).poisonAt (pmLoc core dst) (s.badAt (pmLoc core src) n)

/-- SETWP's effect (R317, R408): a context's state stays what it is; the control context's state words go with it. The chunks of the old
workspace are written back, and none of the new one is valid (R25). -/
def State.setWp (s : State) (n wp : Nat) : State :=
  let core := s.cur.core
  if n = 0 then
    let t := s.advance
    let t := t.copyPm core ((t.ctxAt core 0).wp + cxPC) (wp + cxPC) (0xC00 - cxPC)
    (t.leaveChunks core 0).setCtxAt core 0 { t.ctxAt core 0 with wp := wp, body := none }
  else
    let st := s.stateAt core n
    ((((s.leaveChunks core n).setCtxAt core n { s.ctxAt core n with wp := wp, body := none }).setStateAt core n st).holdWords core n
      st).advance

/-- SETWP (R317). -/
def execSetwp (a b : GReg) (s : State) : Host.Outcome State Fault Refusal :=
  let n := s.gN a
  let wp := s.gN b
  let core := s.cur.core
  if 11 < n ∨ (n ≠ 0 ∧ s.stateAt core n ≠ stEMPTY ∧ s.stateAt core n ≠ stHELD) then s.trap cCONTEXT_BAD_TARGET 0 0
  else if !isSlot wp ∨ (List.range 12).any (fun x => x != n && (s.ctxAt core x).wp == wp) ∨
      (s.core core).resident.any (fun r => r.1 == wp) then s.trap cWORKSPACE 0 0
  else .next (s.setWp n wp)

/-- A context becomes HELD without a fault (R311, R318). -/
def State.holdStopped (s : State) (core ctx : Nat) : State :=
  (s.setCtxAt core ctx { s.ctxAt core ctx with wait := .none, draining := false, stopReq := false, stopped := true,
                                                badFetch := none }).setStateAt
    core ctx stHELD

/-- A context that waits inside an instruction that a stop interrupts is taken out of it (R311 step 2): the instruction will be
executed again. The answer is `none` where the instruction has to complete first; taking its token off a future's list may fail (R173). -/
def State.interrupt (s : State) (core ctx : Nat) : Except Bad (Option State) :=
  match (s.ctxAt core ctx).wait with
  | .none => .ok (some s)
  | .retry => .ok (some s)
  | .barrier _ _ _ => .ok (some s)
  | .listed _ h _ => (s.unlist h (s.tokenOf core ctx)).map some
  | .object _ _ _ => .ok (some { s with cwaits := s.cwaits.filter (fun w => w.2 != (false, core, ctx)) })
  | _ => .ok none

/-- STOPC (R318). -/
def execStopc (d a b : GReg) (s : State) : Host.Outcome State Fault Refusal :=
  let n := s.gN a
  let core := s.cur.core
  if n < 2 ∨ 11 < n ∨ 1 < s.gN b then s.trap cCONTEXT_BAD_TARGET 0 0
  else
    let c := s.ctxAt core n
    let st := s.stateAt core n
    if s.gN b = 1 then
      if st = stHELD then
        .next (((s.setCtxAt core n { c with stopped := false, stopReq := false, wait := .none }).setStateAt core n
          stREADY).done d 1)
      else .next (s.done d 0)
    else if st = stEMPTY then .next (s.done d 0)
    else if st = stHELD then .next (s.done d 2)
    else
      match (if c.ending.isSome ∨ c.holdReq ≠ [] then .ok none else s.interrupt core n) with
      | .error b => s.trap b.1 b.2.1 b.2.2
      | .ok (some t) => .next ((t.holdStopped core n).done d 1)
      | .ok none => .next ((s.setCtxAt core n { c with stopReq := true }).stall (.target d.val n false s.cur))

/-- A task in a context is to leave it at its next instruction boundary (R315). -/
def State.askPark (s : State) (core ctx : Nat) : State :=
  let t := s.setCtxAt core ctx { s.ctxAt core ctx with parkReq := true }
  match (s.ctxAt core ctx).wait with
  | .barrier _ _ _ => t.readyAt core ctx
  | _ => t

/-- The context in which the other member of a task's pair runs (R370). -/
def State.otherCtx (s : State) (core ctx : Nat) : Option (Nat × Nat) :=
  match s.pairOf core ctx with
  | none => none
  | some (_, x) =>
    let o := x.otherOf (s.ctxAt core ctx).task
    let k := s.task o.1 o.2
    if k.used ∧ k.stage = sgRUNNING ∧ (s.ctxAt k.core k.ctx).task = some o ∧ (s.ctxAt k.core k.ctx).wait ≠ .copyIn then some (k.core, k.ctx)
    else none

/-- PARK (R315, R319): the task leaves at its next instruction boundary, and so does the other member of its pair (R370). -/
def execPark (d a : GReg) (s : State) : Host.Outcome State Fault Refusal :=
  let n := s.gN a
  let core := s.cur.core
  if n < 2 ∨ 11 < n then s.trap cCONTEXT_BAD_TARGET 0 0
  else
    let c := s.ctxAt core n
    let st := s.stateAt core n
    if st = stEMPTY ∨ st = stHELD ∨ c.helper then .next (s.done d 0)
    else
      let t := s.askPark core n
      let t := match s.otherCtx core n with
        | some (k, x) => t.askPark k x
        | none => t
      .next (t.stall (.target d.val n true s.cur))

/-- Whether an engine holds a granule of a bank's mode region (R223). -/
def State.bankHeld (s : State) (cl bank : Nat) : Bool :=
  let lo := nearGran (nearLoc cl 8 (0x80000 * bank))
  s.running.any (fun r => r.2.held.any (fun k => decide (lo ≤ k) && decide (k < lo + bankSize bank / 64)))

/-- A bank switched to another mode (R221, R223): undefined contents, and a control page for FIFO. -/
def State.switchBank (s : State) (cl bank mode entsz : Nat) : State :=
  let c := s.cluster cl
  let t := s.setCluster cl { c with csMode := setBits c.csMode (2 * bank + 1) (2 * bank) mode }
  let loc := nearLoc cl 8 (0x80000 * bank)
  if mode = 1 then t
  else
    let t := t.wrFree loc (bankSize bank)
    if mode = 2 then
      let nent := (bankSize bank - 0x1000) / (64 * entsz)
      t.wr (fifoPage cl bank) (List.replicate 24 0 ++ bytesOf 8 (nent * 2 ^ 16 + entsz) ++ List.replicate (0x1000 - 32) 0)
    else t

/-- BANKMODE (R223, R320). -/
def execBankmode (a b : GReg) (s : State) : Host.Outcome State Fault Refusal :=
  let bank := s.gN a
  let v := s.gN b
  let cl := clusterOf s.cur.core
  let mode := v % 4
  let entsz := bits v 15 8
  if 7 < bank ∨ bits v 7 2 ≠ 0 ∨ 2 ^ 16 ≤ v ∨ mode = 3 ∨ (mode = 2 ∧ (entsz = 0 ∨ 128 < entsz)) then s.trap cBANK_MODE 0 0
  else
    let old := s.bankMode cl (0x80000 * bank)
    let go := fun (t : State) => Host.Outcome.next (t.setMyCtx { t.myCtx with wait := .none }).advance
    if old = mode then go s
    else if old = 2 ∧ s.fifoWord cl bank 16 ≠ 0 then s.trap cBANK_BUSY 0 0
    else if s.bankHeld cl bank then .next (s.stall (.bank bank))
    else go (s.switchBank cl bank mode entsz)

/-- Who may reach a control field (R323). -/
inductive FieldAccess where
  | own | readOnly | control | zero
  deriving DecidableEq, Repr

/-- The access class of a field number; `none` for an unassigned one (R323). -/
def fieldAccess (n : Nat) : Option FieldAccess :=
  if n = 0x0001 then some .own
  else if n ≤ 0x0006 then some .readOnly
  else if [0x0100, 0x0101, 0x0102, 0x0108, 0x0109, 0x010A, 0x0110, 0x0111, 0x0200, 0x0201, 0x0202, 0x0203, 0x0204, 0x0205, 0x0206,
      0x0210, 0x0211, 0x0212, 0x0219, 0x0220, 0x0221, 0x0228, 0x0229, 0x0308].contains n then some .control
  else if [0x0218, 0x0300, 0x0301, 0x0314, 0x0317, 0x0400, 0x0401, 0x0402].contains n then some .readOnly
  else if [0x0302, 0x0310, 0x0311, 0x0312, 0x0313, 0x0315, 0x0316, 0x0403, 0x0404, 0x0405].contains n then some .zero
  else if 0x0800 ≤ n ∧ n < 0x0800 + 144 then some .zero
  else if 0x0900 ≤ n ∧ n < 0x0900 + 144 then some .zero
  else if 0x1000 ≤ n ∧ n < 0x1400 then some .zero
  else none

/-- A port of this package (R373). -/
def State.port (s : State) (n : Nat) : Port := Tbl.get Port.reset s.ports n
def State.setPort (s : State) (n : Nat) (p : Port) : State := { s with ports := Tbl.set Port.reset s.ports n p }

/-- The value of a field as a core reaches it; `ctx` is the context of a context field (R322, R323). -/
def State.fieldValue (s : State) (core ctx n : Nat) : Nat :=
  let c := s.core core
  let k := s.cluster (clusterOf core)
  let d := s.die (dieOf core)
  let st := s.cxAt core ctx cxSTATUS
  let cnt := s.cxAt core ctx cxCNT
  let reps := s.cxAt core ctx cxREPS
  match n with
  | 0x0000 => (s.ctxAt core ctx).wp
  | 0x0001 => bits st 18 14 * 4 + bits st 13 12
  | 0x0002 => setBits (bits st 24 0) 8 8 0
  | 0x0003 => bits cnt 5 0 + bits cnt 13 8 * 2 ^ 8 + bits cnt 21 16 * 2 ^ 16 + bits cnt 29 24 * 2 ^ 24 + bits cnt 37 32 * 2 ^ 32
  | 0x0004 => bits reps 63 32 * 2 ^ 32 + bits reps 26 20 * 2 ^ 20 + bits reps 0 0
  | 0x0005 => s.cxAt core ctx cxREPN % 2 ^ 32
  | 0x0006 => s.cxAt core ctx cxREPB / 4 * 4
  | 0x0100 => c.ftLimit
  | 0x0101 => c.ftSpBase
  | 0x0102 => c.ftSpEnt
  | 0x0108 => c.trVec
  | 0x0109 => c.trCvec
  | 0x010A => c.trMask
  | 0x0110 => c.mbFut
  | 0x0111 => c.mbLost
  | 0x0200 => k.ovBase
  | 0x0201 => k.ovEnt
  | 0x0202 => k.wsBase
  | 0x0203 => k.pfBase
  | 0x0204 => k.pfSize
  | 0x0205 => k.trBase
  | 0x0206 => k.resv
  | 0x0210 => k.mxWeight
  | 0x0211 => k.wedgeHold
  | 0x0212 => k.mxShapes
  | 0x0218 => k.csMode
  | 0x0219 => k.barTmo
  | 0x0220 => k.shelfTimer
  | 0x0221 => k.xtBase
  | 0x0228 => k.accLine
  | 0x0229 => k.accSlice
  | 0x0300 => bits d.barPart 63 0
  | 0x0301 => bits d.barPart 79 64
  | 0x0302 => d.barTmo
  | 0x0308 => 0
  | 0x0310 => d.fsBase
  | 0x0311 => d.fsQBase
  | 0x0312 => d.fsQSize
  | 0x0313 => d.fsQHead
  | 0x0314 => d.fsQTail
  | 0x0315 => d.fsWmark
  | 0x0316 => d.fsRate
  | 0x0317 => d.fsHand
  | 0x0400 => s.pkgId
  | 0x0401 => bits s.barPart 63 0
  | 0x0402 => bits s.barPart 79 64
  | 0x0403 => s.barTmo
  | 0x0404 => s.pwrCap
  | 0x0405 => (s.part (s.partOf core)).spid
  | n =>
    if 0x1000 ≤ n then Tbl.get 0 s.routes (n - 0x1000)
    else if 0x0900 ≤ n then (s.port (n - 0x0900)).lclass
    else (s.port (n - 0x0800)).lretry

/-- Whether a value is zero or a power of two within limits. -/
def powerOf (v lo hi : Nat) : Bool := (List.range 17).any (fun k => v == 2 ^ k) && decide (lo ≤ v) && decide (v ≤ hi)

/-- Whether a value is a global address aligned to `n`. -/
def globalBase (v n : Nat) : Bool := decide (v < 2 ^ 59) && v % n == 0

/-- Whether a value sets a reserved bit of a field or holds a reserved code (R325). -/
def State.fieldBad (s : State) (core n v : Nat) : Bool :=
  match n with
  | 0x0001 => decide (2 ^ 7 ≤ v)
  | 0x0101 => !globalBase v 4096
  | 0x0102 => !(v == 0 || powerOf v 64 65536)
  | 0x0108 => bits v 63 60 != 0 || v % 4 != 0
  | 0x0109 => bits v 63 60 != 0 || v % 4 != 0
  | 0x010A => decide (2 ^ 8 ≤ v)
  | 0x0111 => decide (2 ^ 32 ≤ v)
  | 0x0200 => !globalBase v 64
  | 0x0201 => decide (7424 < v)
  | 0x0202 => !globalBase v 4096
  | 0x0203 => decide (0x400000 ≤ v) || v % 64 != 0
  | 0x0204 => decide (0x400000 < v) || v % 64 != 0
  | 0x0205 => !globalBase v 32
  | 0x0206 => decide (2 ^ 12 ≤ v) || v % 4 != 0
  | 0x0210 => decide (2 ^ 32 ≤ v)
  | 0x0211 => decide (2 ^ 12 ≤ v)
  | 0x0212 => decide (2 ^ 48 ≤ v)
  | 0x0219 => decide (2 ^ 16 ≤ v)
  | 0x0220 => decide (2 ^ 16 ≤ v)
  | 0x0221 => !globalBase v 64
  | 0x0228 => decide (2 ^ 8 ≤ v)
  | 0x0229 => decide (2 ^ 16 ≤ v)
  | 0x0302 => decide (2 ^ 16 ≤ v)
  | 0x0308 =>
    let all := bitOf v 10
    bits v 63 60 != 0 || bits v 7 0 != 0 ||
      (!all && (bits v 9 8 == 3 || bits v 59 16 * 2 ^ 16 % pageBytes (bits v 9 8) != 0))
  | 0x0310 => decide (2 ^ 40 ≤ v) || v % 4096 != 0
  | 0x0311 => decide (2 ^ 40 ≤ v) || v % 16 != 0
  | 0x0312 => !powerOf v 64 65536
  | 0x0313 => decide (2 ^ 32 ≤ v)
  | 0x0315 => v == 0 || decide ((s.die (dieOf core)).fsQSize < v)
  | 0x0316 => decide (2 ^ 16 ≤ v)
  | 0x0403 => decide (2 ^ 16 ≤ v)
  | 0x0404 => decide (v < 1000) || decide (4500 < v)
  | 0x0405 => decide (2 ^ 16 ≤ v)
  | n =>
    if 0x1000 ≤ n then bits v 63 24 != 0 || bits v 15 2 != 0 || v % 4 == 3 || (v % 4 != 0 && bits v 23 16 == 0)
    else if 0x0900 ≤ n then v != 1 && v != 2
    else if 0x0800 ≤ n then decide (2 ^ 8 ≤ v)
    else false

/-- A field written (R325). The slice's quotas take effect at its next window (R259), and a change of route holds new requests (R350). -/
def State.fieldSet (s : State) (core ctx n v : Nat) : State :=
  let c := s.core core
  let cl := clusterOf core
  let s := if n = 0x0228 ∨ n = 0x0229 then s.accRoll cl else s
  let k := s.cluster cl
  let die := dieOf core
  let d := s.die die
  match n with
  | 0x0001 => s.setCxAt core ctx cxSTATUS (setBits (setBits (s.cxAt core ctx cxSTATUS) 18 14 (v / 4)) 13 12 v)
  | 0x0100 => s.setCore core { c with ftLimit := if v = 0 ∨ 1024 < v then 1024 else v }
  | 0x0101 => s.setCore core { c with ftSpBase := v }
  | 0x0102 => s.setCore core { c with ftSpEnt := v }
  | 0x0108 => s.setCore core { c with trVec := v }
  | 0x0109 => s.setCore core { c with trCvec := v }
  | 0x010A => s.setCore core { c with trMask := v }
  | 0x0110 => s.setCore core { c with mbFut := v }
  | 0x0111 => s.setCore core { c with mbLost := v }
  | 0x0200 => s.setCluster cl { k with ovBase := v }
  | 0x0201 => s.setCluster cl { k with ovEnt := v }
  | 0x0202 => s.setCluster cl { k with wsBase := v }
  | 0x0203 => s.setCluster cl { k with pfBase := v }
  | 0x0204 => s.setCluster cl { k with pfSize := v }
  | 0x0205 => s.setCluster cl { k with trBase := v }
  | 0x0206 => s.setCluster cl { k with resv := v }
  | 0x0210 => s.setCluster cl { k with mxWeight := v }
  | 0x0211 => s.setCluster cl { k with wedgeHold := v }
  | 0x0212 => s.setCluster cl { k with mxShapes := v }
  | 0x0219 => s.setCluster cl { k with barTmo := v }
  | 0x0220 => s.setCluster cl { k with shelfTimer := v }
  | 0x0221 => s.setCluster cl { k with xtBase := v }
  | 0x0228 => s.setCluster cl { k with accLine := v }
  | 0x0229 => s.setCluster cl { k with accSlice := v }
  | 0x0302 => s.setDie die { d with barTmo := v }
  | 0x0310 => s.setDie die { d with fsBase := v }
  | 0x0311 => s.setDie die { d with fsQBase := v }
  | 0x0312 => s.setDie die { d with fsQSize := v }
  | 0x0313 => s.setDie die { d with fsQHead := v }
  | 0x0315 => s.setDie die { d with fsWmark := v }
  | 0x0316 => s.setDie die { d with fsRate := v }
  | 0x0403 => { s with barTmo := v }
  | 0x0404 => { s with pwrCap := v }
  | 0x0405 => s.setPart (s.partOf core) { s.part (s.partOf core) with spid := v }
  | n =>
    if 0x1000 ≤ n then
      (if Tbl.get 0 s.routes (n - 0x1000) = v then s
       else { s.holdRoute (n - 0x1000) with routes := Tbl.set 0 s.routes (n - 0x1000) v })
    else if 0x0900 ≤ n then s.setPort (n - 0x0900) { s.port (n - 0x0900) with lclass := v }
    else if 0x0800 ≤ n then s.setPort (n - 0x0800) { s.port (n - 0x0800) with lretry := v }
    else s

/-- The checks of CTRLR on a selector (R324): the failing cause, or the context and field named. -/
def State.selector (s : State) (a : Nat) : Except Nat (Nat × Nat) :=
  let n := a % 2 ^ 16
  let ctx := bits a 19 16
  if 2 ^ 20 ≤ a ∨ (fieldAccess n).isNone then .error cCONTROL_FIELD
  else if n < 0x0100 then
    if 11 < ctx ∨ (s.cur.ctx ≠ 0 ∧ ctx ≠ s.cur.ctx) then .error cCONTROL_FIELD else .ok (ctx, n)
  else if ctx ≠ 0 then .error cCONTROL_FIELD
  else if s.cur.ctx ≠ 0 then .error cPRIVILEGED
  else .ok (s.cur.ctx, n)

/-- CTRLR (R324). -/
def execCtrlr (d a : GReg) (s : State) : Host.Outcome State Fault Refusal :=
  match s.selector (s.gN a) with
  | .error c => s.trap c 0 0
  | .ok (ctx, n) => .next (s.done d (BitVec.ofNat 64 (s.fieldValue s.cur.core ctx n)))

/-- CTRLW (R325, R341). -/
def execCtrlw (a b : GReg) (s : State) : Host.Outcome State Fault Refusal :=
  let v := s.gN b
  let core := s.cur.core
  match s.selector (s.gN a) with
  | .error c => s.trap c 0 0
  | .ok (ctx, n) =>
    let acc := fieldAccess n
    if acc = some .readOnly then s.trap cCONTROL_FIELD 0 0
    else if (acc = some .zero ∧ s.partOf core ≠ 0) ∨ n = 0x0405 then s.trap cPROTECTION 0 0
    else if n < 0x0100 ∧ ctx ≠ s.cur.ctx ∧ s.stateAt core ctx ≠ stEMPTY ∧ s.stateAt core ctx ≠ stHELD then s.trap cPROTECTION 0 0
    else if n = 0x0308 ∧ bits v 15 12 ≠ s.partOf core ∧ s.partOf core ≠ 0 then s.trap cPROTECTION 0 0
    else if s.fieldBad core n v then s.trap cRESERVED 0 0
    else if n = 0x0308 then
      .next ((s.launchFlight (.xlInv v (.ctx core s.cur.ctx))).stall (.reply s.nextId .plain s.cur))
    else .next (s.fieldSet core ctx n v).advance

/-- The dirty bytes of a line of L2 written back to HBM (R217), and its held bit cleared (R381); poison stays (R365). -/
def State.writeBack (s : State) (part pa : Nat) : State :=
  let base := pa / 64 * 64
  let k := l2Key part base
  let cells := s.l2.filter (fun c => decide (k ≤ c.1) && decide (c.1 < k + 64))
  { s with mem := cells.foldl (fun m c => m.write (base + (c.1 - k)) [c.2]) s.mem,
           l2 := s.l2.filter (fun c => !(decide (k ≤ c.1) && decide (c.1 < k + 64))),
           holders := Tbl.set (0, 0) s.holders (k / 64) (0, 0) }

/-- Whether a virtual address of a partition is in the range of an XL.INV (R341). -/
def invCovers (v part va : Nat) : Bool :=
  let size := pageBytes (bits v 9 8)
  part == bits v 15 12 && (bitOf v 10 || va / size == bits v 59 16 * 2 ^ 16 / size)

/-- Whether an XL.INV drops a TLB entry (R341). -/
def invTlb (v : Nat) (e : TlbEnt) : Bool :=
  e.part == bits v 15 12 && (bitOf v 10 || (decide (e.vbase < bits v 59 16 * 2 ^ 16 + pageBytes (bits v 9 8)) &&
    decide (bits v 59 16 * 2 ^ 16 < e.vbase + pageBytes e.size)))

/-- Whether an XL.INV drops a non-leaf entry that a page walker holds (R341). -/
def invWalk (v : Nat) (e : WalkEnt) : Bool :=
  let lo := 2 ^ levelLo e.level
  e.part == bits v 15 12 && (bitOf v 10 || (decide (e.tag * lo < bits v 59 16 * 2 ^ 16 + pageBytes (bits v 9 8)) &&
    decide (bits v 59 16 * 2 ^ 16 < (e.tag + 1) * lo)))

/-- Whether an engine holds a line of global space in the range of an XL.INV (R341). -/
def State.invHeld (s : State) (v : Nat) : Bool :=
  s.running.any (fun r => r.2.held.any (fun k => decide (k < 2 ^ 70) && invCovers v (k / 2 ^ 64) (k % 2 ^ 64 * 64)))

/-- XL_INV (R341): the entries dropped once no access that used them is left, and with WB the range's lines written back; a line
that an engine holds is waited for. -/
def State.xlInvalidate (s : State) (id : Nat) : State :=
  match lookupId id s.flights with
  | some (.xlInv v back) =>
    let part := bits v 15 12
    let late := s.flights.any (fun f => match f.2 with
      | .mem r => (match r.stage with
        | .ready _ _ _ => r.near.isNone && (invCovers v r.part r.va || s.tlb.any (fun e => invTlb v e && r.part == e.part &&
            decide (e.vbase ≤ r.va) && decide (r.va < e.vbase + pageBytes e.size)))
        | _ => false)
      | _ => false)
    let lines := s.holders.filter (fun h => decide (l2Key part 0 / 64 ≤ h.1) && decide (h.1 < l2Key (part + 1) 0 / 64) &&
      invCovers v part h.2.2)
    if late ∨ (bitOf v 11 ∧ s.invHeld v) then s
    else
      let t : State := { s with tlb := s.tlb.filter (fun e => !invTlb v e) }
      let t := t.dies.foldl (fun t d => t.setDie d.1 { t.die d.1 with walkCache := (t.die d.1).walkCache.filter (fun e => !invWalk v e) }) t
      let t := if bitOf v 11 then lines.foldl (fun t h => t.writeBack part (64 * h.1 - l2Key part 0)) t else t
      t.answer id back 0 (.data 0)
  | _ => s

/-- XL_INV (R341). -/
def execXlInv (id : Nat) (s : State) : Host.Outcome State Fault Refusal := .next (s.xlInvalidate id)

/-- SWEEPER_RECORD (R344): one record, while the queue is below the watermark and FS.RATE clocks have passed. -/
def State.sweep (s : State) (die : Nat) : State :=
  let d := s.die die
  if d.fsRate = 0 ∨ s.clock < d.fsAt + d.fsRate ∨ d.fsWmark ≤ (d.fsQTail + 2 ^ 32 - d.fsQHead) % 2 ^ 32 then s
  else
    let r := natOf (s.rd (d.fsBase + 8 * d.fsHand) 8)
    let kind := r % 8
    let at_ := bits r 47 3 * 8
    let e := natOf (s.rd at_ 8)
    let t :=
      if (kind = 1 ∨ kind = 2) ∧ bitOf e 0 ∧ bitOf e 1 then
        if bitOf e 6 then
          let u := s.wr at_ (bytesOf 8 (setBits e 6 6 0))
          { u with tlb := u.tlb.filter (fun x => x.pteLoc != at_) }
        else if (d.fsQTail + 2 ^ 32 - d.fsQHead) % 2 ^ 32 < d.fsQSize then
          let u := s.wr (d.fsQBase + 16 * (d.fsQTail % d.fsQSize)) (bytesOf 8 (bits e 47 16 * 2 ^ 16) ++ bytesOf 8 at_)
          u.setDie die { u.die die with fsQTail := (d.fsQTail + 1) % 2 ^ 32 }
        else s
      else s
    t.setDie die { t.die die with fsHand := (d.fsHand + (if kind = 2 then 32 else 1)) % 2 ^ 22, fsAt := s.clock }

/-- SWEEPER_RECORD (R344). -/
def execSweeperRecord (die : Nat) (s : State) : Host.Outcome State Fault Refusal := .next (s.sweep die)

end Sys2Proof.Machine
end

