-- ==== Sys2Proof/Machine/Queues.lean ====
section
/-! DEFINITION. Machine/Queues.lean: command queues: descriptors, the packet at a queue's head and when it may start, the checks
before a packet, how a queue stops and resumes, and how a packet finishes (R292 to R297). -/
namespace Sys2Proof.Machine

/-- The key of a queue. -/
def qKey (part q : Nat) : Nat := part * 64 + q
def State.qstate (s : State) (part q : Nat) : QState := Tbl.get QState.reset s.queues (qKey part q)
def State.setQ (s : State) (part q : Nat) (x : QState) : State := { s with queues := Tbl.set QState.reset s.queues (qKey part q) x }

/-- The address of a queue descriptor (R292). -/
def State.qVa (s : State) (part q : Nat) : Nat := (s.part part).cqBase + 64 * q

/-- A queue descriptor as the service core reads it (R292). -/
structure QDesc where
  ring : Nat
  en : Bool
  priv : Bool
  die : Nat
  nslot : Nat
  write : Nat
  read : Nat
  status : Nat
  deriving DecidableEq, Repr

/-- The descriptor in 64 bytes (R292). -/
def qdescOf (bs : List Byte) : QDesc :=
  let w (o n : Nat) := natOf ((bs.drop o).take n)
  { ring := w 0 8, en := bitOf (w 8 8) 35, priv := bitOf (w 8 8) 34, die := bits (w 8 8) 33 32, nslot := bits (w 8 8) 31 0,
    write := w 0x10 4, read := w 0x18 4, status := w 0x20 8 }

/-- A queue's descriptor read (R292), or cause and address. -/
def State.readQ (s : State) (part q : Nat) : Except (Nat × Nat) (State × QDesc) :=
  match s.agentRead part (s.qVa part q) 64 with
  | .error (c, _) => .error (c, s.qVa part q)
  | .ok (t, bs) => .ok (t, qdescOf bs)

/-- The address of packet n of a queue (R292). -/
def QDesc.slot (d : QDesc) (n : Nat) : Nat := d.ring + 64 * (n % Nat.max 1 d.nslot)

/-- Words W0 to W7 of a packet, node or block. -/
def wordsOf (bs : List Byte) : List Nat := (List.range 8).map (fun i => natOf ((bs.drop (8 * i)).take 8))

/-- One of eight words. -/
def wd (ws : List Nat) (i : Nat) : Nat := ws.getD i 0

/-- The bits that a packet of an opcode may set in W1 to W7 (R294, R309); `none` for an opcode that is not assigned. -/
def pktWidths (opc : Nat) : Option (List Nat) :=
  match opc with
  | 0x00 => some [0, 0, 0, 0, 0, 0, 0]
  | 0x01 => some [64, 64, 39, 64, 64, 0, 0]
  | 0x02 => some [64, 16, 0, 64, 64, 0, 0]
  | 0x03 => some [64, 6, 64, 64, 64, 64, 0]
  | 0x04 => some [64, 4, 64, 64, 64, 0, 0]
  | 0x05 => some [64, 3, 64, 64, 0, 0, 0]
  | 0x06 => some [64, 64, 40, 7, 0, 0, 0]
  | 0x07 => some [0, 0, 0, 0, 0, 0, 0]
  | 0x10 => some [12, 16, 64, 0, 0, 0, 0]
  | 0x11 => some [6, 64, 0, 0, 0, 0, 0]
  | 0x12 => some [5, 64, 0, 0, 0, 0, 0]
  | 0x13 => some [4, 0, 0, 0, 0, 0, 0]
  | 0x14 => some [3, 64, 16, 0, 0, 0, 0]
  | 0x15 => some [10, 36, 64, 0, 0, 0, 0]
  | 0x16 => some [12, 64, 64, 0, 0, 0, 0]
  | _ => none

/-- Whether words hold a bit beyond given widths. -/
def beyond (ws widths : List Nat) : Bool :=
  (List.range widths.length).any (fun i => decide (2 ^ widths.getD i 0 ≤ wd ws (i + 1)))

/-- The cores of a core set word (R297). -/
def coreSet (w : Nat) : List Nat := (List.range (bits w 24 12)).map (fun i => bits w 11 0 + i * bits w 36 25)

/-- Whether a core set word is acceptable for a partition (R297). -/
def State.coreSetOk (s : State) (part w : Nat) : Bool :=
  bits w 24 12 != 0 && bits w 36 25 != 0 && decide (bits w 24 12 ≤ 4096) &&
    decide (bits w 11 0 + (bits w 24 12 - 1) * bits w 36 25 ≤ 4095) &&
    (coreSet w).all (fun c => decide (s.partOfCluster (clusterOf c) = some part))

/-- The tests of WAIT_VALUE, COND and LOOP (R294). -/
def cmpTest (cmp w v m : Nat) : Bool :=
  let x := w &&& m
  match cmp with
  | 0 => x == v
  | 1 => x != v
  | 2 => decide (v ≤ x)
  | 3 => decide (x < v)
  | 4 => decide (toSigned v 64 ≤ toSigned x 64)
  | _ => decide (toSigned x 64 < toSigned v 64)

/-- A handle that a packet may name: steps 1 and 2 of R168. -/
def State.pktHandle (s : State) (part h : Nat) : Bool := hOk h && s.handleMine part h

/-- The operand limits of the packets of R294 (R295 item 4). -/
def State.operandsOk (s : State) (part die : Nat) (ws : List Nat) : Bool :=
  let g := fun (va : Nat) => decide (va < 2 ^ 59)
  let join := fun (h : Nat) => h == 0 || s.pktHandle part h
  let done := fun (va : Nat) => va == 0 || (g va && va % 8 == 0)
  match wd ws 0 % 256 with
  | 0x01 => wd ws 1 % 4 == 0 && s.coreSetOk part (wd ws 3) && join (wd ws 4) && done (wd ws 5)
  | 0x02 => g (wd ws 1) && wd ws 1 % 64 == 0 && join (wd ws 4) && done (wd ws 5)
  | 0x03 => decide (1 ≤ wd ws 2) && decide (wd ws 2 ≤ 32) && decide (wd ws 1 + wd ws 2 ≤ 2 ^ 59)
  | 0x04 => decide (1 ≤ wd ws 2) && decide (wd ws 2 ≤ 8) && decide (wd ws 1 + wd ws 2 ≤ 2 ^ 59) && s.pktHandle part (wd ws 4)
  | 0x05 => g (wd ws 1) && wd ws 1 % 8 == 0
  | 0x06 => decide (wd ws 1 + wd ws 3 ≤ 2 ^ 59) && decide (wd ws 2 + wd ws 3 ≤ 2 ^ 59) && g (wd ws 1) && g (wd ws 2) && decide (s.partOfCluster (die * 128 + wd ws 4) = some part)
  | _ => true

/-- The checks of R295 on a packet, in order: the failing cause. The operands of privileged packets are checked by each. -/
def State.pktBad (s : State) (part : Nat) (d : QDesc) (ws : List Nat) : Option Nat :=
  let opc := wd ws 0 % 256
  match pktWidths opc with
  | none => some cPACKET_OPCODE
  | some widths =>
    if bits (wd ws 0) 31 9 ≠ 0 ∨ beyond ws widths ∨ (opc = 0x05 ∧ 6 ≤ wd ws 2) then some cPACKET_RESERVED
    else if 0x10 ≤ opc ∧ !d.priv then some cPACKET_PRIV
    else if !s.operandsOk part d.die ws then some cPACKET_OPERAND
    else none

/-- Whether the packets of a partition may start, and its walkers act (R293, R311, R314). -/
def State.partRuns (s : State) (part : Nat) : Bool :=
  let p := s.part part
  decide (p.status = .running) && !p.stopping && !p.replaying

/-- Whether a launch or copy begun by a queue has not completed (R294). -/
def State.queueBusy (s : State) (part q : Nat) : Bool :=
  s.launches.any (fun l => l.2.queue == some (qKey part q)) ||
    s.dies.any (fun d => d.2.walkers.any (fun w => w.2.part == part && w.2.q == q)) ||
    s.running.any (fun r => match r.2.owner with
      | .queue p x _ => p == part && x == q
      | _ => false)

/-- The packet at a queue's head, as its service core sees it. -/
inductive Head where
  | none
  /-- The packet could not be read, for a cause. -/
  | bad (s : State) (addr cause : Nat)
  | pkt (s : State) (addr : Nat) (d : QDesc) (ws : List Nat)
  deriving DecidableEq, Repr

/-- The head of a queue that is neither empty nor stopped (R292, R293); refiring starts no packet (R393). A poisoned descriptor is
consumed (R366). -/
def State.head (s : State) (part q : Nat) : Head :=
  match s.readQ part q with
  | .error (c, va) => if c = cUE ∧ s.partRuns part ∧ !(s.qstate part q).stopped ∧ !(s.refire.isSome ∧ !(s.qstate part q).begun) then .bad s va c
    else .none
  | .ok (t, d) =>
    let x := s.qstate part q
    if !s.partRuns part ∨ !d.en ∨ x.stopped ∨ x.write = d.read ∨ (s.refire.isSome ∧ !x.begun) then .none
    else match t.agentRead part (d.slot d.read) 64 with
      | .error (c, _) => .bad t (d.slot d.read) c
      | .ok (u, bs) => .pkt u (d.slot d.read) d (wordsOf bs)

/-- The lines of a range are held by an engine (R233). -/
def State.rangeHeld (s : State) (part va n : Nat) : Bool := (linesOf va n).any (fun a => s.engHeld (granKey part a))

/-- Whether a packet can start (R293, R294, R303): the wait of WAITPREV or FENCE is over, a walker is free, and no line that it
writes is held. -/
def State.canStart (s : State) (part q : Nat) (d : QDesc) (ws : List Nat) : Bool :=
  let opc := wd ws 0 % 256
  !((bitOf (wd ws 0) 8 || opc == 7) && s.queueBusy part q) && !(opc == 2 && decide (16 ≤ (s.die d.die).walkers.length)) &&
    !((opc == 3 || opc == 4) && s.rangeHeld part (wd ws 1) (wd ws 2)) && !(opc == 5 && s.rangeHeld part (wd ws 1) 8)

/-- Whether a queue of a die has a packet that can start; one given up waits for its next test (R296). -/
def State.startable (s : State) (die part q : Nat) : Bool :=
  match s.head part q with
  | .none => false
  | .bad _ _ _ => true
  | .pkt _ _ d ws => d.die == die && (s.qstate part q).gaveUp.isNone &&
      ((s.pktBad part d ws).isSome || (s.qstate part q).begun || s.canStart part q d ws)

/-- The queue that a service core takes next, in round robin; a packet that has begun goes on first (R293). -/
def State.nextQueue (s : State) (die : Nat) : Option Nat :=
  let ks := s.parts.flatMap (fun p => (List.range 64).map (qKey p.1))
  let can := fun k => s.startable die (k / 64) (k % 64)
  match ks.find? (fun k => (s.qstate (k / 64) (k % 64)).begun && can k) with
  | some k => some k
  | none => (ks.filter (fun k => decide ((s.die die).lastQueue < k)) ++
      ks.filter (fun k => decide (k ≤ (s.die die).lastQueue))).find? can

/-- The service core's place in its round robin (R293). -/
def State.served (s : State) (die part q : Nat) : State := s.setDie die { s.die die with lastQueue := qKey part q }

/-- Bytes of a queue descriptor written by its service core; what cannot be written is left. -/
def State.putQ (s : State) (part q off : Nat) (bs : List Byte) : State :=
  match s.agentWrite part (s.qVa part q + off) bs with
  | .error _ => s
  | .ok t => t

/-- A queue stopped (R295), with the control node told. -/
def State.stopQueue (s : State) (part q cause step fpkt faddr : Nat) : State :=
  let t := s.putQ part q 0x20 (bytesOf 8 (step * 2 ^ 10 + cause * 2 + 1) ++ bytesOf 8 fpkt ++ bytesOf 8 faddr)
  let t := t.setQ part q { t.qstate part q with stopped := true, gaveUp := none, begun := false, asked := none }
  { t with toHost := t.toHost ++ [.queueStopped part q] }

/-- A packet finished: READ advances (R293). -/
def State.finishPacket (s : State) (part q : Nat) (d : QDesc) : State :=
  let t := s.putQ part q 0x18 (bytesOf 4 (d.read + 1))
  t.setQ part q { t.qstate part q with gaveUp := none, begun := false, asked := none }

/-- A packet run by an event of its opcode, when its service core's turn has come to it: refused and its queue stopped, or `k`. One
whose step waits for an answer goes on when that arrives. -/
def State.packet (s : State) (part q opc : Nat) (k : State → Nat → QDesc → List Nat → State) : State :=
  match s.head part q with
  | .pkt t addr d ws =>
    if wd ws 0 % 256 ≠ opc ∨ (s.qstate part q).asked.isSome ∨ s.nextQueue d.die ≠ some (qKey part q) then s
    else
      let t := t.served d.die part q
      match t.pktBad part d ws with
      | some c => t.stopQueue part q c 0 addr 0
      | none => k t addr d ws
  | _ => s

/-- A queue whose descriptor is poisoned stops: its packet is not known, and the descriptor's address stands in FADDR (R366; DESIGN
CHOICE, log entry 122). -/
def State.stopPoisoned (s : State) (part q : Nat) : State := s.stopQueue part q cUE 0 0 (s.qVa part q)

/-- WRITE and STATUS of a queue read again (R292, R295): a stopped queue resumes when STOP is clear, past the packet with
SKIP. -/
def State.reread (s : State) (part q : Nat) : State :=
  match s.readQ part q with
  | .error (c, _) => if c = cUE ∧ s.partRuns part ∧ !(s.qstate part q).stopped then s.stopPoisoned part q else s
  | .ok (t, d) =>
    let x := t.qstate part q
    if x.stopped ∧ !bitOf d.status 0 then
      let t := if bitOf d.status 13 then t.putQ part q 0x18 (bytesOf 4 (d.read + 1)) else t
      t.setQ part q { x with write := d.write, stopped := false }
    else t.setQ part q { x with write := d.write }

/-- A packet that cannot be read or has no assigned opcode stops its queue (R295). -/
def State.stopUnread (s : State) (part q : Nat) : State :=
  match s.head part q with
  | .bad t addr c => if addr = s.qVa part q then t.stopPoisoned part q else t.stopQueue part q c 0 addr addr
  | .pkt t addr d ws =>
    if (pktWidths (wd ws 0 % 256)).isNone ∧ s.nextQueue d.die = some (qKey part q) then
      (t.served d.die part q).stopQueue part q cPACKET_OPCODE 0 addr 0
    else s
  | .none => s

/-- QUEUE_POLL (R292, R295): the descriptor is read again; a packet that no other event can run stops its queue. -/
def execQueuePoll (part q : Nat) (s : State) : Host.Outcome State Fault Refusal := .next ((s.reread part q).stopUnread part q)

/-- A doorbell (R292, R399): the queue's descriptor is read again by the service core that owns it; reserved bits ignore it. -/
def State.doorbell (s : State) (die value : Nat) : State :=
  let part := bits value 9 6
  let q := bits value 5 0
  if 2 ^ 10 ≤ value then s
  else match s.readQ part q with
    | .error _ => s.reread part q
    | .ok (_, d) => if d.die = die then s.reread part q else s

/-- SVC_DOORBELL (R292). -/
def execSvcDoorbell (die value : Nat) (s : State) : Host.Outcome State Fault Refusal := .next (s.doorbell die value)

end Sys2Proof.Machine
end

