-- ==== Sys2Proof/Machine/Launches.lean ====
section
/-! DEFINITION. Machine/Launches.lean: the packets of R294, kernel wakes and root tasks (R299 to R302), graph walkers (R303,
R304), and LAUNCH and FLOOD (R305, R306). -/
namespace Sys2Proof.Machine

/-- PACKET_NOP (R294). -/
def execPacketNop (part q : Nat) (s : State) : Host.Outcome State Fault Refusal :=
  .next (s.packet part q 0x00 (fun t _ d _ => t.finishPacket part q d))

/-- A launch registered at its counting agent and its wake sent (R299, R301). -/
def State.sendWake (s : State) (sender : Nat) (l : Launch) (pc arg set : Nat) : State :=
  let t : State := { s with nextId := s.nextId + 1, launches := s.launches ++ [(s.nextId, l)] }
  t.launchFlight (.kwake { sender := sender, launch := s.nextId, part := l.part, pc := pc, arg := arg, set := set, left := coreSet set })

/-- LAUNCH_KERNEL (R294, R299). -/
def execLaunchKernel (part q : Nat) (s : State) : Host.Outcome State Fault Refusal :=
  .next (s.packet part q 0x01 (fun t _ d ws =>
    (t.sendWake d.die { part := part, count := bits (wd ws 3) 24 12, got := 0, bad := 0, done := wd ws 5, join := wd ws 4,
                        queue := some (qKey part q), walker := none, joining := false } (wd ws 1) (wd ws 2) (wd ws 3)).finishPacket part q d))

/-- The number of a free walker of a die (R303). -/
def State.freeWalker (s : State) (die : Nat) : Nat :=
  ((List.range 16).find? (fun n => (lookupId n (s.die die).walkers).isNone)).getD 0

/-- LAUNCH_GRAPH (R294, R303). -/
def execLaunchGraph (part q : Nat) (s : State) : Host.Outcome State Fault Refusal :=
  .next (s.packet part q 0x02 (fun t _ d ws =>
    let w : Walker := { part := part, q := q, base := wd ws 1, node := wd ws 2, join := wd ws 4, done := wd ws 5, failed := 0,
                        st := .at_ }
    let k := t.die d.die
    (t.setDie d.die { k with walkers := k.walkers ++ [(t.freeWalker d.die, w)] }).finishPacket part q d))

/-- The data bytes of a WRITE or WRITE_SIGNAL packet (R294). -/
def packetData (ws : List Nat) : List Byte := (((ws.drop 3).take 4).flatMap (bytesOf 8)).take (wd ws 2)

/-- WRITE (R294, R295). -/
def execWrite (part q : Nat) (s : State) : Host.Outcome State Fault Refusal :=
  .next (s.packet part q 0x03 (fun t addr d ws =>
    match t.agentWriteAll part (wd ws 1) (packetData ws) with
    | (u, some (c, a, _)) => u.stopQueue part q c 0 addr (a / 64 * 64)
    | (u, none) => u.finishPacket part q d))

/-- The second step of WRITE_SIGNAL is over (R294): the packet finishes, or its queue stops with the write done (R295, R298). -/
def State.signalled (s : State) (part q addr : Nat) (d : QDesc) (a : Answer) : State :=
  match a with
  | .data _ => s.finishPacket part q d
  | .fault c va _ => s.stopQueue part q c 1 addr (if c = cFUT_STALE then 0 else va)

/-- The second step of WRITE_SIGNAL (R294): the future resolved, as RESOLVE does; a home in another package is asked, and the packet waits
for its answer. -/
def State.signalStep (s : State) (part q addr : Nat) (d : QDesc) (h v : Nat) : State :=
  match s.handleReach (128 * d.die) part h with
  | some c => s.signalled part q addr d (.fault c 0 0)
  | none =>
    if hPkg h ≠ s.pkgId then
      let t := s.setQ part q { s.qstate part q with begun := true, asked := some s.nextId }
      t.launchFlight (.fut { handle := h, op := .finish fRESOLVED v, part := part, back := .packet part q, root := 0,
                             src := s.sysCore (1024 * d.die) })
    else
      let r := s.futApply h (.finish fRESOLVED v)
      r.1.signalled part q addr d r.2

/-- The answer that a packet's step has waited for, at its service core. -/
def State.packetAnswer (s : State) (id part q : Nat) (a : Answer) : State :=
  if (s.qstate part q).asked ≠ some id then s
  else match s.readQ part q with
    | .error _ => s.setQ part q { s.qstate part q with begun := false, asked := none }
    | .ok (t, d) => t.signalled part q (d.slot d.read) d a

/-- WRITE_SIGNAL (R294, R295). -/
def execWriteSignal (part q : Nat) (s : State) : Host.Outcome State Fault Refusal :=
  .next (s.packet part q 0x04 (fun t addr d ws =>
    match t.agentWriteAll part (wd ws 1) (packetData ws) with
    | (u, some (c, a, _)) => u.stopQueue part q c 0 addr (a / 64 * 64)
    | (u, none) => u.signalStep part q addr d (wd ws 4) (wd ws 5)))

/-- A test of WAIT_VALUE (R296): a false one gives the packet up. -/
def State.waitTest (s : State) (part q addr : Nat) (d : QDesc) (ws : List Nat) : State :=
  match s.agentRead part (wd ws 1) 8 with
  | .error (c, _) => s.stopQueue part q c 0 addr (wd ws 1)
  | .ok (t, bs) =>
    if cmpTest (wd ws 2) (natOf bs) (wd ws 3) (wd ws 4) then t.finishPacket part q d
    else t.setQ part q { t.qstate part q with gaveUp := some t.clock, begun := false }

/-- WAIT_VALUE (R296). -/
def execWaitValue (part q : Nat) (s : State) : Host.Outcome State Fault Refusal :=
  .next (s.packet part q 0x05 (fun t addr d ws => t.waitTest part q addr d ws))

/-- Whether a service core is in the middle of a packet (R293). -/
def State.dieBusy (s : State) (die : Nat) : Bool :=
  s.queues.any (fun x => x.2.begun && (match s.readQ (x.1 / 64) (x.1 % 64) with
    | .ok (_, d) => d.die == die
    | .error _ => false))

/-- WAIT_VALUE_RETEST (R296). -/
def execWaitValueRetest (part q : Nat) (s : State) : Host.Outcome State Fault Refusal :=
  .next (match s.head part q with
  | .pkt t addr d ws =>
    if (s.qstate part q).gaveUp.isNone ∨ wd ws 0 % 256 ≠ 5 ∨ s.dieBusy d.die ∨ s.rangeHeld part (wd ws 1) 8 then s
    else t.waitTest part q addr d ws
  | _ => s)

/-- COPY (R294): the copy is issued to the cluster's copy engine. -/
def execCopy (part q : Nat) (s : State) : Host.Outcome State Fault Refusal :=
  .next (s.packet part q 0x06 (fun t _ d ws =>
    let cl := d.die * 128 + wd ws 4
    let c : Cmd :=
      { id := t.nextId, core := 8 * cl, ctx := 0, pc := 0, part := part, pri := 0, since := t.clock, cw := .none,
        bytes := wd ws 3, fmt := .reset, op := .bytes (wd ws 1) (wd ws 2) (wd ws 3), owner := .queue part q cl,
        todo := markLoose (copyChunks 0 0 (wd ws 2) (wd ws 1) (wd ws 3)), failed := none, dmask := 0, wake := none,
        shelves := [], held := [] }
    (({ t with nextId := t.nextId + 1 } : State).runCmd c).finishPacket part q d))

/-- PACKET_FENCE (R294): what the queue has begun is complete before it starts, and no write of a queue leaves the package. -/
def execPacketFence (part q : Nat) (s : State) : Host.Outcome State Fault Refusal :=
  .next (s.packet part q 0x07 (fun t _ d _ => t.finishPacket part q d))

/-- Whether a wake is the first of its sender's that a core has still to take (R299). -/
def State.wakeNext (s : State) (id core : Nat) (w : KWake) : Bool :=
  w.left.contains core &&
  match s.flights.find? (fun f => match f.2 with
      | .kwake x => x.sender == w.sender && x.left.contains core
      | _ => false) with
  | some f => f.1 == id
  | none => false

/-- The root task of a wake at a core (R300); a core that is fenced or finds no room for its future counts as failed. -/
def State.takeRoot (s : State) (core : Nat) (w : KWake) : State :=
  let cl := clusterOf core
  if (s.cluster cl).fenced ∨ s.guard cl w.part = .refuse then s.launchFlight (.report w.launch false)
  else match s.futNew core w.part (taskPlace s.pkgId cl) 0 true with
    | .error _ => s.launchFlight (.report w.launch false)
    | .ok (t, h) =>
      let r : TaskRec :=
        { pc := w.pc, pri := bits w.set 38 37, handle := h, twin := false, rst := false,
          args := [w.arg, (core - bits w.set 11 0) / bits w.set 36 25, bits w.set 24 12, core], tiles := [],
          elig := 2 ^ (core % 8), pair := none }
      ({ t with roots := Tbl.set 0 t.roots (rootKey w.part core (hSlot h) (hGen h)) (w.launch + 1) } : State).launchFlight
        (.record core s.pkgId cl r)

/-- LAUNCH_WAKE (R299, R300): a wake waits while its partition is swapped out. -/
def State.launchWake (s : State) (id core : Nat) : State :=
  match lookupId id s.flights with
  | some (.kwake w) =>
    if !s.wakeNext id core w ∨ (!(s.cluster (clusterOf core)).fenced ∧ s.guard (clusterOf core) w.part = .log) then s
    else
      let left := w.left.erase core
      (if left = [] then s.dropFlight id else s.become id (.kwake { w with left := left })).takeRoot core w
  | _ => s

/-- LAUNCH_WAKE (R300). -/
def execLaunchWake (id core : Nat) (s : State) : Host.Outcome State Fault Refusal := .next (s.launchWake id core)

/-- A service core's or walker's post (R363, R409). -/
def State.servicePost (s : State) (part src cause pc addr : Nat) : State :=
  s.post { pkg := s.pkgId, part := part, w0 := postWord 4 0 cause src, pc := pc, addr := addr, aux := 0, source := none }

/-- The done store (R302): when it fails, a post, and for a queue one more in ERRS. -/
def State.doneStore (s : State) (part done word src : Nat) (queue : Option Nat) : State :=
  if done = 0 then s
  else match s.agentWrite part done (bytesOf 8 word) with
    | .ok t => t
    | .error (c, _) =>
      let t := s.servicePost part src c 0 done
      match queue with
      | some k => t.bumpErrs part (k % 64)
      | none => t

/-- The join future made final by the done step (R302, R304), through its home; the launch completes when that is done. -/
def State.joinStep (s : State) (id : Nat) (l : Launch) (src st v : Nat) : State :=
  if l.join = 0 then s
  else
    let t : State := { s with launches := s.launches ++ [(id, { l with joining := true })] }
    t.launchFlight (.fut { handle := l.join, op := .finish st v, part := hPart l.join, back := .join id, root := 0, src := src })

/-- The same for a walk (R304): what it began is complete when its join is resolved. -/
def State.walkJoin (s : State) (die : Nat) (w : Walker) (st v : Nat) : State :=
  ({ s with nextId := s.nextId + 1 } : State).joinStep s.nextId
    { part := w.part, count := 0, got := 0, bad := 0, done := 0, join := w.join, queue := some (qKey w.part w.q), walker := none,
      joining := true } (s.sysCore (1024 * die)) st v

/-- A walker replaced. -/
def State.setWalker (s : State) (die n : Nat) (w : Walker) : State :=
  s.setDie die { s.die die with walkers := putId n w (s.die die).walkers }

/-- The die whose service core owns a queue. -/
def State.queueDie (s : State) (k : Nat) : Nat :=
  match s.readQ (k / 64) (k % 64) with
  | .ok (_, d) => d.die
  | .error _ => 0

/-- The launch with every report taken (R302, R303): its done step, or its failed roots added to its walk. -/
def State.launchDone (s : State) (id : Nat) (l : Launch) : State :=
  match l.walker with
  | some (die, n) =>
    (match lookupId n (s.die die).walkers with
    | some w =>
      s.setWalker die n { w with failed := w.failed + l.bad,
                                 st := match w.st with
                                   | .kernel x _ => if x = id then .at_ else w.st
                                   | st => st,
                                 node := match w.st with
                                   | .kernel x next => if x = id then next else w.node
                                   | _ => w.node }
    | none => s)
  | none =>
    match l.queue with
    | some k =>
      let src := s.sysCore (1024 * s.queueDie k)
      (s.doneStore l.part l.done l.bad src (some k)).joinStep id l src fRESOLVED l.bad
    | none =>
      let t := s.doneStore l.part l.done l.bad (s.sysCore (hCore l.join)) none
      match t.finishAt (hCore l.join) (hSlot l.join) (hGen l.join) fRESOLVED l.bad with
      | .ok (t, _) => t
      | .error _ => t

/-- Whether the counting agent of a launch is a core whose partition is swapped out, so that a report waits (R308, R313). -/
def State.agentAway (s : State) (l : Launch) : Bool :=
  l.walker.isNone && l.queue.isNone && decide (s.guard (clusterOf (hCore l.join)) l.part ≠ .deliver)

/-- ROOT_REPORT (R301, R302): the done store waits for a line that an engine holds; a core that counts waits for its partition. -/
def State.rootReport (s : State) (id : Nat) : State :=
  match lookupId id s.flights with
  | some (.report l ok) =>
    (match lookupId l s.launches with
    | none => s.dropFlight id
    | some x =>
      let x := { x with got := x.got + 1, bad := x.bad + (!ok).toNat }
      if s.agentAway x then s
      else if x.got < x.count then { s.dropFlight id with launches := putId l x s.launches }
      else if x.walker.isNone ∧ x.done ≠ 0 ∧ s.rangeHeld x.part x.done 8 then s
      else ({ s.dropFlight id with launches := dropId l s.launches } : State).launchDone l x)
  | _ => s

/-- ROOT_REPORT (R301). -/
def execRootReport (id : Nat) (s : State) : Host.Outcome State Fault Refusal := .next (s.rootReport id)

/-- Whether a kernel of a walk has still to complete (R303). -/
def State.walkBusy (s : State) (die n : Nat) : Bool := s.launches.any (fun l => l.2.walker == some (die, n))

/-- The address of a node of a walk (R303). -/
def Walker.va (w : Walker) (node : Nat) : Nat := w.base + 64 * node

/-- The bits that a node of a type may set in W1 to W7 (R303). -/
def nodeWidths (typ : Nat) : List Nat :=
  match typ with
  | 1 => [64, 64, 39, 0, 0, 0, 0]
  | 2 => [64, 3, 64, 64, 0, 0, 0]
  | 3 => [1, 32, 64, 3, 64, 64, 32]
  | _ => [0, 0, 0, 0, 0, 0, 0]

/-- Whether a node lies on a page that cannot be read. -/
def State.nodeAbsent (s : State) (w : Walker) (node : Nat) : Bool :=
  match s.translate w.part (w.va node) .read with
  | .ok _ => false
  | .error _ => true

/-- The checks of R304 on a node. -/
def State.nodeBad (s : State) (w : Walker) (ws : List Nat) : Bool :=
  let w0 := wd ws 0
  let typ := w0 % 256
  let two := typ == 2 || typ == 3
  decide (5 ≤ typ) || bits w0 15 9 != 0 || bits w0 63 48 != 0 || (bitOf w0 8 && typ != 1) || (bits w0 47 32 != 0 && !two) ||
    beyond ws (nodeWidths typ) || (typ == 2 && decide (6 ≤ wd ws 2)) || (typ == 3 && decide (6 ≤ wd ws 4)) ||
    (typ == 1 && !s.coreSetOk w.part (wd ws 3)) || (typ != 0 && s.nodeAbsent w (bits w0 31 16)) ||
    (two && s.nodeAbsent w (bits w0 47 32))

/-- The node before which a walk stands, when it passes its checks and has a type; a cause when it fails them (R304). -/
def State.nodeAt (s : State) (w : Walker) : Except Nat (State × List Nat) :=
  match s.agentRead w.part (w.va w.node) 64 with
  | .error (c, _) => .error c
  | .ok (t, bs) => if t.nodeBad w (wordsOf bs) then .error cGRAPH_NODE else .ok (t, wordsOf bs)

/-- Whether the walkers of a partition act (R293, R303, R393). -/
def State.walksOn (s : State) (part : Nat) : Bool := s.partRuns part && s.refire.isNone

/-- A node of a type acted upon by its event, while the walk's partition runs (R303). -/
def State.walkNode (s : State) (die n typ : Nat) (k : State → Walker → List Nat → State) : State :=
  match lookupId n (s.die die).walkers with
  | none => s
  | some w =>
    if w.st ≠ .at_ ∨ !s.walksOn w.part ∨ s.rangeHeld w.part (w.va w.node) 64 then s
    else match s.nodeAt w with
      | .ok (t, ws) => if wd ws 0 % 256 = typ then k t w ws else s
      | .error _ => s

/-- A walk goes to a node. -/
def State.walkTo (s : State) (die n : Nat) (w : Walker) (node : Nat) : State := s.setWalker die n { w with node := node }
/-- A walk stops with a cause (R304). -/
def State.walkStop (s : State) (die n : Nat) (w : Walker) (cause : Nat) : State :=
  s.setWalker die n { w with st := .stopping cause }

/-- A walker freed, its walk complete. -/
def State.freeWalk (s : State) (die n : Nat) : State :=
  s.setDie die { s.die die with walkers := dropId n (s.die die).walkers }

/-- The end of a stopped walk (R304). -/
def State.walkFailed (s : State) (die n : Nat) (w : Walker) (cause : Nat) : State :=
  let src := s.sysCore (1024 * die)
  let t := s.doneStore w.part w.done (2 ^ 63 + cause) src (some w.q)
  let t := t.walkJoin die w fFAULTED cause
  let t := (t.servicePost w.part src cause (w.va w.node) 0).bumpErrs w.part w.q
  t.freeWalk die n

/-- GRAPH_END (R303, R304): an END node, a node that fails its checks, or a stopped walk, once no kernel of it is left. -/
def State.graphEnd (s : State) (die n : Nat) : State :=
  match lookupId n (s.die die).walkers with
  | none => s
  | some w =>
    let late := s.walkBusy die n || (decide (w.done ≠ 0) && s.rangeHeld w.part w.done 8)
    match w.st with
    | .kernel _ _ => s
    | .stopping c => if late ∨ !s.walksOn w.part then s else s.walkFailed die n w c
    | .at_ =>
      if !s.walksOn w.part then s
      else match s.nodeAt w with
        | .error c => s.walkStop die n w c
        | .ok (t, ws) =>
          if wd ws 0 % 256 ≠ 0 ∨ late then s
          else ((t.doneStore w.part w.done w.failed (s.sysCore (1024 * die)) (some w.q)).walkJoin die w fRESOLVED w.failed).freeWalk
            die n

/-- GRAPH_END (R303). -/
def execGraphEnd (die walker : Nat) (s : State) : Host.Outcome State Fault Refusal := .next (s.graphEnd die walker)

/-- GRAPH_KERNEL (R303). -/
def execGraphKernel (die walker : Nat) (s : State) : Host.Outcome State Fault Refusal :=
  .next (s.walkNode die walker 1 (fun t w ws =>
    let next := bits (wd ws 0) 31 16
    let id := t.nextId
    let t := t.sendWake die { part := w.part, count := bits (wd ws 3) 24 12, got := 0, bad := 0, done := 0, join := 0,
                              queue := none, walker := some (die, walker), joining := false } (wd ws 1) (wd ws 2) (wd ws 3)
    if bitOf (wd ws 0) 8 then t.setWalker die walker { w with st := .kernel id next } else t.walkTo die walker w next))

/-- The test of a COND or LOOP node (R303): NEXT or ALT; a word that cannot be read stops the walk. -/
def State.nodeTest (s : State) (die n : Nat) (w : Walker) (ws : List Nat) (va cmp v m : Nat) : State :=
  if s.rangeHeld w.part va 8 then s
  else match s.agentReadAll w.part va 8 with
    | .error (c, _, _) => s.walkStop die n w c
    | .ok (t, bs) =>
      t.walkTo die n w (if cmpTest cmp (natOf bs) v m then bits (wd ws 0) 31 16 else bits (wd ws 0) 47 32)

/-- GRAPH_COND (R303). -/
def execGraphCond (die walker : Nat) (s : State) : Host.Outcome State Fault Refusal :=
  .next (s.walkNode die walker 2 (fun t w ws => t.nodeTest die walker w ws (wd ws 1) (wd ws 2) (wd ws 3) (wd ws 4)))

/-- GRAPH_LOOP (R303). -/
def execGraphLoop (die walker : Nat) (s : State) : Host.Outcome State Fault Refusal :=
  .next (s.walkNode die walker 3 (fun t w ws =>
    if wd ws 1 = 1 then t.nodeTest die walker w ws (wd ws 3) (wd ws 4) (wd ws 5) (wd ws 6)
    else
      let more := decide (wd ws 7 < wd ws 2)
      match t.agentWrite w.part (w.va w.node + 56) (bytesOf 4 (if more then wd ws 7 + 1 else 0)) with
      | .error (c, _) => t.walkStop die walker w c
      | .ok u => u.walkTo die walker w (if more then bits (wd ws 0) 31 16 else bits (wd ws 0) 47 32)))

/-- GRAPH_JOIN (R303). -/
def execGraphJoin (die walker : Nat) (s : State) : Host.Outcome State Fault Refusal :=
  .next (s.walkNode die walker 4 (fun t w ws =>
    if t.walkBusy die walker then t else t.walkTo die walker w (bits (wd ws 0) 31 16)))

/-- LAUNCH once its block has been read (R305). -/
def State.launchGo (s : State) (d queue : Nat) (bs : List Byte) : State :=
  let opc := wd (wordsOf bs) 0 % 256
  if opc ≠ 1 ∧ opc ≠ 2 then s.takeTrap cLAUNCH_BLOCK 0 0
  else
    (s.launchFlight (.append { part := s.partOf s.cur.core, queue := queue, block := bs, core := s.cur.core,
                               ctx := s.cur.ctx })).stall (.reply s.nextId (.word d) s.cur)

/-- FLOOD once its block has been read (R306). -/
def State.floodGo (s : State) (bs : List Byte) : State :=
  let ws := wordsOf bs
  let part := s.partOf s.cur.core
  let h := wd ws 4
  if wd ws 0 % 256 ≠ 1 ∨ bits (wd ws 0) 31 9 ≠ 0 ∨ beyond ws ((pktWidths 1).getD []) ∨ !s.coreSetOk part (wd ws 3) ∨ h = 0 ∨
      (wd ws 5 ≠ 0 ∧ !globalBase (wd ws 5) 8) then s.takeTrap cLAUNCH_BLOCK 0 0
  else match s.handleCheck h with
    | some c => s.takeTrap c h 0
    | none => match s.handleReach (clusterOf s.cur.core) part h with
      | some c => s.takeTrap c h 0
      | none =>
        let w : KWake :=
          { sender := 4 + s.cur.core, launch := s.nextId, part := part, pc := wd ws 1, arg := wd ws 2, set := wd ws 3,
            left := coreSet (wd ws 3) }
        ({ s with nextId := s.nextId + 1 } : State).futureOp h (.join s.nextId (bits (wd ws 3) 24 12) (wd ws 5)) (.flood w)

/-- The alignment and the checks of R116, steps 1 to 4, on a launch block, then `k`; step 5 comes with the read (R305). -/
def State.blockGate (s : State) (ea : Nat) (k : Host.Outcome State Fault Refusal) : Host.Outcome State Fault Refusal :=
  if ea % 64 ≠ 0 then s.trap cMISALIGNED ea 0
  else match s.checkAddr .load ea 64 64 with
    | .error c => if c = cBANK_CONFLICT then k else s.trap c ea 0
    | .ok _ => k

/-- LAUNCH (R305). -/
def execLaunch (d a b : GReg) (s : State) : Host.Outcome State Fault Refusal :=
  let ea := s.gN a
  let q := s.gN b
  s.unitGate (s.relGate (s.blockGate ea (
    if 64 ≤ q then s.trap cLAUNCH_BLOCK 0 0
    else match s.readQ (s.partOf s.cur.core) q with
      | .error (c, va) => if c = cUE then s.trap cUE va 0 else s.trap cLAUNCH_BLOCK 0 0
      | .ok (t, x) =>
        if !x.en ∨ x.priv then t.trap cLAUNCH_BLOCK 0 0
        else .next (t.loadFrom ea 64 64 (.block d.val (some q)) (fun u bs => u.launchGo d.val q bs)))))

/-- FLOOD (R306). -/
def execFlood (a : GReg) (s : State) : Host.Outcome State Fault Refusal :=
  let ea := s.gN a
  s.unitGate (s.relGate (s.blockGate ea (.next (s.loadFrom ea 64 64 (.block 0 none) (fun u bs => u.floodGo bs)))))

/-- LAUNCH_APPEND (R305): in one step the slot is written, WRITE advances and the doorbell rings, or the reply says why not. -/
def State.appendBlock (s : State) (id : Nat) : State :=
  match lookupId id s.flights with
  | some (.append a) =>
    let back := Back.ctx a.core a.ctx
    (match s.agentRead a.part (s.qVa a.part a.queue) 64 with
    | .error (c, aux) => s.answer id back 0 (.fault c (s.qVa a.part a.queue) aux)
    | .ok (t, bs) =>
      let d := qdescOf bs
      let at_ := d.slot d.write
      if s.rangeHeld a.part at_ 64 then s
      else if d.nslot ≤ (d.write + 2 ^ 32 - d.read) % 2 ^ 32 then t.answer id back 0 (.data 0)
      else match t.agentWrite a.part at_ a.block with
        | .error (c, aux) => t.answer id back 0 (.fault c at_ aux)
        | .ok t => ((t.putQ a.part a.queue 0x10 (bytesOf 4 (d.write + 1))).reread a.part a.queue).answer id back 0 (.data 1))
  | _ => s

/-- LAUNCH_APPEND (R305). -/
def execLaunchAppend (id : Nat) (s : State) : Host.Outcome State Fault Refusal := .next (s.appendBlock id)

end Sys2Proof.Machine
end

