-- ==== Sys2Proof/Machine/Crypto.lean ====
section
/-! DEFINITION. Machine/Crypto.lean: SHA-384 and the verification of an ECDSA signature over brainpoolP384r1, which R387 and R388
name; both are taken from their own standards (log entry 31). -/
namespace Sys2Proof.Machine

/-- Round constants of SHA-384. -/
def shaK0 : List (BitVec 64) :=
  [0x428A2F98D728AE22, 0x7137449123EF65CD, 0xB5C0FBCFEC4D3B2F, 0xE9B5DBA58189DBBC, 0x3956C25BF348B538,
   0x59F111F1B605D019, 0x923F82A4AF194F9B, 0xAB1C5ED5DA6D8118, 0xD807AA98A3030242, 0x12835B0145706FBE,
   0x243185BE4EE4B28C, 0x550C7DC3D5FFB4E2, 0x72BE5D74F27B896F, 0x80DEB1FE3B1696B1, 0x9BDC06A725C71235,
   0xC19BF174CF692694, 0xE49B69C19EF14AD2, 0xEFBE4786384F25E3, 0x0FC19DC68B8CD5B5, 0x240CA1CC77AC9C65]
/-- Round constants of SHA-384. -/
def shaK1 : List (BitVec 64) :=
  [0x2DE92C6F592B0275, 0x4A7484AA6EA6E483, 0x5CB0A9DCBD41FBD4, 0x76F988DA831153B5, 0x983E5152EE66DFAB,
   0xA831C66D2DB43210, 0xB00327C898FB213F, 0xBF597FC7BEEF0EE4, 0xC6E00BF33DA88FC2, 0xD5A79147930AA725,
   0x06CA6351E003826F, 0x142929670A0E6E70, 0x27B70A8546D22FFC, 0x2E1B21385C26C926, 0x4D2C6DFC5AC42AED,
   0x53380D139D95B3DF, 0x650A73548BAF63DE, 0x766A0ABB3C77B2A8, 0x81C2C92E47EDAEE6, 0x92722C851482353B]
/-- Round constants of SHA-384. -/
def shaK2 : List (BitVec 64) :=
  [0xA2BFE8A14CF10364, 0xA81A664BBC423001, 0xC24B8B70D0F89791, 0xC76C51A30654BE30, 0xD192E819D6EF5218,
   0xD69906245565A910, 0xF40E35855771202A, 0x106AA07032BBD1B8, 0x19A4C116B8D2D0C8, 0x1E376C085141AB53,
   0x2748774CDF8EEB99, 0x34B0BCB5E19B48A8, 0x391C0CB3C5C95A63, 0x4ED8AA4AE3418ACB, 0x5B9CCA4F7763E373,
   0x682E6FF3D6B2B8A3, 0x748F82EE5DEFB2FC, 0x78A5636F43172F60, 0x84C87814A1F0AB72, 0x8CC702081A6439EC]
/-- Round constants of SHA-384. -/
def shaK3 : List (BitVec 64) :=
  [0x90BEFFFA23631E28, 0xA4506CEBDE82BDE9, 0xBEF9A3F7B2C67915, 0xC67178F2E372532B, 0xCA273ECEEA26619C,
   0xD186B8C721C0C207, 0xEADA7DD6CDE0EB1E, 0xF57D4F7FEE6ED178, 0x06F067AA72176FBA, 0x0A637DC5A2C898A6,
   0x113F9804BEF90DAE, 0x1B710B35131C471B, 0x28DB77F523047D84, 0x32CAAB7B40C72493, 0x3C9EBE0A15C9BEBC,
   0x431D67C49C100D4C, 0x4CC5D4BECB3E42B6, 0x597F299CFC657E2A, 0x5FCB6FAB3AD6FAEC, 0x6C44198C4A475817]
/-- The first hash value of SHA-384. -/
def shaStart : List (BitVec 64) :=
  [0xCBBB9D5DC1059ED8, 0x629A292A367CD507, 0x9159015A3070DD17, 0x152FECD8F70E5939,
   0x67332667FFC00B31, 0x8EB44A8768581511, 0xDB0C2E0D64F98FA7, 0x47B5481DBEFA4FA4]

/-- The message padded to blocks of 128 bytes, its length in bits at the end. -/
def shaPad (m : List Byte) : List Byte :=
  m ++ [0x80] ++ List.replicate ((239 - m.length % 128) % 128) 0 ++ (bytesOf 16 (8 * m.length)).reverse

/-- One round: the eight working variables and the sixteen next words of the message schedule. -/
def shaRound (st : List (BitVec 64) × List (BitVec 64)) (k : BitVec 64) : List (BitVec 64) × List (BitVec 64) :=
  match st with
  | ([a, b, c, d, e, f, g, h], w0 :: ws) =>
    let t1 := h + (e.rotateRight 14 ^^^ e.rotateRight 18 ^^^ e.rotateRight 41) + ((e &&& f) ^^^ (~~~e &&& g)) + k + w0
    let t2 := (a.rotateRight 28 ^^^ a.rotateRight 34 ^^^ a.rotateRight 39) + ((a &&& b) ^^^ (a &&& c) ^^^ (b &&& c))
    let w1 := ws.getD 0 0
    let w14 := ws.getD 13 0
    let next := (w14.rotateRight 19 ^^^ w14.rotateRight 61 ^^^ (w14 >>> 6)) + ws.getD 8 0 +
      (w1.rotateRight 1 ^^^ w1.rotateRight 8 ^^^ (w1 >>> 7)) + w0
    ([t1 + t2, a, b, c, d + t1, e, f, g], ws ++ [next])
  | st => st

/-- A block taken into the hash value. -/
def shaBlock (h : List (BitVec 64)) (block : List Byte) : List (BitVec 64) :=
  let w := (List.range 16).map (fun i => BitVec.ofNat 64 (natOf ((block.drop (8 * i)).take 8).reverse))
  let r := (shaK0 ++ shaK1 ++ shaK2 ++ shaK3).foldl shaRound (h, w)
  List.zipWith (· + ·) h r.1

/-- SHA-384 of a message, 48 bytes. -/
def sha384 (m : List Byte) : List Byte :=
  let p := shaPad m
  let h := (List.range (p.length / 128)).foldl (fun h i => shaBlock h ((p.drop (128 * i)).take 128)) shaStart
  (h.take 6).flatMap (fun x => (bytesOf 8 x.toNat).reverse)

/-- The prime, the coefficients, the base point and the order of brainpoolP384r1. -/
def bpP : Nat := 0x8CB91E82A3386D280F5D6F7E50E641DF152F7109ED5456B412B1DA197FB71123ACD3A729901D1A71874700133107EC53
def bpA : Nat := 0x7BC382C63D8C150C3C72080ACE05AFA0C2BEA28E4FB22787139165EFBA91F90F8AA5814A503AD4EB04A8C7DD22CE2826
def bpB : Nat := 0x04A8C7DD22CE28268B39B55416F0447C2FB77DE107DCD2A62E880EA53EEB62D57CB4390295DBC9943AB78696FA504C11
def bpG : Nat × Nat :=
  (0x1D1C64F068CF45FFA2A63A81B7C13F6B8847A3E77EF14FE3DB7FCAFE0CBD10E8E826E03436D646AAEF87B2E247D4AF1E,
   0x8ABE1D7520F9C2A45CB1EB8E95CFD55262B70B29FEEC5864E19C054FF99129280E4646217791811142820341263C5315)
def bpN : Nat := 0x8CB91E82A3386D280F5D6F7E50E641DF152F7109ED5456B31F166E6CAC0425A7CF3AB6AF6B7FC3103B883202E9046565

/-- b ^ e modulo m, for an exponent of at most `fuel` bits. -/
def powMod (m : Nat) : Nat → Nat → Nat → Nat
  | 0, _, _ => 1 % m
  | fuel + 1, b, e => (if e % 2 = 1 then b else 1) * powMod m fuel (b * b % m) (e / 2) % m

/-- The inverse modulo a prime of at most 384 bits. -/
def invMod (m b : Nat) : Nat := powMod m 384 (b % m) (m - 2)

/-- The sum of two points of the curve; `none` is the point at infinity. -/
def bpAdd (x y : Option (Nat × Nat)) : Option (Nat × Nat) :=
  match x, y with
  | none, y => y
  | x, none => x
  | some (x1, y1), some (x2, y2) =>
    if x1 = x2 ∧ (y1 + y2) % bpP = 0 then none
    else
      let l := (if x1 = x2 then (3 * x1 * x1 + bpA) * invMod bpP (2 * y1) else (y2 + bpP - y1) * invMod bpP (x2 + bpP - x1)) % bpP
      let x3 := (l * l + 2 * bpP - x1 - x2) % bpP
      some (x3, (l * (x1 + bpP - x3) + bpP - y1) % bpP)

/-- A multiple of a point, for a factor of at most `fuel` bits. -/
def bpMul : Nat → Nat → Option (Nat × Nat) → Option (Nat × Nat)
  | 0, _, _ => none
  | fuel + 1, k, q => bpAdd (if k % 2 = 1 then q else none) (bpMul fuel (k / 2) (bpAdd q q))

/-- Whether a signature, r then s, of a message verifies with a public key, x then y, all big-endian (R387). -/
def ecdsaOk (key sig msg : List Byte) : Bool :=
  let num := fun (bs : List Byte) => natOf bs.reverse
  let x := num (key.take 48)
  let y := num (key.drop 48)
  let r := num (sig.take 48)
  let t := num (sig.drop 48)
  let w := invMod bpN t
  decide (x < bpP) && decide (y < bpP) && decide (y * y % bpP = (x * x * x + bpA * x + bpB) % bpP) && decide (0 < r) &&
    decide (r < bpN) && decide (0 < t) && decide (t < bpN) &&
    (match bpAdd (bpMul 384 (num (sha384 msg) * w % bpN) (some bpG)) (bpMul 384 (r * w % bpN) (some (x, y))) with
    | some p => decide (p.1 % bpN = r)
    | none => false)

/-- A signature of a message with a private key, r then s, big-endian (R395): `k` is its secret number. -/
def ecdsaSign (d k : Nat) (msg : List Byte) : List Byte :=
  let r := ((bpMul 384 k (some bpG)).map (·.1 % bpN)).getD 0
  let t := invMod bpN k * (natOf (sha384 msg).reverse + r * d) % bpN
  (bytesOf 48 r).reverse ++ (bytesOf 48 t).reverse

/-- The public key of a private one, x then y, big-endian (R387). -/
def publicKey (d : Nat) : List Byte :=
  match bpMul 384 d (some bpG) with
  | some p => (bytesOf 48 p.1).reverse ++ (bytesOf 48 p.2).reverse
  | none => []

end Sys2Proof.Machine
end

