-- ==== Sys2Proof/Machine/Reply.lean ====
section
/-! DEFINITION. Machine/Reply.lean: what a reply does at the STALLED context that waits for it (R119, R337). -/
namespace Sys2Proof.Machine

/-- A register group's number as a vector register. -/
def vregOf (n : Nat) : VReg := ⟨n % 32, Nat.mod_lt _ (by decide)⟩

/-- A word fetched for a context, or the failure that its next issue takes (R34, R337). -/
def State.takeFetch (s : State) (va : Nat) (a : Answer) : State :=
  let c := s.myCtx
  match a with
  | .data v => s.setMyCtx { c with ahead := c.ahead ++ [(va, v % 2 ^ 32)] }
  | .fault cause _ aux => s.setMyCtx { c with badFetch := some (va, cause, aux) }

/-- One lane of a gather returned (R113): the gather is complete when none is awaited. -/
def State.takeLane (s : State) (id d : Nat) (lanes vals : List (Nat × Nat)) (bad : Option (Nat × Nat × Nat × Nat)) (at_ : Cur)
    (a : Answer) : State :=
  let i := (lookupId id lanes).getD 0
  let lanes := dropId id lanes
  let vals := match a with
    | .data v => (i, v % 2 ^ 32) :: vals
    | .fault _ _ _ => vals
  let bad := match a, bad with
    | .data _, b => b
    | .fault c ea aux, some (j, c', ea', aux') => if i < j then some (i, c, ea, aux) else some (j, c', ea', aux')
    | .fault c ea aux, none => some (i, c, ea, aux)
  match lanes with
  | [] => s.finishGather (vregOf d) vals bad
  | (next, _) :: _ => s.stall (.reply next (.gather d lanes vals bad) at_)

/-- The thresholds and flags of MTHR (R251); a command that failed leaves its registers. -/
def State.takeThresholds (s : State) (d f : Nat) (a : Answer) : State :=
  match a with
  | .data v =>
    let t := s.setV (vregOf d) 0xFFFF (fun i => bits v (32 * i + 31) (32 * i))
    (t.setGAt s.cur.core s.cur.ctx f (v / 2 ^ 512 % 2 ^ 64)).advance
  | .fault _ _ _ => s.advance

/-- Data that a reply brings for the instruction that waits. -/
def State.takeData (s : State) (k : Kont) (v : Nat) : State :=
  let core := s.cur.core
  let ctx := s.cur.ctx
  let acquired := fun (acq : Bool) (t : State) => if acq then t.acquire else t
  match k with
  | .load d acq => acquired acq (s.setGAt core ctx d (v % 2 ^ 64)).advance
  | .vload d acq => s.finishVload (vregOf d) acq (bytesOf 64 v)
  | .cas d len acq =>
    let t := s.setGAt core ctx d (v % 2 ^ 64)
    acquired acq (if len = 16 then t.setGAt core ctx (d + 1) (v / 2 ^ 64 % 2 ^ 64) else t).advance
  | .desc va cw => s.tcopyGo va cw (bytesOf 128 v)
  | .block d (some q) => s.launchGo d q (bytesOf 64 v)
  | .block _ none => s.floodGo (bytesOf 64 v)
  | .expert ea token va => s.shelfputGo ea token va (bytesOf 32 v)
  | k => s.takeAnswer k (.data v)

/-- The answer to a TOUCH that listed a waiter: a task cancelled meanwhile leaves the list again (R184), or traps when it cannot (R173). -/
def State.takeTouch (s : State) (k : Kont) (a : Answer) : State :=
  let me := s.myCtx.task
  let canreq := decide (s.status 9 9 = 1)
  let t := s.takeAnswer k a
  match me with
  | some (cl, rid) => if canreq ∧ (t.task cl rid).used ∧ (t.task cl rid).stage = sgPARKED then (match t.unpark cl rid with
      | .ok u => u
      | .error b => s.takeTrap b.1 b.2.1 b.2.2) else t
  | none => t

/-- CALLAT to another package completes, or its future is undone and it traps (R378). -/
def State.takeSpawned (s : State) (d h : Nat) (a : Answer) : State :=
  let core := s.cur.core
  match a with
  | .data _ => (s.setGAt core s.cur.ctx d h).advance
  | .fault c addr aux => (s.futUndo core (hSlot h) (hGen h)).takeTrap c addr aux

/-- A reply at the instruction that waits for it (R119): results are written and the instruction completes, or it traps. -/
def State.resumeReply (s : State) (id : Nat) (k : Kont) (at_ : Cur) (a : Answer) : State :=
  match k with
  | .fetch va => s.takeFetch va a
  | .gather d lanes vals bad => s.takeLane id d lanes vals bad at_ a
  | .thresholds d f => s.takeThresholds d f a
  | .touch .. => s.takeTouch k a
  | .ended => s.takeAnswer k a
  | .pair _ => s.takeAnswer k a
  | .spawned d h => s.takeSpawned d h a
  | k => match a with
    | .data v => s.takeData k v
    | .fault c addr aux => s.takeTrap c addr aux

/-- Whether a context's wait is for a flight. -/
def Wait.awaits (w : Wait) (id : Nat) : Bool :=
  match w with
  | .reply n k _ => n == id || (match k with
    | .gather _ lanes _ _ => (lookupId id lanes).isSome
    | _ => false)
  | _ => false

/-- A context whose instruction has returned what a release wrote acquires with its completion (R34, R229). -/
def State.acquireAt (s : State) (core ctx : Nat) : State :=
  let c := s.ctxAt core ctx
  let waits := match c.wait with
    | .reply _ _ _ => true
    | _ => false
  if c.acq ∧ !waits then s.setCtxAt core ctx { c with acq := false, ahead := [] } else s

/-- REPLY_ARRIVAL (R119): a context that no longer waits for it drops it. The answers that packets and launches wait for arrive with it
too (R294, R302). -/
def State.replyArrive (s : State) (id : Nat) : State :=
  match lookupId id s.flights with
  | some (.reply (.ctx core ctx) a) =>
    let t := s.dropFlight id
    (match (s.ctxAt core ctx).wait with
    | .reply n k at_ =>
      if (Wait.reply n k at_).awaits id then
        (({ t.readyAt core ctx with cur := at_ } : State).resumeReply id k at_ a).acquireAt core ctx else t
    | _ => t)
  | some (.reply (.packet part q) a) => (s.dropFlight id).packetAnswer id part q a
  | some (.reply (.join l) _) => { s.dropFlight id with launches := dropId l s.launches }
  | some (.reply _ _) => s.dropFlight id
  | _ => s

/-- REPLY_ARRIVAL (R119). -/
def execReplyArrival (id : Nat) (s : State) : Host.Outcome State Fault Refusal := .next (s.replyArrive id)

end Sys2Proof.Machine
end

