-- ==== Sys2Proof/Machine/Partitions.lean ====
section
/-! DEFINITION. Machine/Partitions.lean: the privileged packets (R309, R310), how a partition stops (R311), its images (R312), the
start with replay (R314), the reset (R316), and the expiry of a time slice (R298, R309). -/
namespace Sys2Proof.Config

/-- The data of a section of an image that R312 gives no layout, by KIND: a function of what it holds (log entry 30). -/
opaque imageBytes : Nat → Machine.Image → List Byte

/-- What such data hold when no layer of the package's own has them, if they are well formed (log entry 30). -/
opaque imageData : Nat → List Byte → Option Machine.Image

end Sys2Proof.Config
namespace Sys2Proof.Machine

/-- The cores of some clusters. -/
def coresOf (clusters : List Nat) : List Nat := clusters.flatMap (fun c => (List.range 8).map (8 * c + ·))
/-- The cores and contexts of some clusters. -/
def ctxsOf (clusters : List Nat) : List (Nat × Nat) := (coresOf clusters).flatMap (fun c => (List.range 12).map (fun x => (c, x)))

/-- A packet whose operands fail its own checks (R295, R309). -/
def State.badOperand (s : State) (part q addr : Nat) : State := s.stopQueue part q cPACKET_OPERAND 0 addr 0

/-- A packet that has begun and goes on in later events of its service core (R293). -/
def State.beginPacket (s : State) (part q : Nat) : State := s.setQ part q { s.qstate part q with begun := true }

/-- Whether a write of XL.INV by a packet is in flight. -/
def State.invPending (s : State) (v : Nat) : Bool :=
  s.flights.any (fun f => match f.2 with
    | .xlInv x .device => x == v
    | _ => false)

/-- Whether CTRL_WRITE may write a field of a core (R309, R322, R323); XL.INV names the core's partition, or partition 0 asks (R341). -/
def State.ctrlWriteOk (s : State) (core n v : Nat) : Bool :=
  (fieldAccess n).isSome && decide (0x0100 ≤ n) && decide (fieldAccess n ≠ some .readOnly) && !s.fieldBad core n v &&
    (n != 0x0308 || bits v 15 12 == s.partOf core || s.partOf core == 0) &&
    (n != 0x0405 || (match s.partOfCluster (clusterOf core) with
      | some p => decide ((s.part p).status = .stopped)
      | none => false))

/-- The number of a partition's state (R307). -/
def PartStatus.code : PartStatus → Nat
  | .unused => 0
  | .stopped => 1
  | .running => 2
  | .swapped => 3
  | .resetting => 4

/-- The entry of a partition as the control node reads it (R307). -/
def State.entryMsg (s : State) (n : Nat) : HostMsg :=
  let p := s.part n
  .entry n p.status.code p.clusters p.pages p.frames p.ports p.supv p.alog p.alsize p.appended p.baseline p.rdrain p.rdrop

/-- A privileged packet finished: it returns the entry of its target (R307, R309; log entry 123). -/
def State.finishPriv (s : State) (part q : Nat) (d : QDesc) (target : Nat) : State :=
  let t := s.finishPacket part q d
  { t with toHost := t.toHost ++ [t.entryMsg target] }

/-- CTRL_WRITE (R309); one of XL.INV finishes when the invalidation has (R341). -/
def execCtrlWrite (part q : Nat) (s : State) : Host.Outcome State Fault Refusal :=
  .next (s.packet part q 0x10 (fun t addr d ws =>
    let core := wd ws 1
    let n := wd ws 2
    let v := wd ws 3
    if !t.ctrlWriteOk core n v then t.badOperand part q addr
    else if n ≠ 0x0308 then (t.fieldSet core 0 n v).finishPriv part q d (t.partOf core)
    else if !(t.qstate part q).begun then (t.launchFlight (.xlInv v .device)).beginPacket part q
    else if t.invPending v then t
    else t.finishPriv part q d (t.partOf core)))

/-- BAR_ASSIGN (R214, R309). -/
def execBarAssign (part q : Nat) (s : State) : Host.Outcome State Fault Refusal :=
  .next (s.packet part q 0x14 (fun t _ d ws =>
    let v := wd ws 3 * 2 ^ 64 + wd ws 2
    let die := bits (wd ws 1) 2 1
    (if bitOf (wd ws 1) 0 then { t with barPart := v } else t.setDie die { t.die die with barPart := v }).finishPriv part q d part))

/-- The limits of QUEUE_CONFIG (R292, R309). -/
def State.queueConfigOk (s : State) (ws : List Nat) : Bool :=
  let p := bits (wd ws 1) 3 0
  p != 0 && decide ((s.part p).status ≠ .unused) && powerOf (bits (wd ws 2) 31 0) 16 65536 && globalBase (wd ws 3) 4096

/-- QUEUE_CONFIG (R309): a descriptor in the target's queue table. -/
def execQueueConfig (part q : Nat) (s : State) : Host.Outcome State Fault Refusal :=
  .next (s.packet part q 0x15 (fun t addr d ws =>
    let p := bits (wd ws 1) 3 0
    let n := bits (wd ws 1) 9 4
    if !t.queueConfigOk ws then t.badOperand part q addr
    else match t.agentWrite p (t.qVa p n) (bytesOf 8 (wd ws 3) ++ bytesOf 8 (wd ws 2) ++ bytesOf 24 0) with
      | .error (c, _) => t.stopQueue part q c 0 addr (t.qVa p n)
      | .ok u => (u.setQ p n QState.reset).finishPriv part q d p))

/-- The slot that CTX_START gives a control context (R310). -/
def State.startSlot (s : State) (core : Nat) : Nat :=
  let free := fun w => (List.range 12).all (fun x => x == 0 || (s.ctxAt core x).wp != w) &&
    (s.core core).resident.all (fun r => r.1 != w)
  (((List.range 14).map (fun n => 0x30000 + 0xC00 * n)).find? free).getD 0x30000

/-- CTX_START's step (R310). -/
def State.startControl (s : State) (core pc v : Nat) : State :=
  let t := s.setCtxAt core 0 { Ctx.reset 0 with wp := s.startSlot core, away := (s.ctxAt core 0).away }
  ((t.freeRegs core 0).startWords core 0 pc 0 0).setGAt core 0 4 v

/-- CTX_START (R310). -/
def execCtxStart (part q : Nat) (s : State) : Host.Outcome State Fault Refusal :=
  .next (s.packet part q 0x16 (fun t addr d ws =>
    let core := wd ws 1
    let held := match t.partOfCluster (clusterOf core) with
      | some p => decide ((t.part p).status ≠ .resetting)
      | none => false
    if !held ∨ wd ws 2 % 4 ≠ 0 ∨ t.stateAt core 0 ≠ stEMPTY then t.badOperand part q addr
    else (t.startControl core (wd ws 2) (wd ws 3)).finishPriv part q d (t.partOf core)))

/-- Whether a command belongs to a partition. -/
def WedgeEnt.ofPart (e : WedgeEnt) (part : Nat) : Bool := e.members.any (fun m => m.part == part)

/-- Steps 1 to 3 of R311 pushed on: wedge entries are released, and contexts that wait where a stop interrupts are taken out of
their instructions. -/
def State.pushStop (s : State) (part : Nat) : State :=
  let p := s.part part
  let t := s.setPart part { p with stopping := true }
  let t := p.clusters.foldl (fun t c => t.releaseWhere c (fun e => e.ofPart part)) t
  (ctxsOf p.clusters).foldl (fun t x =>
    if x.2 = 1 ∨ t.stateAt x.1 x.2 ≠ stSTALLED ∨ (t.ctxAt x.1 x.2).ending.isSome then t
    else match t.interrupt x.1 x.2 with
      | .ok (some u) => (u.setCtxAt x.1 x.2 { u.ctxAt x.1 x.2 with draining := false }).readyAt x.1 x.2
      | _ => t) t

/-- Whether a context stands at an instruction boundary with nothing outstanding (R311): its counters are zero, that of its posted
operations to other packages among them (R351). -/
def State.ctxStopped (s : State) (core ctx : Nat) : Bool :=
  let c := s.ctxAt core ctx
  let st := s.stateAt core ctx
  s.quietAt core ctx && c.away == 0 && (st == stEMPTY || st == stHELD ||
    (ctx != 1 && st == stREADY && c.ending.isNone && c.holdReq.isEmpty && !c.stopReq && !c.parkReq && decide (c.wait = .none)))

/-- Whether the wait of step 3 of R311 is over. -/
def State.stopDone (s : State) (part : Nat) : Bool :=
  let p := s.part part
  (ctxsOf p.clusters).all (fun x => s.ctxStopped x.1 x.2) &&
    (coresOf p.clusters).all (fun c => (s.core c).matQ.isEmpty && (s.core c).copyQ.isEmpty) &&
    s.running.all (fun r => r.2.part != part) && p.clusters.all (fun c => (s.cluster c).wedge.all (fun e => !e.ofPart part))

/-- Step 4 of R311: open shelves close and are sent. -/
def State.closeShelves (s : State) (part : Nat) : State :=
  (s.part part).clusters.foldl (fun t c => (t.cluster c).shelves.foldl (fun t x =>
    if x.2.part = part then t.closeShelf c x.1 else t) t) s

/-- The near location that a dirty bit covers. -/
def dirtyLoc (key : Nat) : Nat := if key < 2 ^ 64 then 64 * key else 4096 * (key - 2 ^ 64)
/-- The cluster, unit and offset of a near location. -/
def locParts (loc : Nat) : Nat × Nat × Nat := (bits loc 45 44 * 128 + bits loc 43 37, bits loc 36 33, bits loc 32 0)

/-- The dirty bits of a partition cleared (R312). -/
def State.cleanDirty (s : State) (clusters : List Nat) : State :=
  { s with dirty := s.dirty.filter (fun k => !clusters.contains (locParts (dirtyLoc k)).1) }

/-- A section of an image: KIND, unit, offset within the unit, data and the places of poisoned bytes (R312). -/
structure Section where
  kind : Nat
  unit : Nat
  off : Nat
  data : List Byte
  bad : List Nat
  deriving DecidableEq, Repr

/-- A section of a near unit's bytes. -/
def State.memSection (s : State) (kind unit loc off n : Nat) : Section :=
  { kind := kind, unit := unit, off := off, data := s.rd (loc + off) n, bad := s.badAt (loc + off) n }

/-- The regions of a cluster store that travel in images (R312): SCRATCH and FIFO mode regions and the task queue. -/
def State.storeRegions (s : State) (cl : Nat) : List Nat := (List.range 1024).filter (fun r => s.bankMode cl (4096 * r) != 1)

/-- What an image holds of a core in a section of KIND 2, 3, 6 or 7: context words with what the core keeps beside them, live futures,
residency, or control fields (R312). Its sequence numbers and records stay with the core (R129). -/
def CoreState.section_ (c : CoreState) (kind : Nat) : CoreState :=
  let z := CoreState.reset
  match kind with
  | 2 => { z with ctxs := c.ctxs, lastIssued := c.lastIssued, handlerRun := c.handlerRun, act := c.act, inbox := c.inbox, fmt := c.fmt,
                  flushing := c.flushing, flushes := c.flushes, outbox := c.outbox }
  | 3 => { z with futs := c.futs, tiedSpill := c.tiedSpill }
  | 6 => { z with resident := c.resident }
  | _ => { z with trVec := c.trVec, trCvec := c.trCvec, trMask := c.trMask, mbFut := c.mbFut, mbLost := c.mbLost, mbTail := c.mbTail,
                  ftLimit := c.ftLimit, ftSpBase := c.ftSpBase, ftSpEnt := c.ftSpEnt }

/-- A core with what a section of an image holds of it. A flush accumulate or a message that has been applied since is no longer
waited for. -/
def CoreState.restored (now im : CoreState) (kind : Nat) (flying : Nat → Bool) : CoreState :=
  match kind with
  | 2 => { now with ctxs := im.ctxs, lastIssued := im.lastIssued, handlerRun := im.handlerRun, act := im.act, inbox := im.inbox,
                    fmt := im.fmt, flushing := im.flushing.filter flying,
                    flushes := im.flushes.map (fun g => { g with waits := g.waits.filter flying }), outbox := im.outbox.filter flying }
  | 3 => { now with futs := im.futs, tiedSpill := im.tiedSpill }
  | 6 => { now with resident := im.resident }
  | _ => { now with trVec := im.trVec, trCvec := im.trCvec, trMask := im.trMask, mbFut := im.mbFut, mbLost := im.mbLost,
                    mbTail := im.mbTail, ftLimit := im.ftLimit, ftSpBase := im.ftSpBase, ftSpEnt := im.ftSpEnt }

/-- What an image holds of a cluster in a section of KIND 5, 6 or 7: held row groups, the scheduler, or `CS.MODE` and the control
fields (R312). Its slice and its arbiter stay the cluster's own. -/
def Cluster.restored (now im : Cluster) (kind : Nat) : Cluster :=
  match kind with
  | 5 => { now with groups := im.groups.filter (fun g => g.2.holder.isSome) }
  | 6 => { now with tasks := im.tasks, queued := im.queued, ready := im.ready }
  | _ => { now with csMode := im.csMode, mxWeight := im.mxWeight, wedgeHold := im.wedgeHold, barTmo := im.barTmo, ovBase := im.ovBase,
                    ovEnt := im.ovEnt, wsBase := im.wsBase, pfBase := im.pfBase, pfSize := im.pfSize, trBase := im.trBase,
                    resv := im.resv, accLine := im.accLine, accSlice := im.accSlice, accLineNow := im.accLineNow,
                    accSliceNow := im.accSliceNow, shelfTimer := im.shelfTimer, xtBase := im.xtBase }

/-- The cluster of a location of a near unit, and the unit. -/
def unitAt (loc : Nat) : Option (Nat × Nat) :=
  if bits loc 63 56 = 8 then some ((locParts loc).1, (locParts loc).2.1) else none

/-- Whether a location lies in a held row group of a cluster's accumulator memory (R148). -/
def Cluster.heldRow (k : Cluster) (cl loc : Nat) : Bool :=
  unitAt loc == some (cl, 9) && (Tbl.get RowGroup.reset k.groups ((locParts loc).2.2 / 0x2000)).holder.isSome

/-- Whether a barrier object is a quad or cluster object of some clusters (R215). -/
def barrierOf (clusters : List Nat) (key : Nat) : Bool :=
  (key / 2 ^ 20 == 0 && clusters.contains (key % 2 ^ 20 / 16 / 2)) || (key / 2 ^ 20 == 1 && clusters.contains (key % 2 ^ 20 / 16))

/-- Whether a CWAIT is one of a cluster's tasks or contexts (R147). -/
def waitOf (cl : Nat) (w : Nat × Bool × Nat × Nat) : Bool := (if w.2.1 then w.2.2.1 else clusterOf w.2.2.1) == cl

/-- Whether a launch's root is a future of a partition's core (R301). -/
def rootOf (part core key : Nat) : Bool := key / 2 ^ 40 == part && key % 2 ^ 40 / 2 ^ 26 == core

/-- An image section's content that holds nothing. -/
def Image.empty : Image :=
  { cores := [], cluster := .reset, acc := [], bad := [], barriers := [], roots := [], cwaits := [], pairs := [], links := [] }

/-- The cores of a section: one of KIND 2 or 3 names its core, and the others their cluster (R312). -/
def sectionCores (kind u : Nat) : List Nat := if kind ≤ 3 then [u] else coresOf [u]

/-- What a section of a KIND holds of a core or a cluster of a partition (R312). -/
def State.content (s : State) (part kind u : Nat) : Image :=
  let k := s.cluster u
  let cores := (sectionCores kind u).map (fun c => (s.core c).section_ kind)
  match kind with
  | 2 => { Image.empty with cores := cores }
  | 3 => { Image.empty with cores := cores, roots := s.roots.filter (fun r => rootOf part u r.1) }
  | 5 => { Image.empty with cluster := Cluster.reset.restored k 5, acc := s.mem.filter (fun c => k.heldRow u c.1),
                            bad := s.poisoned.filter (k.heldRow u) }
  | 6 => { Image.empty with cores := cores, cluster := Cluster.reset.restored k 6, cwaits := s.cwaits.filter (waitOf u),
                            pairs := s.pairs.filter (fun p => p.2.mine.1 == u), links := s.links.filter (fun l => tokCluster l.1 == u) }
  | _ => { Image.empty with cores := cores, cluster := Cluster.reset.restored k 7, barriers := s.barriers.filter (fun b => barrierOf [u] b.1) }

/-- The contents of a partition's sections without a layout, by KIND and unit (R312). -/
def State.contents (s : State) (part : Nat) (clusters : List Nat) : List (Nat × Nat × Image) :=
  ((coresOf clusters).flatMap (fun c => [(2, c), (3, c)]) ++ clusters.flatMap (fun c => [(5, c), (6, c), (7, c)])).map
    (fun (x : Nat × Nat) => (x.1, x.2, s.content part x.1 x.2))

/-- The sections of a layer in order of KIND (R312); those of KIND 2, 3, 5, 6 and 7 stand for the partition's contents. -/
def State.sections (s : State) (part : Nat) (clusters : List Nat) (glaze : Bool) : List Section :=
  let dirtyPm := fun core off => s.dirty.contains (dirtyKey (pmLoc core off))
  let held := (s.contents part clusters).map (fun x =>
    ({ kind := x.1, unit := x.2.1, off := 0, data := Config.imageBytes x.1 x.2.2, bad := [] } : Section))
  (coresOf clusters).flatMap (fun c => if glaze
    then (((List.range 4096).map (64 * ·)).filter (dirtyPm c)).map (fun o => s.memSection 1 c (pmLoc c 0) o 64)
    else [s.memSection 1 c (pmLoc c 0) 0 0x40000]) ++
  held.filter (fun x => decide (x.kind < 4)) ++
  clusters.flatMap (fun c => ((s.storeRegions c).filter (fun r => !glaze || s.dirty.contains (dirtyKey (nearLoc c 8 (4096 * r))))).map
    (fun r => s.memSection 4 c (nearLoc c 8 0) (4096 * r) 4096)) ++
  held.filter (fun x => decide (4 < x.kind))

/-- The bytes of a section with its header (R312). -/
def Section.bytes (x : Section) : List Byte :=
  bytesOf 8 (x.kind + x.unit * 2 ^ 8 + x.data.length * 2 ^ 32) ++ bytesOf 8 x.off ++ x.data

/-- The bytes of sections one after the other and the end of the layer, with the places of poisoned bytes. -/
def layerBody (xs : List Section) : List Byte × List Nat :=
  let r := xs.foldl (fun (acc : List Byte × List Nat) x =>
    (acc.1 ++ x.bytes, acc.2 ++ x.bad.map (fun i => acc.1.length + 16 + i))) ([], [])
  (r.1 ++ bytesOf 16 0, r.2)

/-- The header of a layer (R312). -/
def layerHeader (part layer prev : Nat) (body : List Byte) : List Byte :=
  bytesOf 8 (layer * 2 ^ 32 + part) ++ bytesOf 8 prev ++ bytesOf 8 body.length ++ bytesOf 8 (crc32c body) ++ bytesOf 32 0

/-- Bytes with their poison written line by line. -/
def State.storeAll (s : State) (part va : Nat) (bs : List Byte) (bad : List Nat) : State × Option (Nat × Nat) :=
  (linesOf va bs.length).foldl (fun acc a => match acc with
    | (t, some e) => (t, some e)
    | (t, none) =>
      let o := a - va
      let k := inLine va bs.length a
      match t.agentStore part a ((bs.drop o).take k) ((bad.filter (fun i => decide (o ≤ i) && decide (i < o + k))).map (· - o)) with
      | .error (c, _) => (t, some (c, a))
      | .ok u => (u, none)) (s, none)

/-- LAYER of the image at an address. -/
def State.layerAt (s : State) (space va : Nat) : Except (Nat × Nat) Nat :=
  match s.agentRead space va 8 with
  | .error (c, _) => .error (c, va)
  | .ok (_, bs) => .ok (bits (natOf bs) 63 32)

/-- Every dirty chunk of the register caches of some cores written back, as before a layer is taken (R312). -/
def State.saveCaches (s : State) (clusters : List Nat) : State := (ctxsOf clusters).foldl (fun t x => t.saveChunks x.1 x.2) s

/-- A layer of a stopped partition written in an address space (R312): cause and address of a failed write. -/
def State.saveLayer (s : State) (space part va : Nat) (glaze : Bool) : State × Option (Nat × Nat) :=
  let p := s.part part
  match (if glaze then s.layerAt space p.baseline else .ok 0) with
  | .error e => (s, some e)
  | .ok below =>
    let t := s.saveCaches p.clusters
    let body := layerBody (t.sections part p.clusters glaze)
    let head := layerHeader part (if glaze then below + 1 else 0) (if glaze then p.baseline else 0) body.1
    match t.storeAll space va (head ++ body.1) (body.2.map (· + 64)) with
    | (u, some e) => (u, some e)
    | (u, none) =>
      let new := (t.contents part p.clusters).map (fun x => (x.1, Config.imageBytes x.1 x.2.2, x.2.2))
      ((({ u with images := new ++ u.images } : State).cleanDirty p.clusters).setPart part { u.part part with baseline := va }, none)

/-- A partition whose stop is complete gets its state (R309, R311): its contexts are wherever they stood. -/
def State.setStatus' (s : State) (part : Nat) (st : PartStatus) : State :=
  s.setPart part { s.part part with status := st, stopping := false, replaying := false }

/-- PART_STOP (R309, R311, R312): the image address lies in the space of the packet's partition. -/
def execPartStop (part q : Nat) (s : State) : Host.Outcome State Fault Refusal :=
  .next (s.packet part q 0x11 (fun t addr d ws =>
    let p := bits (wd ws 1) 3 0
    let save := bitOf (wd ws 1) 4
    let glaze := bitOf (wd ws 1) 5
    let x := t.part p
    if p = 0 ∨ x.status ≠ .running ∨ (save ∧ (!globalBase (wd ws 2) 4096 ∨ (glaze ∧ x.baseline = 0))) then t.badOperand part q addr
    else if !(x.stopping && t.stopDone p) then (t.pushStop p).beginPacket part q
    else
      let t := t.closeShelves p
      if !save then (t.setStatus' p .stopped).finishPriv part q d p
      else match t.saveLayer part p (wd ws 2) glaze with
        | (u, some (c, a)) => u.stopQueue part q c 1 addr a
        | (u, none) => (u.setStatus' p .swapped).finishPriv part q d p))

/-- Bytes read by a service core in an address space, with the places of those that lie in poisoned words: or cause and address. -/
def State.fetchAll (s : State) (space va n : Nat) : Except (Nat × Nat) (State × List Byte × List Nat) :=
  (linesOf va n).foldl (fun acc a => match acc with
    | .error e => .error e
    | .ok (t, bs, bad) => match t.agentFetch space a (inLine va n a) with
      | .error (c, _) => .error (c, a)
      | .ok (t, more, b) => .ok (t, bs ++ more, bad ++ b.map (bs.length + ·))) (.ok (s, [], []))

/-- The sections of a layer's body from a place on (R312), when they are well formed and end where the layer ends; or the cause. Poison
travels with the data of KIND 1 and 4 (R365), and is consumed anywhere else (R366). -/
def sectionsOf (bad : List Nat) : Nat → Nat → List Byte → Except Nat (List Section)
  | 0, _, _ => .error cIMAGE
  | fuel + 1, at_, bs =>
    let w := natOf (bs.take 8)
    let kind := bits w 7 0
    let n := bits w 63 32
    let marks := bad.filter (fun i => decide (at_ + 16 ≤ i) && decide (i < at_ + 16 + n))
    if bad.any (fun i => decide (at_ ≤ i) && decide (i < at_ + 16)) then .error cUE
    else if bs.length < 16 ∨ bits w 31 20 ≠ 0 ∨ 7 < kind then .error cIMAGE
    else if kind = 0 then (if bs.length = 16 ∧ w = 0 ∧ natOf (bs.drop 8) = 0 then .ok [] else .error cIMAGE)
    else if bs.length < 16 + n then .error cIMAGE
    else if kind ≠ 1 ∧ kind ≠ 4 ∧ marks ≠ [] then .error cUE
    else (sectionsOf bad fuel (at_ + 16 + n) (bs.drop (16 + n))).map (fun xs =>
      { kind := kind, unit := bits w 19 8, off := natOf ((bs.drop 8).take 8), data := (bs.drop 16).take n,
        bad := marks.map (· - (at_ + 16)) } :: xs)

/-- Whether a section names a unit of some clusters and whole chunks or regions within it (R312). -/
def Section.ok (clusters : List Nat) (x : Section) : Bool :=
  let grain := if x.kind = 1 then 64 else 4096
  let within := x.off % grain == 0 && x.data.length % grain == 0
  if x.kind = 1 then clusters.contains (x.unit / 8) && within && decide (x.off + x.data.length ≤ 0x40000)
  else if x.kind = 4 then clusters.contains x.unit && within && decide (x.off + x.data.length ≤ 0x400000)
  else x.off == 0 && (if x.kind ≤ 3 then clusters.contains (x.unit / 8) else clusters.contains x.unit)

/-- What a section without a layout holds: what the package wrote in such bytes, or what they say otherwise (R312; log entry 30). -/
def State.meaning (s : State) (x : Section) : Option Image :=
  match s.images.find? (fun y => y.1 == x.kind && y.2.1 == x.data) with
  | some y => some y.2.2
  | none => Config.imageData x.kind x.data

/-- Whether the data of a section are well formed. -/
def State.sectionOk (s : State) (clusters : List Nat) (x : Section) : Bool :=
  x.ok clusters && (x.kind == 1 || x.kind == 4 || (s.meaning x).isSome)

/-- A layer read and checked (R312): the state after the reads, LAYER, PREV and the sections; or cause and address. -/
def State.readLayer (s : State) (space part va : Nat) : Except (Nat × Nat) (State × Nat × Nat × List Section) :=
  match s.agentReadAll space va 64 with
  | .error (c, a, _) => .error (c, a)
  | .ok (t, h) =>
    let w (o : Nat) := natOf ((h.drop o).take 8)
    match t.fetchAll space (va + 64) (w 16) with
    | .error e => .error e
    | .ok (t, body, bad) =>
      if bits (w 0) 31 4 ≠ 0 ∨ w 0 % 16 ≠ part ∨ 2 ^ 32 ≤ w 24 ∨ w 24 ≠ crc32c body ∨ (h.drop 32).any (fun b => b != 0) then .error (cIMAGE, va)
      else match sectionsOf bad (body.length + 1) 0 body with
        | .error c => .error (c, va)
        | .ok xs => if xs.all (t.sectionOk (t.part part).clusters) then .ok (t, bits (w 0) 63 32, w 8, xs) else .error (cIMAGE, va)

/-- The layers from a bisque image up to the layer at an address, in ascending order (R312). -/
def State.chain (s : State) (space part : Nat) : Nat → Nat → Except (Nat × Nat) (State × List (List Section))
  | 0, va => .error (cIMAGE, va)
  | fuel + 1, va => match s.readLayer space part va with
    | .error e => .error e
    | .ok (t, layer, prev, xs) =>
      if layer ≠ fuel ∨ (layer = 0 ∧ prev ≠ 0) then .error (cIMAGE, va)
      else if layer = 0 then .ok (t, [xs])
      else match t.chain space part fuel prev with
        | .error e => .error e
        | .ok (u, ls) => .ok (u, ls ++ [xs])

/-- What a section without a layout brings back to its unit. -/
def State.applyContent (s : State) (part kind u : Nat) (im : Image) : State :=
  let flying := fun id => s.flights.any (fun f => f.1 == id)
  let cores := sectionCores kind u
  let t := (List.range cores.length).foldl (fun t i =>
    let c := cores.getD i 0
    t.setCore c ((t.core c).restored (im.cores.getD i .reset) kind flying)) s
  if kind = 2 then t
  else if kind = 3 then
    let others := t.roots.filter (fun r => !rootOf part u r.1)
    { t with roots := (im.roots.filter (fun r => rootOf part u r.1)).foldl (fun m r => Tbl.set 0 m r.1 r.2) others }
  else
    let t := t.setCluster u ((t.cluster u).restored im.cluster kind)
    if kind = 5 then
      { t with mem := (im.acc.filter (fun c => unitAt c.1 == some (u, 9))).foldl (fun m c => m.write c.1 [c.2]) t.mem,
               poisoned := (im.bad.filter (fun w => unitAt w == some (u, 9))).foldl (fun p w => insertNat w p) t.poisoned }
    else if kind = 6 then
      { t with cwaits := t.cwaits ++ im.cwaits.filter (waitOf u),
               pairs := t.pairs ++ im.pairs.filter (fun p => p.2.mine.1 == u),
               links := (im.links.filter (fun l => tokCluster l.1 == u)).foldl (fun m l => Tbl.set noToken m l.1 l.2) t.links }
    else (im.barriers.filter (fun b => barrierOf [u] b.1)).foldl (fun t b => t.setBarrier b.1 b.2) t

/-- A section applied to its unit (R312), with its poison (R365). -/
def State.applySection (s : State) (part : Nat) (x : Section) : State :=
  if x.kind = 1 then (s.wr (pmLoc x.unit x.off) x.data).poisonAt (pmLoc x.unit x.off) x.bad
  else if x.kind = 4 then (s.wr (nearLoc x.unit 8 x.off) x.data).poisonAt (nearLoc x.unit 8 x.off) x.bad
  else match s.meaning x with
    | some im => s.applyContent part x.kind x.unit im
    | none => s

/-- A layer applied (R312): what a scheduler waits for comes whole from the layer. -/
def State.applyLayer (s : State) (part : Nat) (clusters : List Nat) (xs : List Section) : State :=
  let mine := fun cl => clusters.contains cl
  let t : State :=
    { s with cwaits := s.cwaits.filter (fun w => !clusters.any (fun c => waitOf c w)), pairs := s.pairs.filter (fun p => !mine p.2.mine.1),
             links := s.links.filter (fun l => !mine (tokCluster l.1)), barriers := s.barriers.filter (fun b => !barrierOf clusters b.1) }
  xs.foldl (fun t x => t.applySection part x) t

/-- The on-chip memories of some clusters cleared: private memories, stores and accumulators, their poison, the register caches, and what
they have held (R9, R316). -/
def State.wipe (s : State) (clusters : List Nat) : State :=
  let mine := fun (loc : Nat) => match unitAt loc with
    | some (cl, _) => clusters.contains cl
    | none => false
  let chunk := fun (k : Nat) => clusters.contains (clusterOf (k / 1024))
  ({ s with mem := s.mem.filter (fun c => !mine c.1), poisoned := s.poisoned.filter (fun w => !mine w),
            released := s.released.filter (fun a => !mine a), chunks := s.chunks.filter (fun k => !chunk k),
            unsaved := s.unsaved.filter (fun k => !chunk k) } : State).forget mine

/-- Clusters as a partition finds them that takes them or comes back to them (R9, R310; log entry 125): nothing of another partition's is
left. -/
def State.fresh (s : State) (clusters : List Nat) : State :=
  let t := s.wipe clusters
  let t := (coresOf clusters).foldl (fun t c => t.setCore c { CoreState.reset with seq := (t.core c).seq, replay := (t.core c).replay }) t
  clusters.foldl (fun t c =>
    let k := [5, 6, 7].foldl (fun k n => k.restored .reset n) (t.cluster c)
    t.setCluster c { k with wedge := [], shelves := [] }) t

/-- Every layer up to the one at an address applied (R312): cause and address of what is invalid. -/
def State.restoreFrom (s : State) (space part va : Nat) : Except (Nat × Nat) State :=
  match s.layerAt space va with
  | .error e => .error e
  | .ok n => match s.chain space part (n + 1) va with
    | .error e => .error e
    | .ok (t, ls) =>
      let cl := (t.part part).clusters
      let t := (ls.foldl (fun t xs => t.applyLayer part cl xs) (t.fresh cl)).cleanDirty cl
      .ok (t.setPart part { t.part part with baseline := va })

/-- Whether another partition occupies a cluster of a partition (R307). -/
def State.clustersTaken (s : State) (part : Nat) : Bool :=
  s.parts.any (fun p => p.1 != part && p.2.status.onChip && p.2.clusters.any (s.part part).clusters.contains)

/-- A partition starts to run, after the replay of its log if it holds anything (R309, R314); every walker is loaded with its root
(R331). -/
def State.startPart (s : State) (part : Nat) : State :=
  let p := s.part part
  s.setPart part { p with status := .running, stopping := false, replaying := !p.logged.isEmpty, root := p.pages }

/-- PART_START (R309, R312, R314): it finishes when its log has been replayed. -/
def execPartStart (part q : Nat) (s : State) : Host.Outcome State Fault Refusal :=
  .next (s.packet part q 0x12 (fun t addr d ws =>
    let p := bits (wd ws 1) 3 0
    let restore := bitOf (wd ws 1) 4
    let x := t.part p
    if (t.qstate part q).begun then (if x.replaying then t else t.finishPriv part q d p)
    else if p = 0 ∨ (!restore ∧ x.status ≠ .stopped) ∨ (restore ∧ (x.status ≠ .swapped ∨ t.clustersTaken p ∨ !globalBase (wd ws 2) 1)) then
      t.badOperand part q addr
    else if !restore then (t.startPart p).finishPriv part q d p
    else match t.restoreFrom part p (wd ws 2) with
      | .error (c, a) => t.stopQueue part q c 0 addr a
      | .ok u =>
        let u := u.startPart p
        if (u.part p).replaying then u.beginPacket part q else u.finishPriv part q d p))

/-- Whether a core is one of some clusters. -/
def inClusters (clusters : List Nat) (core : Nat) : Bool := clusters.contains (clusterOf core)

/-- Whether what waits for an outcome belongs to some clusters, or to a command, packet or launch of a partition. -/
def State.backTagged (s : State) (clusters : List Nat) (part : Nat) (b : Back) : Bool :=
  match b with
  | .ctx c _ => inClusters clusters c
  | .count c _ _ _ _ => inClusters clusters c
  | .cmd id => (match s.cmd? id with
    | some c => c.part == part
    | none => false)
  | .packet p _ => p == part
  | .join id => (match lookupId id s.launches with
    | some l => l.part == part
    | none => false)
  | _ => false

/-- Whether a reset drops a flight: it carries the partition's tag, and is neither a wake nor a task's end on its way to another
package (R316). -/
def State.tagged (s : State) (part : Nat) : Flight → Bool
  | .mem r => r.part == part
  | .reply b _ => s.backTagged (s.part part).clusters part b
  | .ack b _ _ => s.backTagged (s.part part).clusters part b
  | .post p => p.part == part && p.pkg == s.pkgId
  | .wake tok h _ _ => hPart h == part && tokPkg tok == s.pkgId
  | .fut q => q.part == part && (hPkg q.handle == s.pkgId || decide (q.back ≠ .none))
  | .record _ _ _ r => hPart r.handle == part
  | .cancelReq h _ _ _ _ => hPart h == part
  | .cancelRep h _ _ _ _ => hPart h == part
  | .treeCancel h _ _ _ => hPart h == part
  | .msg m => m.part == part
  | .accum a => a.part == part
  | .flush a => a.part == part
  | .refusal a => a.part == part
  | .engWrite w => w.part == part
  | .shelf x => x.part == part
  | .docked x => x.part == part
  | .kwake w => w.part == part
  | .report l _ => (match lookupId l s.launches with
    | some x => x.part == part
    | none => false)
  | .append a => a.part == part
  | .xlInv _ b => s.backTagged (s.part part).clusters part b
  | .sent f => s.tagged part f
  | .lost _ f => s.tagged part f

/-- Whether a flight answers a request that has been performed (R316). -/
def Flight.performed : Flight → Bool
  | .reply _ _ => true
  | .ack _ _ _ => true
  | _ => false

/-- The request behind a packet that was lost (R380). -/
def Flight.request : Flight → Flight
  | .lost _ f => f
  | f => f

/-- What a dropped item owes to others (R316, R372): a requester outside the partition is answered PARTITION_RESET, a wake is reported,
and a task whose future is homed in another package ends FAULTED. -/
def State.oweDropped (s : State) (part : Nat) (id : Nat) (f : Flight) : State :=
  let f := f.request
  let b := f.backOf
  match f with
  | .wake tok h _ _ => s.undeliverable tok h
  | .record _ _ cl r => if hPkg r.handle = s.pkgId then s else s.sendFinish (8 * cl) r.handle fFAULTED cPARTITION_RESET
  | _ => if s.backTagged (s.part part).clusters part b.1 then s
    else ({ s with flights := s.flights ++ [(id, f)] } : State).answer id b.1 b.2 (.fault cPARTITION_RESET b.2 0)

/-- Cancellations of other packages whose requests a reset has dropped are answered (R316). -/
def State.oweCancels (s : State) (part : Nat) (gone : List (Nat × Flight)) : State :=
  s.cancels.foldl (fun t c =>
    if s.backTagged (s.part part).clusters part c.2.1 ∨ !gone.any (fun f => f.2.cancels c.1) ∨ t.flights.any (fun f => f.2.cancels c.1) then t
    else t.answerCancel c.1 c.2.1 (.fault cPARTITION_RESET 0 0)) s

/-- What a reset finds of a partition at the agents (R316): packets under way, launches and walks, copies, and open shelves. -/
def State.agentItems (s : State) (part : Nat) : Nat :=
  (s.queues.filter (fun x => x.1 / 64 == part && (x.2.begun || x.2.gaveUp.isSome))).length +
    (s.launches.filter (fun l => l.2.part == part && l.2.walker.isNone)).length +
    (s.dies.map (fun d => (d.2.walkers.filter (fun w => w.2.part == part)).length)).sum +
    (s.running.filter (fun r => match r.2.owner with
      | .queue p _ _ => p == part
      | _ => false)).length +
    ((s.part part).clusters.map (fun c => ((s.cluster c).shelves.filter (fun x => x.2.part == part)).length)).sum

/-- Step 2 of R316: tagged items leave the mesh, and each is counted once: drained when its request has been performed, and only its
answer is dropped, and dropped otherwise. -/
def State.dropTagged (s : State) (part : Nat) : State :=
  let gone := s.flights.filter (fun f => s.tagged part f.2)
  let ids := gone.map (·.1)
  let p := s.part part
  let drained := (gone.filter (fun f => f.2.performed)).length
  let t : State := { s with flights := s.flights.filter (fun f => !ids.contains f.1) }
  let t := (List.range 4).foldl (fun t d => t.setDie d { t.die d with walkQueue := (t.die d).walkQueue.filter (fun x => !ids.contains x) }) t
  let t := t.setPart part { p with rdrain := drained, rdrop := gone.length - drained + p.logged.length + s.agentItems part,
                                   logged := [], replayed := p.appended }
  ((gone ++ p.logged).foldl (fun t f => t.oweDropped part f.1 f.2) t).oweCancels part gone

/-- The launches, walks and copies of a partition dropped, each entered in its queue's ERRS, and its packets under way stopped, those
given up included (R296, R316). -/
def State.dropWork (s : State) (part : Nat) : State :=
  let t := (s.launches.filter (fun l => l.2.part == part)).foldl (fun t l => match l.2.queue with
    | some k => t.bumpErrs part (k % 64)
    | none => t) s
  let t := (List.range 4).foldl (fun t d =>
    let mine := (t.die d).walkers.filter (fun w => w.2.part == part)
    let t := mine.foldl (fun t w => t.bumpErrs part w.2.q) t
    t.setDie d { t.die d with walkers := (t.die d).walkers.filter (fun w => w.2.part != part) }) t
  let t := t.running.foldl (fun t r => match r.2.owner with
    | .queue p q _ => if p = part then t.bumpErrs part q else t
    | _ => t) t
  let t := t.queues.foldl (fun t x =>
    if x.1 / 64 = part ∧ (x.2.begun ∨ x.2.gaveUp.isSome) then
      (match t.readQ part (x.1 % 64) with
      | .ok (u, d) => u.stopQueue part (x.1 % 64) cPARTITION_RESET 0 (d.slot d.read) 0
      | .error _ => t.stopQueue part (x.1 % 64) cPARTITION_RESET 0 0 0)
    else t) t
  { t with launches := t.launches.filter (fun l => l.2.part != part), running := t.running.filter (fun r => r.2.part != part) }

/-- The waiters in other packages of a core's PENDING futures, in its table and its spill area, by handle. -/
def State.awayWaits (s : State) (core : Nat) : List (Nat × List Nat) :=
  let away := fun (slot : Nat) (e : FutEntry) =>
    (mkHandle s.pkgId core slot e.gen e.part, e.waiters.filter (fun t => tokPkg t != s.pkgId))
  ((s.core core).futs.filter (fun e => e.2.state == fPENDING)).map (fun e => away e.1 e.2) ++
    (List.range (s.core core).ftSpEnt).flatMap (fun i => match s.spillRead core (s.spillVa core i) with
      | .ok (_, w) => if bitOf w 0 ∧ bits w 37 35 = fPENDING then [away (bits w 47 38) (s.spillEntry core w)] else []
      | .error _ => [])

/-- The waiters of some clusters that are listed on futures of other packages: token and handle (R372). -/
def State.farWaits (s : State) (clusters : List Nat) : List (Nat × Nat) :=
  ((ctxsOf clusters).flatMap (fun x => match (s.ctxAt x.1 x.2).wait with
    | .listed _ h _ => [(s.tokenOf x.1 x.2, h)]
    | .reply _ (.touch _ h true) _ => [(s.tokenOf x.1 x.2, h)]
    | _ => []) ++
  clusters.flatMap (fun cl => (s.cluster cl).tasks.flatMap (fun k => match k.2.resume with
    | .inTouch _ h _ => if k.2.used && k.2.stage == sgPARKED then [(mkToken s.pkgId cl k.1, h)] else []
    | _ => []))).filter (fun x => hPkg x.2 != s.pkgId)

/-- What a reset owes to other packages (R316 step 4, R372), where `view` shows the partition's state: waiters of its PENDING futures are
woken FAULTED with PARTITION_RESET, tasks of theirs end so, and wakes for its own waiters will find none. -/
def State.oweAway (s view : State) (clusters : List Nat) : State :=
  let t := (coresOf clusters).foldl (fun t c => (view.awayWaits c).foldl (fun t w => t.sendWakes w.1 fFAULTED cPARTITION_RESET w.2) t) s
  let t := clusters.foldl (fun t cl => (view.cluster cl).tasks.foldl (fun t k =>
    if k.2.used ∧ hPkg k.2.handle ≠ s.pkgId then t.sendFinish (8 * cl) k.2.handle fFAULTED cPARTITION_RESET else t) t) t
  { t with orphans := t.orphans ++ view.farWaits clusters }

/-- Every future of a core, in its table and its spill area, freed (R316 step 5). -/
def State.freeFutures (s : State) (core : Nat) : State :=
  let t := (s.core core).futs.foldl (fun t e => if e.2.state = fFREE then t
    else t.setFut core e.1 { FutEntry.reset with gen := (e.2.gen + 1) % 2 ^ 16 }) s
  let t := (List.range (t.core core).ftSpEnt).foldl (fun t i =>
    match t.spillRead core (t.spillVa core i) with
    | .ok (u, w) =>
      if bitOf w 0 then
        (match u.agentWrite (u.partOf core) (u.spillVa core i) (bytesOf 32 (setBits w 1 0 2)) with
        | .ok v => v
        | .error _ => u)
      else u
    | .error _ => t) t
  t.setCore core { t.core core with tiedSpill := [] }

/-- The lines of L2 that hold a partition's queue descriptors, by key: they carry what the reset reports in them, and stay (R292, R316;
DESIGN CHOICE, log entry 125). -/
def State.queueLines (s : State) (part : Nat) : List Nat :=
  (List.range 64).filterMap (fun q => match s.translate part (s.qVa part q) .read with
    | .ok (_, pa, _) => some (l2Key part pa / 64)
    | .error _ => none)

/-- Step 3 of R316 at the memories: private memories, stores, accumulators and L2 lines are zero, and their poison is gone. -/
def State.scrub (s : State) (part : Nat) : State :=
  let keep := s.queueLines part
  let line := fun (k : Nat) => decide (l2Key part 0 ≤ k) && decide (k < l2Key (part + 1) 0) && !keep.contains (k / 64)
  let t := s.wipe (s.part part).clusters
  { t with l2 := t.l2.filter (fun c => !line c.1), holders := t.holders.filter (fun h => !line (64 * h.1)) }

/-- A core after a partition reset (R316): every context is EMPTY and nothing is queued; the control fields stay. -/
def CoreState.cleared (c : CoreState) : CoreState :=
  { c with ctxs := [], act := none, inbox := [], matQ := [], copyQ := [], fmt := .reset, flushing := [], flushes := [], resident := [],
           refusals := [], outbox := [] }

/-- A cluster after a partition reset (R316): banks in SCRATCH mode, row groups free, no record and no open shelf. -/
def Cluster.cleared (c : Cluster) : Cluster :=
  { c with groups := [], wedge := [], csMode := 0, tasks := [], queued := [], ready := [], shelves := [] }

/-- Whether a die or package barrier object is assigned to a partition (R214). -/
def State.barrierAssigned (s : State) (part key : Nat) : Bool :=
  let unit := key % 2 ^ 20 / 16
  let ent := fun w => bits w (5 * (key % 16) + 4) (5 * (key % 16))
  (key / 2 ^ 20 == 2 && ent (s.die unit).barPart == 16 + part) || (key / 2 ^ 20 == 3 && ent s.barPart == 16 + part)

/-- Step 3 of R316 at the agents. -/
def State.clearAgents (s : State) (part : Nat) : State :=
  let cl := (s.part part).clusters
  let t := (coresOf cl).foldl (fun t c => t.setCore c (t.core c).cleared) s
  let t := cl.foldl (fun t c => t.setCluster c (t.cluster c).cleared) t
  { t with barriers := t.barriers.filter (fun b => !(barrierOf cl b.1 || s.barrierAssigned part b.1)),
           cwaits := t.cwaits.filter (fun w => !cl.any (fun c => waitOf c w)),
           links := t.links.filter (fun l => !cl.contains (tokCluster l.1)),
           roots := t.roots.filter (fun r => r.1 / 2 ^ 40 != part),
           cancels := t.cancels.filter (fun c => !s.backTagged cl part c.2.1),
           aliases := t.aliases.filter (fun a => !s.backTagged cl part a.2.2),
           pairs := t.pairs.filter (fun p => !cl.contains p.2.mine.1) }

/-- What a reset undoes before the partition's items go: activations are rolled back (R210), and wedge entries released (R244). -/
def State.haltPart (s : State) (part : Nat) : State :=
  let cl := (s.part part).clusters
  let t := (coresOf cl).foldl (fun t c => match (t.core c).act with
    | some a => a.futs.foldl (fun u f => u.futUndo c f.1 f.2) t
    | none => t) s
  cl.foldl (fun t c => t.releaseWhere c (fun e => e.ofPart part)) t

/-- The steps of R316. -/
def State.resetPart (s : State) (part : Nat) : State :=
  let cl := (s.part part).clusters
  let s := s.haltPart part
  let t := ((s.dropTagged part).dropWork part).oweAway s cl
  let t := (coresOf cl).foldl (fun t c => t.freeFutures c) (t.scrub part)
  let t := t.clearAgents part
  t.setPart part { t.part part with status := .stopped, stopping := false, replaying := false, baseline := 0 }

/-- A partition that is swapped out before its reset (R309, R316): what it owes to other packages is in its image, and it keeps the
clusters that nobody else holds by now (DESIGN CHOICE, log entry 124). -/
def State.resetSwapped (s : State) (part : Nat) : State :=
  let p := s.part part
  let t := match s.restoreFrom 0 part p.baseline with
    | .ok view => s.oweAway view p.clusters
    | .error _ => s
  let free := p.clusters.filter (fun c => (s.partOfCluster c).isNone)
  (t.setPart part { p with clusters := free }).fresh free

/-- PART_RESET (R309, R316): RESETTING, then STOPPED. -/
def execPartReset (part q : Nat) (s : State) : Host.Outcome State Fault Refusal :=
  .next (s.packet part q 0x13 (fun t addr d ws =>
    let p := wd ws 1
    let x := t.part p
    if p = 0 ∨ x.status = .unused then t.badOperand part q addr
    else if x.status = .resetting then (t.resetPart p).finishPriv part q d p
    else
      let t := if x.status = .swapped then t.resetSwapped p else t
      (t.setPart p { t.part p with status := .resetting }).beginPacket part q))

/-- TIME_SLICE_EXPIRY (R298, R309, R394): between packets, and not while the package refires, kiln firmware stops and saves a
partition, then starts the next one, from its last layer when it is swapped out. -/
def State.sliceExpiry (s : State) (old new image : Nat) : State :=
  let x := s.part old
  if old = 0 ∨ new = 0 then s
  else if x.status = .running then
    if (s.queues.any (fun k => k.1 / 64 == old && k.2.begun) ∨ s.refire.isSome) ∧ !x.stopping then s
    else if !(x.stopping && s.stopDone old) then s.pushStop old
    else match (s.closeShelves old).saveLayer 0 old image false with
      | (_, some _) => s
      | (t, none) => t.setStatus' old .swapped
  else if x.status = .swapped ∧ old ≠ new ∧ !s.clustersTaken new ∧ s.refire.isNone then
    (match (s.part new).status with
    | .stopped => s.startPart new
    | .swapped => (match s.restoreFrom 0 new (s.part new).baseline with
      | .ok t => t.startPart new
      | .error _ => s)
    | _ => s)
  else s

/-- TIME_SLICE_EXPIRY (R309). -/
def execTimeSliceExpiry (old new image : Nat) (s : State) : Host.Outcome State Fault Refusal := .next (s.sliceExpiry old new image)

end Sys2Proof.Machine
end

