-- ==== Sys2Proof/Machine/Platform.lean ====
section
/-! DEFINITION. Machine/Platform.lean: the control ports and the service-core register pages (R353 to R355, R398, R399), firmware
images, boot and refiring (R387 to R394), attestation (R395), and the limits of power and temperature (R397). -/
namespace Sys2Proof.Machine

/-- What the state table holds (R392): its version, the partition entries, the queues' positions and status, the walkers, the route table
with its ports, link-state sequence numbers, barrier assignments, the fenced clusters, and the fuses. -/
structure StateTable where
  version : Nat
  parts : List (Nat × Part)
  queues : List (Nat × QState × Nat × Nat × Nat)
  walkers : List (Nat × List (Nat × Walker))
  routes : List (Nat × Nat)
  routePorts : List (Nat × List Nat)
  links : List (Nat × Nat × Bool)
  portSeqs : List (Nat × Nat)
  barriers : List Nat
  fenced : List Nat
  fuses : List Nat
  deriving DecidableEq, Repr

end Sys2Proof.Machine
namespace Sys2Proof.Config

/-- The bytes of the state table that passes between the kilns (R392), of which the specification gives no layout (log entry 34). -/
opaque stateTable : Machine.StateTable → List Byte

end Sys2Proof.Config
namespace Sys2Proof.Machine

/-- The active kiln, and the standby's. -/
def State.activeKiln (s : State) : Kiln := if s.activeB then s.kilnB else s.kilnA
def State.standbyKiln (s : State) : Kiln := if s.activeB then s.kilnA else s.kilnB

/-- The images of the active and of the standby kiln replaced. -/
def State.setKilns (s : State) (active standby : Option FwImage) : State :=
  if s.activeB then { s with kilnB := { image := active }, kilnA := { image := standby } }
  else { s with kilnA := { image := active }, kilnB := { image := standby } }

/-- A firmware notice sent to the control node at a control port (R391): SVN is that of the image that runs, or zero. -/
def State.noticeAt (s : State) (port code cause detail : Nat) : State :=
  { s with toHost := s.toHost ++ [.notice port code cause ((s.activeKiln.image.map (·.svn)).getD 0) detail] }

/-- A firmware notice (R391), at the first control port that works (log entry 126). -/
def State.notice (s : State) (code cause detail : Nat) : State :=
  s.noticeAt (if s.deadPorts.contains 0 then 1 else 0) code cause detail

/-- The state table (R392): the active kiln sends every change as it makes it, so that the standby's copy is this one too. -/
def State.stateTable (s : State) : StateTable :=
  { version := (s.activeKiln.image.map (·.stateVer)).getD 0, parts := s.parts,
    queues := s.queues.map (fun q => match s.readQ (q.1 / 64) (q.1 % 64) with
      | .ok (_, d) => (q.1, q.2, d.read, d.write, d.status)
      | .error _ => (q.1, q.2, 0, 0, 0)),
    walkers := s.dies.map (fun d => (d.1, d.2.walkers)), routes := s.routes, routePorts := s.routePorts, links := s.links2,
    portSeqs := s.ports.map (fun p => (p.1, p.2.seq)), barriers := s.barPart :: (List.range 4).map (fun d => (s.die d).barPart),
    fenced := (s.clusters.filter (·.2.fenced)).map (·.1), fuses := s.fuses }

/-- The device certificate (R395, R399). -/
def State.certificate (s : State) : List Byte := Config.certificate (publicKey (s.deviceKey.getD 0))

/-- A byte of a die's service-core register page as it reads (R398, R399). -/
def State.svcByte (s : State) (die off : Nat) : Byte :=
  let d := s.die die
  let word := fun (v : Nat) => (bytesOf 8 v).getD (off % 8) 0
  if off < 0x30 then
    word (match off / 8 with
      | 0 => d.power % 2 ^ 32
      | 1 => d.temp % 2 ^ 16
      | 2 => d.ce
      | 3 => d.ue
      | 4 => d.lretry
      | _ => s.duty % 256)
  else if 0x200 ≤ off ∧ off < 0x208 then word s.refire.isSome.toNat
  else if 0x330 ≤ off ∧ off < 0x338 then word (s.quote.isSome.toNat + 2 * s.quoting.toNat)
  else if 0x400 ≤ off ∧ off < 0x560 then (s.quote.getD []).getD (off - 0x400) 0
  else if 0x7F8 ≤ off ∧ off < 0x800 then word (Nat.min s.certificate.length 2048)
  else if 0x800 ≤ off ∧ off < 0x1000 then s.certificate.getD (off - 0x800) 0
  else 0

/-- The 8-byte register at an offset as a write of bytes from another offset on leaves it, when it covers its first byte. -/
def svcWord (off : Nat) (bs : List Byte) (reg : Nat) : Option Nat :=
  if off ≤ reg ∧ reg < off + bs.length then some (natOf ((bs.drop (reg - off)).take 8)) else none

/-- The number of consecutive blown fuses (R388). -/
def State.fuseCount (s : State) : Nat := ((List.range 128).takeWhile s.fuses.contains).length

/-- The checks of R388 on an image, in order: the image, or the number of the failing check. -/
def State.verify (s : State) (im : List Byte) : Except Nat FwImage :=
  let w (o n : Nat) := natOf ((im.drop o).take n)
  let n := w 8 8
  let body := (im.drop 256).take n
  let key := (im.drop 0x40).take 96
  let statemin := bits (w 0x10 8) 31 16
  let statever := bits (w 0x10 8) 15 0
  if im.length < 256 + n ∨ bits (w 0 8) 15 0 ≠ 1 ∨ bits (w 0 8) 63 25 ≠ 0 ∨ n % 64 ≠ 0 ∨ 0x1C0000 < n ∨ bits (w 0x10 8) 63 32 ≠ 0 ∨
      w 0x18 40 ≠ 0 ∨ statever < statemin then .error 1
  else if !(List.range 4).any (fun i => (Config.keyHash i).2 && sha384 key == (Config.keyHash i).1) then .error 2
  else if !ecdsaOk key ((im.drop 0xA0).take 96) (im.take 0x40 ++ body) then .error 3
  else if bits (w 0 8) 23 16 < s.fuseCount then .error 4
  else .ok { svn := bits (w 0 8) 23 16, commit := bitOf (w 0 8) 24, stateMin := statemin, stateVer := statever, bytes := im.take (256 + n) }

/-- SVC.REFIRE written (R393, R394): the standby verifies and boots the staged image and imports the state table; a write during
refiring is ignored. -/
def State.startRefire (s : State) (v : Nat) : State :=
  if !s.booted ∨ s.refire.isSome then s
  else if !globalBase v 4096 then s.notice 0x04 0 1
  else match s.agentReadAll 0 v 256 with
    | .error (c, _, _) => s.notice 0x04 c 1
    | .ok (t, h) => match t.agentReadAll 0 (v + 256) (Nat.min (natOf ((h.drop 8).take 8)) 0x1C0000) with
      | .error (c, _, _) => t.notice 0x04 c 1
      | .ok (t, body) => match t.verify (h ++ body) with
        | .error n => (t.notice 0x02 0 n).notice 0x04 0 1
        | .ok im =>
          let ver := (t.activeKiln.image.map (·.stateVer)).getD 0
          if ver < im.stateMin ∨ im.stateVer < ver then t.notice 0x04 0 2
          else { t with refire := some { image := im, since := t.clock } }

/-- The nonce written (R395, R399): the write that covers its last byte starts a quote and discards any earlier one. -/
def State.writeNonce (s : State) (off : Nat) (bs : List Byte) : State :=
  if !s.booted then s else
  let nonce := (List.range 48).map (fun i => if off ≤ i ∧ i < off + bs.length then bs.getD (i - off) 0 else s.nonce.getD i 0)
  if off ≤ 47 ∧ 47 < off + bs.length then { s with nonce := nonce, quoting := true, quote := none } else { s with nonce := nonce }

/-- Bytes written to a die's service-core register page (R399). -/
def State.svcWrite (s : State) (die off : Nat) (bs : List Byte) : State :=
  let t := match svcWord off bs 0x100 with
    | some v => s.doorbell die v
    | none => s
  let t := match svcWord off bs 0x200 with
    | some v => t.startRefire v
    | none => t
  if 0x300 ≤ off ∧ off < 0x330 then t.writeNonce (off - 0x300) bs else t

/-- Whether a service core can take a request of a control port (R353 to R355): the package has booted, the port works, the
request lies in one line, and what went before has been performed. -/
def State.portTakes (s : State) (port die addr n : Nat) : Bool :=
  s.booted && decide (port < 2) && !s.deadPorts.contains port && decide (1 ≤ n) && decide (addr % 64 + n ≤ 64) &&
    s.flights.all (fun f => match f.2.backOf.1 with
      | .host _ d _ => d != die
      | _ => true)

/-- A response sent to the control node. -/
def State.respond (s : State) (m : HostMsg) : State := { s with toHost := s.toHost ++ [m] }

/-- The place of a near address that the control node names (R116, R353): a location, or the cause of the refusal. -/
def State.hostNear (s : State) (addr n : Nat) : Except Nat Nat :=
  let (cl, u, off) := nearParts addr
  if unmapped addr ∨ bits addr 59 56 ≠ 8 then .error cUNMAPPED
  else if 10 ≤ u ∨ bits addr 55 46 ≠ s.pkgId then .error cNEAR_ABSENT
  else if unitSize u ≤ off then .error cNEAR_RANGE
  else if u < 8 ∧ 0x30000 < off + n then .error cPROTECTION
  else .ok (nearLoc cl u off)

/-- A request of the control node to a partition's space sent on its way (R353). -/
def State.hostRequest (s : State) (port die part addr n : Nat) (near : Bool) (op : MemOp) (reply : Nat) : State :=
  let go := fun (loc : Option Nat) =>
    s.launchFlight (.mem { part := part, va := addr, near := loc, op := op, back := .host port die reply, seq := none,
                           stage := .travelling, refused := none, rel := false, again := false })
  if (s.part part).status = .unused then s.respond (.refused port cPROTECTION)
  else if near then (match s.hostNear addr n with
    | .error c => s.respond (.refused port c)
    | .ok loc => go (some loc))
  else if 2 ^ 59 ≤ addr then s.respond (.refused port cUNMAPPED)
  else go none

/-- CONTROL_PORT_READ (R353). -/
def execControlPortRead (port die : Nat) (tgt : PortTarget) (addr len : Nat) (s : State) : Host.Outcome State Fault Refusal :=
  .next (if !s.portTakes port die addr len then s
    else match tgt with
      | .global part => s.hostRequest port die part addr len false (.load len) len
      | .near part => s.hostRequest port die part addr len true (.load len) len
      | .svc => s.respond (.data port ((List.range len).map (fun i => s.svcByte die (addr + i)))))

/-- CONTROL_PORT_WRITE (R353). -/
def execControlPortWrite (port die : Nat) (tgt : PortTarget) (addr : Nat) (data : List Byte) (s : State) :
    Host.Outcome State Fault Refusal :=
  .next (if !s.portTakes port die addr data.length then s
    else match tgt with
      | .global part => s.hostRequest port die part addr data.length false (.store data false) 0
      | .near part => s.hostRequest port die part addr data.length true (.store data false) 0
      | .svc => (s.svcWrite die addr data).respond (.done port))

/-- Who hears of a request, when the control port that it came by has failed (R355). -/
def Back.otherPort (port : Nat) (b : Back) : Back :=
  match b with
  | .host p d n => if p = port then .host (1 - port) d n else b
  | b => b

/-- The same for a flight. -/
def Flight.otherPort (port : Nat) (f : Flight) : Flight :=
  match f with
  | .mem r => .mem { r with back := r.back.otherPort port }
  | f => f

/-- CONTROL_PORT_FAILURE (R355): what was accepted is answered on the other port. -/
def execControlPortFailure (port : Nat) (s : State) : Host.Outcome State Fault Refusal :=
  .next (if 2 ≤ port ∨ s.deadPorts.contains port then s
    else { s with deadPorts := s.deadPorts ++ [port], flights := s.flights.map (fun f => (f.1, f.2.otherPort port)),
                  parts := s.parts.map (fun p => (p.1, { p.2 with
                    logged := p.2.logged.map (fun f => (f.1, f.2.otherPort port)) })) })

/-- SVC_REFIRE (R393). -/
def execSvcRefire (_die value : Nat) (s : State) : Host.Outcome State Fault Refusal := .next (s.startRefire value)

/-- SVC_ATTEST (R395): `off` counts from the nonce's first byte. -/
def execSvcAttest (off : Nat) (data : List Byte) (s : State) : Host.Outcome State Fault Refusal := .next (s.writeNonce off data)

/-- Bytes cut or filled to a length. -/
def fixLen (n : Nat) (bs : List Byte) : List Byte := (List.range n).map (fun i => bs.getD i 0)

/-- The image that the standby kiln runs: the staged one during refiring (R393). -/
def State.standbyImage (s : State) : Option FwImage :=
  match s.refire with
  | some r => some r.image
  | none => s.standbyKiln.image

/-- The signed part of a quote (R399). -/
def State.quoteBody (s : State) : List Byte :=
  let hash := fun (bs : List Byte) => fixLen 48 (sha384 bs)
  fixLen 48 s.nonce ++ hash Config.rom ++ hash ((s.activeKiln.image.map (·.bytes)).getD []) ++
    hash ((s.standbyImage.map (·.bytes)).getD []) ++ hash (Config.stateTable s.stateTable) ++ bytesOf 8 s.fuseCount ++ bytesOf 8 s.pkgId

/-- ATTEST_QUOTE_READY (R395, R399). -/
def execAttestQuoteReady (s : State) : Host.Outcome State Fault Refusal :=
  .next (if s.quoting then
      let k := Config.signNonce s.free % (bpN - 1) + 1
      { s with quoting := false, free := s.free + 1, quote := some (s.quoteBody ++ ecdsaSign (s.deviceKey.getD 0) k s.quoteBody) }
    else s)

/-- The fuse update after a COMMIT image has booted on the active kiln (R389): a standby whose image is now refused reports it. -/
def State.blowFuses (s : State) : State :=
  match s.activeKiln.image with
  | none => s
  | some im =>
    if !im.commit then s
    else
      let t : State := { s with fuses := (List.range (Nat.min im.svn 128)).foldl (fun f n => insertNat n f) s.fuses }
      match t.standbyKiln.image with
      | none => t
      | some sb =>
        if t.fuseCount ≤ sb.svn then t
        else match t.verify (Config.flash (!t.activeB)) with
          | .ok x => (t.notice 0x02 0 4).setKilns (some im) (some x)
          | .error n => (t.notice 0x02 0 n).setKilns (some im) none

/-- Partition 0 as kiln firmware creates it (R307, R390), with the queue's PRIV bit. -/
def State.bootPart (s : State) : State :=
  let p : Part := { Part.reset with
    status := .running, clusters := (List.range 512).filter Config.bootClusters.contains, pages := Config.bootPages,
    root := Config.bootPages, frames := Config.bootFrames,
    ports := (List.range 144).filter Config.bootPorts.contains, supv := Config.bootSupv, cqBase := Config.bootQueues }
  let t := Config.bootHbm.foldl (fun t c => t.wr (c.1 % 2 ^ 40) c.2) (s.setPart 0 p)
  match t.readQ 0 0 with
  | .error _ => t
  | .ok (u, _) => match u.agentRead 0 (u.qVa 0 0 + 8) 8 with
    | .error _ => u
    | .ok (u, bs) => u.putQ 0 0 8 (bytesOf 8 (setBits (natOf bs) 34 34 1))

/-- The route table and the port classes of the platform's configuration (R347, R390): an entry that the rules refuse is CLASS
0. -/
def State.bootRoutes (s : State) : State :=
  let entry := fun p => if s.fieldBad 0 (0x1000 + p) (Config.bootRoute p) then 0 else Config.bootRoute p
  { s with routes := (List.range 1024).foldl (fun t p => Tbl.set 0 t p (entry p)) [],
           routePorts := (List.range 1024).foldl (fun t p => Tbl.set [] t p ((List.range 144).filter (Config.bootRoutePorts p).contains)) [],
           ports := (List.range 144).foldl (fun t n => Tbl.set Port.reset t n
             { Port.reset with lclass := if Config.bootClass n = 2 then 2 else 1 }) [] }

/-- The package brought up by its active kiln (R390). -/
def State.bringUp (s : State) : State :=
  let t := ({ s with pkgId := Config.packageId % 1024 } : State).bootRoutes
  let t := t.bootPart.blowFuses
  ({ t with booted := true } : State).notice 0x01 0 t.activeB.toNat

/-- POWER_GOOD (R390): BOOT_FAIL goes to both control ports when no image passed; the identity key is derived (R395). -/
def State.powerGood (s : State) : State :=
  if s.booted then s
  else
    let s : State := { s with deviceKey := some (Config.deriveKey Config.deviceFuses % (bpN - 1) + 1) }
    let a := s.verify (Config.flash false)
    let b := s.verify (Config.flash true)
    let none_ := (a.toOption.or b.toOption).isNone
    let told := fun (t : State) (r : Except Nat FwImage) => match r with
      | .error n => if none_ then (t.noticeAt 0 0x02 0 n).noticeAt 1 0x02 0 n else t.notice 0x02 0 n
      | .ok _ => t
    let t := told (told s a) b
    match a, b with
    | .ok x, .ok y => (({ t with activeB := false } : State).setKilns (some x) (some y)).bringUp
    | .ok x, .error _ => (({ t with activeB := false } : State).setKilns (some x) none).bringUp
    | .error _, .ok y =>
      let u := ({ t with activeB := true } : State).setKilns (some y) none
      (u.notice 0x05 0 0).bringUp
    | .error _, .error _ => t

/-- POWER_GOOD (R390). -/
def execPowerGood (s : State) : Host.Outcome State Fault Refusal := .next s.powerGood

/-- A quiescent packet boundary (R393): no queue is in a packet and no walker in a node. -/
def State.quiescent (s : State) : Bool :=
  s.queues.all (fun q => !q.2.begun) && s.dies.all (fun d => d.2.walkers.all (fun w => match w.2.st with
    | .kernel _ _ => false
    | _ => true)) && s.parts.all (fun p => decide (p.2.status ≠ .resetting))

/-- REFIRE_TAKEOVER (R389, R393). -/
def State.takeover (s : State) : State :=
  match s.refire with
  | none => s
  | some r =>
    if !s.quiescent then s
    else
      let t : State := { s with activeB := !s.activeB, refire := none }
      let t := (t.setKilns (some r.image) (some r.image)).blowFuses
      t.notice 0x03 0 r.image.stateVer

/-- REFIRE_TAKEOVER (R393). -/
def execRefireTakeover (s : State) : Host.Outcome State Fault Refusal := .next s.takeover

/-- REFIRE_ABORT (R394): a packet has run for 4 ms of step 3, which waits for a partition reset to end. -/
def execRefireAbort (s : State) : Host.Outcome State Fault Refusal :=
  .next (match s.refire with
    | none => s
    | some r => if s.quiescent ∨ s.parts.any (fun p => decide (p.2.status = .resetting)) ∨ s.clock ≤ r.since + 8000000 then s else ({ s with refire := none } : State).notice 0x04 0 3)

/-- KILN_FAILOVER (R391, R394): the standby becomes active with the last state that it holds, and applies the fuse update of its image
(R389). -/
def execKilnFailover (s : State) : Host.Outcome State Fault Refusal :=
  .next (match s.booted, s.standbyImage with
    | true, some im =>
      (({ s with activeB := !s.activeB, refire := none } : State).setKilns (some im) none).blowFuses.notice 0x05 0 0
    | _, _ => s)

/-- Whether a partition runs clusters of a die. -/
def Part.runsOn (p : Part) (die : Nat) : Bool := decide (p.status = .running) && p.clusters.any (fun c => c / 128 == die)

/-- THERMAL_STOP (R397): the partitions of a die that has been too hot stop as by PART_STOP with SAVE = 0; the notice follows the last. -/
def State.thermalStop (s : State) (die : Nat) : State :=
  let d := s.die die
  let mine := d.hot ++ (if d.temp ≤ 105 * 16 then []
    else (s.parts.filter (fun p => p.2.runsOn die && !d.hot.contains p.1)).map (·.1))
  if mine = [] then s
  else
    let t := mine.foldl (fun t p =>
      if (t.part p).status ≠ .running then t
      else if (t.part p).stopping ∧ t.stopDone p then (t.closeShelves p).setStatus' p .stopped else t.pushStop p) s
    if mine.any (fun p => (t.part p).runsOn die) then t.setDie die { t.die die with hot := mine }
    else (t.setDie die { t.die die with hot := [] }).notice 0x07 0 (2 ^ die)

/-- THERMAL_STOP (R397). -/
def execThermalStop (die : Nat) (s : State) : Host.Outcome State Fault Refusal := .next (s.thermalStop die)

/-- POWER_LIMIT (R397): the duty that the limiter sets above PWR.CAP is a free value below 256 (log entry 4). -/
def execPowerLimit (milliwatts : Nat) (s : State) : Host.Outcome State Fault Refusal :=
  .next (if !s.booted then s
    else if s.pwrCap * 1000 < milliwatts then
      let duty := Config.freeNat s.free % 256
      let t : State := { s with duty := duty, free := s.free + 1 }
      if s.duty = 256 then t.notice 0x06 0 duty else t
    else if s.duty = 256 then s
    else ({ s with duty := 256 } : State).notice 0x06 0 256)

end Sys2Proof.Machine
end

