-- ==== Sys2Proof/Machine/Links.lean ====
section
/-! DEFINITION. Machine/Links.lean: dead links and link-state updates (R373 to R375), route recomputation (R376), the drain of
dead paths and the settlement of what stays on them (R377 to R379), and fenced clusters (R380, R381). -/
namespace Sys2Proof.Machine

/-- The key of a port's link state. -/
def linkKey (pkg port : Nat) : Nat := pkg * 256 + port

/-- The word of a link-state update (R374). -/
def updateWord (seq pkg port : Nat) (dead : Bool) : Nat := seq * 2 ^ 32 + pkg * 2 ^ 22 + port * 2 ^ 14 + (!dead).toNat * 2 ^ 12

/-- Whether the link at a port is LIVE as this package knows it. -/
def State.linkLive (s : State) (key : Nat) : Bool := !(Tbl.get (0, false) s.links2 key).2

/-- The live links that leave a package, by port: the port, the key of the far end, and whether the link is FULL (R376). -/
def State.liveLinks (s : State) (pkg : Nat) : List (Nat × Nat × Bool) :=
  (List.range 144).filterMap (fun n => match Config.cable pkg n with
    | some far =>
      if s.linkLive (linkKey pkg n) && s.linkLive far then
        some (n, far, (if pkg = s.pkgId then (s.port n).lclass else Config.linkClass pkg n) == 1)
      else none
    | none => none)

/-- A word sent on every live link of the package but one (R374, R375). -/
def State.flood (s : State) (word : Nat) (but : Option Nat) : State :=
  { s with toLinks := s.toLinks ++ ((s.liveLinks s.pkgId).filter (fun l => decide (some l.1 ≠ but))).map (fun l => (l.1, word)) }

/-- A port's own update (R374): its SEQ advances, this package takes the new state, and the update is flooded. -/
def State.ownUpdate (s : State) (n : Nat) (dead : Bool) : State :=
  let p := s.port n
  let seq := (p.seq + 1) % 2 ^ 32
  let t := s.setPort n { p with dead := dead, seq := seq, replays := [], unlocked := none }
  ({ t with links2 := Tbl.set (0, false) t.links2 (linkKey t.pkgId n) (seq, dead), recompute := true } : State).flood
    (updateWord seq t.pkgId n dead) none

/-- Whether a port has to declare its link dead (R373): it has needed more replays than its budget within 65,536 clocks, or has had no
lane lock for more than 2,000. -/
def State.linkFails (s : State) (p : Port) : Bool :=
  decide (p.lretry < (p.replays.filter (fun t => decide (s.clock < t + 65536))).length) ||
    (match p.unlocked with
      | some t => decide (t + 2000 < s.clock)
      | none => false)

/-- A port replays a flit (R373). -/
def State.noteReplay (s : State) (n : Nat) : State :=
  let p := s.port n
  if 144 ≤ n ∨ p.dead then s
  else s.setPort n { p with replays := p.replays.filter (fun t => decide (s.clock < t + 65536)) ++ [s.clock] }

/-- A port's receiver loses or regains lane lock (R373). -/
def State.noteLock (s : State) (n : Nat) (held : Bool) : State :=
  let p := s.port n
  if 144 ≤ n ∨ p.dead then s
  else s.setPort n { p with unlocked := if held then none else some (p.unlocked.getD s.clock) }

/-- LINK_DEAD (R373, R374). -/
def execLinkDead (port : Nat) (s : State) : Host.Outcome State Fault Refusal :=
  .next (if 144 ≤ port ∨ !s.booted ∨ (s.port port).dead ∨ !s.linkFails (s.port port) then s else s.ownUpdate port true)

/-- LINK_RETRAINED (R373, R374). -/
def execLinkRetrained (port : Nat) (s : State) : Host.Outcome State Fault Refusal :=
  .next (if s.booted ∧ (s.port port).dead then s.ownUpdate port false else s)

/-- LINK_STATE_UPDATE (R374, R375): an update that is newer is accepted, and forwarded on every other live link; what a port declared
dead receives is not. -/
def State.linkUpdate (s : State) (port word : Nat) : State :=
  let key := linkKey (bits word 31 22) (bits word 21 14)
  let seq := bits word 63 32
  let kept := Tbl.get (0, false) s.links2 key
  let d := (seq + 2 ^ 32 - kept.1) % 2 ^ 32
  if 144 ≤ port ∨ !s.booted ∨ (s.port port).dead ∨ 1 < bits word 13 12 ∨ d = 0 ∨ 2 ^ 31 ≤ d then s
  else ({ s with links2 := Tbl.set (0, false) s.links2 key (seq, bits word 13 12 == 0), recompute := true } : State).flood word (some port)

/-- LINK_STATE_UPDATE (R375). -/
def execLinkStateUpdate (port word : Nat) (s : State) : Host.Outcome State Fault Refusal := .next (s.linkUpdate port word)

/-- A package reached: its number, the hops, the first port, whether every link so far is FULL, and the links. -/
structure Reach where
  pkg : Nat
  hops : Nat
  first : Nat
  full : Bool
  links : List Nat
  deriving DecidableEq, Repr

/-- A path one link longer. -/
def Reach.step (r : Reach) (from_ : Nat) (l : Nat × Nat × Bool) : Reach :=
  { pkg := l.2.1 / 256 % 1024, hops := r.hops + 1, first := r.first, full := r.full && l.2.2,
    links := r.links ++ [linkKey from_ l.1, l.2.1] }

/-- Packages reached breadth first from those of a frontier, which stand in the order of their first ports (R376). -/
def State.search (s : State) : Nat → List Reach → List Reach → List Reach
  | 0, found, _ => found
  | fuel + 1, found, front =>
    let next := front.foldl (fun (new : List Reach) r =>
      (s.liveLinks r.pkg).foldl (fun new l =>
        let x := r.step r.pkg l
        if x.pkg = s.pkgId ∨ (found ++ new).any (fun y => y.pkg == x.pkg) then new else new ++ [x]) new) []
    if next = [] then found else s.search fuel (found ++ next) next

/-- The best path to every package that can be reached (R376). -/
def State.paths (s : State) : List Reach :=
  let first := (s.liveLinks s.pkgId).foldl (fun (new : List Reach) l =>
    let x := Reach.step { pkg := s.pkgId, hops := 0, first := l.1, full := true, links := [] } s.pkgId l
    if x.pkg = s.pkgId ∨ new.any (fun y => y.pkg == x.pkg) then new else new ++ [x]) []
  s.search 254 first first

/-- The route-table entry of a path (R347, R376). -/
def routeEntry (r : Reach) : Nat := r.hops * 2 ^ 16 + (if r.full then 1 else 2)

/-- The context that waits for a flight. -/
def State.waiterOf (s : State) (id : Nat) : Option (Nat × Nat) :=
  ((s.cores.flatMap (fun c => (List.range 12).map (fun x => (c.1, x)))).find? (fun p => (s.ctxAt p.1 p.2).wait.awaits id))

/-- The cause that a requester is told: of a message refused by another package's partition check, MESSAGE_BAD_TARGET (R205). -/
def Flight.told (f : Flight) (cause : Nat) : Nat :=
  match f with
  | .msg _ => if cause = cPROTECTION then cMESSAGE_TARGET else cause
  | _ => cause

/-- A posted operation that a port had accepted is settled (R351, R378). -/
def State.settleSent (s : State) (id : Nat) (f : Flight) (cause : Nat) : State :=
  let t := s.dropFlight id
  match f.backOf with
  | (.count core ctx c pc _, va) =>
    let t := if cause = 0 then t else t.logFault core ctx pc va (f.told cause) c.cls
    let x := t.ctxAt core ctx
    (t.setCtxAt core ctx { x with away := x.away - 1 }).wakeCore core
  | _ => t

/-- A CALLAT whose record another package did not take: it traps, or the future of a handler's, which has gone on, is poisoned (R178,
R349, R378). -/
def State.failRecord (s : State) (id home : Nat) (r : TaskRec) (cause : Nat) : State :=
  match s.waiterOf id with
  | some (core, ctx) => s.become id (.reply (.ctx core ctx) (.fault cause 0 0))
  | none => (s.dropFlight id).sendFinish home r.handle fFAULTED cause

/-- A request that has failed is reported to its requester, each kind through its own channel (R372, R378, R380). -/
def State.failFlight (s : State) (id : Nat) (f : Flight) : State :=
  let t := s.dropFlight id
  match f with
  | .sent g => s.settleSent id g cLINK_FAILED
  | .wake tok h _ _ => t.undeliverable tok h
  | .record home _ _ r => s.failRecord id home r cLINK_FAILED
  | .mem r => s.answer id r.back r.va (.fault cLINK_FAILED r.va 0)
  | .fut q => (match q.op, q.back with
    | .cancel _, .none => t.cancelFail q.root (cLINK_FAILED, q.handle, 0)
    | _, _ => s.answer id q.back q.handle (.fault cLINK_FAILED q.handle 0))
  | .cancelReq h _ _ root _ => t.cancelFail root (cLINK_FAILED, h, 0)
  | .cancelRep h _ _ root _ => if hPkg h = s.pkgId then t.cancelFail root (cLINK_FAILED, h, 0) else t
  | .treeCancel h _ _ root => t.cancelFail root (cLINK_FAILED, h, 0)
  | .msg m => s.answer id m.back (coreVa m.target) (.fault cLINK_FAILED (coreVa m.target) 0)
  | .accum a => s.answer id a.back a.va (.fault cLINK_FAILED a.va 0)
  | .refusal a => s.answer id a.back a.va (.fault cLINK_FAILED a.va 0)
  | .flush a => (t.flushDropped a cLINK_FAILED).flushOver a.core id
  | .engWrite w => t.cmdFail w.cmd w.dest cLINK_FAILED w.va w.bytes.length
  | .shelf x => (t.shelfDone id).dockPost x cLINK_FAILED 0 0 0
  | .kwake w => w.left.foldl (fun t _ => t.launchFlight (.report w.launch false)) t
  | .report l _ => s.become id (.report l false)
  | .append a => s.answer id (.ctx a.core a.ctx) 0 (.fault cLINK_FAILED 0 0)
  | _ => t

/-- The memory request of a flight that carries a (source, sequence) pair (R129). -/
def Flight.paired : Flight → Option MemReq
  | .mem r => if r.op.indivisible && r.seq.isSome then some r else none
  | .sent (.mem r) => if r.op.indivisible && r.seq.isSome then some r else none
  | _ => none

/-- The same flight, marked as sent once more (R378). -/
def Flight.again : Flight → Flight
  | .mem r => .mem { r with stage := .travelling, refused := none, again := true }
  | .sent (.mem r) => .sent (.mem { r with again := true })
  | f => f

/-- One request when its last round is over (R378, R379, R380): one with a pair is sent once more, when its path is still one that can
carry it, and every other one has failed. -/
def State.settle (s : State) (id : Nat) (f : Flight) : State :=
  match f.paired with
  | some r =>
    let open_ : Bool := match s.destOf f with
      | some dest => s.routeClass dest == 1
      | none => true
    if !r.again ∧ open_ then s.become id f.again else s.failFlight id f
  | none => s.failFlight id f

/-- A control context or helper STALLED in TOUCH on a future of a package traps (R379). -/
def State.lostListed (s : State) (dest core ctx : Nat) : State :=
  match (s.ctxAt core ctx).wait with
  | .listed _ h at_ =>
    if hPkg h = dest ∧ s.stateAt core ctx = stSTALLED then
      ({ s.readyAt core ctx with cur := at_ } : State).takeTrap cLINK_FAILED h 0
    else s
  | _ => s

/-- A task parked in TOUCH on a future of a package is READY again, to trap (R379). -/
def State.lostParked (s : State) (dest cl rid : Nat) (k : Task) : State :=
  match k.resume with
  | .inTouch _ h at_ =>
    if k.used ∧ k.stage = sgPARKED ∧ hPkg h = dest then s.makeReady cl rid { k with resume := .lost h at_ } else s
  | _ => s

/-- Whether a request to another package has yet to be sent: its port has not accepted it, or holds it (R350). -/
def State.unsent (s : State) (dest id : Nat) (f : Flight) : Bool := !f.sentAway || s.portHolds id dest

/-- Whether a request is one that only a FULL path carries (R348). -/
def Flight.needsFull : Flight → Bool
  | .mem r => r.op.indivisible
  | .fut _ => true
  | .record _ _ _ _ => true
  | .cancelReq _ _ _ _ _ => true
  | .treeCancel _ _ _ _ => true
  | _ => false

/-- The partition of a request. -/
def Flight.partOf : Flight → Nat
  | .mem r => r.part
  | .msg m => m.part
  | .fut q => q.part
  | .record _ _ _ r => hPart r.handle
  | .cancelReq h _ _ _ _ => hPart h
  | .treeCancel h _ _ _ => hPart h
  | _ => 0

/-- What a new route cannot carry is settled (R348, R349, R379): wakes and what needs a FULL path when it is not FULL any more, and what
waits at a port that no route of its partition takes (log entry 128). -/
def State.narrow (s : State) (dest : Nat) : State :=
  let full := s.routeClass dest == 1
  let t := s.flights.foldl (fun t f =>
    if s.destOf f.2 ≠ some dest then t
    else match f.2 with
      | .wake tok h _ _ => if full then t else (t.dropFlight f.1).undeliverable tok h
      | f2 =>
        if s.unsent dest f.1 f2 ∧ ((!full ∧ f2.needsFull) ∨ (f2.partOf < 16 ∧ !s.portLive f2.partOf dest)) then t.failFlight f.1 f2 else t) s
  if full then t
  else
    let t := t.clusters.foldl (fun t c => c.2.tasks.foldl (fun t k => t.lostParked dest c.1 k.1 k.2) t) t
    t.cores.foldl (fun t c => (List.range 12).foldl (fun t x => t.lostListed dest c.1 x) t) t

/-- Whether a route of a package is broken: a link on it is not LIVE any more (R377). -/
def State.routeDead (s : State) (dest : Nat) : Bool :=
  (Tbl.get [] s.routeLinks dest).any (fun k => !s.linkLive k) ||
    (Tbl.get [] s.routePorts dest).any (fun n => !s.linkLive (linkKey s.pkgId n))

/-- The route to a package replaced (R350, R376, R377): new requests are held until what was sent on the old one is settled, which is
drained in rounds when a link of it is dead. -/
def State.reroute (s : State) (dest entry : Nat) (ports links : List Nat) : State :=
  if dest = s.pkgId ∨ (Tbl.get 0 s.routes dest = entry ∧ Tbl.get [] s.routePorts dest = ports ∧ Tbl.get [] s.routeLinks dest = links) then s
  else
    let left := s.sentTo dest
    let dead := s.routeDead dest || s.drains.any (fun d => d.dest == dest && d.round != 0)
    let drain : Drain := if dead then { dest := dest, round := 1, ends := s.clock + 40000, left := left }
      else { dest := dest, round := 0, ends := 0, left := left }
    let t : State := { s with routes := Tbl.set 0 s.routes dest entry, routePorts := Tbl.set [] s.routePorts dest ports,
                              routeLinks := Tbl.set [] s.routeLinks dest links,
                              drains := s.drains.filter (fun d => d.dest != dest) ++ (if left = [] then [] else [drain]) }
    t.narrow dest

/-- ROUTE_RECOMPUTATION (R376, R394). -/
def State.recomputeRoutes (s : State) : State :=
  if !s.recompute ∨ s.refire.isSome then s
  else
    let ps := s.paths
    (List.range 1024).foldl (fun t p => match ps.find? (fun r => r.pkg == p) with
      | some r => t.reroute p (routeEntry r) [r.first] r.links
      | none => t.reroute p 0 [] []) { s with recompute := false }

/-- ROUTE_RECOMPUTATION (R376). -/
def execRouteRecomputation (s : State) : Host.Outcome State Fault Refusal := .next s.recomputeRoutes

/-- DRAIN_ROUND_END (R377, R378): early when nothing is left on the dead path, else at its bound; after round 4 what is left is
settled, in order. A hold without rounds ends when nothing is left (R350). -/
def State.drainRound (s : State) (dest : Nat) : State :=
  match s.drains.find? (fun d => d.dest == dest) with
  | none => s
  | some d =>
    let left := d.left.filter (fun id => decide ((lookupId id s.flights).bind s.destOf = some dest))
    let gone : State := { s with drains := s.drains.filter (fun x => x.dest != dest) }
    if left = [] then gone
    else if d.round = 0 ∨ s.clock < d.ends then s
    else if d.round < 4 then
      { gone with drains := gone.drains ++ [{ d with round := d.round + 1, ends := d.ends + 40000 * 2 ^ d.round, left := left }] }
    else left.foldl (fun t id => match lookupId id t.flights with
      | some f => t.settle id f
      | none => t) gone

/-- DRAIN_ROUND_END (R377). -/
def execDrainRoundEnd (dest : Nat) (s : State) : Host.Outcome State Fault Refusal := .next (s.drainRound dest)

/-- The lines of L2 that a fenced slice holds: a read of one returns poisoned data (R381). -/
def State.loseLines (s : State) (cl : Nat) : State :=
  (s.holders.filter (fun h => h.2.1 == cl + 1)).foldl (fun t h =>
    let k := 64 * h.1
    let pa := (k - 2 ^ 64) % 2 ^ 40
    ({ t with l2 := t.l2.filter (fun c => !(decide (k ≤ c.1) && decide (c.1 < k + 64))),
              holders := Tbl.set (0, 0) t.holders h.1 (0, 0) } : State).poisonAt pa (List.range 64)) s

/-- An indivisible request that a fenced slice had taken goes to the line's new home (R378, R380). -/
def Flight.rehome (cl : Nat) (f : Flight) : Flight :=
  match f with
  | .mem r => (match r.stage with
    | .ready _ _ slice => if slice = cl ∧ r.near.isNone then .mem { r with stage := .travelling } else f
    | _ => f)
  | f => f

/-- A partition that holds a fenced cluster is reset (R316, R380). -/
def State.resetHolder (s : State) (part : Nat) : State :=
  (if (s.part part).status = .swapped then s.resetSwapped part else s).resetPart part

/-- CLUSTER_FENCE (R380, R381). -/
def State.fence (s : State) (cl : Nat) : State :=
  if 512 ≤ cl ∨ !s.booted ∨ (s.cluster cl).fenced then s
  else
    let t := s.loseLines cl
    let t := t.setCluster cl { t.cluster cl with fenced := true }
    let t := (s.parts.filter (fun p => p.2.clusters.contains cl && decide (p.2.status ≠ .unused))).foldl (fun t p =>
      t.resetHolder p.1) t
    { t with tlb := t.tlb.filter (fun e => e.slice != cl), flights := t.flights.map (fun f => (f.1, f.2.rehome cl)) }

/-- Whether a packet in flight may be lost in a dead router: a request's, which has somebody to tell (R380). -/
def Flight.mayBeLost : Flight → Bool
  | .reply _ _ => false
  | .ack _ _ _ => false
  | .sent _ => false
  | .docked _ => false
  | .lost _ _ => false
  | .xlInv _ _ => false
  | .fut q => decide (q.back ≠ .none) || decide (q.op = .cancel true)
  | .mem r => decide (r.back ≠ .none)
  | _ => true

/-- A packet lost in a dead router (R380): its request is settled one round of 20 µs later. -/
def State.lose (s : State) (id : Nat) : State :=
  match lookupId id s.flights with
  | some (.lost due f) => if s.clock < due then s else s.settle id f
  | some f => if f.mayBeLost ∧ s.clusters.any (fun c => c.2.fenced) then s.become id (.lost (s.clock + 40000) f) else s
  | none => s

/-- The answer to a request lost in a dead router (R380): `s` is the state before the event that gave it. -/
def State.loseAnswer (t s : State) (id : Nat) : State :=
  match lookupId id s.flights, lookupId id t.flights with
  | some (.lost _ _), _ => t
  | some f, some (.reply _ _) => if f.mayBeLost ∧ s.clusters.any (fun c => c.2.fenced) then t.become id (.lost (s.clock + 40000) f) else t
  | some f, some (.ack _ _ _) => if f.mayBeLost ∧ s.clusters.any (fun c => c.2.fenced) then t.become id (.lost (s.clock + 40000) f) else t
  | _, _ => t

/-- CLUSTER_FENCE (R380). -/
def execClusterFence (cl : Nat) (s : State) : Host.Outcome State Fault Refusal := .next (s.fence cl)

end Sys2Proof.Machine
end

