-- ==== Sys2Proof/Machine/Scalar.lean ====
section
/-! DEFINITION. Machine/Scalar.lean: integer arithmetic, comparison, bit manipulation and immediate forms (R77 to R84). -/
namespace Sys2Proof.Machine

/-- A truth value as a register result. -/
def wordOf (b : Bool) : Word := if b then 1 else 0

/-- A shift or rotate amount: gB[5:0] (R78). -/
def amount (b : Word) : Nat := b.toNat % 64

/-- The number of leading zero bits (R81). -/
def clz64 (x : Nat) : Nat := if x = 0 then 64 else 63 - Nat.log2 x
/-- The number of trailing zero bits (R81). -/
def ctz64 (x : Nat) : Nat := ((List.range 64).find? (fun i => bitOf x i)).getD 64
/-- The number of one bits (R81). -/
def popc64 (x : Nat) : Nat := ((List.range 64).filter (fun i => bitOf x i)).length
/-- The bits in reverse order (R81). -/
def brev64 (x : Nat) : Nat := (List.range 64).foldl (fun acc i => 2 * acc + (bitOf x i).toNat) 0

/-- The field mask of BEXT and BINS: the low min(len, 64 − pos) bits (R82). -/
def fieldMask (desc : Nat) : Nat := 2 ^ min (bits desc 14 8) (64 - bits desc 5 0) - 1

/-- BEXT (R82). -/
def bextOf (a desc : Nat) : Nat := (a >>> bits desc 5 0) &&& fieldMask desc
/-- BINS (R82). -/
def binsOf (d a desc : Nat) : Nat :=
  let pos := bits desc 5 0
  let m := fieldMask desc
  (d &&& (2 ^ 64 - 1 - m <<< pos)) ||| ((a &&& m) <<< pos)

/-- DIVIDE_BY_ZERO: CX.ADDR zero, CX.AUX the PC of the divide (R79). -/
def State.divTrap (s : State) : State := s.takeTrap cDIVIDE 0 s.pc

/-- ADD (R78). -/
def execAdd (d a b : GReg) (s : State) : Host.Outcome State Fault Refusal :=
  .next (s.done d (s.g a + s.g b))

/-- SUB (R78). -/
def execSub (d a b : GReg) (s : State) : Host.Outcome State Fault Refusal :=
  .next (s.done d (s.g a - s.g b))

/-- AND (R78). -/
def execAnd (d a b : GReg) (s : State) : Host.Outcome State Fault Refusal :=
  .next (s.done d (s.g a &&& s.g b))

/-- OR (R78). -/
def execOr (d a b : GReg) (s : State) : Host.Outcome State Fault Refusal :=
  .next (s.done d (s.g a ||| s.g b))

/-- XOR (R78). -/
def execXor (d a b : GReg) (s : State) : Host.Outcome State Fault Refusal :=
  .next (s.done d (s.g a ^^^ s.g b))

/-- ANDN (R78). -/
def execAndn (d a b : GReg) (s : State) : Host.Outcome State Fault Refusal :=
  .next (s.done d (s.g a &&& ~~~(s.g b)))

/-- SHL (R78). -/
def execShl (d a b : GReg) (s : State) : Host.Outcome State Fault Refusal :=
  .next (s.done d (s.g a <<< amount (s.g b)))

/-- SHR (R78). -/
def execShr (d a b : GReg) (s : State) : Host.Outcome State Fault Refusal :=
  .next (s.done d (s.g a >>> amount (s.g b)))

/-- SRA (R78). -/
def execSra (d a b : GReg) (s : State) : Host.Outcome State Fault Refusal :=
  .next (s.done d ((s.g a).sshiftRight (amount (s.g b))))

/-- ROL (R78). -/
def execRol (d a b : GReg) (s : State) : Host.Outcome State Fault Refusal :=
  .next (s.done d ((s.g a).rotateLeft (amount (s.g b))))

/-- ROR (R78). -/
def execRor (d a b : GReg) (s : State) : Host.Outcome State Fault Refusal :=
  .next (s.done d ((s.g a).rotateRight (amount (s.g b))))

/-- MIN, signed (R78). -/
def execMin (d a b : GReg) (s : State) : Host.Outcome State Fault Refusal :=
  .next (s.done d (if (s.g a).slt (s.g b) then s.g a else s.g b))

/-- MAX, signed (R78). -/
def execMax (d a b : GReg) (s : State) : Host.Outcome State Fault Refusal :=
  .next (s.done d (if (s.g a).slt (s.g b) then s.g b else s.g a))

/-- MINU (R78). -/
def execMinu (d a b : GReg) (s : State) : Host.Outcome State Fault Refusal :=
  .next (s.done d (if (s.g a).ult (s.g b) then s.g a else s.g b))

/-- MAXU (R78). -/
def execMaxu (d a b : GReg) (s : State) : Host.Outcome State Fault Refusal :=
  .next (s.done d (if (s.g a).ult (s.g b) then s.g b else s.g a))

/-- MUL: the low half of the product (R79). -/
def execMul (d a b : GReg) (s : State) : Host.Outcome State Fault Refusal :=
  .next (s.done d (s.g a * s.g b))

/-- MULH: bits 127 to 64 of the exact signed product (R79). -/
def execMulh (d a b : GReg) (s : State) : Host.Outcome State Fault Refusal :=
  .next (s.done d (BitVec.ofInt 64 ((s.g a).toInt * (s.g b).toInt / 2 ^ 64)))

/-- MULHU: bits 127 to 64 of the exact unsigned product (R79). -/
def execMulhu (d a b : GReg) (s : State) : Host.Outcome State Fault Refusal :=
  .next (s.done d (BitVec.ofNat 64 ((s.g a).toNat * (s.g b).toNat / 2 ^ 64)))

/-- DIV, truncated toward zero; −2^63 / −1 is −2^63 (R79). -/
def execDiv (d a b : GReg) (s : State) : Host.Outcome State Fault Refusal :=
  if s.g b = 0 then .next s.divTrap else .next (s.done d ((s.g a).sdiv (s.g b)))

/-- DIVU (R79). -/
def execDivu (d a b : GReg) (s : State) : Host.Outcome State Fault Refusal :=
  if s.g b = 0 then .next s.divTrap else .next (s.done d (s.g a / s.g b))

/-- REM, with the sign of the dividend; −2^63 by −1 leaves 0 (R79). -/
def execRem (d a b : GReg) (s : State) : Host.Outcome State Fault Refusal :=
  if s.g b = 0 then .next s.divTrap else .next (s.done d ((s.g a).srem (s.g b)))

/-- REMU (R79). -/
def execRemu (d a b : GReg) (s : State) : Host.Outcome State Fault Refusal :=
  if s.g b = 0 then .next s.divTrap else .next (s.done d (s.g a % s.g b))

/-- CMPEQ (R80). -/
def execCmpeq (d a b : GReg) (s : State) : Host.Outcome State Fault Refusal :=
  .next (s.done d (wordOf (s.g a == s.g b)))

/-- CMPNE (R80). -/
def execCmpne (d a b : GReg) (s : State) : Host.Outcome State Fault Refusal :=
  .next (s.done d (wordOf (s.g a != s.g b)))

/-- CMPLT, signed (R80). -/
def execCmplt (d a b : GReg) (s : State) : Host.Outcome State Fault Refusal :=
  .next (s.done d (wordOf ((s.g a).slt (s.g b))))

/-- CMPLTU (R80). -/
def execCmpltu (d a b : GReg) (s : State) : Host.Outcome State Fault Refusal :=
  .next (s.done d (wordOf ((s.g a).ult (s.g b))))

/-- CMPLE, signed (R80). -/
def execCmple (d a b : GReg) (s : State) : Host.Outcome State Fault Refusal :=
  .next (s.done d (wordOf ((s.g a).sle (s.g b))))

/-- CMPLEU (R80). -/
def execCmpleu (d a b : GReg) (s : State) : Host.Outcome State Fault Refusal :=
  .next (s.done d (wordOf ((s.g a).ule (s.g b))))

/-- CMOVZ: an untaken move still counts as a write of gD (R80). -/
def execCmovz (d a b : GReg) (s : State) : Host.Outcome State Fault Refusal :=
  .next (s.done d (if s.g b = 0 then s.g a else s.g d))

/-- CMOVNZ: an untaken move still counts as a write of gD (R80). -/
def execCmovnz (d a b : GReg) (s : State) : Host.Outcome State Fault Refusal :=
  .next (s.done d (if s.g b = 0 then s.g d else s.g a))

/-- CLZ (R81). -/
def execClz (d a : GReg) (s : State) : Host.Outcome State Fault Refusal :=
  .next (s.done d (BitVec.ofNat 64 (clz64 (s.gN a))))

/-- CTZ (R81). -/
def execCtz (d a : GReg) (s : State) : Host.Outcome State Fault Refusal :=
  .next (s.done d (BitVec.ofNat 64 (ctz64 (s.gN a))))

/-- POPC (R81). -/
def execPopc (d a : GReg) (s : State) : Host.Outcome State Fault Refusal :=
  .next (s.done d (BitVec.ofNat 64 (popc64 (s.gN a))))

/-- BREV (R81). -/
def execBrev (d a : GReg) (s : State) : Host.Outcome State Fault Refusal :=
  .next (s.done d (BitVec.ofNat 64 (brev64 (s.gN a))))

/-- BSWAP (R81). -/
def execBswap (d a : GReg) (s : State) : Host.Outcome State Fault Refusal :=
  .next (s.done d (BitVec.ofNat 64 (natOf (bytesOf 8 (s.gN a)).reverse)))

/-- SEXTB (R81). -/
def execSextb (d a : GReg) (s : State) : Host.Outcome State Fault Refusal :=
  .next (s.done d (((s.g a).truncate 8).signExtend 64))

/-- SEXTH (R81). -/
def execSexth (d a : GReg) (s : State) : Host.Outcome State Fault Refusal :=
  .next (s.done d (((s.g a).truncate 16).signExtend 64))

/-- SEXTW (R81). -/
def execSextw (d a : GReg) (s : State) : Host.Outcome State Fault Refusal :=
  .next (s.done d (((s.g a).truncate 32).signExtend 64))

/-- ZEXTB (R81). -/
def execZextb (d a : GReg) (s : State) : Host.Outcome State Fault Refusal :=
  .next (s.done d (((s.g a).truncate 8).zeroExtend 64))

/-- ZEXTH (R81). -/
def execZexth (d a : GReg) (s : State) : Host.Outcome State Fault Refusal :=
  .next (s.done d (((s.g a).truncate 16).zeroExtend 64))

/-- ZEXTW (R81). -/
def execZextw (d a : GReg) (s : State) : Host.Outcome State Fault Refusal :=
  .next (s.done d (((s.g a).truncate 32).zeroExtend 64))

/-- BEXT (R82). -/
def execBext (d a b : GReg) (s : State) : Host.Outcome State Fault Refusal :=
  .next (s.done d (BitVec.ofNat 64 (bextOf (s.gN a) (s.gN b))))

/-- BINS, which reads gD (R82). -/
def execBins (d a b : GReg) (s : State) : Host.Outcome State Fault Refusal :=
  .next (s.done d (BitVec.ofNat 64 (binsOf (s.gN d) (s.gN a) (s.gN b))))

/-- ADDI (R83). -/
def execAddi (d a : GReg) (imm : Imm) (s : State) : Host.Outcome State Fault Refusal :=
  .next (s.done d (s.g a + imm.val))

/-- ANDI (R83). -/
def execAndi (d a : GReg) (imm : Imm) (s : State) : Host.Outcome State Fault Refusal :=
  .next (s.done d (s.g a &&& imm.val))

/-- ORI (R83). -/
def execOri (d a : GReg) (imm : Imm) (s : State) : Host.Outcome State Fault Refusal :=
  .next (s.done d (s.g a ||| imm.val))

/-- XORI (R83). -/
def execXori (d a : GReg) (imm : Imm) (s : State) : Host.Outcome State Fault Refusal :=
  .next (s.done d (s.g a ^^^ imm.val))

/-- CMPEQI (R83). -/
def execCmpeqi (d a : GReg) (imm : Imm) (s : State) : Host.Outcome State Fault Refusal :=
  .next (s.done d (wordOf (s.g a == imm.val)))

/-- CMPLTI, signed (R83). -/
def execCmplti (d a : GReg) (imm : Imm) (s : State) : Host.Outcome State Fault Refusal :=
  .next (s.done d (wordOf ((s.g a).slt imm.val)))

/-- CMPLTUI, of the sign-extended immediate as unsigned (R83). -/
def execCmpltui (d a : GReg) (imm : Imm) (s : State) : Host.Outcome State Fault Refusal :=
  .next (s.done d (wordOf ((s.g a).ult imm.val)))

/-- MULI (R83). -/
def execMuli (d a : GReg) (imm : Imm) (s : State) : Host.Outcome State Fault Refusal :=
  .next (s.done d (s.g a * imm.val))

/-- ADDPC: the address of the instruction's first word plus the immediate (R83). -/
def execAddpc (d : GReg) (imm : Imm) (s : State) : Host.Outcome State Fault Refusal :=
  .next (s.done d (BitVec.ofNat 64 s.pc + imm.val))

/-- SHLI (R84). -/
def execShli (d a : GReg) (sh : Fin 64) (s : State) : Host.Outcome State Fault Refusal :=
  .next (s.done d (s.g a <<< sh.val))

/-- SHRI (R84). -/
def execShri (d a : GReg) (sh : Fin 64) (s : State) : Host.Outcome State Fault Refusal :=
  .next (s.done d (s.g a >>> sh.val))

/-- SRAI (R84). -/
def execSrai (d a : GReg) (sh : Fin 64) (s : State) : Host.Outcome State Fault Refusal :=
  .next (s.done d ((s.g a).sshiftRight sh.val))

/-- RORI (R84). -/
def execRori (d a : GReg) (sh : Fin 64) (s : State) : Host.Outcome State Fault Refusal :=
  .next (s.done d ((s.g a).rotateRight sh.val))

end Sys2Proof.Machine
end

