-- ==== Sys2Proof/Machine/Dispatch.lean ====
section
/-! DEFINITION. Machine/Dispatch.lean: one arm for every instruction and event. -/
namespace Sys2Proof.Machine

def exec (i : Instr) (s : State) : Host.Outcome State Fault Refusal :=
  match i with
  | .add d a b => Sys2Proof.Machine.execAdd d a b s
  | .sub d a b => Sys2Proof.Machine.execSub d a b s
  | .and d a b => Sys2Proof.Machine.execAnd d a b s
  | .or d a b => Sys2Proof.Machine.execOr d a b s
  | .xor d a b => Sys2Proof.Machine.execXor d a b s
  | .andn d a b => Sys2Proof.Machine.execAndn d a b s
  | .shl d a b => Sys2Proof.Machine.execShl d a b s
  | .shr d a b => Sys2Proof.Machine.execShr d a b s
  | .sra d a b => Sys2Proof.Machine.execSra d a b s
  | .rol d a b => Sys2Proof.Machine.execRol d a b s
  | .ror d a b => Sys2Proof.Machine.execRor d a b s
  | .min d a b => Sys2Proof.Machine.execMin d a b s
  | .max d a b => Sys2Proof.Machine.execMax d a b s
  | .minu d a b => Sys2Proof.Machine.execMinu d a b s
  | .maxu d a b => Sys2Proof.Machine.execMaxu d a b s
  | .mul d a b => Sys2Proof.Machine.execMul d a b s
  | .mulh d a b => Sys2Proof.Machine.execMulh d a b s
  | .mulhu d a b => Sys2Proof.Machine.execMulhu d a b s
  | .div d a b => Sys2Proof.Machine.execDiv d a b s
  | .divu d a b => Sys2Proof.Machine.execDivu d a b s
  | .rem d a b => Sys2Proof.Machine.execRem d a b s
  | .remu d a b => Sys2Proof.Machine.execRemu d a b s
  | .cmpeq d a b => Sys2Proof.Machine.execCmpeq d a b s
  | .cmpne d a b => Sys2Proof.Machine.execCmpne d a b s
  | .cmplt d a b => Sys2Proof.Machine.execCmplt d a b s
  | .cmpltu d a b => Sys2Proof.Machine.execCmpltu d a b s
  | .cmple d a b => Sys2Proof.Machine.execCmple d a b s
  | .cmpleu d a b => Sys2Proof.Machine.execCmpleu d a b s
  | .cmovz d a b => Sys2Proof.Machine.execCmovz d a b s
  | .cmovnz d a b => Sys2Proof.Machine.execCmovnz d a b s
  | .clz d a => Sys2Proof.Machine.execClz d a s
  | .ctz d a => Sys2Proof.Machine.execCtz d a s
  | .popc d a => Sys2Proof.Machine.execPopc d a s
  | .brev d a => Sys2Proof.Machine.execBrev d a s
  | .bswap d a => Sys2Proof.Machine.execBswap d a s
  | .sextb d a => Sys2Proof.Machine.execSextb d a s
  | .sexth d a => Sys2Proof.Machine.execSexth d a s
  | .sextw d a => Sys2Proof.Machine.execSextw d a s
  | .zextb d a => Sys2Proof.Machine.execZextb d a s
  | .zexth d a => Sys2Proof.Machine.execZexth d a s
  | .zextw d a => Sys2Proof.Machine.execZextw d a s
  | .bext d a b => Sys2Proof.Machine.execBext d a b s
  | .bins d a b => Sys2Proof.Machine.execBins d a b s
  | .addi d a imm => Sys2Proof.Machine.execAddi d a imm s
  | .andi d a imm => Sys2Proof.Machine.execAndi d a imm s
  | .ori d a imm => Sys2Proof.Machine.execOri d a imm s
  | .xori d a imm => Sys2Proof.Machine.execXori d a imm s
  | .cmpeqi d a imm => Sys2Proof.Machine.execCmpeqi d a imm s
  | .cmplti d a imm => Sys2Proof.Machine.execCmplti d a imm s
  | .cmpltui d a imm => Sys2Proof.Machine.execCmpltui d a imm s
  | .addpc d imm => Sys2Proof.Machine.execAddpc d imm s
  | .muli d a imm => Sys2Proof.Machine.execMuli d a imm s
  | .shli d a sh => Sys2Proof.Machine.execShli d a sh s
  | .shri d a sh => Sys2Proof.Machine.execShri d a sh s
  | .srai d a sh => Sys2Proof.Machine.execSrai d a sh s
  | .rori d a sh => Sys2Proof.Machine.execRori d a sh s
  | .fadd d a b => Sys2Proof.Machine.execFadd d a b s
  | .fsub d a b => Sys2Proof.Machine.execFsub d a b s
  | .fmul d a b => Sys2Proof.Machine.execFmul d a b s
  | .fdiv d a b => Sys2Proof.Machine.execFdiv d a b s
  | .fmadd d a b => Sys2Proof.Machine.execFmadd d a b s
  | .fmsub d a b => Sys2Proof.Machine.execFmsub d a b s
  | .fmin d a b => Sys2Proof.Machine.execFmin d a b s
  | .fmax d a b => Sys2Proof.Machine.execFmax d a b s
  | .fsqrt d a => Sys2Proof.Machine.execFsqrt d a s
  | .fabs d a => Sys2Proof.Machine.execFabs d a s
  | .fneg d a => Sys2Proof.Machine.execFneg d a s
  | .fcopys d a b => Sys2Proof.Machine.execFcopys d a b s
  | .fcmpeq d a b => Sys2Proof.Machine.execFcmpeq d a b s
  | .fcmplt d a b => Sys2Proof.Machine.execFcmplt d a b s
  | .fcmple d a b => Sys2Proof.Machine.execFcmple d a b s
  | .fcmpun d a b => Sys2Proof.Machine.execFcmpun d a b s
  | .fclass d a => Sys2Proof.Machine.execFclass d a s
  | .itof d a rc => Sys2Proof.Machine.execItof d a rc s
  | .utof d a rc => Sys2Proof.Machine.execUtof d a rc s
  | .ftoi d a rc => Sys2Proof.Machine.execFtoi d a rc s
  | .ftou d a rc => Sys2Proof.Machine.execFtou d a rc s
  | .ftobf d a rc => Sys2Proof.Machine.execFtobf d a rc s
  | .bftof d a rc => Sys2Proof.Machine.execBftof d a rc s
  | .ftoe4 d a rc => Sys2Proof.Machine.execFtoe4 d a rc s
  | .e4tof d a rc => Sys2Proof.Machine.execE4tof d a rc s
  | .ftoe5 d a rc inf => Sys2Proof.Machine.execFtoe5 d a rc inf s
  | .e5tof d a rc => Sys2Proof.Machine.execE5tof d a rc s
  | .ftoe2 d a rc => Sys2Proof.Machine.execFtoe2 d a rc s
  | .e2tof d a rc => Sys2Proof.Machine.execE2tof d a rc s
  | .beq a b imm => Sys2Proof.Machine.execBeq a b imm s
  | .bne a b imm => Sys2Proof.Machine.execBne a b imm s
  | .blt a b imm => Sys2Proof.Machine.execBlt a b imm s
  | .bge a b imm => Sys2Proof.Machine.execBge a b imm s
  | .bltu a b imm => Sys2Proof.Machine.execBltu a b imm s
  | .bgeu a b imm => Sys2Proof.Machine.execBgeu a b imm s
  | .jal d imm => Sys2Proof.Machine.execJal d imm s
  | .jalr d a imm => Sys2Proof.Machine.execJalr d a imm s
  | .loopnz d imm => Sys2Proof.Machine.execLoopnz d imm s
  | .rep a stride len => Sys2Proof.Machine.execRep a stride len s
  | .repi count stride len => Sys2Proof.Machine.execRepi count stride len s
  | .ldb d a off h w => Sys2Proof.Machine.execLdb d a off h w s
  | .ldh d a off h w => Sys2Proof.Machine.execLdh d a off h w s
  | .ldw d a off h w => Sys2Proof.Machine.execLdw d a off h w s
  | .ldd d a off h w => Sys2Proof.Machine.execLdd d a off h w s
  | .pref a off stream w => Sys2Proof.Machine.execPref a off stream w s
  | .stb d a off h w => Sys2Proof.Machine.execStb d a off h w s
  | .sth d a off h w => Sys2Proof.Machine.execSth d a off h w s
  | .stw d a off h w => Sys2Proof.Machine.execStw d a off h w s
  | .std d a off h w => Sys2Proof.Machine.execStd d a off h w s
  | .stn a b hi rel w => Sys2Proof.Machine.execStn a b hi rel w s
  | .axchg d a b acq rel w => Sys2Proof.Machine.execAxchg d a b acq rel w s
  | .aadd d a b acq rel w => Sys2Proof.Machine.execAadd d a b acq rel w s
  | .aand d a b acq rel w => Sys2Proof.Machine.execAand d a b acq rel w s
  | .aor d a b acq rel w => Sys2Proof.Machine.execAor d a b acq rel w s
  | .axor d a b acq rel w => Sys2Proof.Machine.execAxor d a b acq rel w s
  | .amin d a b acq rel w => Sys2Proof.Machine.execAmin d a b acq rel w s
  | .amax d a b acq rel w => Sys2Proof.Machine.execAmax d a b acq rel w s
  | .aminu d a b acq rel w => Sys2Proof.Machine.execAminu d a b acq rel w s
  | .amaxu d a b acq rel w => Sys2Proof.Machine.execAmaxu d a b acq rel w s
  | .afadd d a b acq rel w => Sys2Proof.Machine.execAfadd d a b acq rel w s
  | .axchgPost a b rel w => Sys2Proof.Machine.execAxchgPost a b rel w s
  | .aaddPost a b rel w => Sys2Proof.Machine.execAaddPost a b rel w s
  | .aandPost a b rel w => Sys2Proof.Machine.execAandPost a b rel w s
  | .aorPost a b rel w => Sys2Proof.Machine.execAorPost a b rel w s
  | .axorPost a b rel w => Sys2Proof.Machine.execAxorPost a b rel w s
  | .aminPost a b rel w => Sys2Proof.Machine.execAminPost a b rel w s
  | .amaxPost a b rel w => Sys2Proof.Machine.execAmaxPost a b rel w s
  | .aminuPost a b rel w => Sys2Proof.Machine.execAminuPost a b rel w s
  | .amaxuPost a b rel w => Sys2Proof.Machine.execAmaxuPost a b rel w s
  | .afaddPost a b rel w => Sys2Proof.Machine.execAfaddPost a b rel w s
  | .cas d a b acq rel w => Sys2Proof.Machine.execCas d a b acq rel w s
  | .casp d a b acq rel w => Sys2Proof.Machine.execCasp d a b acq rel w s
  | .wait at_ tl cp sg sn => Sys2Proof.Machine.execWait at_ tl cp sg sn s
  | .fence scope => Sys2Proof.Machine.execFence scope s
  | .cwait d a => Sys2Proof.Machine.execCwait d a s
  | .bararm lvl obj a => Sys2Proof.Machine.execBararm lvl obj a s
  | .barrive lvl obj d => Sys2Proof.Machine.execBarrive lvl obj d s
  | .barwait lvl obj a => Sys2Proof.Machine.execBarwait lvl obj a s
  | .barq lvl obj d => Sys2Proof.Machine.execBarq lvl obj d s
  | .vfadd d a b m => Sys2Proof.Machine.execVfadd d a b m s
  | .vfsub d a b m => Sys2Proof.Machine.execVfsub d a b m s
  | .vfmul d a b m => Sys2Proof.Machine.execVfmul d a b m s
  | .vfdiv d a b m => Sys2Proof.Machine.execVfdiv d a b m s
  | .vfma d a b m => Sys2Proof.Machine.execVfma d a b m s
  | .vfms d a b m => Sys2Proof.Machine.execVfms d a b m s
  | .vfmin d a b m => Sys2Proof.Machine.execVfmin d a b m s
  | .vfmax d a b m => Sys2Proof.Machine.execVfmax d a b m s
  | .vfabs d a m => Sys2Proof.Machine.execVfabs d a m s
  | .vfneg d a m => Sys2Proof.Machine.execVfneg d a m s
  | .vfsqrt d a m => Sys2Proof.Machine.execVfsqrt d a m s
  | .vfrcp d a m => Sys2Proof.Machine.execVfrcp d a m s
  | .vfrsq d a m => Sys2Proof.Machine.execVfrsq d a m s
  | .vfexp2 d a m => Sys2Proof.Machine.execVfexp2 d a m s
  | .vflog2 d a m => Sys2Proof.Machine.execVflog2 d a m s
  | .vbfma d a b m => Sys2Proof.Machine.execVbfma d a b m s
  | .vadd d a b m => Sys2Proof.Machine.execVadd d a b m s
  | .vsub d a b m => Sys2Proof.Machine.execVsub d a b m s
  | .vmul d a b m => Sys2Proof.Machine.execVmul d a b m s
  | .vmulh d a b m => Sys2Proof.Machine.execVmulh d a b m s
  | .vmin d a b m => Sys2Proof.Machine.execVmin d a b m s
  | .vmax d a b m => Sys2Proof.Machine.execVmax d a b m s
  | .vminu d a b m => Sys2Proof.Machine.execVminu d a b m s
  | .vmaxu d a b m => Sys2Proof.Machine.execVmaxu d a b m s
  | .vand d a b m => Sys2Proof.Machine.execVand d a b m s
  | .vor d a b m => Sys2Proof.Machine.execVor d a b m s
  | .vxor d a b m => Sys2Proof.Machine.execVxor d a b m s
  | .vshl d a b m => Sys2Proof.Machine.execVshl d a b m s
  | .vshr d a b m => Sys2Proof.Machine.execVshr d a b m s
  | .vsra d a b m => Sys2Proof.Machine.execVsra d a b m s
  | .vadds d a b m => Sys2Proof.Machine.execVadds d a b m s
  | .vsubs d a b m => Sys2Proof.Machine.execVsubs d a b m s
  | .vfcmpeq d a b m => Sys2Proof.Machine.execVfcmpeq d a b m s
  | .vfcmplt d a b m => Sys2Proof.Machine.execVfcmplt d a b m s
  | .vfcmple d a b m => Sys2Proof.Machine.execVfcmple d a b m s
  | .vcmpeq d a b m => Sys2Proof.Machine.execVcmpeq d a b m s
  | .vcmplt d a b m => Sys2Proof.Machine.execVcmplt d a b m s
  | .vcmpltu d a b m => Sys2Proof.Machine.execVcmpltu d a b m s
  | .vsel d a b m => Sys2Proof.Machine.execVsel d a b m s
  | .mand d a b => Sys2Proof.Machine.execMand d a b s
  | .mor d a b => Sys2Proof.Machine.execMor d a b s
  | .mxor d a b => Sys2Proof.Machine.execMxor d a b s
  | .mnot d a => Sys2Proof.Machine.execMnot d a s
  | .vperm d a b m => Sys2Proof.Machine.execVperm d a b m s
  | .vrotl d a b m => Sys2Proof.Machine.execVrotl d a b m s
  | .vziplo d a b m => Sys2Proof.Machine.execVziplo d a b m s
  | .vziphi d a b m => Sys2Proof.Machine.execVziphi d a b m s
  | .vcvtif d a m => Sys2Proof.Machine.execVcvtif d a m s
  | .vcvtfi d a m => Sys2Proof.Machine.execVcvtfi d a m s
  | .vcvtfbf d a b m => Sys2Proof.Machine.execVcvtfbf d a b m s
  | .vcvtbff d a m => Sys2Proof.Machine.execVcvtbff d a m s
  | .vcvtfe4 d a m => Sys2Proof.Machine.execVcvtfe4 d a m s
  | .vcvtfe5 d a m => Sys2Proof.Machine.execVcvtfe5 d a m s
  | .vcvtfb4 d a b m => Sys2Proof.Machine.execVcvtfb4 d a b m s
  | .vcvte4f d a m => Sys2Proof.Machine.execVcvte4f d a m s
  | .vcvte5f d a m => Sys2Proof.Machine.execVcvte5f d a m s
  | .vcvtfe5Inf d a m => Sys2Proof.Machine.execVcvtfe5Inf d a m s
  | .vredadd d a m => Sys2Proof.Machine.execVredadd d a m s
  | .vredfadd d a m => Sys2Proof.Machine.execVredfadd d a m s
  | .vredfmax d a m => Sys2Proof.Machine.execVredfmax d a m s
  | .vredfmin d a m => Sys2Proof.Machine.execVredfmin d a m s
  | .vscan d a m => Sys2Proof.Machine.execVscan d a m s
  | .vscanf d a m => Sys2Proof.Machine.execVscanf d a m s
  | .vscanx d a m => Sys2Proof.Machine.execVscanx d a m s
  | .vprune d a b m => Sys2Proof.Machine.execVprune d a b m s
  | .vbcast d a m => Sys2Proof.Machine.execVbcast d a m s
  | .vextr d a b => Sys2Proof.Machine.execVextr d a b s
  | .vinsr d a b => Sys2Proof.Machine.execVinsr d a b s
  | .vgath d a b m => Sys2Proof.Machine.execVgath d a b m s
  | .vscat d a b m => Sys2Proof.Machine.execVscat d a b m s
  | .mtog d a => Sys2Proof.Machine.execMtog d a s
  | .gtom d a => Sys2Proof.Machine.execGtom d a s
  | .vld d a off h w => Sys2Proof.Machine.execVld d a off h w s
  | .vst d a off h w => Sys2Proof.Machine.execVst d a off h w s
  | .spawn d a b plc pri twin rst => Sys2Proof.Machine.execSpawn d a b plc pri twin rst s
  | .spawnt d a b plc pri twin rst => Sys2Proof.Machine.execSpawnt d a b plc pri twin rst s
  | .callat d a b pri => Sys2Proof.Machine.execCallat d a b pri s
  | .touch d a => Sys2Proof.Machine.execTouch d a s
  | .ttouch d a => Sys2Proof.Machine.execTtouch d a s
  | .resolve d a b => Sys2Proof.Machine.execResolve d a b s
  | .poison d a b => Sys2Proof.Machine.execPoison d a b s
  | .cancel d a => Sys2Proof.Machine.execCancel d a s
  | .cancelTree d a => Sys2Proof.Machine.execCancelTree d a s
  | .fnew d => Sys2Proof.Machine.execFnew d s
  | .ffree a => Sys2Proof.Machine.execFfree a s
  | .fstat d a => Sys2Proof.Machine.execFstat d a s
  | .chkc => Sys2Proof.Machine.execChkc s
  | .yield => Sys2Proof.Machine.execYield s
  | .term a => Sys2Proof.Machine.execTerm a s
  | .send d a b n => Sys2Proof.Machine.execSend d a b n s
  | .hret => Sys2Proof.Machine.execHret s
  | .launch d a b => Sys2Proof.Machine.execLaunch d a b s
  | .flood a => Sys2Proof.Machine.execFlood a s
  | .setwp a b => Sys2Proof.Machine.execSetwp a b s
  | .start d a b => Sys2Proof.Machine.execStart d a b s
  | .stopc d a b => Sys2Proof.Machine.execStopc d a b s
  | .trap a => Sys2Proof.Machine.execTrap a s
  | .eret => Sys2Proof.Machine.execEret s
  | .ctrlr d a => Sys2Proof.Machine.execCtrlr d a s
  | .ctrlw a b => Sys2Proof.Machine.execCtrlw a b s
  | .bankmode a b => Sys2Proof.Machine.execBankmode a b s
  | .park d a => Sys2Proof.Machine.execPark d a s
  | .acc a b m => Sys2Proof.Machine.execAcc a b m s
  | .accBf16 a b m => Sys2Proof.Machine.execAccBf16 a b m s
  | .rmerge a b m ks => Sys2Proof.Machine.execRmerge a b m ks s
  | .flushresAll => Sys2Proof.Machine.execFlushresAll s
  | .flushresRange a b => Sys2Proof.Machine.execFlushresRange a b s
  | .hsift d a b => Sys2Proof.Machine.execHsift d a b s
  | .hmerge d a b => Sys2Proof.Machine.execHmerge d a b s
  | .shelfput a b => Sys2Proof.Machine.execShelfput a b s
  | .shelfcloseAll => Sys2Proof.Machine.execShelfcloseAll s
  | .shelfcloseDie a => Sys2Proof.Machine.execShelfcloseDie a s
  | .mfmt accm rc bf af gAS gAB gBS gBB => Sys2Proof.Machine.execMfmt accm rc bf af gAS gAB gBS gBB s
  | .malloc d t g0 ng kind ks => Sys2Proof.Machine.execMalloc d t g0 ng kind ks s
  | .mfree t g0 ng => Sys2Proof.Machine.execMfree t g0 ng s
  | .mzero t row0 nr cw => Sys2Proof.Machine.execMzero t row0 nr cw s
  | .mma t shp row0 nr gA gSA gB gSB cw => Sys2Proof.Machine.execMma t shp row0 nr gA gSA gB gSB cw s
  | .gmma t nt nw ng gA gSA gG gSB cw => Sys2Proof.Machine.execGmma t nt nw ng gA gSA gG gSB cw s
  | .mdrain t row0 nr df dst gD gSD cw => Sys2Proof.Machine.execMdrain t row0 nr df dst gD gSD cw s
  | .mquant t row0 nr dst qf gD gSD cw => Sys2Proof.Machine.execMquant t row0 nr dst qf gD gSD cw s
  | .msync => Sys2Proof.Machine.execMsync s
  | .mrank ts t row0 nr srow0 ncm gC cw => Sys2Proof.Machine.execMrank ts t row0 nr srow0 ncm gC cw s
  | .mthr row0 t gF d cw => Sys2Proof.Machine.execMthr row0 t gF d cw s
  | .acct t row0 nr df gD gSD cw => Sys2Proof.Machine.execAcct t row0 nr df gD gSD cw s
  | .tcopy gT cw => Sys2Proof.Machine.execTcopy gT cw s
  | .tgather gS gD gI gN gRB gSS gDS cw => Sys2Proof.Machine.execTgather gS gD gI gN gRB gSS gDS cw s
  | .tscatter gS gD gI gN gRB gSS gDS cw => Sys2Proof.Machine.execTscatter gS gD gI gN gRB gSS gDS cw s
  | .tmcast gS gD gM gN cw => Sys2Proof.Machine.execTmcast gS gD gM gN cw s
  | .tfill esz gD gV gN cw => Sys2Proof.Machine.execTfill esz gD gV gN cw s
  | .packetNop part q => Sys2Proof.Machine.execPacketNop part q s
  | .launchKernel part q => Sys2Proof.Machine.execLaunchKernel part q s
  | .launchGraph part q => Sys2Proof.Machine.execLaunchGraph part q s
  | .write part q => Sys2Proof.Machine.execWrite part q s
  | .writeSignal part q => Sys2Proof.Machine.execWriteSignal part q s
  | .waitValue part q => Sys2Proof.Machine.execWaitValue part q s
  | .waitValueRetest part q => Sys2Proof.Machine.execWaitValueRetest part q s
  | .copy part q => Sys2Proof.Machine.execCopy part q s
  | .packetFence part q => Sys2Proof.Machine.execPacketFence part q s
  | .ctrlWrite part q => Sys2Proof.Machine.execCtrlWrite part q s
  | .partStop part q => Sys2Proof.Machine.execPartStop part q s
  | .partStart part q => Sys2Proof.Machine.execPartStart part q s
  | .partReset part q => Sys2Proof.Machine.execPartReset part q s
  | .barAssign part q => Sys2Proof.Machine.execBarAssign part q s
  | .queueConfig part q => Sys2Proof.Machine.execQueueConfig part q s
  | .ctxStart part q => Sys2Proof.Machine.execCtxStart part q s
  | .queuePoll part q => Sys2Proof.Machine.execQueuePoll part q s
  | .graphEnd die walker => Sys2Proof.Machine.execGraphEnd die walker s
  | .graphKernel die walker => Sys2Proof.Machine.execGraphKernel die walker s
  | .graphCond die walker => Sys2Proof.Machine.execGraphCond die walker s
  | .graphLoop die walker => Sys2Proof.Machine.execGraphLoop die walker s
  | .graphJoin die walker => Sys2Proof.Machine.execGraphJoin die walker s
  | .launchAppend id => Sys2Proof.Machine.execLaunchAppend id s
  | .launchWake id core => Sys2Proof.Machine.execLaunchWake id core s
  | .rootReport id => Sys2Proof.Machine.execRootReport id s
  | .controlPortRead port die tgt addr len => Sys2Proof.Machine.execControlPortRead port die tgt addr len s
  | .controlPortWrite port die tgt addr data => Sys2Proof.Machine.execControlPortWrite port die tgt addr data s
  | .controlPortFailure port => Sys2Proof.Machine.execControlPortFailure port s
  | .svcDoorbell die value => Sys2Proof.Machine.execSvcDoorbell die value s
  | .svcRefire die value => Sys2Proof.Machine.execSvcRefire die value s
  | .refireTakeover => Sys2Proof.Machine.execRefireTakeover s
  | .refireAbort => Sys2Proof.Machine.execRefireAbort s
  | .svcAttest off data => Sys2Proof.Machine.execSvcAttest off data s
  | .attestQuoteReady => Sys2Proof.Machine.execAttestQuoteReady s
  | .xlInv id => Sys2Proof.Machine.execXlInv id s
  | .fifoPop id => Sys2Proof.Machine.execFifoPop id s
  | .fifoPush id => Sys2Proof.Machine.execFifoPush id s
  | .powerGood => Sys2Proof.Machine.execPowerGood s
  | .kilnFailover => Sys2Proof.Machine.execKilnFailover s
  | .thermalStop die => Sys2Proof.Machine.execThermalStop die s
  | .powerLimit milliwatts => Sys2Proof.Machine.execPowerLimit milliwatts s
  | .timeSliceExpiry old new image => Sys2Proof.Machine.execTimeSliceExpiry old new image s
  | .linkDead port => Sys2Proof.Machine.execLinkDead port s
  | .linkRetrained port => Sys2Proof.Machine.execLinkRetrained port s
  | .linkStateUpdate port word => Sys2Proof.Machine.execLinkStateUpdate port word s
  | .routeRecomputation => Sys2Proof.Machine.execRouteRecomputation s
  | .drainRoundEnd dest => Sys2Proof.Machine.execDrainRoundEnd dest s
  | .clusterFence cl => Sys2Proof.Machine.execClusterFence cl s
  | .nearArrival id => Sys2Proof.Machine.execNearArrival id s
  | .arrivalLogReplay part => Sys2Proof.Machine.execArrivalLogReplay part s
  | .homeSliceAccess id => Sys2Proof.Machine.execHomeSliceAccess id s
  | .pageWalk id => Sys2Proof.Machine.execPageWalk id s
  | .atomicAtAgent id => Sys2Proof.Machine.execAtomicAtAgent id s
  | .replyArrival id => Sys2Proof.Machine.execReplyArrival id s
  | .acknowledgement id => Sys2Proof.Machine.execAcknowledgement id s
  | .accumulateArrival id => Sys2Proof.Machine.execAccumulateArrival id s
  | .flushAccumulate id => Sys2Proof.Machine.execFlushAccumulate id s
  | .refusalReturn id => Sys2Proof.Machine.execRefusalReturn id s
  | .accqWindow cl => Sys2Proof.Machine.execAccqWindow cl s
  | .arbiterPick cl => Sys2Proof.Machine.execArbiterPick cl s
  | .wedgeHoldExpiry cl entry => Sys2Proof.Machine.execWedgeHoldExpiry cl entry s
  | .wedgePriorityRelease cl entry => Sys2Proof.Machine.execWedgePriorityRelease cl entry s
  | .commandStart core eng => Sys2Proof.Machine.execCommandStart core eng s
  | .commandCompletion id => Sys2Proof.Machine.execCommandCompletion id s
  | .engineWriteAcknowledgement id => Sys2Proof.Machine.execEngineWriteAcknowledgement id s
  | .drainWake core => Sys2Proof.Machine.execDrainWake core s
  | .shelfTimer cl die => Sys2Proof.Machine.execShelfTimer cl die s
  | .shelfArrival id => Sys2Proof.Machine.execShelfArrival id s
  | .sweeperRecord die => Sys2Proof.Machine.execSweeperRecord die s
  | .taskRecordArrival id => Sys2Proof.Machine.execTaskRecordArrival id s
  | .prefetchGrant cl => Sys2Proof.Machine.execPrefetchGrant cl s
  | .prefetchDone cl rid => Sys2Proof.Machine.execPrefetchDone cl rid s
  | .dispatch cl => Sys2Proof.Machine.execDispatch cl s
  | .workspaceCopyDone cl rid => Sys2Proof.Machine.execWorkspaceCopyDone cl rid s
  | .taskAging cl rid => Sys2Proof.Machine.execTaskAging cl rid s
  | .loadHintPublication cl wide => Sys2Proof.Machine.execLoadHintPublication cl wide s
  | .cancelRequest id => Sys2Proof.Machine.execCancelRequest id s
  | .treeCancel id => Sys2Proof.Machine.execTreeCancel id s
  | .futureRequest id => Sys2Proof.Machine.execFutureRequest id s
  | .futureWake id => Sys2Proof.Machine.execFutureWake id s
  | .messageArrival id => Sys2Proof.Machine.execMessageArrival id s
  | .messageRetry id => Sys2Proof.Machine.execMessageRetry id s
  | .activation core => Sys2Proof.Machine.execActivation core s
  | .systemAtomic core => Sys2Proof.Machine.execSystemAtomic core s
  | .systemNibbleStore core => Sys2Proof.Machine.execSystemNibbleStore core s
  | .barrierTimeout lvl unit obj => Sys2Proof.Machine.execBarrierTimeout lvl unit obj s
  | .mailboxPost id => Sys2Proof.Machine.execMailboxPost id s
  | .heldTaskEnd core ctx => Sys2Proof.Machine.execHeldTaskEnd core ctx s
  | .twinCompare pair => Sys2Proof.Machine.execTwinCompare pair s
  | .barrierCompletion core ctx => Sys2Proof.Machine.execBarrierCompletion core ctx s

end Sys2Proof.Machine
end

