-- ==== Sys2Proof/Machine/Rename.lean ====
section
/-! DEFINITION. Machine/Rename.lean: the register operands of instructions: their renumbering in the body of a REP (R31,
R96), those an instruction reads (R366), and the instructions a body may not hold (R96) or that are privileged (R15). -/
namespace Sys2Proof.Machine

/-- A general register in a pass that has shifted the window by `shift` = pass times stride (R31). -/
def renameG (shift : Nat) (r : GReg) : GReg := windowG shift r
/-- A vector register in such a pass (R31). -/
def renameV (shift : Nat) (r : VReg) : VReg := if r.val < 16 then r else Fin.ofNat 32 (16 + (r.val - 16 + shift) % 16)

/-- A completion word's register renumbered. -/
def renameC (k : Nat) : Completion → Completion
  | .none => .none
  | .obj g => .obj (renameG k g)
  | .fut g => .fut (renameG k g)

/-- A drain destination's register renumbered. -/
def renameD (k : Nat) : DrainDst → DrainDst
  | .mem => .mem
  | .fut x => .fut (renameG k x)
  | .hnd x => .hnd (renameG k x)

/-- A quantised format's registers renumbered. -/
def renameQ (k : Nat) : QuantFmt → QuantFmt
  | .e4m3 => .e4m3
  | .e5m2 => .e5m2
  | .e5m2inf => .e5m2inf
  | .fb4 a b c => .fb4 (renameG k a) (renameG k b) (renameG k c)

/-- An instruction with its window registers shifted by `k` = pass times stride (R31, R96). -/
noncomputable def renameInstr (k : Nat) : Instr → Instr
  | .add d a b => .add (renameG k d) (renameG k a) (renameG k b)
  | .sub d a b => .sub (renameG k d) (renameG k a) (renameG k b)
  | .and d a b => .and (renameG k d) (renameG k a) (renameG k b)
  | .or d a b => .or (renameG k d) (renameG k a) (renameG k b)
  | .xor d a b => .xor (renameG k d) (renameG k a) (renameG k b)
  | .andn d a b => .andn (renameG k d) (renameG k a) (renameG k b)
  | .shl d a b => .shl (renameG k d) (renameG k a) (renameG k b)
  | .shr d a b => .shr (renameG k d) (renameG k a) (renameG k b)
  | .sra d a b => .sra (renameG k d) (renameG k a) (renameG k b)
  | .rol d a b => .rol (renameG k d) (renameG k a) (renameG k b)
  | .ror d a b => .ror (renameG k d) (renameG k a) (renameG k b)
  | .min d a b => .min (renameG k d) (renameG k a) (renameG k b)
  | .max d a b => .max (renameG k d) (renameG k a) (renameG k b)
  | .minu d a b => .minu (renameG k d) (renameG k a) (renameG k b)
  | .maxu d a b => .maxu (renameG k d) (renameG k a) (renameG k b)
  | .mul d a b => .mul (renameG k d) (renameG k a) (renameG k b)
  | .mulh d a b => .mulh (renameG k d) (renameG k a) (renameG k b)
  | .mulhu d a b => .mulhu (renameG k d) (renameG k a) (renameG k b)
  | .div d a b => .div (renameG k d) (renameG k a) (renameG k b)
  | .divu d a b => .divu (renameG k d) (renameG k a) (renameG k b)
  | .rem d a b => .rem (renameG k d) (renameG k a) (renameG k b)
  | .remu d a b => .remu (renameG k d) (renameG k a) (renameG k b)
  | .cmpeq d a b => .cmpeq (renameG k d) (renameG k a) (renameG k b)
  | .cmpne d a b => .cmpne (renameG k d) (renameG k a) (renameG k b)
  | .cmplt d a b => .cmplt (renameG k d) (renameG k a) (renameG k b)
  | .cmpltu d a b => .cmpltu (renameG k d) (renameG k a) (renameG k b)
  | .cmple d a b => .cmple (renameG k d) (renameG k a) (renameG k b)
  | .cmpleu d a b => .cmpleu (renameG k d) (renameG k a) (renameG k b)
  | .cmovz d a b => .cmovz (renameG k d) (renameG k a) (renameG k b)
  | .cmovnz d a b => .cmovnz (renameG k d) (renameG k a) (renameG k b)
  | .clz d a => .clz (renameG k d) (renameG k a)
  | .ctz d a => .ctz (renameG k d) (renameG k a)
  | .popc d a => .popc (renameG k d) (renameG k a)
  | .brev d a => .brev (renameG k d) (renameG k a)
  | .bswap d a => .bswap (renameG k d) (renameG k a)
  | .sextb d a => .sextb (renameG k d) (renameG k a)
  | .sexth d a => .sexth (renameG k d) (renameG k a)
  | .sextw d a => .sextw (renameG k d) (renameG k a)
  | .zextb d a => .zextb (renameG k d) (renameG k a)
  | .zexth d a => .zexth (renameG k d) (renameG k a)
  | .zextw d a => .zextw (renameG k d) (renameG k a)
  | .bext d a b => .bext (renameG k d) (renameG k a) (renameG k b)
  | .bins d a b => .bins (renameG k d) (renameG k a) (renameG k b)
  | .addi d a imm => .addi (renameG k d) (renameG k a) imm
  | .andi d a imm => .andi (renameG k d) (renameG k a) imm
  | .ori d a imm => .ori (renameG k d) (renameG k a) imm
  | .xori d a imm => .xori (renameG k d) (renameG k a) imm
  | .cmpeqi d a imm => .cmpeqi (renameG k d) (renameG k a) imm
  | .cmplti d a imm => .cmplti (renameG k d) (renameG k a) imm
  | .cmpltui d a imm => .cmpltui (renameG k d) (renameG k a) imm
  | .addpc d imm => .addpc (renameG k d) imm
  | .muli d a imm => .muli (renameG k d) (renameG k a) imm
  | .shli d a sh => .shli (renameG k d) (renameG k a) sh
  | .shri d a sh => .shri (renameG k d) (renameG k a) sh
  | .srai d a sh => .srai (renameG k d) (renameG k a) sh
  | .rori d a sh => .rori (renameG k d) (renameG k a) sh
  | .fadd d a b => .fadd (renameG k d) (renameG k a) (renameG k b)
  | .fsub d a b => .fsub (renameG k d) (renameG k a) (renameG k b)
  | .fmul d a b => .fmul (renameG k d) (renameG k a) (renameG k b)
  | .fdiv d a b => .fdiv (renameG k d) (renameG k a) (renameG k b)
  | .fmadd d a b => .fmadd (renameG k d) (renameG k a) (renameG k b)
  | .fmsub d a b => .fmsub (renameG k d) (renameG k a) (renameG k b)
  | .fmin d a b => .fmin (renameG k d) (renameG k a) (renameG k b)
  | .fmax d a b => .fmax (renameG k d) (renameG k a) (renameG k b)
  | .fsqrt d a => .fsqrt (renameG k d) (renameG k a)
  | .fabs d a => .fabs (renameG k d) (renameG k a)
  | .fneg d a => .fneg (renameG k d) (renameG k a)
  | .fcopys d a b => .fcopys (renameG k d) (renameG k a) (renameG k b)
  | .fcmpeq d a b => .fcmpeq (renameG k d) (renameG k a) (renameG k b)
  | .fcmplt d a b => .fcmplt (renameG k d) (renameG k a) (renameG k b)
  | .fcmple d a b => .fcmple (renameG k d) (renameG k a) (renameG k b)
  | .fcmpun d a b => .fcmpun (renameG k d) (renameG k a) (renameG k b)
  | .fclass d a => .fclass (renameG k d) (renameG k a)
  | .itof d a rc => .itof (renameG k d) (renameG k a) rc
  | .utof d a rc => .utof (renameG k d) (renameG k a) rc
  | .ftoi d a rc => .ftoi (renameG k d) (renameG k a) rc
  | .ftou d a rc => .ftou (renameG k d) (renameG k a) rc
  | .ftobf d a rc => .ftobf (renameG k d) (renameG k a) rc
  | .bftof d a rc => .bftof (renameG k d) (renameG k a) rc
  | .ftoe4 d a rc => .ftoe4 (renameG k d) (renameG k a) rc
  | .e4tof d a rc => .e4tof (renameG k d) (renameG k a) rc
  | .ftoe5 d a rc inf => .ftoe5 (renameG k d) (renameG k a) rc inf
  | .e5tof d a rc => .e5tof (renameG k d) (renameG k a) rc
  | .ftoe2 d a rc => .ftoe2 (renameG k d) (renameG k a) rc
  | .e2tof d a rc => .e2tof (renameG k d) (renameG k a) rc
  | .beq a b imm => .beq (renameG k a) (renameG k b) imm
  | .bne a b imm => .bne (renameG k a) (renameG k b) imm
  | .blt a b imm => .blt (renameG k a) (renameG k b) imm
  | .bge a b imm => .bge (renameG k a) (renameG k b) imm
  | .bltu a b imm => .bltu (renameG k a) (renameG k b) imm
  | .bgeu a b imm => .bgeu (renameG k a) (renameG k b) imm
  | .jal d imm => .jal (renameG k d) imm
  | .jalr d a imm => .jalr (renameG k d) (renameG k a) imm
  | .loopnz d imm => .loopnz (renameG k d) imm
  | .rep a stride len => .rep (renameG k a) stride len
  | .repi count stride len => .repi count stride len
  | .ldb d a off h w => .ldb (renameG k d) (renameG k a) off h w
  | .ldh d a off h w => .ldh (renameG k d) (renameG k a) off h w
  | .ldw d a off h w => .ldw (renameG k d) (renameG k a) off h w
  | .ldd d a off h w => .ldd (renameG k d) (renameG k a) off h w
  | .pref a off stream w => .pref (renameG k a) off stream w
  | .stb d a off h w => .stb (renameG k d) (renameG k a) off h w
  | .sth d a off h w => .sth (renameG k d) (renameG k a) off h w
  | .stw d a off h w => .stw (renameG k d) (renameG k a) off h w
  | .std d a off h w => .std (renameG k d) (renameG k a) off h w
  | .stn a b hi rel w => .stn (renameG k a) (renameG k b) hi rel w
  | .axchg d a b acq rel w => .axchg (renameG k d) (renameG k a) (renameG k b) acq rel w
  | .aadd d a b acq rel w => .aadd (renameG k d) (renameG k a) (renameG k b) acq rel w
  | .aand d a b acq rel w => .aand (renameG k d) (renameG k a) (renameG k b) acq rel w
  | .aor d a b acq rel w => .aor (renameG k d) (renameG k a) (renameG k b) acq rel w
  | .axor d a b acq rel w => .axor (renameG k d) (renameG k a) (renameG k b) acq rel w
  | .amin d a b acq rel w => .amin (renameG k d) (renameG k a) (renameG k b) acq rel w
  | .amax d a b acq rel w => .amax (renameG k d) (renameG k a) (renameG k b) acq rel w
  | .aminu d a b acq rel w => .aminu (renameG k d) (renameG k a) (renameG k b) acq rel w
  | .amaxu d a b acq rel w => .amaxu (renameG k d) (renameG k a) (renameG k b) acq rel w
  | .afadd d a b acq rel w => .afadd (renameG k d) (renameG k a) (renameG k b) acq rel w
  | .axchgPost a b rel w => .axchgPost (renameG k a) (renameG k b) rel w
  | .aaddPost a b rel w => .aaddPost (renameG k a) (renameG k b) rel w
  | .aandPost a b rel w => .aandPost (renameG k a) (renameG k b) rel w
  | .aorPost a b rel w => .aorPost (renameG k a) (renameG k b) rel w
  | .axorPost a b rel w => .axorPost (renameG k a) (renameG k b) rel w
  | .aminPost a b rel w => .aminPost (renameG k a) (renameG k b) rel w
  | .amaxPost a b rel w => .amaxPost (renameG k a) (renameG k b) rel w
  | .aminuPost a b rel w => .aminuPost (renameG k a) (renameG k b) rel w
  | .amaxuPost a b rel w => .amaxuPost (renameG k a) (renameG k b) rel w
  | .afaddPost a b rel w => .afaddPost (renameG k a) (renameG k b) rel w
  | .cas d a b acq rel w => .cas (renameG k d) (renameG k a) (renameG k b) acq rel w
  | .casp d a b acq rel w => .casp (renameG k d) (renameG k a) (renameG k b) acq rel w
  | .wait at_ tl cp sg sn => .wait at_ tl cp sg sn
  | .fence scope => .fence scope
  | .cwait d a => .cwait (renameG k d) (renameG k a)
  | .bararm lvl obj a => .bararm lvl obj (renameG k a)
  | .barrive lvl obj d => .barrive lvl obj (renameG k d)
  | .barwait lvl obj a => .barwait lvl obj (renameG k a)
  | .barq lvl obj d => .barq lvl obj (renameG k d)
  | .vfadd d a b m => .vfadd (renameV k d) (renameV k a) (renameV k b) m
  | .vfsub d a b m => .vfsub (renameV k d) (renameV k a) (renameV k b) m
  | .vfmul d a b m => .vfmul (renameV k d) (renameV k a) (renameV k b) m
  | .vfdiv d a b m => .vfdiv (renameV k d) (renameV k a) (renameV k b) m
  | .vfma d a b m => .vfma (renameV k d) (renameV k a) (renameV k b) m
  | .vfms d a b m => .vfms (renameV k d) (renameV k a) (renameV k b) m
  | .vfmin d a b m => .vfmin (renameV k d) (renameV k a) (renameV k b) m
  | .vfmax d a b m => .vfmax (renameV k d) (renameV k a) (renameV k b) m
  | .vfabs d a m => .vfabs (renameV k d) (renameV k a) m
  | .vfneg d a m => .vfneg (renameV k d) (renameV k a) m
  | .vfsqrt d a m => .vfsqrt (renameV k d) (renameV k a) m
  | .vfrcp d a m => .vfrcp (renameV k d) (renameV k a) m
  | .vfrsq d a m => .vfrsq (renameV k d) (renameV k a) m
  | .vfexp2 d a m => .vfexp2 (renameV k d) (renameV k a) m
  | .vflog2 d a m => .vflog2 (renameV k d) (renameV k a) m
  | .vbfma d a b m => .vbfma (renameV k d) (renameV k a) (renameV k b) m
  | .vadd d a b m => .vadd (renameV k d) (renameV k a) (renameV k b) m
  | .vsub d a b m => .vsub (renameV k d) (renameV k a) (renameV k b) m
  | .vmul d a b m => .vmul (renameV k d) (renameV k a) (renameV k b) m
  | .vmulh d a b m => .vmulh (renameV k d) (renameV k a) (renameV k b) m
  | .vmin d a b m => .vmin (renameV k d) (renameV k a) (renameV k b) m
  | .vmax d a b m => .vmax (renameV k d) (renameV k a) (renameV k b) m
  | .vminu d a b m => .vminu (renameV k d) (renameV k a) (renameV k b) m
  | .vmaxu d a b m => .vmaxu (renameV k d) (renameV k a) (renameV k b) m
  | .vand d a b m => .vand (renameV k d) (renameV k a) (renameV k b) m
  | .vor d a b m => .vor (renameV k d) (renameV k a) (renameV k b) m
  | .vxor d a b m => .vxor (renameV k d) (renameV k a) (renameV k b) m
  | .vshl d a b m => .vshl (renameV k d) (renameV k a) (renameV k b) m
  | .vshr d a b m => .vshr (renameV k d) (renameV k a) (renameV k b) m
  | .vsra d a b m => .vsra (renameV k d) (renameV k a) (renameV k b) m
  | .vadds d a b m => .vadds (renameV k d) (renameV k a) (renameV k b) m
  | .vsubs d a b m => .vsubs (renameV k d) (renameV k a) (renameV k b) m
  | .vfcmpeq d a b m => .vfcmpeq d (renameV k a) (renameV k b) m
  | .vfcmplt d a b m => .vfcmplt d (renameV k a) (renameV k b) m
  | .vfcmple d a b m => .vfcmple d (renameV k a) (renameV k b) m
  | .vcmpeq d a b m => .vcmpeq d (renameV k a) (renameV k b) m
  | .vcmplt d a b m => .vcmplt d (renameV k a) (renameV k b) m
  | .vcmpltu d a b m => .vcmpltu d (renameV k a) (renameV k b) m
  | .vsel d a b m => .vsel (renameV k d) (renameV k a) (renameV k b) m
  | .mand d a b => .mand d a b
  | .mor d a b => .mor d a b
  | .mxor d a b => .mxor d a b
  | .mnot d a => .mnot d a
  | .vperm d a b m => .vperm (renameV k d) (renameV k a) (renameV k b) m
  | .vrotl d a b m => .vrotl (renameV k d) (renameV k a) (renameV k b) m
  | .vziplo d a b m => .vziplo (renameV k d) (renameV k a) (renameV k b) m
  | .vziphi d a b m => .vziphi (renameV k d) (renameV k a) (renameV k b) m
  | .vcvtif d a m => .vcvtif (renameV k d) (renameV k a) m
  | .vcvtfi d a m => .vcvtfi (renameV k d) (renameV k a) m
  | .vcvtfbf d a b m => .vcvtfbf (renameV k d) (renameV k a) (renameV k b) m
  | .vcvtbff d a m => .vcvtbff (renameV k d) (renameV k a) m
  | .vcvtfe4 d a m => .vcvtfe4 (renameV k d) (renameV k a) m
  | .vcvtfe5 d a m => .vcvtfe5 (renameV k d) (renameV k a) m
  | .vcvtfb4 d a b m => .vcvtfb4 (renameV k d) (renameV k a) (renameV k b) m
  | .vcvte4f d a m => .vcvte4f (renameV k d) (renameV k a) m
  | .vcvte5f d a m => .vcvte5f (renameV k d) (renameV k a) m
  | .vcvtfe5Inf d a m => .vcvtfe5Inf (renameV k d) (renameV k a) m
  | .vredadd d a m => .vredadd (renameV k d) (renameV k a) m
  | .vredfadd d a m => .vredfadd (renameV k d) (renameV k a) m
  | .vredfmax d a m => .vredfmax (renameV k d) (renameV k a) m
  | .vredfmin d a m => .vredfmin (renameV k d) (renameV k a) m
  | .vscan d a m => .vscan (renameV k d) (renameV k a) m
  | .vscanf d a m => .vscanf (renameV k d) (renameV k a) m
  | .vscanx d a m => .vscanx (renameV k d) (renameV k a) m
  | .vprune d a b m => .vprune d (renameV k a) (renameV k b) m
  | .vbcast d a m => .vbcast (renameV k d) (renameG k a) m
  | .vextr d a b => .vextr (renameG k d) (renameV k a) (renameG k b)
  | .vinsr d a b => .vinsr (renameV k d) (renameG k a) (renameG k b)
  | .vgath d a b m => .vgath (renameV k d) (renameG k a) (renameV k b) m
  | .vscat d a b m => .vscat (renameV k d) (renameG k a) (renameV k b) m
  | .mtog d a => .mtog (renameG k d) a
  | .gtom d a => .gtom d (renameG k a)
  | .vld d a off h w => .vld (renameV k d) (renameG k a) off h w
  | .vst d a off h w => .vst (renameV k d) (renameG k a) off h w
  | .spawn d a b plc pri twin rst => .spawn (renameG k d) (renameG k a) (renameG k b) plc pri twin rst
  | .spawnt d a b plc pri twin rst => .spawnt (renameG k d) (renameG k a) (renameG k b) plc pri twin rst
  | .callat d a b pri => .callat (renameG k d) (renameG k a) (renameG k b) pri
  | .touch d a => .touch (renameG k d) (renameG k a)
  | .ttouch d a => .ttouch (renameG k d) (renameG k a)
  | .resolve d a b => .resolve (renameG k d) (renameG k a) (renameG k b)
  | .poison d a b => .poison (renameG k d) (renameG k a) (renameG k b)
  | .cancel d a => .cancel (renameG k d) (renameG k a)
  | .cancelTree d a => .cancelTree (renameG k d) (renameG k a)
  | .fnew d => .fnew (renameG k d)
  | .ffree a => .ffree (renameG k a)
  | .fstat d a => .fstat (renameG k d) (renameG k a)
  | .chkc => .chkc
  | .yield => .yield
  | .term a => .term (renameG k a)
  | .send d a b n => .send (renameG k d) (renameG k a) (renameG k b) n
  | .hret => .hret
  | .launch d a b => .launch (renameG k d) (renameG k a) (renameG k b)
  | .flood a => .flood (renameG k a)
  | .setwp a b => .setwp (renameG k a) (renameG k b)
  | .start d a b => .start (renameG k d) (renameG k a) (renameG k b)
  | .stopc d a b => .stopc (renameG k d) (renameG k a) (renameG k b)
  | .trap a => .trap (renameG k a)
  | .eret => .eret
  | .ctrlr d a => .ctrlr (renameG k d) (renameG k a)
  | .ctrlw a b => .ctrlw (renameG k a) (renameG k b)
  | .bankmode a b => .bankmode (renameG k a) (renameG k b)
  | .park d a => .park (renameG k d) (renameG k a)
  | .acc a b m => .acc (renameG k a) (renameV k b) m
  | .accBf16 a b m => .accBf16 (renameG k a) (renameV k b) m
  | .rmerge a b m ks => .rmerge (renameG k a) (renameV k b) m ks
  | .flushresAll => .flushresAll
  | .flushresRange a b => .flushresRange (renameG k a) (renameG k b)
  | .hsift d a b => .hsift (renameG k d) (renameG k a) (renameG k b)
  | .hmerge d a b => .hmerge (renameG k d) (renameG k a) (renameG k b)
  | .shelfput a b => .shelfput (renameG k a) (renameG k b)
  | .shelfcloseAll => .shelfcloseAll
  | .shelfcloseDie a => .shelfcloseDie (renameG k a)
  | .mfmt accm rc bf af gAS gAB gBS gBB => .mfmt accm rc bf af (renameG k gAS) (renameG k gAB) (renameG k gBS) (renameG k gBB)
  | .malloc d t g0 ng kind ks => .malloc (renameG k d) t g0 ng kind ks
  | .mfree t g0 ng => .mfree t g0 ng
  | .mzero t row0 nr cw => .mzero t row0 nr (renameC k cw)
  | .mma t shp row0 nr gA gSA gB gSB cw => .mma t shp row0 nr (renameG k gA) (renameG k gSA) (renameG k gB) (renameG k gSB) (renameC k cw)
  | .gmma t nt nw ng gA gSA gG gSB cw => .gmma t nt nw ng (renameG k gA) (renameG k gSA) (renameG k gG) (renameG k gSB) (renameC k cw)
  | .mdrain t row0 nr df dst gD gSD cw => .mdrain t row0 nr df (renameD k dst) (renameG k gD) (renameG k gSD) (renameC k cw)
  | .mquant t row0 nr dst qf gD gSD cw => .mquant t row0 nr (renameD k dst) (renameQ k qf) (renameG k gD) (renameG k gSD) (renameC k cw)
  | .msync => .msync
  | .mrank ts t row0 nr srow0 ncm gC cw => .mrank ts t row0 nr srow0 ncm (renameG k gC) (renameC k cw)
  | .mthr row0 t gF d cw => .mthr row0 t (renameG k gF) (renameV k d) (renameC k cw)
  | .acct t row0 nr df gD gSD cw => .acct t row0 nr df (renameG k gD) (renameG k gSD) (renameC k cw)
  | .tcopy gT cw => .tcopy (renameG k gT) (renameC k cw)
  | .tgather gS gD gI gN gRB gSS gDS cw => .tgather (renameG k gS) (renameG k gD) (renameG k gI) (renameG k gN) (renameG k gRB) (renameG k gSS) (renameG k gDS) (renameC k cw)
  | .tscatter gS gD gI gN gRB gSS gDS cw => .tscatter (renameG k gS) (renameG k gD) (renameG k gI) (renameG k gN) (renameG k gRB) (renameG k gSS) (renameG k gDS) (renameC k cw)
  | .tmcast gS gD gM gN cw => .tmcast (renameG k gS) (renameG k gD) (renameG k gM) (renameG k gN) (renameC k cw)
  | .tfill esz gD gV gN cw => .tfill esz (renameG k gD) (renameG k gV) (renameG k gN) (renameC k cw)
  | .packetNop part q => .packetNop part q
  | .launchKernel part q => .launchKernel part q
  | .launchGraph part q => .launchGraph part q
  | .write part q => .write part q
  | .writeSignal part q => .writeSignal part q
  | .waitValue part q => .waitValue part q
  | .waitValueRetest part q => .waitValueRetest part q
  | .copy part q => .copy part q
  | .packetFence part q => .packetFence part q
  | .ctrlWrite part q => .ctrlWrite part q
  | .partStop part q => .partStop part q
  | .partStart part q => .partStart part q
  | .partReset part q => .partReset part q
  | .barAssign part q => .barAssign part q
  | .queueConfig part q => .queueConfig part q
  | .ctxStart part q => .ctxStart part q
  | .queuePoll part q => .queuePoll part q
  | .graphEnd die walker => .graphEnd die walker
  | .graphKernel die walker => .graphKernel die walker
  | .graphCond die walker => .graphCond die walker
  | .graphLoop die walker => .graphLoop die walker
  | .graphJoin die walker => .graphJoin die walker
  | .launchAppend id => .launchAppend id
  | .launchWake id core => .launchWake id core
  | .rootReport id => .rootReport id
  | .controlPortRead port die tgt addr len => .controlPortRead port die tgt addr len
  | .controlPortWrite port die tgt addr data => .controlPortWrite port die tgt addr data
  | .controlPortFailure port => .controlPortFailure port
  | .svcDoorbell die value => .svcDoorbell die value
  | .svcRefire die value => .svcRefire die value
  | .refireTakeover => .refireTakeover
  | .refireAbort => .refireAbort
  | .svcAttest off data => .svcAttest off data
  | .attestQuoteReady => .attestQuoteReady
  | .xlInv id => .xlInv id
  | .fifoPop id => .fifoPop id
  | .fifoPush id => .fifoPush id
  | .powerGood => .powerGood
  | .kilnFailover => .kilnFailover
  | .thermalStop die => .thermalStop die
  | .powerLimit milliwatts => .powerLimit milliwatts
  | .timeSliceExpiry old new image => .timeSliceExpiry old new image
  | .linkDead port => .linkDead port
  | .linkRetrained port => .linkRetrained port
  | .linkStateUpdate port word => .linkStateUpdate port word
  | .routeRecomputation => .routeRecomputation
  | .drainRoundEnd dest => .drainRoundEnd dest
  | .clusterFence cl => .clusterFence cl
  | .nearArrival id => .nearArrival id
  | .arrivalLogReplay part => .arrivalLogReplay part
  | .homeSliceAccess id => .homeSliceAccess id
  | .pageWalk id => .pageWalk id
  | .atomicAtAgent id => .atomicAtAgent id
  | .replyArrival id => .replyArrival id
  | .acknowledgement id => .acknowledgement id
  | .accumulateArrival id => .accumulateArrival id
  | .flushAccumulate id => .flushAccumulate id
  | .refusalReturn id => .refusalReturn id
  | .accqWindow cl => .accqWindow cl
  | .arbiterPick cl => .arbiterPick cl
  | .wedgeHoldExpiry cl entry => .wedgeHoldExpiry cl entry
  | .wedgePriorityRelease cl entry => .wedgePriorityRelease cl entry
  | .commandStart core eng => .commandStart core eng
  | .commandCompletion id => .commandCompletion id
  | .engineWriteAcknowledgement id => .engineWriteAcknowledgement id
  | .drainWake core => .drainWake core
  | .shelfTimer cl die => .shelfTimer cl die
  | .shelfArrival id => .shelfArrival id
  | .sweeperRecord die => .sweeperRecord die
  | .taskRecordArrival id => .taskRecordArrival id
  | .prefetchGrant cl => .prefetchGrant cl
  | .prefetchDone cl rid => .prefetchDone cl rid
  | .dispatch cl => .dispatch cl
  | .workspaceCopyDone cl rid => .workspaceCopyDone cl rid
  | .taskAging cl rid => .taskAging cl rid
  | .loadHintPublication cl wide => .loadHintPublication cl wide
  | .cancelRequest id => .cancelRequest id
  | .treeCancel id => .treeCancel id
  | .futureRequest id => .futureRequest id
  | .futureWake id => .futureWake id
  | .messageArrival id => .messageArrival id
  | .messageRetry id => .messageRetry id
  | .activation core => .activation core
  | .systemAtomic core => .systemAtomic core
  | .systemNibbleStore core => .systemNibbleStore core
  | .barrierTimeout lvl unit obj => .barrierTimeout lvl unit obj
  | .mailboxPost id => .mailboxPost id
  | .heldTaskEnd core ctx => .heldTaskEnd core ctx
  | .twinCompare pair => .twinCompare pair
  | .barrierCompletion core ctx => .barrierCompletion core ctx

/-- The general registers of a completion word, a drain destination and a quantised format. -/
def Completion.regs : Completion → List GReg
  | .none => []
  | .obj g => [g]
  | .fut g => [g]
def drainRegs : DrainDst → List GReg
  | .mem => []
  | .fut x => [x]
  | .hnd x => [x]
def quantRegs : QuantFmt → List GReg
  | .fb4 a b c => [a, b, c]
  | _ => []

/-- `n` consecutive general registers from `r` (R37). -/
def groupRegs (r : GReg) (n : Nat) : List GReg := (List.range n).map (fun k => Fin.ofNat 64 (r.val + k))

/-- The general registers an instruction reads (R366). -/
def readsG : Instr → List GReg
  | .add _ a b => [a, b]
  | .sub _ a b => [a, b]
  | .and _ a b => [a, b]
  | .or _ a b => [a, b]
  | .xor _ a b => [a, b]
  | .andn _ a b => [a, b]
  | .shl _ a b => [a, b]
  | .shr _ a b => [a, b]
  | .sra _ a b => [a, b]
  | .rol _ a b => [a, b]
  | .ror _ a b => [a, b]
  | .min _ a b => [a, b]
  | .max _ a b => [a, b]
  | .minu _ a b => [a, b]
  | .maxu _ a b => [a, b]
  | .mul _ a b => [a, b]
  | .mulh _ a b => [a, b]
  | .mulhu _ a b => [a, b]
  | .div _ a b => [a, b]
  | .divu _ a b => [a, b]
  | .rem _ a b => [a, b]
  | .remu _ a b => [a, b]
  | .cmpeq _ a b => [a, b]
  | .cmpne _ a b => [a, b]
  | .cmplt _ a b => [a, b]
  | .cmpltu _ a b => [a, b]
  | .cmple _ a b => [a, b]
  | .cmpleu _ a b => [a, b]
  | .cmovz d a b => [d, a, b]
  | .cmovnz d a b => [d, a, b]
  | .clz _ a => [a]
  | .ctz _ a => [a]
  | .popc _ a => [a]
  | .brev _ a => [a]
  | .bswap _ a => [a]
  | .sextb _ a => [a]
  | .sexth _ a => [a]
  | .sextw _ a => [a]
  | .zextb _ a => [a]
  | .zexth _ a => [a]
  | .zextw _ a => [a]
  | .bext _ a b => [a, b]
  | .bins d a b => [d, a, b]
  | .addi _ a _ => [a]
  | .andi _ a _ => [a]
  | .ori _ a _ => [a]
  | .xori _ a _ => [a]
  | .cmpeqi _ a _ => [a]
  | .cmplti _ a _ => [a]
  | .cmpltui _ a _ => [a]
  | .muli _ a _ => [a]
  | .shli _ a _ => [a]
  | .shri _ a _ => [a]
  | .srai _ a _ => [a]
  | .rori _ a _ => [a]
  | .fadd _ a b => [a, b]
  | .fsub _ a b => [a, b]
  | .fmul _ a b => [a, b]
  | .fdiv _ a b => [a, b]
  | .fmadd d a b => [d, a, b]
  | .fmsub d a b => [d, a, b]
  | .fmin _ a b => [a, b]
  | .fmax _ a b => [a, b]
  | .fsqrt _ a => [a]
  | .fabs _ a => [a]
  | .fneg _ a => [a]
  | .fcopys _ a b => [a, b]
  | .fcmpeq _ a b => [a, b]
  | .fcmplt _ a b => [a, b]
  | .fcmple _ a b => [a, b]
  | .fcmpun _ a b => [a, b]
  | .fclass _ a => [a]
  | .itof _ a _ => [a]
  | .utof _ a _ => [a]
  | .ftoi _ a _ => [a]
  | .ftou _ a _ => [a]
  | .ftobf _ a _ => [a]
  | .bftof _ a _ => [a]
  | .ftoe4 _ a _ => [a]
  | .e4tof _ a _ => [a]
  | .ftoe5 _ a _ _ => [a]
  | .e5tof _ a _ => [a]
  | .ftoe2 _ a _ => [a]
  | .e2tof _ a _ => [a]
  | .beq a b _ => [a, b]
  | .bne a b _ => [a, b]
  | .blt a b _ => [a, b]
  | .bge a b _ => [a, b]
  | .bltu a b _ => [a, b]
  | .bgeu a b _ => [a, b]
  | .jalr _ a _ => [a]
  | .loopnz d _ => [d]
  | .rep a _ _ => [a]
  | .ldb _ a _ _ _ => [a]
  | .ldh _ a _ _ _ => [a]
  | .ldw _ a _ _ _ => [a]
  | .ldd _ a _ _ _ => [a]
  | .pref a _ _ _ => [a]
  | .stb d a _ _ _ => [d, a]
  | .sth d a _ _ _ => [d, a]
  | .stw d a _ _ _ => [d, a]
  | .std d a _ _ _ => [d, a]
  | .stn a b _ _ _ => [a, b]
  | .axchg _ a b _ _ _ => [a, b]
  | .aadd _ a b _ _ _ => [a, b]
  | .aand _ a b _ _ _ => [a, b]
  | .aor _ a b _ _ _ => [a, b]
  | .axor _ a b _ _ _ => [a, b]
  | .amin _ a b _ _ _ => [a, b]
  | .amax _ a b _ _ _ => [a, b]
  | .aminu _ a b _ _ _ => [a, b]
  | .amaxu _ a b _ _ _ => [a, b]
  | .afadd _ a b _ _ _ => [a, b]
  | .axchgPost a b _ _ => [a, b]
  | .aaddPost a b _ _ => [a, b]
  | .aandPost a b _ _ => [a, b]
  | .aorPost a b _ _ => [a, b]
  | .axorPost a b _ _ => [a, b]
  | .aminPost a b _ _ => [a, b]
  | .amaxPost a b _ _ => [a, b]
  | .aminuPost a b _ _ => [a, b]
  | .amaxuPost a b _ _ => [a, b]
  | .afaddPost a b _ _ => [a, b]
  | .cas d a b _ _ _ => [d, a, b]
  | .casp d a b _ _ _ => [a] ++ groupRegs d 2 ++ groupRegs b 2
  | .cwait _ a => [a]
  | .bararm _ _ a => [a]
  | .barwait _ _ a => [a]
  | .vbcast _ a _ => [a]
  | .vextr _ _ b => [b]
  | .vinsr _ a b => [a, b]
  | .vgath _ a _ _ => [a]
  | .vscat _ a _ _ => [a]
  | .gtom _ a => [a]
  | .vld _ a _ _ _ => [a]
  | .vst _ a _ _ _ => [a]
  | .spawn _ a b _ _ _ _ => [a] ++ groupRegs b 4
  | .spawnt _ a b _ _ _ _ => [a] ++ groupRegs b 8
  | .callat _ a b _ => [a] ++ groupRegs b 5
  | .touch _ a => [a]
  | .ttouch _ a => [a]
  | .resolve _ a b => [a, b]
  | .poison _ a b => [a, b]
  | .cancel _ a => [a]
  | .cancelTree _ a => [a]
  | .ffree a => [a]
  | .fstat _ a => [a]
  | .term a => [a]
  | .send d a b n => [d, a] ++ groupRegs b n.val
  | .launch _ a b => [a, b]
  | .flood a => [a]
  | .setwp a b => [a, b]
  | .start _ a b => [a, b]
  | .stopc _ a b => [a, b]
  | .trap a => [a]
  | .ctrlr _ a => [a]
  | .ctrlw a b => [a, b]
  | .bankmode a b => [a, b]
  | .park _ a => [a]
  | .acc a _ _ => [a]
  | .accBf16 a _ _ => [a]
  | .rmerge a _ _ _ => [a]
  | .flushresRange a b => [a, b]
  | .hsift _ a b => [a, b]
  | .hmerge _ a b => [a, b]
  | .shelfput a b => [a, b]
  | .shelfcloseDie a => [a]
  | .mfmt _ _ _ _ gAS gAB gBS gBB => [gAS, gAB, gBS, gBB]
  | .mzero _ _ _ cw => Completion.regs cw
  | .mma _ _ _ _ gA gSA gB gSB cw => [gA, gSA, gB, gSB] ++ Completion.regs cw
  | .gmma _ _ _ _ gA gSA gG gSB cw => [gA, gSA, gG, gSB] ++ Completion.regs cw
  | .mdrain _ _ _ _ dst gD gSD cw => [gD, gSD] ++ drainRegs dst ++ Completion.regs cw
  | .mquant _ _ _ dst qf gD gSD cw => [gD, gSD] ++ drainRegs dst ++ quantRegs qf ++ Completion.regs cw
  | .mrank _ _ _ _ _ _ gC cw => [gC] ++ Completion.regs cw
  | .mthr _ _ gF _ cw => [gF] ++ Completion.regs cw
  | .acct _ _ _ _ gD gSD cw => [gD, gSD] ++ Completion.regs cw
  | .tcopy gT cw => [gT] ++ Completion.regs cw
  | .tgather gS gD gI gN gRB gSS gDS cw => [gS, gD, gI, gN, gRB, gSS, gDS] ++ Completion.regs cw
  | .tscatter gS gD gI gN gRB gSS gDS cw => [gS, gD, gI, gN, gRB, gSS, gDS] ++ Completion.regs cw
  | .tmcast gS gD gM gN cw => [gS, gD, gM, gN] ++ Completion.regs cw
  | .tfill _ gD gV gN cw => [gD, gV, gN] ++ Completion.regs cw
  | .eret => [2]
  | _ => []

/-- The vector registers an instruction reads (R366). -/
def readsV : Instr → List VReg
  | .vfadd _ a b _ => [a, b]
  | .vfsub _ a b _ => [a, b]
  | .vfmul _ a b _ => [a, b]
  | .vfdiv _ a b _ => [a, b]
  | .vfma d a b _ => [d, a, b]
  | .vfms d a b _ => [d, a, b]
  | .vfmin _ a b _ => [a, b]
  | .vfmax _ a b _ => [a, b]
  | .vfabs _ a _ => [a]
  | .vfneg _ a _ => [a]
  | .vfsqrt _ a _ => [a]
  | .vfrcp _ a _ => [a]
  | .vfrsq _ a _ => [a]
  | .vfexp2 _ a _ => [a]
  | .vflog2 _ a _ => [a]
  | .vbfma d a b _ => [d, a, b]
  | .vadd _ a b _ => [a, b]
  | .vsub _ a b _ => [a, b]
  | .vmul _ a b _ => [a, b]
  | .vmulh _ a b _ => [a, b]
  | .vmin _ a b _ => [a, b]
  | .vmax _ a b _ => [a, b]
  | .vminu _ a b _ => [a, b]
  | .vmaxu _ a b _ => [a, b]
  | .vand _ a b _ => [a, b]
  | .vor _ a b _ => [a, b]
  | .vxor _ a b _ => [a, b]
  | .vshl _ a b _ => [a, b]
  | .vshr _ a b _ => [a, b]
  | .vsra _ a b _ => [a, b]
  | .vadds _ a b _ => [a, b]
  | .vsubs _ a b _ => [a, b]
  | .vfcmpeq _ a b _ => [a, b]
  | .vfcmplt _ a b _ => [a, b]
  | .vfcmple _ a b _ => [a, b]
  | .vcmpeq _ a b _ => [a, b]
  | .vcmplt _ a b _ => [a, b]
  | .vcmpltu _ a b _ => [a, b]
  | .vsel _ a b _ => [a, b]
  | .vperm _ a b _ => [a, b]
  | .vrotl _ a b _ => [a, b]
  | .vziplo _ a b _ => [a, b]
  | .vziphi _ a b _ => [a, b]
  | .vcvtif _ a _ => [a]
  | .vcvtfi _ a _ => [a]
  | .vcvtfbf _ a b _ => [a, b]
  | .vcvtbff _ a _ => [a]
  | .vcvtfe4 _ a _ => [a]
  | .vcvtfe5 _ a _ => [a]
  | .vcvtfb4 _ a b _ => [a, b]
  | .vcvte4f _ a _ => [a]
  | .vcvte5f _ a _ => [a]
  | .vcvtfe5Inf _ a _ => [a]
  | .vredadd _ a _ => [a]
  | .vredfadd _ a _ => [a]
  | .vredfmax _ a _ => [a]
  | .vredfmin _ a _ => [a]
  | .vscan _ a _ => [a]
  | .vscanf _ a _ => [a]
  | .vscanx _ a _ => [a]
  | .vprune _ a b _ => [a, b]
  | .vextr _ a _ => [a]
  | .vgath _ _ b _ => [b]
  | .vscat d _ b _ => [d, b]
  | .vst d _ _ _ _ => [d]
  | .acc _ b _ => [b]
  | .accBf16 _ b _ => [b]
  | .rmerge _ b _ _ => [b]
  | _ => []

/-- The mask registers an instruction reads (R366). -/
def readsM : Instr → List MReg
  | .vfadd _ _ _ m => [m]
  | .vfsub _ _ _ m => [m]
  | .vfmul _ _ _ m => [m]
  | .vfdiv _ _ _ m => [m]
  | .vfma _ _ _ m => [m]
  | .vfms _ _ _ m => [m]
  | .vfmin _ _ _ m => [m]
  | .vfmax _ _ _ m => [m]
  | .vfabs _ _ m => [m]
  | .vfneg _ _ m => [m]
  | .vfsqrt _ _ m => [m]
  | .vfrcp _ _ m => [m]
  | .vfrsq _ _ m => [m]
  | .vfexp2 _ _ m => [m]
  | .vflog2 _ _ m => [m]
  | .vbfma _ _ _ m => [m]
  | .vadd _ _ _ m => [m]
  | .vsub _ _ _ m => [m]
  | .vmul _ _ _ m => [m]
  | .vmulh _ _ _ m => [m]
  | .vmin _ _ _ m => [m]
  | .vmax _ _ _ m => [m]
  | .vminu _ _ _ m => [m]
  | .vmaxu _ _ _ m => [m]
  | .vand _ _ _ m => [m]
  | .vor _ _ _ m => [m]
  | .vxor _ _ _ m => [m]
  | .vshl _ _ _ m => [m]
  | .vshr _ _ _ m => [m]
  | .vsra _ _ _ m => [m]
  | .vadds _ _ _ m => [m]
  | .vsubs _ _ _ m => [m]
  | .vfcmpeq _ _ _ m => [m]
  | .vfcmplt _ _ _ m => [m]
  | .vfcmple _ _ _ m => [m]
  | .vcmpeq _ _ _ m => [m]
  | .vcmplt _ _ _ m => [m]
  | .vcmpltu _ _ _ m => [m]
  | .vsel _ _ _ m => [m]
  | .mand _ a b => [a, b]
  | .mor _ a b => [a, b]
  | .mxor _ a b => [a, b]
  | .mnot _ a => [a]
  | .vperm _ _ _ m => [m]
  | .vrotl _ _ _ m => [m]
  | .vziplo _ _ _ m => [m]
  | .vziphi _ _ _ m => [m]
  | .vcvtif _ _ m => [m]
  | .vcvtfi _ _ m => [m]
  | .vcvtfbf _ _ _ m => [m]
  | .vcvtbff _ _ m => [m]
  | .vcvtfe4 _ _ m => [m]
  | .vcvtfe5 _ _ m => [m]
  | .vcvtfb4 _ _ _ m => [m]
  | .vcvte4f _ _ m => [m]
  | .vcvte5f _ _ m => [m]
  | .vcvtfe5Inf _ _ m => [m]
  | .vredadd _ _ m => [m]
  | .vredfadd _ _ m => [m]
  | .vredfmax _ _ m => [m]
  | .vredfmin _ _ m => [m]
  | .vscan _ _ m => [m]
  | .vscanf _ _ m => [m]
  | .vscanx _ _ m => [m]
  | .vprune _ _ _ m => [m]
  | .vbcast _ _ m => [m]
  | .vgath _ _ _ m => [m]
  | .vscat _ _ _ m => [m]
  | .mtog _ a => [a]
  | .acc _ _ m => [m]
  | .accBf16 _ _ m => [m]
  | .rmerge _ _ m _ => [m]
  | _ => []

/-- The instructions that a REP body may not hold (R96). -/
def repForbidden : Instr → Bool
  | .beq _ _ _ => true
  | .bne _ _ _ => true
  | .blt _ _ _ => true
  | .bge _ _ _ => true
  | .bltu _ _ _ => true
  | .bgeu _ _ _ => true
  | .jal _ _ => true
  | .jalr _ _ _ => true
  | .loopnz _ _ => true
  | .rep _ _ _ => true
  | .repi _ _ _ => true
  | .trap _ => true
  | .eret => true
  | .hret => true
  | .term _ => true
  | _ => false

/-- The privileged instructions (R15, R46 step 4). -/
def privileged : Instr → Bool
  | .setwp _ _ => true
  | .start _ _ _ => true
  | .stopc _ _ _ => true
  | .bankmode _ _ => true
  | .park _ _ => true
  | _ => false

end Sys2Proof.Machine
end

