-- ==== Sys2Proof/Machine/Issue.lean ====
section
/-! DEFINITION. Machine/Issue.lean: the choice of the context that issues (R18), and the checks on an instruction before
its own entry (R46, R94 to R96, R208, R366). -/
namespace Sys2Proof.Machine

/-- Whether the partition of a core lets a context issue: while the partition stops, only the handler context and what waits in
BANKMODE; while its log is replayed, only the handler context (R310, R311, R314, R316). -/
def State.mayIssue (s : State) (core ctx : Nat) : Bool :=
  match s.partOfCluster (clusterOf core) with
  | none => false
  | some n =>
    let p := s.part n
    let c := s.ctxAt core ctx
    decide (p.status = .running) && !(s.cluster (clusterOf core)).fenced &&
      (if p.stopping then ctx == 1 || (match c.wait with
        | .bank _ => true
        | _ => false)
      else if p.replaying then ctx == 1
      else true)

/-- Whether a context is READY (R16), in a partition that lets it issue. -/
def State.isReady (s : State) (core ctx : Nat) : Bool := s.stateAt core ctx == stREADY && s.mayIssue core ctx

/-- The cyclic order of step 2 of R18, starting after the context that last issued in it. -/
def cyclicFrom (last : Nat) : List Nat := ((List.range 12).map (fun k => (last + 1 + k) % 12)).filter (fun c => c != 1)

/-- The context that issues on a core this clock, and whether step 2 chose it (R18). -/
def State.pick (s : State) (core : Nat) : Option (Nat × Bool) :=
  let c := s.core core
  let other := (cyclicFrom c.lastIssued).find? (s.isReady core)
  let handler := s.isReady core 1
  if handler && !(decide (64 ≤ c.handlerRun) && other.isSome) then some (1, false)
  else match other with
    | some x => some (x, true)
    | none => if handler then some (1, false) else none

/-- The core's record of its issue (R18): the context, and the run of context 1 while another was READY. -/
def State.noteIssue (s : State) (core ctx : Nat) (cyc : Bool) : State :=
  let c := s.core core
  let other := (cyclicFrom c.lastIssued).any (s.isReady core)
  if cyc then s.setCore core { c with lastIssued := ctx, handlerRun := 0 }
  else s.setCore core { c with handlerRun := if other then c.handlerRun + 1 else c.handlerRun }

/-- A word of an instruction that failed decode, for CX.AUX (R46). -/
def decodeTrap (s : State) (e : DecErr) : State :=
  match e with
  | .illegal idx w => s.takeTrap cILLEGAL s.pc (w + idx * 2 ^ 32)
  | .reserved idx w => s.takeTrap cRESERVED s.pc (w + idx * 2 ^ 32)
  | .truncated => s.takeTrap cILLEGAL s.pc 0

/-- Whether any register that an instruction reads holds poisoned data (R366). -/
def State.readsPoison (s : State) (i : Instr) : Bool :=
  let at_ (off n : Nat) := s.tainted (s.wsLoc s.cur.core s.cur.ctx off) n
  (readsG i).any (fun r => r != 0 && at_ (8 * r.val) 8) || (readsV i).any (fun r => at_ (0x200 + 64 * r.val) 64) ||
    (readsM i).any (fun r => r != 0 && at_ (0xA00 + 2 * r.val) 2)

/-- The instruction as pass CX.REPS.PASS of an active REP executes it (R31, R96), or the trap it takes in the body: `w` is
the word that holds its major opcode. -/
noncomputable def State.inBody (s : State) (i : Instr) (w : Nat) : Except State Instr :=
  let reps := s.cx cxREPS
  if repForbidden i then .error (s.takeTrap cREP_BODY s.pc w)
  else
    let j := renameInstr (bits reps 63 32 * bits reps 26 24) i
    if j.groupsOk then .ok j else .error (s.takeTrap cILLEGAL s.pc w)

/-- The chunks of the register cache that an instruction reads are filled: its registers' and its context words' (R25). -/
def State.fillFor (s : State) (i : Instr) : State :=
  let fill := fun (t : State) (off n : Nat) => t.fillChunks s.cur.core s.cur.ctx off n
  let t := (readsG i).foldl (fun t r => fill t (8 * r.val) 8) (fill s cxPC 64)
  let t := (readsV i).foldl (fun t r => fill t (0x200 + 64 * r.val) 64) t
  (readsM i).foldl (fun t r => fill t (0xA00 + 2 * r.val) 2) t

/-- Whether an instruction is START, which a twin member may not use (R369). -/
def isStart : Instr → Bool
  | .start _ _ _ => true
  | _ => false

/-- Steps 4 and 5 of R46 that are common to all instructions, then the instruction itself; `w` is the word of its opcode. START in a twin
member traps TWIN_FORBIDDEN (R369), ahead of step 4 (DESIGN CHOICE, log entry 125). -/
def State.checked (s : State) (i : Instr) (w : Nat) : Except State (Instr × State) :=
  if isStart i ∧ s.myCtx.twin then .error (s.takeTrap cTWIN_FORBIDDEN 0 0)
  else if privileged i ∧ s.cur.ctx ≠ 0 then .error (s.takeTrap cPRIVILEGED s.pc w)
  else if s.readsPoison i then .error (s.takeTrap cUE 0 0)
  else .ok (i, s.fillFor i)

/-- The end of a pass of an active REP: after its last body instruction, or when a trap return has put CX.PC on the word after the
body (R95). -/
def State.passOver (s : State) : State :=
  let reps := s.cx cxREPS
  if bits reps 63 32 + 1 < bits (s.cx cxREPN) 31 0 then
    (s.setCx cxREPS (setBits reps 63 32 (bits reps 63 32 + 1))).setPC (s.cx cxREPB)
  else s.setCx cxREPS 0

/-- Where CX.PC stands in the body of an active REP (R95). -/
inductive Place where
  /-- No REP is active, or CX.PC is not in its body. -/
  | outside
  /-- At a body instruction, after those that begin at the given places. -/
  | inside (k : Nat) (before : List Nat)
  /-- At the word after the body. -/
  | after
  | missing (va : Nat)
  deriving DecidableEq, Repr

/-- The place of the executing context: one that cannot be told, because an earlier word of the body cannot be read again, counts as
outside the body (log entry 11). -/
def State.placeIn (s : State) : Place :=
  let reps := s.cx cxREPS
  if bitOf reps 0 then
    match s.bodyIndex s.cur.core s.cur.ctx with
    | .error (.missing va) => if (s.myCtx.badFetch.map (·.1)) = some va then .outside else .missing va
    | .ok (some (k, before)) => if k = bits reps 23 20 + 1 then .after else .inside k before
    | _ => .outside
  else .outside

/-- The instruction at CX.PC, from its words, checked: in the body of an active REP as the pass executes it (R31, R46, R96). -/
noncomputable def State.decodeAt (s : State) (place : Place) (ws : List Nat) : Except State (Instr × State) :=
  let reps := s.cx cxREPS
  match place with
  | .inside k before => (match decodeWordsIn (bits reps 63 32 * bits reps 26 24) ws with
    | .error e => .error (decodeTrap s e)
    | .ok (i, n) =>
      let t : State := { s.noteBody before n with cur := { s.cur with len := n, last := k == bits reps 23 20 } }
      match t.inBody i (ws.getLastD 0) with
      | .error u => .error u
      | .ok j => t.checked j (ws.getLastD 0))
  | _ => (match decodeWords ws with
    | .error e => .error (decodeTrap s e)
    | .ok (i, n) => { s with cur := { s.cur with len := n, last := false } }.checked i (ws.getLastD 0))

/-- The instruction at CX.PC of the executing context, decoded and checked, or the state when it cannot execute yet or
traps (R41, R46, R95). -/
noncomputable def State.decodeHere (s : State) : Except State (Instr × State) :=
  match s.placeIn with
  | .after => .error s.passOver
  | .missing va => .error (s.requestFetch va)
  | place => match s.instrWords s.cur.core s.cur.ctx s.pc with
    | .fault va c aux => .error (s.takeTrap c va aux)
    | .missing va => .error (s.requestFetch va)
    | .ok ws => { s with cur := { s.cur with len := 1, last := false } }.decodeAt place ws

/-- Whether the activation of the executing core has executed its 4,096 instructions (R208). -/
def State.overrun (s : State) : Bool :=
  match s.me.act with
  | some a => decide (4096 ≤ a.count)
  | none => false

/-- What a context issues next (R46, R208): the instruction and the state in which it executes, or the state when none does. A fetch
that failed counts while its word belongs to the instruction at CX.PC (R337). -/
noncomputable def State.ready (s : State) (core ctx : Nat) : Except State (Instr × State) :=
  let t : State := { s with cur := { core := core, ctx := ctx, len := 1, last := false } }
  if ctx == 1 && t.overrun then .error (t.takeTrap cHANDLER_OVERRUN 0 0)
  else match t.myCtx.badFetch with
    | some (va, c, aux) =>
      if t.pc ≤ va ∧ va < t.pc + 16 then .error ((t.setMyCtx { t.myCtx with badFetch := none }).takeTrap c va aux)
      else t.decodeHere
    | none => t.decodeHere

/-- Whether contexts of a core come to an instruction boundary now: their partition runs, and is not replaying its log (R311, R314). -/
def State.mayBound (s : State) (core ctx : Nat) : Bool :=
  match s.partOfCluster (clusterOf core) with
  | none => false
  | some n =>
    decide ((s.part n).status = .running) && !(s.cluster (clusterOf core)).fenced && (!(s.part n).replaying || ctx == 1)

/-- What a context does at an instruction boundary before it goes on: an ending (R30), a failure that holds it (R73, R143), a stop
(R318) or a park (R315, R319). An instruction that waits to be executed has not begun. -/
def State.boundary (s : State) (core ctx : Nat) : State :=
  let c := s.ctxAt core ctx
  let st := s.stateAt core ctx
  let t : State := { s with cur := { core := core, ctx := ctx, len := 1, last := false } }
  if !s.mayBound core ctx ∨ (c.wait ≠ .none ∧ c.wait ≠ .retry) then s
  else match c.ending with
    | some e => t.finishEnding e
    | none =>
      if st = stEMPTY ∨ st = stHELD then s
      else match c.holdReq with
        | (cause, addr, aux) :: _ => s.holdPosted core ctx cause addr aux
        | [] =>
          if c.stopReq then s.holdStopped core ctx
          else if c.parkReq then
            let r := t.leaveGate core ctx t.pc
            if r.2 then r.1.parkTask core ctx .again true else r.1.waitAll
          else s

/-- An instruction of an activation counted, unless it waits to be executed again (R208). -/
def State.countHandler (s : State) : State :=
  match s.me.act with
  | some a =>
    if s.cur.ctx = 1 ∧ s.myCtx.wait ≠ .retry then s.setMe { s.me with act := some { a with count := a.count + 1 } } else s
  | none => s

/-- Words fetched ahead that lie outside the 16 from the executing context's CX.PC on are dropped (R34). -/
def State.pruneAhead (s : State) : State :=
  let c := s.myCtx
  let pc := s.pc
  if c.ahead.all (fun w => decide (pc ≤ w.1) && decide (w.1 < pc + 64)) then s
  else s.setMyCtx { c with ahead := c.ahead.filter (fun w => decide (pc ≤ w.1) && decide (w.1 < pc + 64)) }

/-- The requests that a twin member's instruction has sent go to the pair's comparator (R370); a member with 16 requests not yet
matched waits, and executes the instruction again. `t` is the state in which the instruction executed. -/
def State.toComparator (s t : State) : State :=
  let core := t.cur.core
  let ctx := t.cur.ctx
  match t.pairOf core ctx with
  | none => s
  | some (p, x) =>
    let new := s.flights.filter (fun f => decide (t.nextId ≤ f.1) && f.2.compared core ctx)
    let first := decide (some x.mine = (t.ctxAt core ctx).task)
    if new = [] then s
    else if 16 < (if first then x.qa else x.qb).length + new.length then t.stall .retry
    else
      let u : State := { s with flights := s.flights.filter (fun f => !new.any (fun n => n.1 == f.1)) }
      u.setPair p (if first then { x with qa := x.qa ++ new } else { x with qb := x.qb ++ new })

end Sys2Proof.Machine
end

