-- ==== Sys2Proof/Machine/Moves.lean ====
section
/-! DEFINITION. Machine/Moves.lean: what happens next: the moves of the agenda other than issues and events, what follows at once
from a change of state, and the move that an empty agenda stands for (log entry 3). -/
namespace Sys2Proof.Machine

/-- The next word of a context fetched ahead, at most 16 ahead of CX.PC (R34). -/
def State.fetchAhead (s : State) (core ctx : Nat) : State :=
  let c := s.ctxAt core ctx
  let pc := s.cxAt core ctx cxPC / 4 * 4
  let va := match c.ahead.getLast? with
    | some (a, _) => if pc ≤ a ∧ a + 4 < pc + 64 then a + 4 else pc
    | none => pc
  match s.codeWord core ctx va with
  | .word w => if (lookupId va c.ahead).isSome then s else s.setCtxAt core ctx { c with ahead := c.ahead ++ [(va, w)] }
  | _ => s

/-- The die whose memory or whose stacks hold a location; of an L2 location, the die of the slice that holds its line (R217, R398). -/
def State.dieOfLoc (s : State) (loc : Nat) : Nat :=
  if loc < 2 ^ 40 then loc / 2 ^ 38
  else if loc < 2 ^ 64 then bits loc 45 44
  else ((Tbl.get (0, 0) s.holders (loc / 64)).1 - 1) / 128

/-- An uncorrectable error counted by a die (R398). -/
def State.countUe (s : State) (die : Nat) : State :=
  s.setDie die { s.die die with ue := Nat.min ((s.die die).ue + 1) (2 ^ 32 - 1) }

/-- A word struck by an uncorrectable error (R365, R398): of L2, one that a slice holds. -/
def State.strike (s : State) (loc : Nat) : State :=
  if loc < 2 ^ 64 then (s.countUe (s.dieOfLoc loc)).poisonAt (loc / 8 * 8) [0]
  else if s.l2.any (fun c => c.1 / 8 == loc / 8) then (s.countUe (s.dieOfLoc loc)).poisonAt ((loc - 2 ^ 64) % 2 ^ 40 / 8 * 8) [0]
  else s

/-- A word of a future-table entry struck by an uncorrectable error (R365, R366, R398). -/
def State.strikeFut (s : State) (core slot : Nat) : State :=
  let e := s.fut core slot
  if e.state = fFREE then s else (s.countUe (dieOf core)).setFut core slot { e with bad := true }

/-- Whether a flight is one that another package may send, to this one, with nothing done yet (R346, R348). -/
def State.mayArrive (s : State) (f : Flight) : Bool :=
  let away := fun (b : Back) => match b with
    | .remote _ _ _ => true
    | _ => false
  (match f with
    | .mem r => r.near.isSome && decide (r.stage = .travelling) && r.refused.isNone && !r.again && away r.back
    | .fut q => away q.back || decide (q.back = .none)
    | .msg m => m.refused.isNone && m.drain.isNone && (away m.back || decide (m.back = .none))
    | .record _ _ _ _ => true
    | .wake _ _ _ _ => true
    | .cancelReq _ _ _ _ _ => true
    | .treeCancel _ _ _ _ => true
    | _ => false) && (s.farPkg f).isNone

/-- Who hears, in another package, of a flight that came from there: what has no requester of its own is known by its handle, or by its
cancellation (R349). -/
def Flight.farBack : Flight → Back
  | .record _ _ _ r => .remote r.handle 0 0
  | .cancelReq _ _ _ root _ => .remote root 0 0
  | .treeCancel _ _ _ root => .remote root 0 0
  | f => f.backOf.1

/-- A request of another package taken: a cancellation goes on under a number of this package's own (R186). -/
def State.takeFar (s : State) (f : Flight) : State :=
  match f with
  | .fut q => s.launchFlight (.fut { q with root := s.nextId })
  | .cancelReq h pkg cl _ tree => s.launchFlight (.cancelReq h pkg cl s.nextId tree)
  | .treeCancel h pkg cl root =>
    ({ s with cancels := s.cancels ++ [(s.nextId, .remote root 0 0, some 0)] } : State).launchFlight (.treeCancel h pkg cl s.nextId)
  | f => s.launchFlight f

/-- A request that has crossed a Bexmo port (R349): delivered when the system partition ids agree and the partition holds the
port, and otherwise failed, which its requester learns. -/
def State.arriveFrom (s : State) (spid port : Nat) (f : Flight) : State :=
  let part := match f with
    | .wake _ h _ _ => hPart h
    | f => f.partOf
  let p := s.part part
  if !s.booted ∨ !s.mayArrive f ∨ (s.port port).dead then s
  else if p.spid = spid ∧ p.ports.contains port then s.takeFar f
  else { s with toFar := s.toFar ++ f.farBack.farAnswer (.fault f.barred f.backOf.2 0) }

/-- Another package answers or acknowledges a flight (R350, R351): a cause, or zero and a value, which a release may have written
(R229). -/
def State.answeredBy (s : State) (id cause aux v : Nat) (rel : Bool) : State :=
  match lookupId id s.flights with
  | none => s
  | some f => match s.destOf f with
    | none => s
    | some dest =>
      let a := fun (addr : Nat) => if cause = 0 then Answer.data v else Answer.fault (f.told cause) addr aux
      if s.portHolds id dest ∨ !f.sentAway then s
      else match f with
        | .sent g => s.settleSent id g cause
        | .mem r =>
          let t := match r.back with
            | .ctx c x => if rel ∧ r.op.acquires then s.setCtxAt c x { s.ctxAt c x with acq := true } else s
            | _ => s
          t.answer id r.back r.va (a r.va)
        | .fut q => s.answer id q.back q.handle (a q.handle)
        | .msg m => s.answer id m.back (coreVa m.target) (a (coreVa m.target))
        | .record home _ _ r =>
          if cause ≠ 0 then s.failRecord id home r cause
          else (match s.waiterOf id with
            | some (core, ctx) => s.become id (.reply (.ctx core ctx) (.data 0))
            | none => s.dropFlight id)
        | .cancelReq h pkg cl root tree =>
          if cause ≠ 0 then (s.dropFlight id).cancelFail root (cause, h, aux)
          else s.become id (.cancelRep h (pkg * 512 + cl) (v % 4) root tree)
        | .treeCancel h _ _ root =>
          if cause ≠ 0 then (s.dropFlight id).cancelFail root (cause, h, aux) else (s.dropFlight id).settleCancels
        | .wake tok h _ _ => if cause ≠ 0 then (s.dropFlight id).undeliverable tok h else s.dropFlight id
        | _ => s.dropFlight id

/-- Whether a partition's entry is one that kiln firmware may make (R307). -/
def State.entryOk (s : State) (n : Nat) (p : Part) : Bool :=
  decide (0 < n) && decide (n < 16) && p.clusters.all (fun c => decide (c < 512) &&
      s.parts.all (fun q => q.1 == n || !q.2.status.onChip || !q.2.clusters.contains c)) &&
    (List.range 13).any (fun k => p.alsize == 2 ^ (k + 8)) && decide (p.alog % 4096 = 0) && decide (p.alog < 2 ^ 59) &&
    (decide (p.status = .unused) || (decide (p.status = .stopped) && p.clusters.contains (clusterOf p.supv)))

/-- Clusters that a partition takes are found with nothing of another's (R9, R310; log entry 125): no CWAIT, twin pair, waiter link or
barrier object is left of those who held them. -/
def State.takeClusters (s : State) (new : List Nat) : State :=
  let t := s.fresh new
  { t with cwaits := t.cwaits.filter (fun w => !new.any (fun c => waitOf c w)), pairs := t.pairs.filter (fun p => !new.contains p.2.mine.1),
           links := t.links.filter (fun l => !new.contains (tokCluster l.1)), barriers := t.barriers.filter (fun b => !barrierOf new b.1) }

/-- Kiln firmware gives a partition its entry (R307), while it holds nothing or is stopped: the contexts of cores that it takes
are EMPTY (R310). The walkers load its PAGES when it starts (R331). -/
def State.giveEntry (s : State) (n : Nat) (p : Part) : State :=
  let old := s.part n
  if !s.booted ∨ (old.status ≠ .unused ∧ old.status ≠ .stopped) ∨ !s.entryOk n p then s
  else (s.takeClusters (p.clusters.filter (fun c => !old.clusters.contains c))).setPart n
    { p with stopping := false, replaying := false, logged := [], root := old.root }

/-- The clock moves on, and the load hints that are due are published (R200). -/
def State.wait (s : State) (n : Nat) : State := ({ s with clock := s.clock + n } : State).publishDue

/-- A move other than an issue or an event. -/
def State.quietMove (s : State) (m : Move) : State :=
  match m with
  | .tick n => s.wait n
  | .fetchAhead core ctx => s.fetchAhead core ctx
  | .dropTlb n => { s with tlb := s.tlb.eraseIdx n }
  | .dropWalk die n => s.setDie die { s.die die with walkCache := (s.die die).walkCache.eraseIdx n }
  | .softError loc => s.strike loc
  | .softFut core slot => s.strikeFut core slot
  | .engine cmd => s.engineMove cmd
  | .writeBack part pa => s.writeBack part pa
  | .arrive spid port f => s.arriveFrom spid port f
  | .answered id cause aux v rel => s.answeredBy id cause aux v rel
  | .partition n p => s.giveEntry n p
  | .sensor die power temp ce lretry =>
    let d := s.die die
    let sum := fun (a b : Nat) => Nat.min (a + b) (2 ^ 32 - 1)
    s.setDie die { d with power := power % 2 ^ 32, temp := temp % 2 ^ 16, ce := sum d.ce ce, lretry := sum d.lretry lretry }
  | .lost id _ => s.lose id
  | .replay port => s.noteReplay port
  | .lock port held => s.noteLock port held
  | .issue _ => s
  | .event _ => s

/-- A CWAIT completes with a word (R147): a task becomes READY, a context goes on with acquire effect. -/
def State.wakeWait (s : State) (v : Nat) (w : Nat × Bool × Nat × Nat) : State :=
  let (_, isTask, a, b) := w
  let t : State := { s with cwaits := s.cwaits.filter (fun x => x != w) }
  if isTask then
    match (t.task a b).resume with
    | .inCwait d _ at_ => t.makeReady a b { t.task a b with resume := .waited d v at_ }
    | _ => t
  else match (t.ctxAt a b).wait with
    | .object d _ at_ => ((({ t.readyAt a b with cur := at_ } : State).setGAt a b d v).advance).acquire
    | _ => t

/-- The CWAITs that complete with one: it, and that of the other member of its pair (R370; DESIGN CHOICE, log entry 121). -/
def State.waitsWith (s : State) (w : Nat × Bool × Nat × Nat) : List (Nat × Bool × Nat × Nat) :=
  if w.2.1 then w :: s.cwaits.filter (fun x => x.2.1 && x != w && (s.members w.2.2.1 w.2.2.2).contains x.2.2) else [w]

/-- A CWAIT whose object has become idle completes (R147). -/
def State.settleObject (s : State) (w : Nat × Bool × Nat × Nat) : State :=
  if !s.cwaits.contains w ∨ !s.objIdle w.1 then s else (s.waitsWith w).foldl (fun t x => t.wakeWait (s.objWord w.1) x) s

/-- A STOPC or PARK whose target has come to rest completes (R318, R319). -/
def State.settleTarget (s : State) (core : Nat) : State :=
  match (s.ctxAt core 0).wait with
  | .target d n park at_ =>
    let st := s.stateAt core n
    let done := fun (v : Nat) =>
      let t := s.setCtxAt core n { s.ctxAt core n with stopReq := false, parkReq := false }
      (({ t.readyAt core 0 with cur := at_ } : State).setGAt core 0 d v).advance
    if st = stEMPTY then done park.toNat
    else if st = stHELD ∧ !park then done 1
    else s
  | _ => s

/-- What follows at once from a change of state: waits for completion objects that are over, what contexts do at an instruction boundary,
and waits for other contexts. -/
def State.settleWaits (s : State) : State :=
  let t := s.cwaits.foldl (fun t w => t.settleObject w) s
  let t := t.cores.foldl (fun t c => c.2.ctxs.foldl (fun t x => t.boundary c.1 x.1) t) t
  t.cores.foldl (fun t c => t.settleTarget c.1) t

/-- The core that issues when the agenda is empty: the one whose turn it is, or any other with a READY context. -/
def State.defaultCore (s : State) : Option Nat :=
  let ready := fun core => (s.pick core).isSome
  if ready s.turn then some s.turn else (s.cores.map (·.1)).find? ready

/-- The event that is due for a flight. -/
noncomputable def Flight.due (id : Nat) : Flight → List Move
  | .mem r =>
    let core := match r.near with
      | some loc => coreOfUnit (nearParts loc).1 (nearParts loc).2.1
      | none => 0
    (match r.near.isSome, r.stage with
    | false, .travelling => [.event (.homeSliceAccess id)]
    | false, .walking => [.event (.pageWalk id)]
    | false, .ready _ _ _ => [.event (.atomicAtAgent id)]
    | true, .travelling => [.event (.nearArrival id), .event (.fifoPop id), .event (.fifoPush id)]
    | true, _ => [.event (.systemAtomic core), .event (.systemNibbleStore core)])
  | .reply _ _ => [.event (.replyArrival id)]
  | .ack _ _ _ => [.event (.acknowledgement id)]
  | .post _ => [.event (.mailboxPost id)]
  | .wake _ _ _ _ => [.event (.futureWake id)]
  | .fut _ => [.event (.futureRequest id)]
  | .record _ _ _ _ => [.event (.taskRecordArrival id)]
  | .cancelReq _ _ _ _ _ => [.event (.cancelRequest id)]
  | .cancelRep _ _ _ _ _ => [.event (.futureRequest id)]
  | .treeCancel _ _ _ _ => [.event (.treeCancel id)]
  | .msg m => [.event (if m.refused.isSome then .messageRetry id else .messageArrival id)]
  | .accum _ => [.event (.accumulateArrival id)]
  | .flush _ => [.event (.flushAccumulate id)]
  | .refusal _ => [.event (.refusalReturn id)]
  | .engWrite _ => [.event (.engineWriteAcknowledgement id)]
  | .shelf _ => [.event (.shelfArrival id)]
  | .docked _ => [.event (.shelfArrival id)]
  | .kwake w => [.event (.launchWake id (w.left.headD 0))]
  | .report _ _ => [.event (.rootReport id)]
  | .append _ => [.event (.launchAppend id)]
  | .xlInv _ _ => [.event (.xlInv id)]
  | .sent _ => []
  | .lost _ _ => [.lost id none]

/-- The moves that the agents of a core have to make. -/
noncomputable def State.coreDue (s : State) (core : Nat) : List Move :=
  let c := s.core core
  (if c.inbox.isEmpty then [] else [.event (.activation core), .event (.drainWake core)]) ++
    (if c.matQ.isEmpty then [] else [.event (.commandStart core .matrix)]) ++
    (if c.copyQ.isEmpty then [] else [.event (.commandStart core .copy)]) ++
    (List.range 12).flatMap (fun x => match (s.ctxAt core x).wait, (s.ctxAt core x).task with
      | .barrier _ _ _, _ => [.event (.barrierCompletion core x)]
      | .copyIn, some (cl, rid) => [.event (.workspaceCopyDone cl rid)]
      | _, _ => [])

/-- The moves that the agents of a cluster have to make. -/
noncomputable def State.clusterDue (cl : Nat) (c : Cluster) : List Move :=
  (if c.ready.isEmpty then [] else [.event (.dispatch cl)]) ++ (if c.queued.isEmpty then [] else [.event (.prefetchGrant cl)]) ++
    (if c.wedge.isEmpty then [] else [.event (.arbiterPick cl)]) ++
    (List.range c.wedge.length).map (fun n => .event (.wedgeHoldExpiry cl n))

/-- The moves that a running command has to make. -/
noncomputable def Cmd.due (id : Nat) (c : Cmd) : List Move :=
  match c.todo, c.owner with
  | _ :: _, _ => [.engine id]
  | [], .task cl rid => [.event (.prefetchDone cl rid)]
  | [], _ => [.event (.commandCompletion id)]

/-- Every move that the package's own agents have to make (log entry 3). -/
noncomputable def State.due (s : State) : List Move :=
  s.flights.flatMap (fun f => f.2.due f.1) ++ s.cores.flatMap (fun c => s.coreDue c.1) ++
    s.clusters.flatMap (fun c => State.clusterDue c.1 c.2) ++ s.running.flatMap (fun r => r.2.due r.1)

/-- The move that an empty agenda stands for: issues and the moves of agents take turns (log entry 3). -/
noncomputable def State.defaultMove (s : State) : Move :=
  let ms := s.due
  match s.defaultCore with
  | some c => if s.clock % 2 = 0 ∨ ms = [] then .issue c else ms.getD (s.clock / 2 % ms.length) (.tick 1)
  | none => if ms = [] then .tick 1 else ms.getD (s.clock % ms.length) (.tick 1)

end Sys2Proof.Machine
end

