-- ==== Sys2Proof/Machine/Turn.lean ====
section
/-! DEFINITION. Machine/Turn.lean: one issue of a core (R18), and one move of the agenda. -/
namespace Sys2Proof.Machine

/-- A context issues its next instruction, with what follows every instruction (R34, R208, R370). -/
noncomputable def attempt (core ctx : Nat) (s : State) : Host.Outcome State Fault Refusal :=
  match s.ready core ctx with
  | .error t => .next t
  | .ok (i, t) =>
    match exec i t with
    | .next u => .next ((u.countHandler.pruneAhead).toComparator t)
    | .fault f => .fault f
    | .refused r => .refused r

/-- Whether a context's next instruction waits: for a word of it, or to be executed again (R16, R18). -/
def State.waits (s : State) (core ctx : Nat) : Bool :=
  s.stateAt core ctx == stSTALLED && (match (s.ctxAt core ctx).wait with
    | .retry => true
    | .bank _ => true
    | .reply _ (.fetch _) _ => true
    | _ => false)

/-- A READY context whose next instruction waits is STALLED (R16, R18). -/
noncomputable def State.probeAt (s : State) (core ctx : Nat) : State :=
  match attempt core ctx s with
  | .next t => if t.waits core ctx then t else s
  | _ => s

/-- The READY contexts of a core. -/
def State.readies (s : State) (core : Nat) : List Nat := (List.range 12).filter (s.isReady core)

/-- Before a core chooses among several READY contexts, those whose next instruction waits become STALLED (R18). -/
noncomputable def State.probe (s : State) (core : Nat) : State :=
  if (s.readies core).length ≤ 1 then s else (s.readies core).foldl (fun t c => t.probeAt core c) s

/-- The issue of the context chosen: one that only waits has not issued (R18). -/
noncomputable def State.issueOf (s : State) (core ctx : Nat) (cyc : Bool) : Host.Outcome State Fault Refusal :=
  match attempt core ctx (s.noteIssue core ctx cyc) with
  | .next u => if u.waits core ctx then attempt core ctx s else .next u
  | o => o

/-- An issue on a core, by the core's own choice (R18). -/
noncomputable def stepIssue (core : Nat) (s : State) : Host.Outcome State Fault Refusal :=
  match (s.probe core).pick core with
  | none => .next (s.probe core)
  | some (ctx, cyc) => (s.probe core).issueOf core ctx cyc

/-- One move. A packet lost in a dead router may be that of the answer which an event gives (R380). -/
noncomputable def stepMove (m : Move) (s : State) : Host.Outcome State Fault Refusal :=
  match m with
  | .issue core => if core < 4096 then stepIssue core s else .fault .noSuchAgent
  | .event i => if i.isEvent then exec i s else .next s
  | .lost id (some i) => if i.isEvent then (match exec i s with
      | .next t => .next (t.loseAnswer s id)
      | o => o) else .next s
  | m => .next (s.quietMove m)

end Sys2Proof.Machine
end

