-- ==== Sys2Proof/Machine/Step.lean ====
section
/-! DEFINITION. Machine/Step.lean: one step of the package, and the placing of an instruction where the next step fetches
it. -/
namespace Sys2Proof.Machine

/-- One step of the package: the next move of the agenda, or the default move, which takes a clock (log entry 3); then what
follows from it at once. -/
noncomputable def step (s : State) : Host.Outcome State Fault Refusal :=
  match (match s.agenda with
    | m :: rest => stepMove m { s with agenda := rest }
    | [] => stepMove s.defaultMove (s.wait 1)) with
  | .next t => .next t.settleWaits
  | .fault f => .fault f
  | .refused r => .refused r

/-- A state in which core 0's context 0 fetches next, from virtual address 0 of partition 0, the instruction whose bits are `w`
(log entry 5). -/
def State.withFetchWord (s : State) (nbits w : Nat) : State :=
  let bs := bytesOf 32 (w % 2 ^ nbits)
  let ent : TlbEnt := { slice := 0, part := 0, vbase := 0, size := 0, pte := 0xF3, pteLoc := 0 }
  let p : Part := { Part.reset with status := .running, clusters := [0] }
  let t := { s with agenda := [.issue 0], turn := 0, tlb := ent :: s.tlb, l2 := s.l2.overlay (l2Key 0 0) bs }
  let t := (t.setPart 0 p).setCtxAt 0 0 { t.ctxAt 0 0 with
    wait := .none, ending := none, ahead := [], badFetch := none, stopReq := false, parkReq := false, holdReq := [] }
  (t.setCxAt 0 0 cxPC 0).setStateAt 0 0 stREADY

end Sys2Proof.Machine
end

