-- ==== Sys2Proof/Safety.lean ====
section
/-! DEFINITION. Safety.lean: the terms in which claims are stated: the well-formed state, what an instruction leaves
unchanged, and what it is for an instruction to complete with its own effect. -/
namespace Sys2Proof.Machine

/-- The form that every step keeps: memory lists rising locations and no byte equal to what an unlisted location reads as (R9, R224; log entry 1), and the L2 overlay
lists rising locations. -/
structure State.Ok (s : State) : Prop where
  mem : s.mem.wf = true
  l2 : risingKeys s.l2 = true

/-- A range of locations: the first, and how many. -/
abbrev Range := Nat × Nat

/-- `t` is `s` but for bytes in the ranges, with their poison (R365), their dirty bits (R312), the register cache's chunks (R25), and what
the model keeps of their earlier values and of releases (R9, R229): every other byte reads as before, no word becomes poisoned, and a
poisoned word that meets no range stays so. -/
structure BytesOnly (ranges : List Range) (s t : State) : Prop where
  rest : t = { s with mem := t.mem, poisoned := t.poisoned, dirty := t.dirty, chunks := t.chunks, unsaved := t.unsaved,
                      released := t.released, past := t.past }
  byte : ∀ a, (∀ r ∈ ranges, a < r.1 ∨ r.1 + r.2 ≤ a) → t.mem.get a = s.mem.get a
  healed : ∀ w ∈ t.poisoned, w ∈ s.poisoned
  kept : ∀ w ∈ s.poisoned, (∀ r ∈ ranges, w + 8 ≤ r.1 ∨ r.1 + r.2 ≤ w) → w ∈ t.poisoned

/-- The bytes of a general register of the executing context; g0 has none (R20, R21). -/
def State.gRange (s : State) (r : GReg) : List Range :=
  if r = 0 then [] else [(s.wsLoc s.cur.core s.cur.ctx (8 * r.val), 8)]
/-- The bytes of a vector register of the executing context (R20). -/
def State.vRange (s : State) (r : VReg) : Range := (s.wsLoc s.cur.core s.cur.ctx (0x200 + 64 * r.val), 64)
/-- The bytes of a mask register of the executing context; m0 has none (R20, R21). -/
def State.mRange (s : State) (r : MReg) : List Range :=
  if r = 0 then [] else [(s.wsLoc s.cur.core s.cur.ctx (0xA00 + 2 * r.val), 2)]
/-- The bytes of a context word of the executing context (R20). -/
def State.cxRange (s : State) (off : Nat) : Range := (s.wsLoc s.cur.core s.cur.ctx off, 8)

/-- Whether the instruction ends a pass of an active REP (R95). -/
def State.passEnds (s : State) : Bool := s.cur.last && bitOf (s.cx cxREPS) 0
/-- Whether another pass follows the one that ends (R95). -/
def State.passFollows (s : State) : Bool := decide (bits (s.cx cxREPS) 63 32 + 1 < bits (s.cx cxREPN) 31 0)

/-- CX.PC after an instruction that does not branch: the word after it, or the body's first word when a pass of an active REP
ends and another follows (R95). -/
def State.pcAfter (s : State) : Nat :=
  if s.passEnds && s.passFollows then s.cx cxREPB % 2 ^ 64 / 4 * 4 else s.nextPC % 2 ^ 64 / 4 * 4

/-- CX.REPS after an instruction that completes: PASS counts the pass that ends when another follows, and all of it is cleared
when none does (R95). -/
def State.repsAfter (s : State) : Nat :=
  if s.passEnds then (if s.passFollows then s.cx cxREPS + 2 ^ 32 else 0) else s.cx cxREPS

/-- The context words that completing an instruction writes: CX.PC, and CX.REPS where a pass of an active REP ends (R95). -/
def State.onRanges (s : State) : List Range :=
  s.cxRange cxPC :: (if s.passEnds then [s.cxRange cxREPS] else [])

/-- The instruction completes: it answers a next state whose CX.PC and CX.REPS have moved on, which differs from `base` only in the ranges and
in the context words of completing, and of which `p` holds. `base` is `s`, with whatever outside memory the instruction
changes. -/
def CompletesOver (s base : State) (o : Host.Outcome State Fault Refusal) (ranges : List Range) (p : State → Prop) : Prop :=
  ∃ t, o = .next t ∧ t.pc = s.pcAfter ∧ t.cx cxREPS = s.repsAfter ∧ BytesOnly (s.onRanges ++ ranges) base t ∧ p t

/-- The same where nothing outside memory changes. -/
def Completes (s : State) (o : Host.Outcome State Fault Refusal) (ranges : List Range) (p : State → Prop) : Prop :=
  CompletesOver s s o ranges p

/-- The instruction completes with `v` in gD and changes nothing else; a result for g0 is discarded (R21). -/
def WritesG (s : State) (o : Host.Outcome State Fault Refusal) (d : GReg) (v : Word) : Prop :=
  Completes s o (s.gRange d) (fun t => t.g d = if d = 0 then 0 else v)

/-- The same for a scalar floating-point instruction, which also adds its flags to CX.STATUS.FPF and changes no other bit of
CX.STATUS (R62, R77, R85). -/
def WritesF (s : State) (o : Host.Outcome State Fault Refusal) (d : GReg) (r : Nat × FFlags) : Prop :=
  Completes s o (s.gRange d ++ [s.cxRange cxSTATUS]) (fun t =>
    t.gN d = (if d = 0 then 0 else r.1 % 2 ^ 64) ∧
    t.cx cxSTATUS = setBits (s.cx cxSTATUS) 18 14 (bits (s.cx cxSTATUS) 18 14 ||| r.2.toNat))

/-- The instruction completes with the lanes of vD that a mask sets replaced, and changes nothing else (R97). -/
def WritesV (s : State) (o : Host.Outcome State Fault Refusal) (d : VReg) (mask : Nat) (f : Nat → Nat) : Prop :=
  Completes s o [s.vRange d] (fun t =>
    ∀ i, i < 16 → t.laneN d i = if bitOf mask i then f i % 2 ^ 32 else s.laneN d i)

/-- The instruction completes with the sixteen bits of mD replaced, and changes nothing else; m0 stays all ones (R21, R97). -/
def WritesM (s : State) (o : Host.Outcome State Fault Refusal) (d : MReg) (f : Nat → Bool) : Prop :=
  Completes s o (s.mRange d) (fun t => ∀ i, i < 16 → bitOf (t.mN d) i = if d = 0 then true else f i)

/-- The instruction branches: it answers a next state whose CX.PC is `target`, which differs from `s` only in CX.PC and the
ranges, and of which `p` holds. -/
def Jumps (s : State) (o : Host.Outcome State Fault Refusal) (target : Nat) (ranges : List Range) (p : State → Prop) : Prop :=
  ∃ t, o = .next t ∧ t.pc = target ∧ BytesOnly (s.cxRange cxPC :: ranges) s t ∧ p t

/-- The address that a displacement in words names, counted from the instruction's first word (R38). -/
def State.wordTarget (s : State) (imm : Imm) : Nat := (s.pc + 4 * imm.val.toNat) % 2 ^ 64

/-- A truth value as a number. -/
def boolNat (b : Bool) : Nat := if b then 1 else 0

/-- The executing context with what it fetched ahead discarded and waiting for nothing: what every trap does outside memory
(R34, R359). -/
def State.trapBase (s : State) : State := s.setMyCtx { s.myCtx with ahead := [], draining := false, wait := .none }

/-- A post to the supervisor of the executing core's partition (R363, R409). -/
def State.faultPost (s : State) (kind cause pc addr aux : Nat) (source : Option (Nat × Nat)) : Post :=
  { pkg := s.pkgId, part := s.partOf s.cur.core,
    w0 := 2 ^ 63 + kind * 2 ^ 60 + s.cur.ctx * 2 ^ 56 + cause * 2 ^ 47 + (s.pkgId * 4096 + s.cur.core)
    pc := pc, addr := addr, aux := aux, source := source }

/-- TR.MASK routes the class of a cause, classes in the table order of R356 (R357). -/
def routed (mask cause : Nat) : Bool :=
  [(0, 0x000, 0x040), (1, 0x040, 0x080), (2, 0x080, 0x100), (3, 0x100, 0x140), (4, 0x140, 0x180), (5, 0x180, 0x1C0),
   (6, 0x1C0, 0x1E0), (7, 0x1E0, 0x200)].any fun c => decide (c.2.1 ≤ cause) && decide (cause < c.2.2) && mask.testBit c.1

/-- An address of 64 bytes of the program area of the executing core's private memory, at an offset: through the self window, or
its near address (R359, R326, R327). -/
abbrev State.inOwnProgram (s : State) (f off : Nat) : Prop :=
  off + 64 ≤ 0x30000 ∧ (f = 0x09 * 2 ^ 56 + off ∨
    f = 0x08 * 2 ^ 56 + s.pkgId * 2 ^ 46 + s.cur.core / 1024 * 2 ^ 44 + s.cur.core / 8 % 128 * 2 ^ 37 +
      s.cur.core % 8 * 2 ^ 33 + off)

/-- An address in a base register with an offset in units of a size (R38, R119). -/
def State.memEa (s : State) (a : GReg) (off : Imm) (size : Nat) : Nat := (s.gN a + size * off.val.toNat) % 2 ^ 64

/-- The ordering fields of an access (R120, R121, R128): whether it is .REL, and its W field. -/
noncomputable def orderFields : Instr → Option (Bool × WaitSel)
  | .ldb _ _ _ _ w => some (false, w)
  | .ldh _ _ _ _ w => some (false, w)
  | .ldw _ _ _ _ w => some (false, w)
  | .ldd _ _ _ _ w => some (false, w)
  | .pref _ _ _ w => some (false, w)
  | .vld _ _ _ _ w => some (false, w)
  | .stb _ _ _ h w => some (h == .order, w)
  | .sth _ _ _ h w => some (h == .order, w)
  | .stw _ _ _ h w => some (h == .order, w)
  | .std _ _ _ h w => some (h == .order, w)
  | .vst _ _ _ h w => some (h == .order, w)
  | .stn _ _ _ rel w => some (rel, w)
  | .axchg _ _ _ _ rel w => some (rel, w)
  | .aadd _ _ _ _ rel w => some (rel, w)
  | .aand _ _ _ _ rel w => some (rel, w)
  | .aor _ _ _ _ rel w => some (rel, w)
  | .axor _ _ _ _ rel w => some (rel, w)
  | .amin _ _ _ _ rel w => some (rel, w)
  | .amax _ _ _ _ rel w => some (rel, w)
  | .aminu _ _ _ _ rel w => some (rel, w)
  | .amaxu _ _ _ _ rel w => some (rel, w)
  | .afadd _ _ _ _ rel w => some (rel, w)
  | .cas _ _ _ _ rel w => some (rel, w)
  | .casp _ _ _ _ rel w => some (rel, w)
  | .axchgPost _ _ rel w => some (rel, w)
  | .aaddPost _ _ rel w => some (rel, w)
  | .aandPost _ _ rel w => some (rel, w)
  | .aorPost _ _ rel w => some (rel, w)
  | .axorPost _ _ rel w => some (rel, w)
  | .aminPost _ _ rel w => some (rel, w)
  | .amaxPost _ _ rel w => some (rel, w)
  | .aminuPost _ _ rel w => some (rel, w)
  | .amaxuPost _ _ rel w => some (rel, w)
  | .afaddPost _ _ rel w => some (rel, w)
  | _ => none

/-- What an access of one address is (R116): its kind, address, size and alignment. Atomics of 8 bytes have the address in gA. -/
noncomputable def accessOf (s : State) : Instr → Option (Kind × Nat × Nat × Nat)
  | .ldb _ a o _ _ => some (.load, s.memEa a o 1, 1, 1)
  | .ldh _ a o _ _ => some (.load, s.memEa a o 2, 2, 2)
  | .ldw _ a o _ _ => some (.load, s.memEa a o 4, 4, 4)
  | .ldd _ a o _ _ => some (.load, s.memEa a o 8, 8, 8)
  | .pref a o _ _ => some (.load, s.memEa a o 8, 8, 8)
  | .vld _ a o _ _ => some (.load, s.memEa a o 64, 64, 64)
  | .stb _ a o _ _ => some (.store, s.memEa a o 1, 1, 1)
  | .sth _ a o _ _ => some (.store, s.memEa a o 2, 2, 2)
  | .stw _ a o _ _ => some (.store, s.memEa a o 4, 4, 4)
  | .std _ a o _ _ => some (.store, s.memEa a o 8, 8, 8)
  | .vst _ a o _ _ => some (.store, s.memEa a o 64, 64, 64)
  | .stn a _ _ _ _ => some (.nibble, s.gN a, 1, 1)
  | .axchg _ a _ _ _ _ => some (.atomic, s.gN a, 8, 8)
  | .aadd _ a _ _ _ _ => some (.atomic, s.gN a, 8, 8)
  | .aand _ a _ _ _ _ => some (.atomic, s.gN a, 8, 8)
  | .aor _ a _ _ _ _ => some (.atomic, s.gN a, 8, 8)
  | .axor _ a _ _ _ _ => some (.atomic, s.gN a, 8, 8)
  | .amin _ a _ _ _ _ => some (.atomic, s.gN a, 8, 8)
  | .amax _ a _ _ _ _ => some (.atomic, s.gN a, 8, 8)
  | .aminu _ a _ _ _ _ => some (.atomic, s.gN a, 8, 8)
  | .amaxu _ a _ _ _ _ => some (.atomic, s.gN a, 8, 8)
  | .afadd _ a _ _ _ _ => some (.atomic, s.gN a, 4, 4)
  | .cas _ a _ _ _ _ => some (.atomic, s.gN a, 8, 8)
  | .casp _ a _ _ _ _ => some (.atomic, s.gN a, 16, 16)
  | .axchgPost a _ _ _ => some (.atomic, s.gN a, 8, 8)
  | .aaddPost a _ _ _ => some (.atomic, s.gN a, 8, 8)
  | .aandPost a _ _ _ => some (.atomic, s.gN a, 8, 8)
  | .aorPost a _ _ _ => some (.atomic, s.gN a, 8, 8)
  | .axorPost a _ _ _ => some (.atomic, s.gN a, 8, 8)
  | .aminPost a _ _ _ => some (.atomic, s.gN a, 8, 8)
  | .amaxPost a _ _ _ => some (.atomic, s.gN a, 8, 8)
  | .aminuPost a _ _ _ => some (.atomic, s.gN a, 8, 8)
  | .amaxuPost a _ _ _ => some (.atomic, s.gN a, 8, 8)
  | .afaddPost a _ _ _ => some (.atomic, s.gN a, 4, 4)
  | _ => none

/-- The prefetches (R123): PREF, and LDD of g0 without .ACQ. -/
noncomputable def prefetches : Instr → Bool
  | .pref _ _ _ _ => true
  | .ldd d _ _ h _ => d == 0 && h != .order
  | _ => false

/-- An access has to wait before it is checked (R120, R121, R128): .REL for all five counters, the W field for those it names. -/
abbrev State.mustWait (s : State) (rel : Bool) (w : WaitSel) : Prop :=
  if rel then s.quietAt s.cur.core s.cur.ctx = false
  else (w.sn = true ∧ s.cnt .sn ≠ 0) ∨ (w.sg = true ∧ s.cnt .sg ≠ 0)

/-- The counter classes whose logged faults a wait covers (R132). -/
def coversOf (rel : Bool) (w : WaitSel) (c : Nat) : Bool :=
  if rel then decide (c ≤ 2) else (w.sn && c == 0) || (w.sg && c == 1)

/-- An access goes on to its checks: it need not wait, and where it names a wait no logged fault that the wait covers is left
(R132). -/
abbrev State.goesOn (s : State) (rel : Bool) (w : WaitSel) : Prop :=
  ¬ s.mustWait rel w ∧ (s.raiseLogged (coversOf rel w) = none ∨ (rel = false ∧ w.sn = false ∧ w.sg = false))

/-- The instruction leaves its context STALLED for a reason (R16): nothing but the state bits of its CX.STATUS differs from
`base`, in which the context waits. -/
def Stalls (s base : State) (o : Host.Outcome State Fault Refusal) (k : Wait) : Prop :=
  ∃ t, o = .next t ∧ BytesOnly [s.cxRange cxSTATUS] (base.setMyCtx { base.myCtx with wait := k }) t ∧
    bits (t.cx cxSTATUS) 3 0 = 2 ∧ t.cx cxSTATUS / 256 = s.cx cxSTATUS / 256

/-- Two ranges have no byte in common. -/
abbrev apartFrom (r q : Range) : Prop := r.1 + r.2 ≤ q.1 ∨ q.1 + q.2 ≤ r.1

/-- A range leaves the words alone that decide how the executing context's instruction completes: CX.PC, CX.REPS, CX.REPN and
CX.REPB. -/
abbrev State.offFlow (s : State) (r : Range) : Prop := apartFrom r (s.cxRange cxPC) ∧ apartFrom r (s.wsLoc s.cur.core s.cur.ctx cxREPS, 24)

/-- The context in whose current workspace bytes lie, and their offset in it, when some of them are of its context words (R20). -/
def State.inWords (s : State) (cl u off n : Nat) : Option (Nat × Nat) :=
  if u < 8 then (s.wsAt (coreOfUnit cl u) off).filter (fun w => decide (cxPC < w.2 + n) && decide (w.2 < cxLOG)) else none

/-- The bytes that a store may change: those stored, and in the context words of a current workspace the whole words that they lie in,
whose reserved bits stay zero (R20). -/
def State.storeRange (s : State) (cl u off n : Nat) : Range :=
  if (s.inWords cl u off n).isSome then (nearLoc cl u (off / 8 * 8), (off % 8 + n + 7) / 8 * 8) else (nearLoc cl u off, n)

/-- What a store of bytes at a place of the executing core's package leaves: each byte stored; and in the context words of a current
workspace, each word with the bytes put in it and then its reserved bits zero, and its CTX, STATE and CANREQ as the core holds them
(R16, R20, R22; log entry 7). -/
def State.holdsStored (s t : State) (cl u off : Nat) (bs : List Byte) : Prop :=
  match s.inWords cl u off bs.length with
  | none => ∀ k, k < bs.length → t.mem.get (nearLoc cl u off + k) = bs.getD k 0
  | some (x, o) =>
    (∀ k, k < bs.length → o + k < cxPC → t.mem.get (nearLoc cl u off + k) = bs.getD k 0) ∧
    ∀ w, w % 8 = 0 → cxPC ≤ w → o < w + 8 → w < o + bs.length →
      t.cxAt (coreOfUnit cl u) x w = cxHeld x (s.stateAt (coreOfUnit cl u) x) w
        (natOf ((s.mem.write (nearLoc cl u off) bs).read (s.wsLoc (coreOfUnit cl u) x w) 8))

/-- The counter of an operation by where its target lies (R28): SG for global space, SN for near space. -/
def sendsTo (p : Dest) : Cnt := if p = .global then .sg else .sn

/-- A request of the executing context as it leaves the core; `rel` says whether it is a release (R229). -/
def State.reqFor (s : State) (p : Dest) (ea : Nat) (op : MemOp) (back : Back) (seq : Option (Nat × Nat)) (rel : Bool) : Flight :=
  .mem { part := s.partOf s.cur.core, va := ea, near := p.near, op := op, back := back, seq := seq, stage := .travelling,
         refused := none, rel := rel, again := false }

/-- The pair of an atomic or nibble store that another agent executes, and the state in which the core has counted it (R129). -/
def State.seqTaken (s : State) (leaves : Bool) : State := if leaves then s.setMe { s.me with seq := (s.me.seq + 1) % 2 ^ 32 } else s
def State.seqPair (s : State) (leaves : Bool) : Option (Nat × Nat) :=
  if leaves then some (s.pkgId * 4096 + s.cur.core, s.me.seq) else none

/-- The executing context without what it fetched ahead: what an acquire leaves outside memory (R34, R229). -/
def State.acquired (s : State) : State := s.setMyCtx { s.myCtx with ahead := [] }

/-- A command of the executing context put in the queue of its engine, with all that it captures (R141). -/
def State.queued (s : State) (cw : CWord) (op : CmdOp) (bytes : Nat) : State :=
  let c : Cmd :=
    { id := s.nextId, core := s.cur.core, ctx := s.cur.ctx, pc := s.pc, part := s.partOf s.cur.core,
      pri := bits (s.cx cxSTATUS) 11 10, since := s.clock, cw := cw, bytes := bytes, fmt := .reset, op := op, owner := .ctx,
      todo := [], failed := none, dmask := 0, wake := none, shelves := [], held := [] }
  let t : State := { s with nextId := s.nextId + 1 }
  if op.isCopy then t.setMe { s.me with copyQ := s.me.copyQ ++ [c] } else t.setMe { s.me with matQ := s.me.matQ ++ [c] }

/-- The engine's queue holds 16 commands (R141). -/
abbrev State.noRoom (s : State) (op : CmdOp) : Prop := 16 ≤ (if op.isCopy then s.me.copyQ else s.me.matQ).length

/-- The counter of a command (R28, R141): CP for copies, TL for matrix commands. -/
def cmdCnt (op : CmdOp) : Cnt := if op.isCopy then .cp else .tl

/-- A counted command whose issue checks pass (R141, R145, R146). An invalid completion object traps with its address as given. While
the queue or the counter is full, or an engine holds the object, the context is STALLED. Otherwise the command is queued and counted,
its object, which lies off the context's own workspace, gains its bytes and one command, and `k` tells how the context goes on from the state with the command queued. -/
def Queues (s : State) (o : Host.Outcome State Fault Refusal) (cw : CWord) (op : CmdOp) (bytes : Nat)
    (k : State → List Range → (State → Prop) → Prop) : Prop :=
  (∀ va, cw = .obj va → s.objLoc va = none → o = .next (s.takeTrap 0x186 va 0)) ∧
  (∀ loc, s.cwLoc cw = some loc → (s.noRoom op ∨ s.cnt (cmdCnt op) = 63 ∨ ∃ l, loc = some l ∧ s.nearHeld l 16 = true) →
    Stalls s s o .retry) ∧
  ∀ loc, s.cwLoc cw = some loc → ¬ s.noRoom op → s.cnt (cmdCnt op) < 63 →
    (∀ l, loc = some l → s.nearHeld l 16 = false ∧ apartFrom (l, 16) (s.wsLoc s.cur.core s.cur.ctx 0, 0xC00)) →
    k (s.queued (s.nearCw cw) op bytes) (s.cxRange cxCNT :: loc.toList.map (fun l => (l, 8))) (fun t =>
      ∀ l, loc = some l → natOf (t.rd l 8) = (natOf (s.rd l 8) + bytes) % 2 ^ 48 + (natOf (s.rd l 8) / 2 ^ 48 + 1) % 2 ^ 16 * 2 ^ 48)

/-- A counted command whose context goes on (R141). -/
def Issues (s : State) (o : Host.Outcome State Fault Refusal) (cw : CWord) (op : CmdOp) (bytes : Nat) : Prop :=
  Queues s o cw op bytes (fun base rs p => CompletesOver s base o rs (fun t =>
    p t ∧ t.cx cxCNT = s.cx cxCNT + 2 ^ (cmdCnt op).lo))

/-- The instructions of the engines and of the queues, which a handler activation and a member of a twin pair may not use (R208,
R369): tile commands, shelves, accumulates, flushes and launches. -/
noncomputable def usesUnits : Instr → Bool
  | .mfmt .. => true
  | .malloc .. => true
  | .mfree .. => true
  | .mzero .. => true
  | .mma .. => true
  | .gmma .. => true
  | .mdrain .. => true
  | .mquant .. => true
  | .msync => true
  | .mrank .. => true
  | .mthr .. => true
  | .acct .. => true
  | .tcopy .. => true
  | .tgather .. => true
  | .tscatter .. => true
  | .tmcast .. => true
  | .tfill .. => true
  | .acc .. => true
  | .accBf16 .. => true
  | .rmerge .. => true
  | .flushresAll => true
  | .flushresRange .. => true
  | .shelfput .. => true
  | .shelfcloseAll => true
  | .shelfcloseDie .. => true
  | .launch .. => true
  | .flood .. => true
  | _ => false

/-- A context of this package waits for the answer to a request, or counts it. -/
def Back.heard : Back → Bool
  | .ctx _ _ => true
  | .count _ _ _ _ _ => true
  | _ => false

/-- The answer to a request takes its place among what is in flight (R119, R224): a reply to the context that waits, or an
acknowledgement to the one that counts it. -/
def State.inPlace (s : State) (id : Nat) (back : Back) (va : Nat) (a : Answer) : State :=
  let f : Flight := match back, a with
    | .ctx _ _, _ => .reply back a
    | _, .data _ => .ack back va 0
    | _, .fault c _ _ => .ack back va c
  { s with flights := s.flights.map (fun x => if x.1 = id then (id, f) else x) }

/-- The workspaces of a core's contexts have no byte in common (R23). -/
abbrev State.slotsApart (s : State) (core : Nat) : Prop :=
  ∀ x, x < 12 → ∀ y, y < 12 → x ≠ y → apartFrom (s.wsLoc core x 0, 0xC00) (s.wsLoc core y 0, 0xC00)

/-- An event answers a next state that differs from `base` only in the ranges, and of which `p` holds. -/
def Reaches (base : State) (o : Host.Outcome State Fault Refusal) (ranges : List Range) (p : State → Prop) : Prop :=
  ∃ t, o = .next t ∧ BytesOnly ranges base t ∧ p t

/-- Of some contexts, exactly one is STALLED in BARWAIT on a phase of a barrier object (R138, R216). -/
def State.onlyWaiter (s : State) (key gen core ctx : Nat) (at_ : Cur) : Prop :=
  (s.ctxAt core ctx).wait = .barrier key gen at_ ∧ s.stateAt core ctx = 2 ∧
    ∀ x y a, (x, y) ≠ (core, ctx) → (s.ctxAt x y).wait ≠ .barrier key gen a

/-- No context of a cluster waits to execute its instruction again: what wakes such contexts changes nothing (R16). -/
def State.calm (s : State) (cl : Nat) : Prop :=
  ∀ core ctx, core / 8 = cl → (s.ctxAt core ctx).wait ≠ .retry ∧ ∀ n, (s.ctxAt core ctx).wait ≠ .bank n

/-- A link that is LIVE as this package knows it leads from a port of a package to another package (R376); `full` says whether it is
configured FULL. -/
def State.liveLink (s : State) (pkg port dest : Nat) (full : Bool) : Prop :=
  port < 144 ∧ ∃ far, Config.cable pkg port = some far ∧ far / 256 % 1024 = dest ∧ (Tbl.get (0, false) s.links2 (pkg * 256 + port)).2 = false ∧
    (Tbl.get (0, false) s.links2 far).2 = false ∧
    full = ((if pkg = s.pkgId then (Tbl.get Port.reset s.ports port).lclass else Config.linkClass pkg port) == 1)

/-- A path of `hops` live links, counted after the first, from this package to another, by its first port; `full` says whether every
link of it is FULL (R376). -/
def State.path (s : State) (first : Nat) : Nat → Nat → Bool → Prop
  | 0, dest, full => s.liveLink s.pkgId first dest full
  | hops + 1, dest, full => ∃ mid port f g, s.path first hops mid f ∧ s.liveLink mid port dest g ∧ full = (f && g)

end Sys2Proof.Machine
end

