-- ==== Sys2Proof/Certificates/Slice0/Obligations.lean ====
section
/-! DEFINITION. Certificates/Slice0/Obligations.lean: the statements for the provers, each formalising rules of the
specification. A statement over several claims is their conjunction, each claim a definition of its own (Claims.<Name>). -/
open Sys2Proof Sys2Proof.Machine

/-! ### Integer instructions (R77 to R84) -/

/-- R78: each result, with nothing else changed and CX.PC moved on. -/
def Claims.IntegerResults : Prop := ∀ (s : State) (d a b : GReg),
  let x := s.gN a
  let y := s.gN b
  let n := s.gN b % 64
  let sx := (s.g a).toInt
  let sy := (s.g b).toInt
  WritesG s (exec (.add d a b) s) d (BitVec.ofNat 64 (x + y)) ∧
  WritesG s (exec (.sub d a b) s) d (BitVec.ofInt 64 (x - y)) ∧
  WritesG s (exec (.and d a b) s) d (BitVec.ofNat 64 (x &&& y)) ∧
  WritesG s (exec (.or d a b) s) d (BitVec.ofNat 64 (x ||| y)) ∧
  WritesG s (exec (.xor d a b) s) d (BitVec.ofNat 64 (x ^^^ y)) ∧
  WritesG s (exec (.andn d a b) s) d (BitVec.ofNat 64 (x &&& (2 ^ 64 - 1 - y))) ∧
  WritesG s (exec (.shl d a b) s) d (BitVec.ofNat 64 (x * 2 ^ n)) ∧
  WritesG s (exec (.shr d a b) s) d (BitVec.ofNat 64 (x / 2 ^ n)) ∧
  WritesG s (exec (.sra d a b) s) d (BitVec.ofInt 64 (sx / 2 ^ n)) ∧
  WritesG s (exec (.rol d a b) s) d (BitVec.ofNat 64 (x * 2 ^ n + x / 2 ^ (64 - n))) ∧
  WritesG s (exec (.ror d a b) s) d (BitVec.ofNat 64 (x / 2 ^ n + x * 2 ^ (64 - n))) ∧
  WritesG s (exec (.min d a b) s) d (BitVec.ofInt 64 (min sx sy)) ∧
  WritesG s (exec (.max d a b) s) d (BitVec.ofInt 64 (max sx sy)) ∧
  WritesG s (exec (.minu d a b) s) d (BitVec.ofNat 64 (min x y)) ∧
  WritesG s (exec (.maxu d a b) s) d (BitVec.ofNat 64 (max x y))

/-- R79: products, quotients and remainders, and DIVIDE_BY_ZERO (0x042) with CX.ADDR zero and the PC in CX.AUX. -/
def Claims.MultiplyDivideResults : Prop := ∀ (s : State) (d a b : GReg),
  let x := s.gN a
  let y := s.gN b
  let sx := (s.g a).toInt
  let sy := (s.g b).toInt
  WritesG s (exec (.mul d a b) s) d (BitVec.ofNat 64 (x * y)) ∧
  WritesG s (exec (.mulh d a b) s) d (BitVec.ofInt 64 (sx * sy / 2 ^ 64)) ∧
  WritesG s (exec (.mulhu d a b) s) d (BitVec.ofNat 64 (x * y / 2 ^ 64)) ∧
  (y ≠ 0 →
    WritesG s (exec (.div d a b) s) d (if sx = -2 ^ 63 ∧ sy = -1 then BitVec.ofInt 64 (-2 ^ 63) else BitVec.ofInt 64 (sx.tdiv sy)) ∧
    WritesG s (exec (.rem d a b) s) d (if sx = -2 ^ 63 ∧ sy = -1 then 0 else BitVec.ofInt 64 (sx - sx.tdiv sy * sy)) ∧
    WritesG s (exec (.divu d a b) s) d (BitVec.ofNat 64 (x / y)) ∧
    WritesG s (exec (.remu d a b) s) d (BitVec.ofNat 64 (x - x / y * y))) ∧
  (y = 0 → ∀ i ∈ [Instr.div d a b, .rem d a b, .divu d a b, .remu d a b], exec i s = .next (s.takeTrap 0x042 0 s.pc))

/-- R80: comparisons and conditional moves. -/
def Claims.CompareMoveResults : Prop := ∀ (s : State) (d a b : GReg),
  let x := s.gN a
  let y := s.gN b
  let sx := (s.g a).toInt
  let sy := (s.g b).toInt
  WritesG s (exec (.cmpeq d a b) s) d (if x = y then 1 else 0) ∧
  WritesG s (exec (.cmpne d a b) s) d (if x = y then 0 else 1) ∧
  WritesG s (exec (.cmplt d a b) s) d (if sx < sy then 1 else 0) ∧
  WritesG s (exec (.cmpltu d a b) s) d (if x < y then 1 else 0) ∧
  WritesG s (exec (.cmple d a b) s) d (if sx ≤ sy then 1 else 0) ∧
  WritesG s (exec (.cmpleu d a b) s) d (if x ≤ y then 1 else 0) ∧
  WritesG s (exec (.cmovz d a b) s) d (if y = 0 then s.g a else s.g d) ∧
  WritesG s (exec (.cmovnz d a b) s) d (if y = 0 then s.g d else s.g a)

/-- R81: counts, reversals and extensions, each said by the bits of its result. -/
def Claims.BitCountResults : Prop := ∀ (s : State) (d a : GReg),
  let x := s.g a
  (∃ n, n ≤ 64 ∧ WritesG s (exec (.clz d a) s) d (BitVec.ofNat 64 n) ∧ (∀ i, i < n → x.getLsbD (63 - i) = false) ∧
    (n < 64 → x.getLsbD (63 - n) = true)) ∧
  (∃ n, n ≤ 64 ∧ WritesG s (exec (.ctz d a) s) d (BitVec.ofNat 64 n) ∧ (∀ i, i < n → x.getLsbD i = false) ∧
    (n < 64 → x.getLsbD n = true)) ∧
  WritesG s (exec (.popc d a) s) d (BitVec.ofNat 64 ((List.range 64).countP (fun i => x.getLsbD i))) ∧
  (∃ v : Word, WritesG s (exec (.brev d a) s) d v ∧ ∀ i, i < 64 → v.getLsbD i = x.getLsbD (63 - i)) ∧
  (∃ v : Word, WritesG s (exec (.bswap d a) s) d v ∧
    ∀ j, j < 8 → v.extractLsb' (8 * j) 8 = x.extractLsb' (8 * (7 - j)) 8) ∧
  WritesG s (exec (.sextb d a) s) d (BitVec.ofInt 64 (x.extractLsb' 0 8).toInt) ∧
  WritesG s (exec (.sexth d a) s) d (BitVec.ofInt 64 (x.extractLsb' 0 16).toInt) ∧
  WritesG s (exec (.sextw d a) s) d (BitVec.ofInt 64 (x.extractLsb' 0 32).toInt) ∧
  WritesG s (exec (.zextb d a) s) d (BitVec.ofNat 64 (s.gN a % 2 ^ 8)) ∧
  WritesG s (exec (.zexth d a) s) d (BitVec.ofNat 64 (s.gN a % 2 ^ 16)) ∧
  WritesG s (exec (.zextw d a) s) d (BitVec.ofNat 64 (s.gN a % 2 ^ 32))

/-- R82: bit i of a field extracted, and of a register with a field inserted. -/
def Claims.BitFieldResults : Prop := ∀ (s : State) (d a b : GReg),
  let pos := s.gN b % 64
  let len := s.gN b / 2 ^ 8 % 128
  (∃ v : Word, WritesG s (exec (.bext d a b) s) d v ∧
    ∀ i, i < 64 → v.getLsbD i = (decide (i < len ∧ pos + i < 64) && (s.g a).getLsbD (pos + i))) ∧
  (∃ v : Word, WritesG s (exec (.bins d a b) s) d v ∧
    ∀ i, i < 64 → v.getLsbD i = if pos ≤ i ∧ i < pos + len then (s.g a).getLsbD (i - pos) else (s.g d).getLsbD i)

/-- R83 and R84: the immediate forms; ADDPC counts from the instruction's first word. -/
def Obligations.ImmediateResults : Prop := ∀ (s : State) (d a : GReg) (imm : Imm) (sh : Fin 64),
  let x := s.gN a
  let y := imm.val.toNat
  let sx := (s.g a).toInt
  let n := sh.val
  WritesG s (exec (.addi d a imm) s) d (BitVec.ofNat 64 (x + y)) ∧
  WritesG s (exec (.andi d a imm) s) d (BitVec.ofNat 64 (x &&& y)) ∧
  WritesG s (exec (.ori d a imm) s) d (BitVec.ofNat 64 (x ||| y)) ∧
  WritesG s (exec (.xori d a imm) s) d (BitVec.ofNat 64 (x ^^^ y)) ∧
  WritesG s (exec (.cmpeqi d a imm) s) d (if x = y then 1 else 0) ∧
  WritesG s (exec (.cmplti d a imm) s) d (if sx < imm.val.toInt then 1 else 0) ∧
  WritesG s (exec (.cmpltui d a imm) s) d (if x < y then 1 else 0) ∧
  WritesG s (exec (.addpc d imm) s) d (BitVec.ofNat 64 (s.pc + y)) ∧
  WritesG s (exec (.muli d a imm) s) d (BitVec.ofNat 64 (x * y)) ∧
  WritesG s (exec (.shli d a sh) s) d (BitVec.ofNat 64 (x * 2 ^ n)) ∧
  WritesG s (exec (.shri d a sh) s) d (BitVec.ofNat 64 (x / 2 ^ n)) ∧
  WritesG s (exec (.srai d a sh) s) d (BitVec.ofInt 64 (sx / 2 ^ n)) ∧
  WritesG s (exec (.rori d a sh) s) d (BitVec.ofNat 64 (x / 2 ^ n + x * 2 ^ (64 - n)))

/-! ### Branches, jumps and repetition (R90 to R96) -/

/-- R90 to R93: where CX.PC goes, what is linked or counted, and that nothing else changes. -/
def Obligations.BranchResults : Prop := ∀ (s : State) (d a b : GReg) (imm : Imm),
  let tgt := s.wordTarget imm
  let sx := (s.g a).toInt
  let sy := (s.g b).toInt
  let jumpsIf (c : Prop) (i : Instr) :=
    (c → Jumps s (exec i s) tgt [] (fun _ => True)) ∧ (¬ c → Completes s (exec i s) [] (fun _ => True))
  let link := s.nextPC % 2 ^ 64
  jumpsIf (s.gN a = s.gN b) (.beq a b imm) ∧
  jumpsIf (s.gN a ≠ s.gN b) (.bne a b imm) ∧
  jumpsIf (sx < sy) (.blt a b imm) ∧
  jumpsIf (sy ≤ sx) (.bge a b imm) ∧
  jumpsIf (s.gN a < s.gN b) (.bltu a b imm) ∧
  jumpsIf (s.gN b ≤ s.gN a) (.bgeu a b imm) ∧
  Jumps s (exec (.jal d imm) s) tgt (s.gRange d) (fun t => t.gN d = if d = 0 then 0 else link) ∧
  (let t := (s.gN a + 4 * imm.val.toNat) % 2 ^ 64
   (t % 4 = 0 → Jumps s (exec (.jalr d a imm) s) t (s.gRange d) (fun u => u.gN d = if d = 0 then 0 else link)) ∧
   (t % 4 ≠ 0 → exec (.jalr d a imm) s = .next (s.takeTrap 0x004 t 0))) ∧
  (let n := (s.gN d + (2 ^ 64 - 1)) % 2 ^ 64
   Jumps s (exec (.loopnz d imm) s) (if n = 0 then link else tgt) (s.gRange d) (fun u => u.gN d = if d = 0 then 0 else n))

/-! ### Scalar floating point (R54 to R69, R85 to R89) -/

/-- R85, R86, R88: each result is formed exactly from the FP32 values in bits [31:0] of the registers and rounded once by
CX.STATUS.RM; the flags accrue. FABS, FNEG and FCOPYS move bits and set no flag. -/
def Claims.ScalarFloatResults : Prop := ∀ (s : State) (d a b : GReg),
  let x := s.gN a % 2 ^ 32
  let y := s.gN b % 2 ^ 32
  let vx := fp32.decode x
  let vy := fp32.decode y
  let vd := fp32.decode (s.gN d % 2 ^ 32)
  let rm := RoundMode.ofCode (bits (s.cx cxSTATUS) 13 12)
  let rounded (i : Instr) (r : FRes) := WritesF s (exec i s) d (fp32.deliver false rm r)
  rounded (.fadd d a b) (addVal rm vx vy) ∧
  rounded (.fsub d a b) (addVal rm vx vy.negate) ∧
  rounded (.fmul d a b) (mulVal vx vy) ∧
  rounded (.fdiv d a b) (divVal vx vy) ∧
  rounded (.fmadd d a b) (fmaVal rm vx vy vd) ∧
  rounded (.fmsub d a b) (fmaVal rm vx vy vd.negate) ∧
  rounded (.fsqrt d a) (sqrtVal vx) ∧
  WritesF s (exec (.fmin d a b) s) d (fMinMax true x y) ∧
  WritesF s (exec (.fmax d a b) s) d (fMinMax false x y) ∧
  WritesF s (exec (.fabs d a) s) d (x % 2 ^ 31, {}) ∧
  WritesF s (exec (.fneg d a) s) d (x ^^^ 2 ^ 31, {}) ∧
  WritesF s (exec (.fcopys d a b) s) d (x % 2 ^ 31 + y / 2 ^ 31 * 2 ^ 31, {}) ∧
  WritesF s (exec (.fcmpeq d a b) s) d (boolNat (vx.eq vy), { nv := vx.isSig || vy.isSig }) ∧
  WritesF s (exec (.fcmplt d a b) s) d (boolNat (vx.lt vy), { nv := vx.isNan || vy.isNan }) ∧
  WritesF s (exec (.fcmple d a b) s) d (boolNat (vx.lt vy || vx.eq vy), { nv := vx.isNan || vy.isNan }) ∧
  WritesF s (exec (.fcmpun d a b) s) d (boolNat (vx.isNan || vy.isNan), { nv := vx.isSig || vy.isSig }) ∧
  WritesF s (exec (.fclass d a) s) d (fClass x, {})

/-- R89: the conversions, by the mode that RC names or by CX.STATUS.RM. -/
def Claims.ConversionResults : Prop := ∀ (s : State) (d a : GReg) (rc : RoundSel) (inf : Bool),
  let g := s.gN a
  let v := fp32.decode (g % 2 ^ 32)
  let m := match rc with
    | .named n => n
    | .dynamic => RoundMode.ofCode (bits (s.cx cxSTATUS) 13 12)
  let wide (f : FFmt) (n : Nat) := widen (f.decode (g % 2 ^ n))
  WritesF s (exec (.itof d a rc) s) d (ofInt m (s.g a).toInt) ∧
  WritesF s (exec (.utof d a rc) s) d (ofInt m g) ∧
  (let r := toInt m (-2 ^ 63) (2 ^ 63 - 1) v
   WritesF s (exec (.ftoi d a rc) s) d ((BitVec.ofInt 64 r.1).toNat, r.2)) ∧
  (let r := toInt m 0 (2 ^ 64 - 1) v
   WritesF s (exec (.ftou d a rc) s) d ((BitVec.ofInt 64 r.1).toNat, r.2)) ∧
  WritesF s (exec (.ftobf d a rc) s) d (bf16.narrow false m v) ∧
  WritesF s (exec (.bftof d a rc) s) d (g % 2 ^ 16 * 2 ^ 16, {}) ∧
  WritesF s (exec (.ftoe4 d a rc) s) d (e4m3.narrow true m v) ∧
  WritesF s (exec (.e4tof d a rc) s) d (wide e4m3 8, {}) ∧
  WritesF s (exec (.ftoe5 d a rc inf) s) d (e5m2.narrow (!inf) m v) ∧
  WritesF s (exec (.e5tof d a rc) s) d (wide e5m2 8, { nv := (e5m2.decode (g % 2 ^ 8)).isSig }) ∧
  WritesF s (exec (.ftoe2 d a rc) s) d (e2m1.narrow true m v) ∧
  WritesF s (exec (.e2tof d a rc) s) d (wide e2m1 4, {})

/-- R87 and R88 by the bits of the operands: the order of encodings that are no NaN is the order of their sign and magnitude,
FMIN and FMAX put −0 below +0, and FCLASS goes by exponent and fraction. -/
def Claims.FloatOrderRules : Prop := ∀ x y : Nat, x < 2 ^ 32 → y < 2 ^ 32 →
  let mag (z : Nat) : Nat := z % 2 ^ 31
  let nan (z : Nat) : Prop := 0x7F800000 < mag z
  let sig (z : Nat) : Prop := nan z ∧ mag z < 0x7FC00000
  let key (z : Nat) : Int := if z < 2 ^ 31 then mag z else -(mag z : Int)
  let total (z : Nat) : Int := if z < 2 ^ 31 then mag z else -(mag z : Int) - 1
  ((fCmpEq x y).1 = true ↔ ¬ nan x ∧ ¬ nan y ∧ key x = key y) ∧
  ((fCmpLt x y).1 = true ↔ ¬ nan x ∧ ¬ nan y ∧ key x < key y) ∧
  ((fCmpLe x y).1 = true ↔ ¬ nan x ∧ ¬ nan y ∧ key x ≤ key y) ∧
  ((fCmpUn x y).1 = true ↔ nan x ∨ nan y) ∧
  (∀ low, ((fMinMax low x y).2.nv = true ↔ sig x ∨ sig y) ∧ (fMinMax low x y).2 = { nv := (fMinMax low x y).2.nv }) ∧
  (∀ low, nan x → nan y → (fMinMax low x y).1 = 0x7FC00000) ∧
  (∀ low, nan x → ¬ nan y → (fMinMax low x y).1 = y) ∧
  (∀ low, ¬ nan x → nan y → (fMinMax low x y).1 = x) ∧
  (¬ nan x → ¬ nan y → (fMinMax true x y).1 = if total x ≤ total y then x else y) ∧
  (¬ nan x → ¬ nan y → (fMinMax false x y).1 = if total x ≤ total y then y else x) ∧
  fClass x = (if sig x then 2 ^ 8 else if nan x then 2 ^ 9
    else if mag x = 0x7F800000 then (if x < 2 ^ 31 then 2 ^ 7 else 2 ^ 0)
    else if mag x = 0 then (if x < 2 ^ 31 then 2 ^ 4 else 2 ^ 3)
    else if mag x < 0x00800000 then (if x < 2 ^ 31 then 2 ^ 5 else 2 ^ 2)
    else (if x < 2 ^ 31 then 2 ^ 6 else 2 ^ 1))

/-- R58, R62: the one rounding. Where it does not overflow, the delivered magnitude is the nearest representable value to
m · 2^e, with ties to even; toward zero, the largest that is not above it; away from zero, the least that is not below it.
Inexact tells whether it differs from the exact value. -/
def Claims.RoundingIsCorrect : Prop :=
  ∀ f ∈ [fp32, bf16, e4m3, e5m2, e2m1], ∀ (sat neg : Bool) (mode : RoundMode) (m : Nat) (e : Int), 0 < m →
  let r := f.round sat mode neg m e false
  let x : ℚ := m * 2 ^ e
  let val (k : Nat) : ℚ := match f.magVal false k with
    | .fin _ n q => n * 2 ^ q
    | _ => 0
  let down := mode = .rtz ∨ (mode = .rdn ∧ neg = false) ∨ (mode = .rup ∧ neg = true)
  let up := (mode = .rup ∧ neg = false) ∨ (mode = .rdn ∧ neg = true)
  r.2.of = false → ∃ c, c ≤ f.maxCode ∧ r.1 = f.signBit neg + c ∧ (r.2.nx = true ↔ val c ≠ x) ∧
    (mode = .rne → ∀ k, k ≤ f.maxCode → |val c - x| ≤ |val k - x| ∧ (k ≠ c → |val k - x| = |val c - x| → c % 2 = 0)) ∧
    (down → val c ≤ x ∧ ∀ k, k ≤ f.maxCode → val k ≤ x → val k ≤ val c) ∧
    (up → x ≤ val c ∧ ∀ k, k ≤ f.maxCode → x ≤ val k → val c ≤ val k)

/-- R59: a result that overflows, by destination and mode, with overflow and inexact. -/
def Claims.OverflowRule : Prop :=
  ∀ f ∈ [fp32, bf16, e4m3, e5m2, e2m1], ∀ (sat neg : Bool) (mode : RoundMode) (m : Nat) (e : Int), 0 < m →
  let r := f.round sat mode neg m e false
  r.2.of = true →
    r.2.nx = true ∧ r.2.nv = false ∧ r.2.dz = false ∧
    r.1 = f.signBit neg + (if f.hasInf && !sat && (mode == .rne || (mode == .rup && !neg) || (mode == .rdn && neg))
      then f.maxCode + 1 else f.maxCode)

/-- R56, R63 to R65, R67: every BF16, E4M3, E5M2 and E2M1 code widens to the FP32 encoding of the same value; a NaN of the
narrow formats of eight bits becomes the canonical NaN. -/
def Claims.WideningIsExact : Prop :=
  let same (v w : FVal) : Prop := match v, w with
    | .fin n m e, .fin n' m' e' => n = n' ∧ (m : ℚ) * 2 ^ e = m' * 2 ^ e'
    | .inf n, .inf n' => n = n'
    | _, _ => False
  (∀ c < 2 ^ 16, (bf16.decode c).isNan = false → same (fp32.decode (c * 2 ^ 16)) (bf16.decode c)) ∧
  (∀ p ∈ [(e4m3, 8), (e5m2, 8), (e2m1, 4)], ∀ c < 2 ^ p.2,
    if (p.1.decode c).isNan then widen (p.1.decode c) = 0x7FC00000
    else same (fp32.decode (widen (p.1.decode c))) (p.1.decode c))


/-- R94, R95: REP and REPI set up the body's repetition; with a count of zero they step over the body, each of whose
instructions is fetched for its length. -/
def Claims.RepeatBegins : Prop := ∀ (s : State) (a : GReg) (count : Fin 4096) (stride : Fin 8) (len : Fin 16),
  let begins (i : Instr) (n : Nat) :=
    (n ≠ 0 → Jumps s (exec i s) (s.nextPC % 2 ^ 64) [s.cxRange cxREPN, s.cxRange cxREPB, s.cxRange cxREPS] (fun t =>
      t.cx cxREPN = n ∧ t.cx cxREPB = s.nextPC % 2 ^ 64 ∧ t.cx cxREPS = stride.val * 2 ^ 24 + len.val * 2 ^ 20 + 1)) ∧
    (n = 0 → ∀ e, s.skipInstrs s.cur.core s.cur.ctx s.nextPC (len.val + 1) = .ok [e] →
      Jumps s (exec i s) (e % 2 ^ 64 / 4 * 4) [] (fun _ => True))
  begins (.rep a stride len) (s.gN a % 2 ^ 32) ∧ begins (.repi count stride len) count.val

/-- R95: when the last body instruction of a pass completes, the next pass begins at CX.REPB, or the REP ends and CX.PC goes
past the body; ADD stands for every instruction that completes by `Completes`. -/
def Claims.RepeatPasses : Prop := ∀ (s : State) (d a b : GReg), s.cur.last = true → s.cx cxREPS % 2 = 1 →
  ∃ t, exec (.add d a b) s = .next t ∧
    (s.cx cxREPS / 2 ^ 32 + 1 < s.cx cxREPN % 2 ^ 32 →
      t.pc = s.cx cxREPB / 4 * 4 ∧ t.cx cxREPS = s.cx cxREPS + 2 ^ 32) ∧
    (s.cx cxREPN % 2 ^ 32 ≤ s.cx cxREPS / 2 ^ 32 + 1 → t.pc = s.nextPC % 2 ^ 64 ∧ t.cx cxREPS = 0)

/-- R31, R96: in pass p with stride s the window registers move by p · s around their windows and no other register does;
pass 0 renumbers nothing, and a window comes round after 32 places. -/
def Claims.RenumberingRule : Prop :=
  (∀ (k : Nat) (r : GReg), (renameG k r).val = if r.val < 32 then r.val else 32 + (r.val - 32 + k) % 32) ∧
  (∀ (k : Nat) (r : VReg), (renameV k r).val = if r.val < 16 then r.val else 16 + (r.val - 16 + k) % 16) ∧
  (∀ i, renameInstr 0 i = i) ∧
  (∀ j k i, renameInstr j (renameInstr k i) = renameInstr (k + j) i) ∧
  (∀ k i, renameInstr (32 * k) i = i)

/-! ### Steps, issue and privilege (R15, R18, R41, R46) -/

/-- R18: the handler context issues first unless it has issued 64 times in a row while another context was READY; otherwise the
first READY context after the one that last issued, in cyclic order, and never the handler context. A core with one READY context has
nothing to find out before it chooses. -/
def Claims.IssueChoice : Prop := ∀ (s : State) (core : Nat),
  let ready (c : Nat) : Prop := s.stateAt core c = stREADY ∧ s.mayIssue core c = true
  let other : Prop := ∃ c, c < 12 ∧ c ≠ 1 ∧ ready c
  let last := (s.core core).lastIssued
  (s.pick core = none ↔ ¬ ready 1 ∧ ¬ other) ∧
  (s.pick core = some (1, false) ↔ ready 1 ∧ ((s.core core).handlerRun < 64 ∨ ¬ other)) ∧
  (∀ c, s.pick core = some (c, true) ↔ (¬ ready 1 ∨ 64 ≤ (s.core core).handlerRun) ∧ c ≠ 1 ∧
    ∃ k, k < 12 ∧ c = (last + 1 + k) % 12 ∧ ready c ∧
      ∀ j, j < k → (last + 1 + j) % 12 ≠ 1 → ¬ ready ((last + 1 + j) % 12)) ∧
  ((∀ c d, c < 12 → d < 12 → ready c → ready d → c = d) → s.probe core = s)

/-- R18, R41, R46, R33: a step on a core whose chosen context has an instruction to execute runs that instruction: what the words at
CX.PC decode to, or inside an active REP that instruction renumbered. The issue is recorded, unless the instruction only waits to be
executed again. -/
def Obligations.StepRunsDecoded : Prop :=
  ∀ (s : State) (core ctx : Nat) (cyc : Bool) (rest : List Move) (ws : List Nat) (i : Instr) (n : Nat),
  s.agenda = .issue core :: rest → core < 4096 →
  let at_ (x : State) (len : Nat) (last : Bool) : State := { x with cur := { core := core, ctx := ctx, len := len, last := last } }
  let u := ({ s with agenda := rest } : State).probe core
  let v := at_ u 1 false
  u.pick core = some (ctx, cyc) → (ctx = 1 → v.overrun = false) → v.myCtx.badFetch = none → v.instrWords core ctx v.pc = .ok ws →
  let shift := bits (v.cx cxREPS) 63 32 * bits (v.cx cxREPS) 26 24
  let runs (j : Instr) (t : State → State) : Prop :=
    ¬ (isStart j = true ∧ v.myCtx.twin = true) → ¬ (privileged j = true ∧ ctx ≠ 0) → (t u).readsPoison j = false →
    let one (x : State) : Host.Outcome State Fault Refusal := match exec j ((t x).fillFor j) with
      | .next w => .next ((w.countHandler.pruneAhead).toComparator ((t x).fillFor j))
      | o => o
    step s = match (match one (u.noteIssue core ctx cyc) with
        | .next w => if w.waits core ctx then one u else .next w
        | o => o) with
      | .next w => .next w.settleWaits
      | o => o
  (v.cx cxREPS % 2 = 0 → decodeWords ws = .ok (i, n) → runs i (fun x => at_ x n false)) ∧
  (∀ k before, v.placeIn = .inside k before → decodeWordsIn shift ws = .ok (i, n) → repForbidden i = false →
    (renameInstr shift i).groupsOk = true →
    runs (renameInstr shift i) (fun x => at_ ((at_ x 1 false).noteBody before n) n (k == bits (v.cx cxREPS) 23 20)))

/-- R15, R46, R96, R369: an instruction that is privileged traps in every context but the control context, and a body instruction that a
REP may not hold traps where it stands, each with CX.ADDR the address of its first word and CX.AUX its opcode word. START in a twin
member traps TWIN_FORBIDDEN (ahead of its privilege: the model's choice, log entry 125). -/
def Claims.PrivilegeAndBodyTraps : Prop := ∀ (s : State) (i : Instr) (w : Nat),
  (∀ i : Instr, privileged i = true ↔ (∃ a b, i = .setwp a b) ∨ (∃ d a b, i = .start d a b) ∨ (∃ d a b, i = .stopc d a b) ∨
    (∃ d a, i = .park d a) ∨ (∃ a b, i = .bankmode a b)) ∧
  (privileged i = true → s.cur.ctx ≠ 0 → (∀ d a b, i = .start d a b → s.myCtx.twin = false) →
    s.checked i w = .error (s.takeTrap 0x003 s.pc w)) ∧
  (∀ d a b, s.myCtx.twin = true → s.checked (.start d a b) w = .error (s.takeTrap 0x1C3 0 0)) ∧
  (repForbidden i = true → s.inBody i w = .error (s.takeTrap 0x005 s.pc w)) ∧
  (repForbidden i = false →
    let j := renameInstr (bits (s.cx cxREPS) 63 32 * bits (s.cx cxREPS) 26 24) i
    s.inBody i w = if j.groupsOk then .ok j else .error (s.takeTrap 0x001 s.pc w))


/-! ### Traps and the return from one (R13, R357 to R364) -/

/-- R358, R363, R16: a trap that no routine takes. The context is STALLED at the instruction, with the cause, address and AUX in its
context words, and one post is sent, with which it becomes HELD; nothing else changes. -/
def Claims.TrapHolds : Prop := ∀ (s : State) (cause addr aux : Nat),
  cause < 512 → addr < 2 ^ 64 → aux < 2 ^ 64 → s.cur.ctx < 12 → s.cur.ctx ≠ 1 → s.myCtx.twin = false →
  ¬ (cause = 0x1C0 ∧ 2 ≤ s.cur.ctx) →
  (cause = 0x040 ∨ cause = 0x041 ∨ (s.cur.ctx = 0 ∧ s.me.trCvec = 0) ∨
    (2 ≤ s.cur.ctx ∧ cause ≠ 0x106 ∧ (s.me.trVec = 0 ∨ routed s.me.trMask cause = false))) →
  let task := 2 ≤ s.cur.ctx ∧ s.myCtx.helper = false
  let p := s.faultPost (if task then 0 else 1) cause s.pc addr (if task then s.cx cxFUT else aux) (some (s.cur.core, s.cur.ctx))
  let t := s.takeTrap cause addr aux
  BytesOnly [s.cxRange cxCAUSE, s.cxRange cxADDR, s.cxRange cxAUX, s.cxRange cxSTATUS]
    ((s.setMyCtx { s.myCtx with ahead := [], draining := false, wait := .posting }).launchFlight (.post p)) t ∧
  t.cx cxCAUSE = cause ∧ t.cx cxADDR = addr ∧ t.cx cxAUX = aux ∧
  bits (t.cx cxSTATUS) 3 0 = 2 ∧ t.cx cxSTATUS / 256 = s.cx cxSTATUS / 256

/-- R357 to R359, R365: a trap that a routine takes. The frame is pushed below g2, g2 to g6 tell the routine, CX.REPS is cleared and
CX.PC is the routine's; the context goes on. The frame lies outside the workspace (R24). What of g4 to g6 is poisoned is poisoned in the
frame. -/
def Claims.TrapEntersRoutine : Prop := ∀ (s : State) (cause addr aux off : Nat),
  cause < 512 → addr < 2 ^ 64 → aux < 2 ^ 64 → s.cur.ctx < 12 → s.cur.ctx ≠ 1 → s.myCtx.twin = false →
  ¬ (cause = 0x1C0 ∧ 2 ≤ s.cur.ctx) → cause ≠ 0x040 → cause ≠ 0x041 → s.cur.core < 4096 → s.pkgId < 1024 →
  let vec := if s.cur.ctx = 0 then s.me.trCvec else s.me.trVec
  vec ≠ 0 → vec < 2 ^ 60 → vec % 4 = 0 → (2 ≤ s.cur.ctx → routed s.me.trMask cause = true) →
  let f := (s.gN 2 + (2 ^ 64 - 64)) % 2 ^ 64
  f % 16 = 0 → s.inOwnProgram f off →
  let frame := (pmLoc s.cur.core off, 64)
  apartFrom frame (s.wsLoc s.cur.core s.cur.ctx 0, 0xC00) → s.tainted (s.wsLoc s.cur.core s.cur.ctx 16) 8 = false →
  let t := s.takeTrap cause addr aux
  (∀ k, k < 24 → s.tainted (s.wsLoc s.cur.core s.cur.ctx (32 + k)) 1 = true → t.tainted (pmLoc s.cur.core (off + 32 + k)) 1 = true) ∧
  (s.tainted (s.wsLoc s.cur.core s.cur.ctx 32) 24 = false → BytesOnly (frame :: s.gRange 2 ++ s.gRange 4 ++ s.gRange 5 ++ s.gRange 6 ++ [s.cxRange cxPC, s.cxRange cxREPS, s.cxRange cxCAUSE,
    s.cxRange cxADDR, s.cxRange cxAUX, s.cxRange cxSTATUS]) s.trapBase t) ∧
  t.rd (pmLoc s.cur.core off) 64 = bytesOf 8 s.pc ++ bytesOf 8 (s.cx cxREPS) ++ bytesOf 8 (s.cx cxREPN) ++
    bytesOf 8 (s.cx cxREPB) ++ bytesOf 8 (s.gN 4) ++ bytesOf 8 (s.gN 5) ++ bytesOf 8 (s.gN 6) ++ bytesOf 8 cause ∧
  t.gN 2 = f ∧ t.gN 4 = cause ∧ t.gN 5 = addr ∧ t.gN 6 = aux ∧ t.cx cxREPS = 0 ∧ t.pc = vec ∧
  t.cx cxCAUSE = cause ∧ t.cx cxADDR = addr ∧ t.cx cxAUX = aux ∧
  bits (t.cx cxSTATUS) 3 0 = 1 ∧ t.cx cxSTATUS / 256 = s.cx cxSTATUS / 256

/-- R30, R358, R366, R368: a task that a trap ends, STALLED until it may leave. CANCEL_REQUESTED that is not routed ends it with value 0
and posts nothing; consumed poison restarts a task spawned with .RST and ends any other with a post of KIND 2. -/
def Claims.TrapEndsTask : Prop := ∀ (s : State) (cause addr aux : Nat),
  cause < 512 → addr < 2 ^ 64 → aux < 2 ^ 64 → 2 ≤ s.cur.ctx → s.cur.ctx < 12 → s.myCtx.twin = false → s.myCtx.helper = false →
  let ends (e : Ending) :=
    let t := s.takeTrap cause addr aux
    BytesOnly [s.cxRange cxCAUSE, s.cxRange cxADDR, s.cxRange cxAUX, s.cxRange cxSTATUS]
      (s.setMyCtx { s.myCtx with ahead := [], draining := false, wait := .none, ending := some e }) t ∧
    t.pc = s.pc ∧ bits (t.cx cxSTATUS) 3 0 = 2 ∧ t.cx cxSTATUS / 256 = s.cx cxSTATUS / 256
  (cause = 0x106 → (s.me.trVec = 0 ∨ routed s.me.trMask cause = false) → ends .cancelled) ∧
  (cause = 0x1C0 → s.myCtx.rst = true → ends .restart) ∧
  (cause = 0x1C0 → s.myCtx.rst = false → ends (.faulted cause (some (s.faultPost 2 cause s.pc addr (s.cx cxFUT) none))))

/-- R210: an activation that traps is rolled back: its buffered stores, messages and records are dropped, its inbox slot is freed,
its context is EMPTY, and the fault is posted with KIND 3 and the word at +0x08 of the message. -/
def Claims.HandlerRollsBack : Prop := ∀ (s : State) (a : Activation) (cause addr aux : Nat),
  cause < 512 → addr < 2 ^ 64 → aux < 2 ^ 64 → cause ≠ 0x1C0 → cause ≠ 0x007 → s.cur.ctx = 1 → s.me.act = some a → a.futs = [] →
  apartFrom (pmLoc s.cur.core (0x3B000 + 128 * a.slot), 128) (s.wsLoc s.cur.core 1 0, 0xC00) →
  let t := s.takeTrap cause addr aux
  (t.core s.cur.core).act = none ∧ (t.core s.cur.core).inbox = s.me.inbox.filter (fun e => e.slot != a.slot) ∧
  t.stateAt s.cur.core 1 = 0 ∧
  t.flights = s.flights ++ [(s.nextId, .post (s.faultPost 3 cause s.pc addr
    (natOf (s.rd (pmLoc s.cur.core (0x3B000 + 128 * a.slot + 8)) 8)) none))] ∧
  ∀ x, (∀ r ∈ [s.cxRange cxCAUSE, s.cxRange cxADDR, s.cxRange cxAUX, s.cxRange cxSTATUS], x < r.1 ∨ r.1 + r.2 ≤ x) →
    t.mem.get x = s.mem.get x

/-- R361: TRAP takes SOFTWARE_TRAP with CX.PC past it, CX.ADDR zero and gA in CX.AUX; in the handler context it rolls the
activation back and the post's ADDR word carries gA. -/
def Claims.TrapInstruction : Prop := ∀ (s : State) (a : GReg),
  (s.cur.ctx ≠ 1 → exec (.trap a) s = .next ((s.setPC s.nextPC).takeTrap 0x007 0 (s.gN a))) ∧
  (∀ c : Activation, s.cur.ctx = 1 → s.me.act = some c → c.futs = [] →
    apartFrom (pmLoc s.cur.core (0x3B000 + 128 * c.slot), 128) (s.wsLoc s.cur.core 1 0, 0xC00) → ∃ t, exec (.trap a) s = .next t ∧
    (t.core s.cur.core).act = none ∧ t.stateAt s.cur.core 1 = 0 ∧
    t.flights = s.flights ++ [(s.nextId, .post (s.faultPost 3 0x007 s.pc (s.gN a)
      (natOf (s.rd (pmLoc s.cur.core (0x3B000 + 128 * c.slot + 8)) 8)) none))])

/-- R362, R366: ERET restores the frame at g2, and traps TRAP_FRAME_INVALID with CX.ADDR the frame's address on a frame it may not take,
UE_CONSUMED on one that holds poison. -/
def Claims.ReturnFromTrap : Prop := ∀ (s : State) (off : Nat), s.cur.core < 4096 → s.pkgId < 1024 →
  let f := s.gN 2
  let w (i : Nat) := natOf (s.rd (pmLoc s.cur.core (off + 8 * i)) 8)
  let reserved := bits (w 1) 31 27 ≠ 0 ∨ bits (w 1) 19 1 ≠ 0
  let bad := w 0 % 4 ≠ 0 ∨ reserved ∨ (w 1 % 2 = 1 ∧ w 2 % 2 ^ 32 ≤ w 1 / 2 ^ 32)
  let clean := s.tainted (pmLoc s.cur.core off) 64 = false
  ((s.cur.ctx = 1 ∨ f % 16 ≠ 0 ∨ ∀ o, ¬ s.inOwnProgram f o) → exec .eret s = .next (s.takeTrap 0x008 f 0)) ∧
  (s.inOwnProgram f off → bad → clean → exec .eret s = .next (s.takeTrap 0x008 f 0)) ∧
  (s.cur.ctx ≠ 1 → f % 16 = 0 → s.inOwnProgram f off → ¬ clean → exec .eret s = .next (s.takeTrap 0x1C0 f 0)) ∧
  (s.cur.ctx ≠ 1 → f % 16 = 0 → s.inOwnProgram f off → ¬ bad → clean → ∃ t, exec .eret s = .next t ∧
    BytesOnly (s.gRange 2 ++ s.gRange 4 ++ s.gRange 5 ++ s.gRange 6 ++ [s.cxRange cxPC, s.cxRange cxREPS, s.cxRange cxREPN,
      s.cxRange cxREPB]) (s.setMyCtx { s.myCtx with ahead := [] }) t ∧
    t.gN 2 = (f + 64) % 2 ^ 64 ∧ t.gN 4 = w 4 ∧ t.gN 5 = w 5 ∧ t.gN 6 = w 6 ∧ t.pc = w 0 ∧
    t.cx cxREPS = w 1 ∧ t.cx cxREPN = w 2 % 2 ^ 32 ∧ t.cx cxREPB = w 3 / 4 * 4)


/-! ### Vector instructions (R97 to R111) -/

/-- R97, R98, R100 to R102: floating-point lanes, each formed exactly and rounded once by CX.STATUS.RM, the four approximations
onto twelve clear fraction bits; inactive lanes of vD keep their values and no flag is set. -/
def Claims.VectorFloatResults : Prop := ∀ (s : State) (d a b : VReg) (m : MReg),
  let rm := RoundMode.ofCode (bits (s.cx cxSTATUS) 13 12)
  let A (i : Nat) := fp32.decode (s.laneN a i)
  let B (i : Nat) := fp32.decode (s.laneN b i)
  let D (i : Nat) := fp32.decode (s.laneN d i)
  let lanes (j : Instr) (f : Nat → Nat) := WritesV s (exec j s) d (s.mN m) f
  let rounded (j : Instr) (f : Nat → FRes) := lanes j (fun i => (fp32.deliver false rm (f i)).1)
  let near (j : Instr) (f : FVal → FRes) := lanes j (fun i => (fapprox.deliver false .rne (f (A i))).1 * 2 ^ 12)
  rounded (.vfadd d a b m) (fun i => addVal rm (A i) (B i)) ∧
  rounded (.vfsub d a b m) (fun i => addVal rm (A i) (B i).negate) ∧
  rounded (.vfmul d a b m) (fun i => mulVal (A i) (B i)) ∧
  rounded (.vfdiv d a b m) (fun i => divVal (A i) (B i)) ∧
  rounded (.vfma d a b m) (fun i => fmaVal rm (A i) (B i) (D i)) ∧
  rounded (.vfms d a b m) (fun i => fmaVal rm (A i) (B i) (D i).negate) ∧
  rounded (.vfsqrt d a m) (fun i => sqrtVal (A i)) ∧
  lanes (.vfmin d a b m) (fun i => (fMinMax true (s.laneN a i) (s.laneN b i)).1) ∧
  lanes (.vfmax d a b m) (fun i => (fMinMax false (s.laneN a i) (s.laneN b i)).1) ∧
  lanes (.vfabs d a m) (fun i => s.laneN a i % 2 ^ 31) ∧
  lanes (.vfneg d a m) (fun i => s.laneN a i ^^^ 2 ^ 31) ∧
  near (.vfrcp d a m) rcpVal ∧ near (.vfrsq d a m) rsqVal ∧ near (.vfexp2 d a m) exp2Val ∧ near (.vflog2 d a m) log2Val ∧
  (let half (r : VReg) (i k : Nat) := bf16.decode (s.laneN r i / 2 ^ (16 * k) % 2 ^ 16)
   rounded (.vbfma d a b m) (fun i => sumVals (decide (rm = .rdn))
     [some (D i), mulFin (half a i 0) (half b i 0), mulFin (half a i 1) (half b i 1)]))

/-- R97, R103: integer lanes modulo 2^32, and the two that saturate. -/
def Claims.VectorIntegerResults : Prop := ∀ (s : State) (d a b : VReg) (m : MReg),
  let x := s.laneN a
  let y := s.laneN b
  let sx (i : Nat) := (s.lane a i).toInt
  let sy (i : Nat) := (s.lane b i).toInt
  let n (i : Nat) := s.laneN b i % 32
  let lanes (j : Instr) (f : Nat → Int) := WritesV s (exec j s) d (s.mN m) (fun i => (BitVec.ofInt 32 (f i)).toNat)
  let sat (z : Int) : Int := if z < -2 ^ 31 then -2 ^ 31 else if 2 ^ 31 - 1 < z then 2 ^ 31 - 1 else z
  lanes (.vadd d a b m) (fun i => x i + y i) ∧
  lanes (.vsub d a b m) (fun i => x i - y i) ∧
  lanes (.vmul d a b m) (fun i => x i * y i) ∧
  lanes (.vmulh d a b m) (fun i => sx i * sy i / 2 ^ 32) ∧
  lanes (.vmin d a b m) (fun i => min (sx i) (sy i)) ∧
  lanes (.vmax d a b m) (fun i => max (sx i) (sy i)) ∧
  lanes (.vminu d a b m) (fun i => (min (x i) (y i) : Nat)) ∧
  lanes (.vmaxu d a b m) (fun i => (max (x i) (y i) : Nat)) ∧
  lanes (.vand d a b m) (fun i => (x i &&& y i : Nat)) ∧
  lanes (.vor d a b m) (fun i => (x i ||| y i : Nat)) ∧
  lanes (.vxor d a b m) (fun i => (x i ^^^ y i : Nat)) ∧
  lanes (.vshl d a b m) (fun i => x i * 2 ^ n i) ∧
  lanes (.vshr d a b m) (fun i => (x i / 2 ^ n i : Nat)) ∧
  lanes (.vsra d a b m) (fun i => sx i / 2 ^ n i) ∧
  lanes (.vadds d a b m) (fun i => sat (sx i + sy i)) ∧
  lanes (.vsubs d a b m) (fun i => sat (sx i - sy i))

/-- R104, R110: compares lie within the governing mask, VSEL writes every lane, mask logic writes all sixteen bits, and VPRUNE
keeps the candidates that are not below their thresholds. -/
def Claims.VectorCompareResults : Prop := ∀ (s : State) (d a b : VReg) (m e f g : MReg),
  let A (i : Nat) := fp32.decode (s.laneN a i)
  let B (i : Nat) := fp32.decode (s.laneN b i)
  let on (i : Nat) := (s.mN m).testBit i
  let within (j : Instr) (p : Nat → Bool) := WritesM s (exec j s) e (fun i => on i && p i)
  within (.vfcmpeq e a b m) (fun i => (A i).eq (B i)) ∧
  within (.vfcmplt e a b m) (fun i => (A i).lt (B i)) ∧
  within (.vfcmple e a b m) (fun i => (A i).lt (B i) || (A i).eq (B i)) ∧
  within (.vcmpeq e a b m) (fun i => decide (s.laneN a i = s.laneN b i)) ∧
  within (.vcmplt e a b m) (fun i => decide ((s.lane a i).toInt < (s.lane b i).toInt)) ∧
  within (.vcmpltu e a b m) (fun i => decide (s.laneN a i < s.laneN b i)) ∧
  within (.vprune e a b m) (fun i => !(A i).isNan && ((B i).isNan || !(A i).lt (B i))) ∧
  WritesV s (exec (.vsel d a b m) s) d 0xFFFF (fun i => if on i then s.laneN a i else s.laneN b i) ∧
  WritesM s (exec (.mand e f g) s) e (fun i => (s.mN f).testBit i && (s.mN g).testBit i) ∧
  WritesM s (exec (.mor e f g) s) e (fun i => (s.mN f).testBit i || (s.mN g).testBit i) ∧
  WritesM s (exec (.mxor e f g) s) e (fun i => (s.mN f).testBit i != (s.mN g).testBit i) ∧
  WritesM s (exec (.mnot e f) s) e (fun i => !(s.mN f).testBit i)

/-- R105, R106, R111: permutes, conversions and moves, lane by lane. -/
def Claims.VectorMoveResults : Prop := ∀ (s : State) (d a b : VReg) (m e : MReg) (r q : GReg),
  let rm := RoundMode.ofCode (bits (s.cx cxSTATUS) 13 12)
  let A (i : Nat) := fp32.decode (s.laneN a i)
  let lanes (j : Instr) (f : Nat → Nat) := WritesV s (exec j s) d (s.mN m) f
  let byte (i : Nat) := s.laneN a (i / 4) / 2 ^ (8 * (i % 4)) % 2 ^ 8
  let pack (c : Nat → Nat) (i : Nat) := if i < 4 then c (4 * i) + c (4 * i + 1) * 2 ^ 8 + c (4 * i + 2) * 2 ^ 16 +
    c (4 * i + 3) * 2 ^ 24 else 0
  let bf (k : Nat) := (bf16.narrow false rm (fp32.decode (if k < 16 then s.laneN a k else s.laneN b (k - 16)))).1
  lanes (.vperm d a b m) (fun i => s.laneN a (s.laneN b i % 16)) ∧
  lanes (.vrotl d a b m) (fun i => s.laneN a ((i + s.laneN b 0) % 16)) ∧
  lanes (.vziplo d a b m) (fun i => if i % 2 = 0 then s.laneN a (i / 2) else s.laneN b (i / 2)) ∧
  lanes (.vziphi d a b m) (fun i => if i % 2 = 0 then s.laneN a (8 + i / 2) else s.laneN b (8 + i / 2)) ∧
  lanes (.vcvtif d a m) (fun i => (ofInt rm (s.lane a i).toInt).1) ∧
  lanes (.vcvtfi d a m) (fun i => (BitVec.ofInt 32 (toInt rm (-2 ^ 31) (2 ^ 31 - 1) (A i)).1).toNat) ∧
  lanes (.vcvtfbf d a b m) (fun i => bf (2 * i) + bf (2 * i + 1) * 2 ^ 16) ∧
  lanes (.vcvtbff d a m) (fun i => s.laneN a (i / 2) / 2 ^ (16 * (i % 2)) % 2 ^ 16 * 2 ^ 16) ∧
  lanes (.vcvtfe4 d a m) (pack (fun k => (e4m3.narrow true rm (A k)).1)) ∧
  lanes (.vcvtfe5 d a m) (pack (fun k => (e5m2.narrow true rm (A k)).1)) ∧
  lanes (.vcvtfe5Inf d a m) (pack (fun k => (e5m2.narrow false rm (A k)).1)) ∧
  lanes (.vcvte4f d a m) (fun i => widen (e4m3.decode (byte i))) ∧
  lanes (.vcvte5f d a m) (fun i => widen (e5m2.decode (byte i))) ∧
  lanes (.vbcast d r m) (fun _ => s.gN r) ∧
  WritesV s (exec (.vinsr d r q) s) d (2 ^ (s.gN q % 16)) (fun _ => s.gN r) ∧
  WritesG s (exec (.vextr r a q) s) r (BitVec.ofNat 64 (s.laneN a (s.gN q % 16))) ∧
  WritesG s (exec (.mtog r e) s) r (BitVec.ofNat 64 (s.mN e)) ∧
  WritesM s (exec (.gtom e r) s) e (fun i => (s.gN r).testBit i)

/-- R74, R107: VCVTFB4 quantises lanes 0 to 7 and 8 to 15 by the band scale in vB, and on an ill-formed scale fails with
FORMAT_BAD_SCALE before any lane is written. -/
def Claims.BlockScaleConversion : Prop := ∀ (s : State) (d a b : VReg) (m : MReg),
  let rm := RoundMode.ofCode (bits (s.cx cxSTATUS) 13 12)
  let band := s.laneN b 0 % 2 ^ 16
  let block (k : Nat) := quantBlock rm band ((List.range 8).map (fun i => s.laneN a (8 * k + i)))
  let word (cs : List Nat) := (List.range 8).foldl (fun acc j => acc + cs.getD j 0 * 16 ^ j) 0
  (badBand band = true → exec (.vcvtfb4 d a b m) s = .next (s.takeTrap 0x041 0 0)) ∧
  (badBand band = false → WritesV s (exec (.vcvtfb4 d a b m) s) d (s.mN m) (fun i =>
    if i < 2 then word (block i).1 else if i = 2 then (block 0).2 + (block 1).2 * 2 ^ 8 else 0))

/-- R108, R109: reductions write all sixteen lanes, scans the active ones; VREDFADD adds by the fixed tree. -/
def Claims.VectorReductionResults : Prop := ∀ (s : State) (d a : VReg) (m : MReg),
  let rm := RoundMode.ofCode (bits (s.cx cxSTATUS) 13 12)
  let on (i : Nat) := (s.mN m).testBit i
  let act := (List.range 16).filter on
  let canon (x : Nat) := if (fp32.decode x).isNan then 0x7FC00000 else x
  let all (j : Instr) (v : Nat) := WritesV s (exec j s) d 0xFFFF (fun _ => v)
  let lanes (j : Instr) (f : Nat → Nat) := WritesV s (exec j s) d (s.mN m) f
  let plus (x y : Option Nat) := match x, y with
    | none, y => y
    | x, none => x
    | some x, some y => some (fAdd rm x y).1
  let node (i : Nat) := if on i then some (s.laneN a i) else none
  let n8 (j : Nat) := plus (node (2 * j)) (node (2 * j + 1))
  let n4 (j : Nat) := plus (n8 (2 * j)) (n8 (2 * j + 1))
  let n2 (j : Nat) := plus (n4 (2 * j)) (n4 (2 * j + 1))
  let sum (p : Nat → Bool) := ((act.filter p).map (s.laneN a)).sum
  all (.vredadd d a m) (sum (fun _ => true)) ∧
  all (.vredfadd d a m) (match plus (n2 0) (n2 1) with
    | none => 0
    | some v => canon v) ∧
  (∀ low : Bool, all (if low then .vredfmin d a m else .vredfmax d a m) (match act.map (s.laneN a) with
    | [] => if low then 0x7F800000 else 0xFF800000
    | x :: t => canon (t.foldl (fun acc y => (fMinMax low acc y).1) x))) ∧
  lanes (.vscan d a m) (fun i => sum (fun j => decide (j ≤ i))) ∧
  lanes (.vscanx d a m) (fun i => sum (fun j => decide (j < i))) ∧
  lanes (.vscanf d a m) (fun i => match (act.filter (fun j => decide (j ≤ i))).map (s.laneN a) with
    | [] => 0
    | x :: t => canon (t.foldl (fun acc y => (fAdd rm acc y).1) x))


/-! ### Loads, stores and atomics (R112 to R130) -/

/-- R116, R382: the checks on an address in their order, and the addresses that pass them; `k` tells atomics and nibble stores apart. -/
def Claims.AddressChecks : Prop := ∀ (s : State) (k : Kind) (ea n align : Nat), ea < 2 ^ 64 →
  let region := ea / 2 ^ 56
  let unit := ea / 2 ^ 33 % 16
  let off := ea % 2 ^ 33
  let own := ea / 2 ^ 46 % 1024 = s.pkgId
  let cl := ea / 2 ^ 44 % 4 * 128 + ea / 2 ^ 37 % 128
  let size (u : Nat) := if u < 8 then 0x40000 else if u = 8 then 0x400000 else 0x80000
  let cached := s.bankMode cl off = 1
  let near := s.reaches (s.cur.core / 8) cl = true
  let fails (c : Nat) := s.checkAddr k ea n align = .error c
  (10 ≤ region → fails 0x080) ∧
  (region < 10 → ea % align ≠ 0 → fails 0x081) ∧
  (region < 10 → ea % align = 0 →
    (region = 8 → 10 ≤ unit → fails 0x082) ∧
    (region = 8 → unit < 10 → size unit ≤ off → fails 0x083) ∧
    (region = 9 → 0x40000 ≤ ea % 2 ^ 56 → fails 0x083) ∧
    (region = 8 → own → unit < 10 → off < size unit → ¬ near → fails 0x082) ∧
    (region = 8 → own → near → unit < 8 → off < 0x40000 → 0x30000 < off + n → cl * 8 + unit ≠ s.cur.core ∨ 2 ≤ s.cur.ctx → fails 0x088) ∧
    (region = 9 → ea % 2 ^ 56 < 0x40000 → 0x30000 < ea % 2 ^ 56 + n → 2 ≤ s.cur.ctx → fails 0x088) ∧
    (region = 8 → own → near → unit = 8 → off < 0x400000 → cl = s.cur.core / 8 → cached → fails 0x084) ∧
    (region = 8 → own → near → 8 ≤ unit → unit < 10 → off < size unit → k = .atomic → ¬ (cl = s.cur.core / 8 ∧ unit = 8 ∧ cached) →
      fails 0x085) ∧
    (region < 8 → (∀ c ∈ s.clusters, c.2.fenced = false) → s.checkAddr k ea n align = .ok .global) ∧
    (region = 9 → ea % 2 ^ 56 + n ≤ 0x30000 →
      s.checkAddr k ea n align = .ok (.unit (s.cur.core / 8) (s.cur.core % 8) (ea % 2 ^ 56))) ∧
    (region = 8 → own → near → unit < 8 → off + n ≤ 0x30000 → s.checkAddr k ea n align = .ok (.unit cl unit off)))

/-- R116, R123: an access whose check fails traps with the address in CX.ADDR, a prefetch by the checks of R116 alone; an atomic in the
handler context traps first (the model's choice, log entry 108). -/
def Claims.AccessFaults : Prop := ∀ (s : State) (i : Instr) (k : Kind) (ea n align c : Nat) (rel : Bool) (w : WaitSel),
  accessOf s i = some (k, ea, n, align) → orderFields i = some (rel, w) → s.goesOn rel w →
  ((if prefetches i then s.addrR116 k ea n align else s.checkAddr k ea n align) = .error c → k ≠ .atomic ∨ s.cur.ctx ≠ 1 →
    exec i s = .next (s.takeTrap c ea 0)) ∧
  (k = .atomic → s.cur.ctx = 1 → exec i s = .next (s.takeTrap 0x143 0 0))

/-- R120, R121, R128, R132: the wait before an access. While it lasts the context is STALLED; .REL releases the wedge members as it
begins to wait (R244). When it is over, a logged fault that the wait covers is raised. -/
def Claims.WaitsBeforeAccess : Prop := ∀ (s : State) (i : Instr) (rel : Bool) (w : WaitSel), orderFields i = some (rel, w) →
  (s.mustWait rel w → Stalls s (if rel then s.msync else s) (exec i s) .retry) ∧
  (∀ t, ¬ s.mustWait rel w → rel = true ∨ w.sn = true ∨ w.sg = true → s.raiseLogged (coversOf rel w) = some t → exec i s = .next t) ∧
  (rel = true → (s.mustWait rel w ↔ ¬ (s.cnt .sn = 0 ∧ s.cnt .sg = 0 ∧ s.cnt .cp = 0 ∧ s.cnt .tl = 0 ∧ s.cnt .at_ = 0)))

/-- R132: raising a logged fault takes the oldest entry of a covered class out of the log, the others keeping their order, and traps
with the entry's cause and address, its PC in CX.AUX; with none left, FLOV is raised and cleared. -/
def Claims.LoggedFaults : Prop := ∀ (s : State) (covers : Nat → Bool),
  let n := bits (s.cx cxSTATUS) 23 19
  let ent (t : State) (i : Nat) := natOf (t.rd (s.wsLoc s.cur.core s.cur.ctx (cxLOG + 24 * i)) 24)
  let hit (i : Nat) := covers (bits (ent s i) 138 137) = true
  (∀ i, i < n → hit i → (∀ j, j < i → ¬ hit j) → n ≤ 16 → ∃ u,
    s.raiseLogged covers = some (u.takeTrap (bits (ent s i) 136 128) (bits (ent s i) 127 64) (bits (ent s i) 63 0)) ∧
    BytesOnly [s.cxRange cxSTATUS, (s.wsLoc s.cur.core s.cur.ctx cxLOG, 24 * n)] s u ∧
    u.cx cxSTATUS = setBits (s.cx cxSTATUS) 23 19 (n - 1) ∧ (∀ j, j < i → ent u j = ent s j) ∧
    ∀ j, i ≤ j → j + 1 < n → ent u j = ent s (j + 1)) ∧
  ((∀ i, i < n → ¬ hit i) → bits (s.cx cxSTATUS) 24 24 = 1 → ∃ u, s.raiseLogged covers = some (u.takeTrap 0x095 0 0) ∧
    BytesOnly [s.cxRange cxSTATUS] s u ∧ u.cx cxSTATUS = s.cx cxSTATUS - 2 ^ 24) ∧
  ((∀ i, i < n → ¬ hit i) → bits (s.cx cxSTATUS) 24 24 = 0 → s.raiseLogged covers = none)

/-- R117, R119, R112, R34, R229: a load from a local target reads its bytes at once and completes; .ACQ, and reading what a release wrote,
discard what was fetched ahead. A load that has something to wait for is STALLED, and one of poisoned data traps. -/
def Claims.LocalLoads : Prop := ∀ (s : State) (d a : GReg) (v : VReg) (off : Imm) (h : Hint) (w : WaitSel) (cl u o : Nat),
  s.goesOn false w →
  let base (n : Nat) := if h = .order ∨ s.sawRelease (nearLoc cl u o) n = true then s.setMyCtx { s.myCtx with ahead := [] } else s
  let place (n : Nat) := s.checkAddr .load (s.memEa a off n) n n = .ok (.unit cl u o) ∧ s.isLocal .load (.unit cl u o) = true
  let waits (n : Nat) := s.localWait .load cl u o n (s.memEa a off n) = true
  let reads (n : Nat) := place n ∧ ¬ waits n ∧ s.tainted (nearLoc cl u o) n = false
  let stops (i : Instr) (n : Nat) := (place n → waits n → Stalls s s (exec i s) .retry) ∧
    (place n → ¬ waits n → s.tainted (nearLoc cl u o) n = true → exec i s = .next (s.takeTrap 0x1C0 (s.memEa a off n) 0))
  let loads (i : Instr) (n : Nat) := stops i n ∧ (reads n → CompletesOver s (base n) (exec i s) (s.gRange d) (fun t =>
    t.gN d = if d = 0 then 0 else natOf (s.handlerView.rd (nearLoc cl u o) n)))
  loads (.ldb d a off h w) 1 ∧ loads (.ldh d a off h w) 2 ∧ loads (.ldw d a off h w) 4 ∧
  (d ≠ 0 ∨ h = .order → loads (.ldd d a off h w) 8) ∧
  stops (.vld v a off h w) 64 ∧
  (reads 64 → CompletesOver s (base 64) (exec (.vld v a off h w) s) [s.vRange v] (fun t => ∀ i, i < 16 →
    t.laneN v i = natOf (s.handlerView.rd (nearLoc cl u o + 4 * i) 4)))

/-- R117, R120, R124, R112: a store to a local target that has nothing to wait for writes its bytes at once and completes. The bytes lie
off the words of the context's own workspace that tell where it goes on; CTX and STATE of a workspace are no store's to write (R16), and
reserved bits of context words stay zero (R20). -/
def Claims.LocalStores : Prop :=
  ∀ (s : State) (d a b : GReg) (v : VReg) (off : Imm) (h : Hint) (w : WaitSel) (hi rel : Bool) (cl u o : Nat), s.cur.ctx ≠ 1 →
  let place (k : Kind) (ea n : Nat) := s.checkAddr k ea n n = .ok (.unit cl u o) ∧ s.isLocal k (.unit cl u o) = true ∧
    s.localWait k cl u o n ea = false ∧ s.offFlow (s.storeRange cl u o n)
  let stores (i : Instr) (rel : Bool) (bs : List Byte) := s.goesOn rel w →
    Completes s (exec i s) [s.storeRange cl u o bs.length] (fun t => s.holdsStored t cl u o bs)
  (place .store (s.memEa a off 1) 1 → stores (.stb d a off h w) (h == .order) (bytesOf 1 (s.gN d))) ∧
  (place .store (s.memEa a off 2) 2 → stores (.sth d a off h w) (h == .order) (bytesOf 2 (s.gN d))) ∧
  (place .store (s.memEa a off 4) 4 → stores (.stw d a off h w) (h == .order) (bytesOf 4 (s.gN d))) ∧
  (place .store (s.memEa a off 8) 8 → stores (.std d a off h w) (h == .order) (bytesOf 8 (s.gN d))) ∧
  (place .store (s.memEa a off 64) 64 →
    stores (.vst v a off h w) (h == .order) ((List.range 16).flatMap (fun i => bytesOf 4 (s.laneN v i)))) ∧
  (place .nibble (s.gN a) 1 → stores (.stn a b hi rel w) rel
    (let old := (s.mem.get (nearLoc cl u o)).toNat
     [BitVec.ofNat 8 (if hi then s.gN b % 16 * 16 + old % 16 else old / 16 * 16 + s.gN b % 16)]))

/-- R120, R124, R126, R28, R29: an operation to a remote target, and every posted atomic, is sent and counted, and completes; with 63
outstanding it waits. A nibble store or atomic that another agent executes takes the core's next sequence (R129). -/
def Claims.PostedOperations : Prop :=
  ∀ (s : State) (d a b : GReg) (v : VReg) (off : Imm) (h : Hint) (w : WaitSel) (hi rel : Bool) (p : Dest), s.cur.ctx ≠ 1 →
  let sends (i : Instr) (rel : Bool) (c : Cnt) (ea : Nat) (op : MemOp) (seq : Bool) := s.goesOn rel w →
    (s.cnt c < 63 → CompletesOver s ((s.seqTaken seq).launchFlight
        (s.reqFor p ea op (.count s.cur.core s.cur.ctx c s.pc s.nextId) (s.seqPair seq) rel))
      (exec i s) [s.cxRange cxCNT] (fun t => t.cx cxCNT = s.cx cxCNT + 2 ^ c.lo)) ∧
    (s.cnt c = 63 → Stalls s s (exec i s) .retry)
  let remote (k : Kind) (ea n : Nat) := s.checkAddr k ea n n = .ok p ∧ s.isLocal k p = false
  let stores (i : Instr) (rel : Bool) (ea n : Nat) (bs : List Byte) := remote .store ea n →
    sends i rel (sendsTo p) ea (.store bs false) false
  let atomics (i : Instr) (n : Nat) (op : AOp) := s.checkAddr .atomic (s.gN a) n n = .ok p →
    sends i rel .at_ (s.gN a) (.atomic op (s.gN b)) (s.ownOff (s.gN a)).isNone
  stores (.stb d a off h w) (h == .order) (s.memEa a off 1) 1 (bytesOf 1 (s.gN d)) ∧
  stores (.sth d a off h w) (h == .order) (s.memEa a off 2) 2 (bytesOf 2 (s.gN d)) ∧
  stores (.stw d a off h w) (h == .order) (s.memEa a off 4) 4 (bytesOf 4 (s.gN d)) ∧
  stores (.std d a off h w) (h == .order) (s.memEa a off 8) 8 (bytesOf 8 (s.gN d)) ∧
  stores (.vst v a off h w) (h == .order) (s.memEa a off 64) 64 ((List.range 16).flatMap (fun i => bytesOf 4 (s.laneN v i))) ∧
  (remote .nibble (s.gN a) 1 → sends (.stn a b hi rel w) rel (sendsTo p) (s.gN a) (.nibble hi (s.gN b % 16)) true) ∧
  atomics (.axchgPost a b rel w) 8 .xchg ∧ atomics (.aaddPost a b rel w) 8 .add ∧ atomics (.aandPost a b rel w) 8 .and ∧
  atomics (.aorPost a b rel w) 8 .or ∧ atomics (.axorPost a b rel w) 8 .xor ∧ atomics (.aminPost a b rel w) 8 .min ∧
  atomics (.amaxPost a b rel w) 8 .max ∧ atomics (.aminuPost a b rel w) 8 .minu ∧ atomics (.amaxuPost a b rel w) 8 .maxu ∧
  atomics (.afaddPost a b rel w) 4 .fadd

/-- R119, R126, R127, R112: a load from a remote target, a value-returning atomic, CAS and CASP send their request and leave the
context STALLED for the reply; while a posted operation of the context to the same target is outstanding they wait. -/
def Claims.BlockingRequests : Prop :=
  ∀ (s : State) (d a b : GReg) (v : VReg) (off : Imm) (h : Hint) (w : WaitSel) (acq rel : Bool) (p : Dest),
  let asks (i : Instr) (rel : Bool) (ea : Nat) (op : MemOp) (seq : Bool) (k : Kont) := s.goesOn rel w →
    (s.pendingTo ea = true → Stalls s s (exec i s) .retry) ∧
    (s.pendingTo ea = false → Stalls s ((s.seqTaken seq).launchFlight
      (s.reqFor p ea op (.ctx s.cur.core s.cur.ctx) (s.seqPair seq) rel)) (exec i s) (.reply s.nextId k s.cur))
  let loads (i : Instr) (ea n : Nat) (k : Kont) := s.checkAddr .load ea n n = .ok p → s.isLocal .load p = false →
    asks i false ea (.load n) false k
  let atomics (i : Instr) (n : Nat) (op : MemOp) (k : Kont) := s.cur.ctx ≠ 1 → s.checkAddr .atomic (s.gN a) n n = .ok p →
    asks i rel (s.gN a) op (s.ownOff (s.gN a)).isNone k
  let old (op : AOp) := MemOp.atomic op (s.gN b)
  let pair (r : GReg) := s.gN r + 2 ^ 64 * s.gN (regPlus r 1)
  loads (.ldb d a off h w) (s.memEa a off 1) 1 (.load d.val (h == .order)) ∧
  loads (.ldh d a off h w) (s.memEa a off 2) 2 (.load d.val (h == .order)) ∧
  loads (.ldw d a off h w) (s.memEa a off 4) 4 (.load d.val (h == .order)) ∧
  (d ≠ 0 ∨ h = .order → loads (.ldd d a off h w) (s.memEa a off 8) 8 (.load d.val (h == .order))) ∧
  loads (.vld v a off h w) (s.memEa a off 64) 64 (.vload v.val (h == .order)) ∧
  atomics (.axchg d a b acq rel w) 8 (old .xchg) (.load d.val acq) ∧ atomics (.aadd d a b acq rel w) 8 (old .add) (.load d.val acq) ∧
  atomics (.aand d a b acq rel w) 8 (old .and) (.load d.val acq) ∧ atomics (.aor d a b acq rel w) 8 (old .or) (.load d.val acq) ∧
  atomics (.axor d a b acq rel w) 8 (old .xor) (.load d.val acq) ∧ atomics (.amin d a b acq rel w) 8 (old .min) (.load d.val acq) ∧
  atomics (.amax d a b acq rel w) 8 (old .max) (.load d.val acq) ∧ atomics (.aminu d a b acq rel w) 8 (old .minu) (.load d.val acq) ∧
  atomics (.amaxu d a b acq rel w) 8 (old .maxu) (.load d.val acq) ∧ atomics (.afadd d a b acq rel w) 4 (old .fadd) (.load d.val acq) ∧
  atomics (.cas d a b acq rel w) 8 (.cas 8 (s.gN d) (s.gN b)) (.cas d.val 8 acq) ∧
  atomics (.casp d a b acq rel w) 16 (.cas 16 (pair d) (pair b)) (.cas d.val 16 acq)

/-- R119, R126, R127, R112, R34, R229: the reply of a blocking request completes it: the value is written, zero-extended, the context is
READY and goes on, and .ACQ, and a value that a release wrote, discard what was fetched ahead. A fault in its place traps with the
request's address, and writes nothing. -/
def Claims.RepliesComplete : Prop := ∀ (s : State) (id core ctx : Nat) (k : Kont) (at_ : Cur) (a : Answer),
  lookupId id s.flights = some (.reply (.ctx core ctx) a) → (s.ctxAt core ctx).wait = .reply id k at_ →
  at_.core = core → at_.ctx = ctx → ctx < 12 →
  let u : State := { (s.dropFlight id).setCtxAt core ctx { s.ctxAt core ctx with wait := .none } with cur := at_ }
  let base (acq : Bool) := if acq = true ∨ (s.ctxAt core ctx).acq = true then u.setMyCtx { u.myCtx with ahead := [], acq := false } else u
  let resumes (acq : Bool) (rs : List Range) (p : State → Prop) :=
    CompletesOver u (base acq) (exec (.replyArrival id) s) (rs ++ [u.cxRange cxSTATUS]) (fun t =>
      bits (t.cx cxSTATUS) 3 0 = 1 ∧ p t)
  (∀ (d : GReg) (acq : Bool) (v : Nat), a = .data v → k = .load d.val acq → resumes acq (u.gRange d) (fun t =>
    t.gN d = if d = 0 then 0 else v % 2 ^ 64)) ∧
  (∀ (d : VReg) (acq : Bool) (v : Nat), a = .data v → k = .vload d.val acq → resumes acq [u.vRange d] (fun t =>
    ∀ i, i < 16 → t.laneN d i = v / 2 ^ (32 * i) % 2 ^ 32)) ∧
  (∀ (d : GReg) (acq : Bool) (v : Nat), a = .data v → k = .cas d.val 8 acq → resumes acq (u.gRange d) (fun t =>
    t.gN d = if d = 0 then 0 else v % 2 ^ 64)) ∧
  (∀ (d : GReg) (acq : Bool) (v : Nat), a = .data v → k = .cas d.val 16 acq → d.val % 2 = 0 →
    resumes acq (u.gRange d ++ u.gRange (regPlus d 1)) (fun t =>
      (t.gN d = if d = 0 then 0 else v % 2 ^ 64) ∧ t.gN (regPlus d 1) = v / 2 ^ 64 % 2 ^ 64)) ∧
  (∀ c addr aux, (s.ctxAt core ctx).acq = false → a = .fault c addr aux → (∃ d acq, k = .load d acq) ∨ (∃ d acq, k = .vload d acq) ∨ (∃ d n acq, k = .cas d n acq) →
    exec (.replyArrival id) s =
      .next (({ (s.dropFlight id).readyAt core ctx with cur := at_ } : State).takeTrap c addr aux))

/-- R126, R127, R124: what the agent of an atomic, a CAS or a nibble store makes of the bytes it finds, and the value that it
returns. -/
def Obligations.AgentOperations : Prop := ∀ (old : List Byte) (b : Nat), old.length = 8 → b < 2 ^ 64 →
  let x := natOf old
  let makes (op : AOp) (v : Nat) := (MemOp.atomic op b).run old = (bytesOf 8 v, x)
  let signed (v : Nat) : Int := (BitVec.ofNat 64 v).toInt
  makes .xchg b ∧ makes .add ((x + b) % 2 ^ 64) ∧ makes .and (x &&& b) ∧ makes .or (x ||| b) ∧ makes .xor (x ^^^ b) ∧
  (signed x ≤ signed b → makes .min x ∧ makes .max b) ∧ (signed b ≤ signed x → makes .min b ∧ makes .max x) ∧
  (x ≤ b → makes .minu x ∧ makes .maxu b) ∧ (b ≤ x → makes .minu b ∧ makes .maxu x) ∧
  (MemOp.atomic .fadd b).run (old.take 4) = (bytesOf 4 (fAdd .rne (x % 2 ^ 32) (b % 2 ^ 32)).1, x % 2 ^ 32) ∧
  (∀ n, n < 2 ^ 64 → (MemOp.cas 8 b n).run old = (if x = b then bytesOf 8 n else [], x)) ∧
  (∀ c : Byte, (MemOp.nibble true b).run [c] = ([BitVec.ofNat 8 (b % 16 * 16 + c.toNat % 16)], 0) ∧
    (MemOp.nibble false b).run [c] = ([BitVec.ofNat 8 (c.toNat / 16 * 16 + b % 16)], 0))

/-- R123: a prefetch of a global address sends its request and completes; near addresses have no effect. LDD of g0 without .ACQ is a
prefetch. -/
def Claims.PrefetchRule : Prop := ∀ (s : State) (a : GReg) (off : Imm) (stream : Bool) (h : Hint) (w : WaitSel) (p : Dest),
  h ≠ .order → s.goesOn false w → s.addrR116 .load (s.memEa a off 8) 8 8 = .ok p →
  let base := if p = .global then s.launchFlight (s.reqFor p (s.memEa a off 8) .prefetch .none none false) else s
  CompletesOver s base (exec (.pref a off stream w) s) [] (fun _ => True) ∧
  CompletesOver s base (exec (.ldd 0 a off h w) s) [] (fun _ => True)

/-- R113, R114: a gather and a scatter. Local lanes are read or stored at once, a scatter's in ascending order with the values that it had
at issue, and the others are sent. A gather that sends none completes, or traps at its lowest faulting lane with the number in
CX.AUX[11:8]; one that awaits some stays STALLED, with that lane kept. A scatter's first failing lane traps and nothing is done; else it
counts one operation for each class that it sends to, and completes. -/
def Claims.GatherScatter : Prop := ∀ (s : State) (d b : VReg) (a : GReg) (m : MReg),
  let ea (i : Nat) := ((s.gN a : Int) + (BitVec.ofNat 32 (s.laneN b i)).toInt) % 2 ^ 64 |>.toNat
  let lanes := (List.range 16).filter (fun i => s.mN m / 2 ^ i % 2 == 1)
  let check (k : Kind) (i : Nat) := s.checkAddr k (ea i) 4 4
  let far (k : Kind) (i : Nat) : Bool := match check k i with
    | .ok p => !s.isLocal k p
    | .error _ => false
  let dest (k : Kind) (i : Nat) : Dest := match check k i with
    | .ok p => p
    | .error _ => .global
  let loc (k : Kind) (i : Nat) : Nat := match check k i with
    | .ok (.unit cl u o) => nearLoc cl u o
    | _ => 0
  let outside (k : Kind) := lanes.filter (far k)
  let inside (k : Kind) := lanes.filter (fun i => !far k i)
  let fault (i : Nat) : Option Nat := match check .load i with
    | .error c => some c
    | .ok _ => if far .load i = false ∧ s.tainted (loc .load i) 4 = true then some 0x1C0 else none
  let passes (k : Kind) := ∀ i ∈ lanes, ∃ p, check k i = .ok p
  let quiet (k : Kind) := ∀ i ∈ lanes, (far k i = true → k = .load → s.pendingTo (ea i) = false) ∧
    (far k i = false → ∀ cl u o, check k i = .ok (.unit cl u o) → s.localWait k cl u o 4 (ea i) = false)
  let read := (inside .load).filter (fun i => (fault i).isNone)
  let saw := read.any (fun i => s.sawRelease (loc .load i) 4)
  let word (i : Nat) := natOf (s.handlerView.rd (loc .load i) 4)
  (∀ i c, i ∈ lanes → check .store i = .error c → (∀ x ∈ lanes, x < i → ∃ p, check .store x = .ok p) →
    exec (.vscat d a b m) s = .next (s.takeTrap c (ea i) (i * 256))) ∧
  (quiet .load → outside .load = [] →
    ((∀ i ∈ lanes, fault i = none) → CompletesOver s (if saw = true ∨ s.myCtx.acq = true then
          s.setMyCtx { s.myCtx with ahead := [], acq := false } else s)
        (exec (.vgath d a b m) s) [s.vRange d] (fun t => ∀ i, i < 16 → t.laneN d i = if i ∈ lanes then word i else s.laneN d i)) ∧
    (∀ i c, i ∈ lanes → fault i = some c → (∀ x ∈ lanes, x < i → fault x = none) → saw = false → s.myCtx.acq = false →
      exec (.vgath d a b m) s = .next (s.takeTrap c (ea i) (i * 256)))) ∧
  (quiet .load → outside .load ≠ [] →
    let n := (outside .load).length
    let sent := (outside .load).zipIdx.map (fun x => (s.nextId + (n - 1 - x.2), x.1))
    let base := if saw then s.setMyCtx { s.myCtx with acq := true } else s
    Stalls s { base with nextId := s.nextId + n, flights := s.flights ++ (sent.reverse.map (fun x =>
        (x.1, s.reqFor (dest .load x.2) (ea x.2) (.load 4) (.ctx s.cur.core s.cur.ctx) none false))) }
      (exec (.vgath d a b m) s)
      (.reply (s.nextId + (n - 1)) (.gather d.val sent (read.map (fun i => (i, word i)))
        ((lanes.find? (fun i => (fault i).isSome)).map (fun i => (i, (fault i).getD 0, ea i, 0)))) s.cur)) ∧
  (s.cur.ctx ≠ 1 → passes .store → quiet .store →
    (∀ i ∈ inside .store, apartFrom (loc .store i, 4) (s.wsLoc s.cur.core s.cur.ctx 0, 0xC00) ∧
      ∀ cl u o, check .store i = .ok (.unit cl u o) → s.inWords cl u o 4 = none) →
    let sn := (outside .store).any (fun i => sendsTo (dest .store i) == .sn)
    let sg := (outside .store).any (fun i => sendsTo (dest .store i) == .sg)
    (sn = true → s.cnt .sn < 63) → (sg = true → s.cnt .sg < 63) →
    CompletesOver s { s with nextId := s.nextId + (outside .store).length, flights := s.flights ++
        ((outside .store).zipIdx.map (fun x => (s.nextId + x.2, s.reqFor (dest .store x.1) (ea x.1)
          (.store (bytesOf 4 (s.laneN d x.1)) false)
          (.count s.cur.core s.cur.ctx (sendsTo (dest .store x.1)) s.pc s.nextId) none false))) }
      (exec (.vscat d a b m) s) (s.cxRange cxCNT :: (inside .store).map (fun i => (loc .store i, 4))) (fun t =>
        t.cx cxCNT = s.cx cxCNT + boolNat sn + 256 * boolNat sg ∧
        ∀ i ∈ inside .store, (∀ j ∈ inside .store, i < j → loc .store j ≠ loc .store i) →
          t.rd (loc .store i) 4 = bytesOf 4 (s.laneN d i)))


/-! ### Waiting and barriers (R131 to R139, R147) -/

/-- R131 to R134, R147: WAIT, FENCE and CWAIT. They wait for counters, for a completion object, and for other packages' acknowledgements;
what they covered is raised, and they complete, FENCE and CWAIT with acquire effect. In the handler context they trap. A cancel request
stops CWAIT in a task context only. -/
def Obligations.WaitFenceCwait : Prop := ∀ (s : State) (at_ tl cp sg sn : Fin 32) (scope : Scope) (d a : GReg) (cl u o : Nat),
  let above (c : Cnt) (imm : Fin 32) := imm.val < 31 ∧ imm.val < s.cnt c
  let waits := above .at_ at_ ∨ above .tl tl ∨ above .cp cp ∨ above .sg sg ∨ above .sn sn
  let covers (c : Nat) : Bool := decide ((c = 0 ∧ sn.val < 31) ∨ (c = 1 ∧ sg.val < 31) ∨ (c = 2 ∧ at_.val < 31))
  let free := at_.val = 31 ∧ tl.val = 31 ∧ cp.val = 31 ∧ sg.val = 31 ∧ sn.val = 31
  let wait := exec (.wait at_ tl cp sg sn) s
  let fence := exec (.fence scope) s
  let all := coversOf true ⟨false, false⟩
  let quiet := s.cnt .sn = 0 ∧ s.cnt .sg = 0 ∧ s.cnt .cp = 0 ∧ s.cnt .tl = 0 ∧ s.cnt .at_ = 0
  let ea := s.gN a
  let loc := nearLoc cl u o
  let cwait := exec (.cwait d a) s
  (s.cur.ctx = 1 → wait = .next (s.takeTrap 0x144 0 0) ∧ fence = .next (s.takeTrap 0x144 0 0) ∧
    cwait = .next (s.takeTrap 0x144 0 0)) ∧
  (s.cur.ctx ≠ 1 →
    (waits → Stalls s (if s.cnt .tl ≤ tl.val ∨ tl.val = 31 then s else s.msync) wait .retry) ∧
    (∀ t, ¬ waits → ¬ free → s.raiseLogged covers = some t → wait = .next t) ∧
    (¬ waits → free ∨ s.raiseLogged covers = none → Completes s wait [] (fun _ => True)) ∧
    (¬ quiet → Stalls s s.msync fence .retry) ∧
    (∀ t, quiet → s.raiseLogged all = some t → fence = .next t) ∧
    (quiet → s.raiseLogged all = none → scope ≠ .system ∨ s.myCtx.away = 0 →
      CompletesOver s s.acquired fence [] (fun _ => True)) ∧
    (quiet → s.raiseLogged all = none → scope = .system → s.myCtx.away ≠ 0 → Stalls s s fence .retry) ∧
    (2 ≤ s.cur.ctx → bits (s.cx cxSTATUS) 9 9 = 1 → cwait = .next (s.takeTrap 0x106 0 0)) ∧
    (s.cur.ctx = 0 ∨ bits (s.cx cxSTATUS) 9 9 = 0 → ea < 2 ^ 60 → ea % 16 = 0 → s.place s.cur.core ea = .ok (.unit cl u o) → cl = s.cur.core / 8 →
      (u = s.cur.core % 8 ∧ o < 0x30000) ∨ (u = 8 ∧ o < 0x3F8000 ∧ s.bankMode cl o = 0) → s.tainted loc 16 = false →
      (natOf (s.rd loc 8) = 0 → CompletesOver s (s.setMyCtx { s.myCtx with ahead := [], draining := false }) cwait (s.gRange d)
        (fun t => t.gN d = if d = 0 then 0 else natOf (s.rd (loc + 8) 8))) ∧
      (natOf (s.rd loc 8) ≠ 0 → s.myCtx.task = none →
        Stalls s { s with cwaits := s.cwaits ++ [(loc, false, s.cur.core, s.cur.ctx)] } cwait (.object d.val loc s.cur))))

/-- R135 to R139, R216: the four barrier instructions on the object that they name, its bits as R135 lays them out. That an object of
another partition traps before BARARM's value is looked at, and after BARRIVE's wait, is the model's choice (log entry 110). -/
def Obligations.BarrierInstructions : Prop := ∀ (s : State) (lvl : Level) (obj : Fin 16) (a d : GReg),
  let unit := match lvl with
    | .quad => s.cur.core / 4
    | .cluster => s.cur.core / 8
    | .die => s.cur.core / 1024
    | .package => 0
  let key := barKey lvl unit obj.val
  let b := s.barrier key
  let gen := b.word / 2 ^ 48
  let arrived := b.word / 2 ^ 32 % 2 ^ 16
  let counts := b.word / 2 ^ 16 % 2 = 1
  let expect := b.word % 2 ^ 16
  let n := match lvl with
    | .quad => s.cur.core % 4
    | _ => s.cur.core % 8
  let v := s.gN a
  let want := v % 2 ^ 16
  let masks := v / 2 ^ 16 % 2 = 0
  let bad := 2 ^ 17 ≤ v ∨ want = 0 ∨ (masks ∧ (lvl = .die ∨ lvl = .package)) ∨ (masks ∧ lvl = .quad ∧ 2 ^ 4 ≤ want) ∨
    (masks ∧ lvl = .cluster ∧ 2 ^ 8 ≤ want)
  let traps (c : Nat) (i : Instr) := exec i s = .next (s.takeTrap c 0 0)
  let mine := s.barMine lvl obj = true
  let ready := s.quietAt s.cur.core s.cur.ctx = true ∧ s.raiseLogged (coversOf true ⟨false, false⟩) = none
  b.word < 2 ^ 64 → s.cur.ctx ≠ 1 →
  (¬ mine → traps 0x088 (.bararm lvl obj a) ∧ (ready → traps 0x088 (.barrive lvl obj d)) ∧ traps 0x088 (.barwait lvl obj a) ∧
    traps 0x088 (.barq lvl obj d)) ∧
  (mine → bad → traps 0x148 (.bararm lvl obj a)) ∧
  (mine → ¬ bad → arrived ≠ 0 → b.timedOut = false → traps 0x149 (.bararm lvl obj a)) ∧
  (mine → ¬ bad → arrived = 0 ∨ b.timedOut = true →
    CompletesOver s (s.setBarrier key { word := gen * 2 ^ 48 + v, start := none, timedOut := false }) (exec (.bararm lvl obj a) s) []
      (fun _ => True)) ∧
  (s.quietAt s.cur.core s.cur.ctx = false → Stalls s s.msync (exec (.barrive lvl obj d) s) .retry) ∧
  (ready → mine → ¬ counts → expect / 2 ^ n % 2 = 0 → traps 0x14A (.barrive lvl obj d)) ∧
  (ready → mine → ¬ counts → expect / 2 ^ n % 2 = 1 → arrived / 2 ^ n % 2 = 1 → traps 0x14B (.barrive lvl obj d)) ∧
  (ready → mine → counts ∨ (expect / 2 ^ n % 2 = 1 ∧ arrived / 2 ^ n % 2 = 0) →
    let now := if counts then (arrived + 1) % 2 ^ 16 else arrived + 2 ^ n
    let b' : Barrier := if now = expect then { word := (gen + 1) % 2 ^ 16 * 2 ^ 48 + b.word % 2 ^ 32, start := none, timedOut := false }
      else { b with word := gen * 2 ^ 48 + now * 2 ^ 32 + b.word % 2 ^ 32, start := some (b.start.getD s.clock) }
    CompletesOver s (s.setBarrier key b') (exec (.barrive lvl obj d) s) (s.gRange d) (fun t =>
      t.gN d = if d = 0 then 0 else gen)) ∧
  (mine → gen ≠ v % 2 ^ 16 → CompletesOver s s.acquired (exec (.barwait lvl obj a) s) [] (fun _ => True)) ∧
  (mine → gen = v % 2 ^ 16 → b.timedOut = true → exec (.barwait lvl obj a) s = .next (s.takeTrap 0x14C 0 b.word)) ∧
  (mine → gen = v % 2 ^ 16 → b.timedOut = false → Stalls s s (exec (.barwait lvl obj a) s) (.barrier key gen s.cur)) ∧
  (mine → WritesG s (exec (.barq lvl obj d) s) d (BitVec.ofNat 64 b.word))


/-! ### Tile commands, shelves and completion objects (R140 to R166, R250, R251, R257, R272, R273) -/

/-- R141, R148 to R161, R250, R251, R257: the matrix commands at issue. Rows outside a tile and rows that are not lent to the core trap;
otherwise the command is queued with the values it captures, and the context goes on, or for MALLOC and MTHR stays STALLED until the
unit answers; MFMT, MALLOC, MFREE and MSYNC are not counted, and MFREE takes the groups from the core at once. -/
def Obligations.MatrixCommands : Prop :=
  ∀ (s : State) (t ts g0 ng nt : Fin 8) (shp nw ks : Fin 4) (row0 nr srow0 ncm : Fin 128) (n6 : Fin 64) (bf af : Fin 16) (accm df : Bool)
    (rc : RoundMode) (kind : GroupKind) (q : QuantFmt) (dst : DrainDst) (d a b e f x : GReg) (v : VReg) (cw : Completion),
  s.cur.ctx ≠ 1 → s.myCtx.twin = false →
  let near (r : GReg) := s.nearForm s.cur.core (s.gN r)
  let word : CWord := match cw with
    | .none => .none
    | .obj r => .obj (s.gN r)
    | .fut r => .fut (s.gN r)
  let issues (i : Instr) (op : CmdOp) (bytes : Nat) := Issues s (exec i s) word op bytes
  let plain (op : CmdOp) (o : Host.Outcome State Fault Refusal) (p : State → Prop) :=
    (s.noRoom op → Stalls s s o .retry) ∧ (¬ s.noRoom op → p (s.queued .none op 0))
  let traps (c : Nat) (i : Instr) := exec i s = .next (s.takeTrap c 0 0)
  let lent (first n : Nat) := ∀ i, i < n → s.rowHeld s.cur.core ((first + i) / 128) ((first + i) % 128) = true
  let kinds (first n k : Nat) := ∀ i, i < n → (s.rowGroup (s.cur.core / 8) ((first + i) / 128) ((first + i) % 128)).kind = k
  let first := 128 * t.val + row0.val
  let rows := nr.val + 1
  let fits := row0.val + nr.val ≤ 127
  let groups := 128 * t.val + 16 * g0.val
  let size := 16 * (ng.val + 1)
  let k := 2 ^ ks.val
  let operand (r st : GReg) := s.operandCheck (s.gN r) (s.gN st) = none
  let form := if s.comingFmt.af = 6 then 1 else 0
  let drain := match dst with
    | .mem => (0, 0)
    | .fut r => (1, s.gN r)
    | .hnd r => (2, s.gN r)
  let drains := s.gN d < 2 ^ 60 ∧ s.gN d / 2 ^ 56 < 10 ∧ s.gN d % 64 = 0 ∧ s.gN e % 64 = 0 ∧ s.copyBar s.cur.core s.cur.ctx (s.gN d) = none ∧
    (drain.1 = 0 ∨ (s.gN d / 2 ^ 56 = 8 ∧ s.gN d / 2 ^ 46 % 1024 = s.pkgId ∧ s.gN d / 2 ^ 33 % 16 < 8))
  let planes (c : Fin 16) (big band : GReg) := c.val = 5 → s.gN big % 8 = 0 ∧ s.gN band % 2 = 0
  -- the format context and the row groups
  (9 ≤ af.val ∨ 9 ≤ bf.val → traps 0x040 (.mfmt accm rc bf af a b e f)) ∧
  (af.val < 9 → bf.val < 9 → fmtClass af.val = fmtClass bf.val → fmtClass af.val ≠ 0 → planes af a b → planes bf e f →
    plain (.mfmt accm (rcNum rc) bf.val af.val (near a) (near b) (near e) (near f)) (exec (.mfmt accm rc bf af a b e f) s)
      (fun u => CompletesOver s u (exec (.mfmt accm rc bf af a b e f) s) [] (fun _ => True))) ∧
  (7 < g0.val + ng.val → traps 0x182 (.malloc d t g0 ng kind ks) ∧ traps 0x182 (.mfree t g0 ng)) ∧
  (g0.val + ng.val ≤ 7 →
    plain (.malloc d.val t.val g0.val ng.val (kindNum kind) k) (exec (.malloc d t g0 ng kind ks) s)
      (fun u => Stalls s u (exec (.malloc d t g0 ng kind ks) s) (.reply s.nextId (.word d.val) s.cur)) ∧
    (¬ lent groups size → traps 0x180 (.mfree t g0 ng)) ∧
    (lent groups size → plain (.mfree t.val g0.val ng.val) (exec (.mfree t g0 ng) s) (fun u =>
      ∃ w : State, CompletesOver s w (exec (.mfree t g0 ng) s) [] (fun _ => True) ∧
        w = u.setCluster (s.cur.core / 8) { u.cluster (s.cur.core / 8) with groups := (w.cluster (s.cur.core / 8)).groups } ∧
        ∀ j, Tbl.get RowGroup.reset (w.cluster (s.cur.core / 8)).groups j =
          let old := Tbl.get RowGroup.reset (s.cluster (s.cur.core / 8)).groups j
          if 8 * t.val + g0.val ≤ j ∧ j ≤ 8 * t.val + g0.val + ng.val then { old with mine := false } else old))) ∧
  CompletesOver s s.msync (exec .msync s) [] (fun _ => True) ∧
  -- the counted commands
  (¬ fits → traps 0x182 (.mzero t row0 nr cw) ∧ traps 0x182 (.mdrain t row0 nr df dst d e cw) ∧ traps 0x182 (.mquant t row0 nr dst q d e cw) ∧
    traps 0x182 (.acct t row0 nr df d e cw)) ∧
  (fits → ¬ lent first rows → traps 0x180 (.mzero t row0 nr cw) ∧ traps 0x180 (.mdrain t row0 nr df dst d e cw) ∧
    traps 0x180 (.mquant t row0 nr dst q d e cw) ∧ traps 0x180 (.acct t row0 nr df d e cw)) ∧
  (fits → lent first rows → issues (.mzero t row0 nr cw) (.mzero t.val row0.val nr.val) 0) ∧
  (row0.val + nr.val < 128 / 2 ^ shp.val → lent (128 * t.val + row0.val * 2 ^ shp.val) (rows * 2 ^ shp.val) →
    kinds (128 * t.val + row0.val * 2 ^ shp.val) (rows * 2 ^ shp.val) form → operand a b → operand e f →
    issues (.mma t shp row0 nr a b e f cw) (.mma t.val shp.val row0.val nr.val (near a) (s.gN b) (near e) (s.gN f)) 0) ∧
  (t.val + nt.val ≤ 7 → lent (128 * t.val) (128 * (nt.val + 1)) → kinds (128 * t.val) (128 * (nt.val + 1)) form → operand a b →
    s.rangeBar (s.gN e) 16 = none → s.gN f % 64 = 0 →
    issues (.gmma t nt nw n6 a b e f cw) (.gmma t.val nt.val nw.val n6.val (near a) (s.gN b) (near e) (s.gN f)) 0) ∧
  (fits → lent first rows → (df = true → kinds first rows 0) → drains →
    issues (.mdrain t row0 nr df dst d e cw) (.mdrain t.val row0.val nr.val df drain.1 drain.2 (near d) (s.gN e))
      ((List.range rows).map (fun i =>
        let g := s.rowGroup (s.cur.core / 8) ((first + i) / 128) ((first + i) % 128)
        if g.kind = 2 then 8 * g.k else if df then 256 else 512)).sum) ∧
  (fits → lent first rows → kinds first rows 0 → drains → ∀ c ∈ [(QuantFmt.e4m3, 0), (.e5m2, 1), (.e5m2inf, 2)],
    issues (.mquant t row0 nr dst c.1 d e cw) (.mquant t.val row0.val nr.val drain.1 drain.2 c.2 0 0 0 (near d) (s.gN e)) (128 * rows)) ∧
  (fits → lent first rows → kinds first rows 0 → drains → drain.1 = 0 → s.rangeBar (s.gN a) 16 = none → s.rangeBar (s.gN b) 2 = none →
    badBand (s.gN x % 2 ^ 16) = false →
    issues (.mquant t row0 nr dst (.fb4 a b x) d e cw)
      (.mquant t.val row0.val nr.val drain.1 drain.2 3 (near a) (near b) (s.gN x % 2 ^ 16) (near d) (s.gN e)) (80 * rows + 2 * ((rows + 63) / 64))) ∧
  (fits → srow0.val + nr.val ≤ 127 → lent first rows → lent (128 * ts.val + srow0.val) rows → kinds first rows 2 →
    kinds (128 * ts.val + srow0.val) rows 0 →
    issues (.mrank ts t row0 nr srow0 ncm a cw) (.mrank ts.val t.val row0.val nr.val srow0.val ncm.val (s.gN a % 2 ^ 32)) 0) ∧
  (row0.val ≤ 112 → lent first 16 → Queues s (exec (.mthr row0 t x v cw) s) word (.mthr row0.val t.val x.val v.val) 0 (fun u rs p =>
    ∃ w, exec (.mthr row0 t x v cw) s = .next w ∧ p w ∧ w.cx cxCNT = s.cx cxCNT + 2 ^ 24 ∧ bits (w.cx cxSTATUS) 3 0 = 2 ∧
      BytesOnly (s.cxRange cxSTATUS :: rs) (u.setMyCtx { u.myCtx with wait := .reply s.nextId (.thresholds v.val x.val) s.cur }) w)) ∧
  (fits → lent first rows → kinds first rows 0 → s.gN d < 2 ^ 59 → s.gN d % 64 = 0 → s.gN e % 64 = 0 →
    s.place s.cur.core (s.gN d) = .ok .global → s.cnt .at_ < 63 →
    Queues s (exec (.acct t row0 nr df d e cw) s) word (.acct t.val row0.val nr.val df (s.gN d) (s.gN e))
      (rows * (if df then 256 else 512)) (fun u rs p => CompletesOver s u (exec (.acct t row0 nr df d e cw) s) rs (fun w =>
        p w ∧ w.cx cxCNT = s.cx cxCNT + 2 ^ 24 + 2 ^ 32)))

/-- R141, R162 to R166, R272, R273: the copy commands, SHELFPUT and SHELFCLOSE at issue. TCOPY reads its descriptor and SHELFPUT its table
entry first, by a request unless it is local; what they read is checked and the command queued as for the others. -/
def Claims.CopyCommands : Prop :=
  ∀ (s : State) (a b c d e f g : GReg) (esz : Fin 4) (cw : Completion) (cl u o : Nat) (bs : List Byte),
  s.cur.ctx ≠ 1 → s.myCtx.twin = false →
  let near (r : GReg) := s.nearForm s.cur.core (s.gN r)
  let word : CWord := match cw with
    | .none => .none
    | .obj r => .obj (s.gN r)
    | .fut r => .fut (s.gN r)
  let may (r : GReg) (align : Nat) := s.rangeBar (s.gN r) align = none
  let n := s.gN d % 2 ^ 32
  let rb := s.gN e % 2 ^ 32
  let mask := s.gN c % 2 ^ 16
  let places := (List.range 16).filter (fun i => mask / 2 ^ i % 2 == 1)
  let desc := descOf bs
  let ea := s.gN a
  let entry := ((s.cluster (s.cur.core / 8)).xtBase + 0x40 + 32 * (s.gN b / 2 ^ 20)) % 2 ^ 64
  -- TGATHER, TSCATTER, TMCAST, TFILL
  (may a 1 → may b 1 → may c 4 →
    Issues s (exec (.tgather a b c d e f g cw) s) word (.tgather (near a) (near b) (near c) n rb (s.gN f) (s.gN g)) (n * rb) ∧
    Issues s (exec (.tscatter a b c d e f g cw) s) word (.tscatter (near a) (near b) (near c) n rb (s.gN f) (s.gN g)) (n * rb)) ∧
  (may a 1 → may b 1 → s.gN b / 2 ^ 56 = 8 → s.gN b / 2 ^ 46 % 1024 = s.pkgId → s.gN b / 2 ^ 33 % 16 = 8 →
    (∀ i ∈ places, s.gN b / 2 ^ 37 % 16 + i % 4 < 16 ∧ s.gN b / 2 ^ 41 % 8 + i / 4 < 8) →
    Issues s (exec (.tmcast a b c d cw) s) word (.tmcast (near a) (s.gN b) mask (s.gN d)) (s.gN d * places.length)) ∧
  (may a (2 ^ esz.val) →
    Issues s (exec (.tfill esz a b d cw) s) word (.tfill esz.val (near a) (s.gN b) n) (n * 2 ^ esz.val)) ∧
  -- SHELFCLOSE
  Issues s (exec .shelfcloseAll s) .none (.shelfclose [0, 1, 2, 3]) 0 ∧
  Issues s (exec (.shelfcloseDie a) s) .none (.shelfclose [s.gN a % 4]) 0 ∧
  -- TCOPY: the descriptor and its checks
  (desc.bad = false → desc.df < 9 → desc.sf < 9 → 2 ^ desc.esz = fmtBytes desc.sf → convOk desc.sf desc.df = true →
    s.rangeBar desc.src 1 = none → s.rangeBar desc.dst 1 = none →
    Issues s (.next (s.tcopyGo ea word bs)) word (.tcopy bs) ((desc.dims.map (·.1)).prod * fmtBytes desc.df)) ∧
  (s.checkAddr .load ea 128 64 = .ok (.unit cl u o) → s.isLocal .load (.unit cl u o) = true →
    (s.localWait .load cl u o 128 ea = true → Stalls s s (exec (.tcopy a cw) s) .retry) ∧
    (s.localWait .load cl u o 128 ea = false → s.tainted (nearLoc cl u o) 128 = true →
      exec (.tcopy a cw) s = .next (s.takeTrap 0x1C0 ea 0)) ∧
    (s.localWait .load cl u o 128 ea = false → s.tainted (nearLoc cl u o) 128 = false →
      exec (.tcopy a cw) s = .next ((s.tcopyGo ea word (s.rd (nearLoc cl u o) 128)).acquireIf (s.sawRelease (nearLoc cl u o) 128)))) ∧
  (∀ p, s.checkAddr .load ea 128 64 = .ok p → s.isLocal .load p = false → s.pendingTo ea = false →
    Stalls s (s.launchFlight (s.reqFor p ea (.load 128) (.ctx s.cur.core s.cur.ctx) none false)) (exec (.tcopy a cw) s)
      (.reply s.nextId (.desc ea word) s.cur)) ∧
  -- SHELFPUT: the expert's entry and its checks
  (s.gN b < 2 ^ 32 → s.pendingTo entry = false →
    Stalls s (s.launchFlight (s.reqFor .global entry (.load 32) (.ctx s.cur.core s.cur.ctx) none false)) (exec (.shelfput a b) s)
      (.reply s.nextId (.expert ea (s.gN b) entry) s.cur)) ∧
  (let w := natOf (bs.take 8)
   let valid := w / 2 ^ 63 % 2 = 1 ∧ w / 2 ^ 44 % 16 ≤ 8 ∧ w / 2 ^ 36 % 256 ≠ 0 ∧ w / 2 ^ 36 % 256 ≠ 255
   (¬ valid → s.shelfputGo ea (s.gN b) entry bs = s.takeTrap 0x18B entry 0) ∧
   (valid → s.rangeBar ea 64 = none → Issues s (.next (s.shelfputGo ea (s.gN b) entry bs)) .none
     (.shelfput (near a) (s.gN b) (w / 2 ^ 61 % 4) (w / 2 ^ 36 % 256)) 0))

/-- R141, R208, R369: tile commands, shelf and accumulate instructions trap in the handler context and in a member of a twin pair. -/
def Claims.UnitGates : Prop := ∀ (s : State) (i : Instr), usesUnits i = true →
  (s.cur.ctx = 1 → exec i s = .next (s.takeTrap 0x143 0 0)) ∧
  (s.cur.ctx ≠ 1 → s.myCtx.twin = true → exec i s = .next (s.takeTrap 0x1C3 0 0))


/-! ### Tasks and futures (R167 to R190) -/

/-- R178, R171, R167, R200, R382: SPAWN, SPAWNT and CALLAT. After the .REL wait, a cancel request and a misaligned entry PC trap; otherwise
the lowest FREE slot of the issuing core's table becomes PENDING, its handle goes to gD, and a record with the entry PC, the arguments
and the tile pointers is sent to the scheduler that the placement chooses, of equal hints the lowest cluster. A target that no route
reaches traps NEAR_TARGET_ABSENT (for CALLAT to another package the model's choice, log entry 112). An activation keeps the record for
HRET (R208). -/
def Claims.SpawnRules : Prop :=
  ∀ (s : State) (d a b : GReg) (plc : Sys2Proof.Place) (pri : Fin 4) (twin rst : Bool) (slot cl elig : Nat),
  let core := s.cur.core
  let part := s.partOf core
  let mine := (s.part part).clusters
  let least (hint : Cluster → Nat) (cs : List Nat) := cl ∈ cs ∧
    ∀ c ∈ cs, hint (s.cluster cl) < hint (s.cluster c) ∨ (hint (s.cluster cl) = hint (s.cluster c) ∧ cl ≤ c)
  let placed : Prop := match plc with
    | .here => cl = core / 8 ∧ elig = 0xFF
    | .quad => cl = core / 8 ∧ elig = if twin then 0xFF else if core % 8 < 4 then 0x0F else 0xF0
    | .die => least (·.hintDie) (mine.filter (fun c => c / 128 == core / 1024)) ∧ elig = 0xFF
    | .any => least (·.hintPkg) mine ∧ elig = 0xFF
  let ready := s.quietAt core s.cur.ctx = true ∧ s.raiseLogged (coversOf true ⟨false, false⟩) = none ∧
    (s.cur.ctx = 1 → ∃ c : Activation, s.me.act = some c ∧ c.sends < 4)
  let e := s.fut core slot
  let free := slot < s.me.ftLimit ∧ e.state = 0 ∧ (∀ j, j < slot → (s.fut core j).state ≠ 0)
  let made (pkg cl : Nat) : State := s.setFut core slot
    { state := 1, value := 2 ^ 63 + pkg * 2 ^ 22 + cl / 128 * 2 ^ 20 + cl % 128 * 2 ^ 13, gen := e.gen, part := part, cause := 0,
      cons := false, dcan := false, tied := true, parent := s.cx cxFUT, waiters := [],
      bad := false }
  let handle := 2 ^ 63 + s.pkgId * 2 ^ 52 + core * 2 ^ 40 + slot * 2 ^ 30 + e.gen * 2 ^ 14 + part * 2 ^ 10
  let arg (i : Nat) := s.gN (regPlus b i)
  let record (twin rst : Bool) (tiles : List Nat) (elig : Nat) : TaskRec :=
    { pc := s.gN a, pri := pri.val, handle := handle, twin := twin, rst := rst, args := [arg 0, arg 1, arg 2, arg 3], tiles := tiles,
      elig := elig, pair := none }
  let sent (t : State) (f : Flight) : State := match s.me.act with
    | some c => if s.cur.ctx = 1 then t.setMe { t.me with act := some { c with sends := c.sends + 1, out := c.out ++ [f],
                                                                               futs := c.futs ++
      [(handle / 2 ^ 30 % 1024, handle / 2 ^ 14 % 2 ^ 16)] } } else t.launchFlight f
    | none => t.launchFlight f
  let spawns (i : Instr) (pkg cl : Nat) (r : TaskRec) :=
    CompletesOver s (sent (made pkg cl) (.record core pkg cl r)) (exec i s) (s.gRange d) (fun t =>
      t.gN d = if d = 0 then 0 else handle % 2 ^ 64)
  let all := [Instr.spawn d a b plc pri twin rst, .spawnt d a b plc pri twin rst, .callat d a b pri]
  let target := arg 4
  let tpkg := target / 2 ^ 12 % 1024
  let tcl := target % 4096 / 8
  let near (c : Nat) := s.reaches (core / 8) c = true
  (∀ i ∈ all, ready → bits (s.cx cxSTATUS) 9 9 = 1 → exec i s = .next (s.takeTrap 0x106 0 0)) ∧
  (∀ i ∈ all, ready → bits (s.cx cxSTATUS) 9 9 = 0 → s.gN a % 4 ≠ 0 → exec i s = .next (s.takeTrap 0x004 (s.gN a) 0)) ∧
  (∀ i ∈ all, ∀ c : Activation, s.cur.ctx = 1 → s.me.act = some c → 4 ≤ c.sends → exec i s = .next (s.takeTrap 0x141 0 0)) ∧
  (ready → bits (s.cx cxSTATUS) 9 9 = 0 → s.gN a % 4 = 0 →
    (placed → ¬ near cl → ∀ i ∈ [Instr.spawn d a b plc pri twin rst, .spawnt d a b plc pri twin rst],
      exec i s = .next (s.takeTrap 0x082 0 0)) ∧
    (free → placed → near cl → spawns (.spawn d a b plc pri twin rst) s.pkgId cl (record twin rst [] elig) ∧
      spawns (.spawnt d a b plc pri twin rst) s.pkgId cl (record twin rst [arg 4, arg 5, arg 6, arg 7] elig)) ∧
    (2 ^ 22 ≤ target → exec (.callat d a b pri) s = .next (s.takeTrap 0x109 0 0)) ∧
    (target < 2 ^ 22 → tpkg = s.pkgId → s.partOfCluster tcl ≠ some part → exec (.callat d a b pri) s = .next (s.takeTrap 0x109 0 0)) ∧
    (target < 2 ^ 22 → tpkg = s.pkgId → s.partOfCluster tcl = some part → ¬ near tcl →
      exec (.callat d a b pri) s = .next (s.takeTrap 0x082 0 0)) ∧
    (target < 2 ^ 22 → tpkg ≠ s.pkgId → s.routeOpen part tpkg = false → exec (.callat d a b pri) s = .next (s.takeTrap 0x082 0 0)) ∧
    (target < 2 ^ 22 → tpkg ≠ s.pkgId → s.routeOpen part tpkg = true → s.routeClass tpkg ≠ 1 →
      exec (.callat d a b pri) s = .next (s.takeTrap 0x086 0 0)) ∧
    (free → target < 2 ^ 22 → tpkg ≠ s.pkgId → s.routeOpen part tpkg = true → s.routeClass tpkg = 1 → s.cur.ctx = 1 →
      spawns (.callat d a b pri) tpkg tcl (record false false [] (2 ^ (target % 8)))) ∧
    (free → target < 2 ^ 22 → tpkg = s.pkgId → s.partOfCluster tcl = some part → near tcl →
      spawns (.callat d a b pri) tpkg tcl (record false false [] (2 ^ (target % 8)))) ∧
    (free → target < 2 ^ 22 → tpkg ≠ s.pkgId → s.routeOpen part tpkg = true → s.routeClass tpkg = 1 → s.cur.ctx ≠ 1 →
      Stalls s ((made tpkg tcl).launchFlight (.record core tpkg tcl (record false false [] (2 ^ (target % 8))))) (exec (.callat d a b pri) s)
        (.reply s.nextId (.spawned d.val handle) s.cur)) ∧
    ((∀ j, j < s.me.ftLimit → (s.fut core j).state ≠ 0) → s.me.ftSpEnt = 0 → placed → near cl →
      exec (.spawn d a b plc pri twin rst) s = .next (s.takeTrap 0x104 0 0)))

/-- R168, R176, R179 to R183, R187: the future instructions on a future of the executing core itself, whose entry `e` the table holds. -/
def Claims.FutureInstructions : Prop := ∀ (s : State) (d a b : GReg) (slot : Nat) (e : FutEntry),
  let core := s.cur.core
  let h := s.gN a
  let part := s.partOf core
  let live := h = 2 ^ 63 + s.pkgId * 2 ^ 52 + core * 2 ^ 40 + slot * 2 ^ 30 + e.gen * 2 ^ 14 + part * 2 ^ 10 ∧ s.fut core slot = e ∧
    e.state ≠ 0 ∧ e.gen < 2 ^ 16 ∧ slot < 1024 ∧ core < 4096 ∧ s.pkgId < 1024 ∧ part < 16
  let usable := s.partOfCluster (core / 8) = some part ∧ (∀ c ∈ s.clusters, c.2.fenced = false) ∧ s.myCtx.twin = false
  let quiet := s.quietAt core s.cur.ctx = true ∧ s.raiseLogged (coversOf true ⟨false, false⟩) = none
  let seen := s.setFut core slot { e with cons := true }
  let ended (st v cause : Nat) : State :=
    let t := s.setFut core slot { e with state := st, value := v, cause := cause, cons := e.cons || !e.waiters.isEmpty, waiters := [] }
    { t with nextId := s.nextId + e.waiters.length, flights := s.flights ++
      e.waiters.zipIdx.map (fun w => (s.nextId + w.2, .wake w.1 h st (if st = 2 then v else cause))) }
  let gets (o : Host.Outcome State Fault Refusal) (base : State) (v : Nat) :=
    CompletesOver s base o (s.gRange d) (fun t => t.gN d = if d = 0 then 0 else v % 2 ^ 64)
  let gives (base : State) (v st : Nat) := d.val < 63 → CompletesOver s base (exec (.ttouch d a) s) (s.gRange d ++ s.gRange (regPlus d 1))
    (fun t => (t.gN d = if d = 0 then 0 else v % 2 ^ 64) ∧ t.gN (regPlus d 1) = st)
  let touchable := s.cur.ctx ≠ 1 ∧ bits (s.cx cxSTATUS) 9 9 = 0 ∧ h ≠ s.cx cxFUT
  let acquiredTouch (t : State) := t.setMyCtx { t.myCtx with draining := false, ahead := [] }
  let cause := if s.gN b % 512 = 0 then 0x10A else s.gN b % 512
  -- FNEW
  (∀ n, n < s.me.ftLimit → (s.fut core n).state = 0 → (∀ j, j < n → (s.fut core j).state ≠ 0) → s.cur.ctx ≠ 1 →
    gets (exec (.fnew d) s) (s.setFut core n { FutEntry.reset with state := 1, gen := (s.fut core n).gen, part := part })
      (2 ^ 63 + s.pkgId * 2 ^ 52 + core * 2 ^ 40 + n * 2 ^ 30 + (s.fut core n).gen * 2 ^ 14 + part * 2 ^ 10)) ∧
  -- what is no handle
  (h / 2 ^ 62 ≠ 2 ∨ h % 1024 ≠ 0 →
    (∀ i ∈ [Instr.touch d a, .ffree a, .fstat d a, .cancel d a, .cancelTree d a], exec i s = .next (s.takeTrap 0x100 h 0)) ∧
    (quiet → ∀ i ∈ [Instr.resolve d a b, .poison d a b], exec i s = .next (s.takeTrap 0x100 h 0)) ∧ gives s 0 7) ∧
  -- what the instructions read
  (live → usable → e.bad = true → exec (.fstat d a) s = .next (s.takeTrap 0x1C0 0 0) ∧ exec (.ffree a) s = .next (s.takeTrap 0x1C0 0 0)) ∧
  (live → usable → e.bad = false →
    gets (exec (.fstat d a) s) s (e.waiters.length * 2 ^ 32 + boolNat e.tied * 2 ^ 17 + (if e.state = 3 then e.cause else 0) * 2 ^ 5 +
      boolNat e.dcan * 2 ^ 4 + boolNat e.cons * 2 ^ 3 + e.state) ∧
    (e.state = 1 → gives s 0 1) ∧ (e.state = 2 → gives seen.acquired e.value 2) ∧ (e.state = 3 → gives seen.acquired e.cause 3) ∧
    (e.state = 4 → gives seen.acquired 0 4) ∧
    (s.cur.ctx = 1 → exec (.touch d a) s = .next (s.takeTrap 0x144 0 0)) ∧
    (s.cur.ctx ≠ 1 → bits (s.cx cxSTATUS) 9 9 = 1 → exec (.touch d a) s = .next (s.takeTrap 0x106 0 0)) ∧
    (s.cur.ctx ≠ 1 → bits (s.cx cxSTATUS) 9 9 = 0 → h = s.cx cxFUT → exec (.touch d a) s = .next (s.takeTrap 0x107 h 0)) ∧
    (touchable → e.state = 2 → gets (exec (.touch d a) s) (acquiredTouch seen) e.value) ∧
    (touchable → e.state = 3 → exec (.touch d a) s = .next (seen.takeTrap 0x102 h e.cause)) ∧
    (touchable → e.state = 4 → exec (.touch d a) s = .next (seen.takeTrap 0x103 h 0)) ∧
    (touchable → e.state = 1 → s.myCtx.task = none → Stalls s (s.setFut core slot { e with waiters := e.waiters ++ [s.tokenOf core s.cur.ctx] })
      (exec (.touch d a) s) (.listed d.val h s.cur)) ∧
  -- what they make of it
    (quiet → Tbl.get 0 s.roots (rootKey part core slot e.gen) = 0 →
      (e.state = 1 → gets (exec (.resolve d a b) s) (ended 2 (s.gN b) 0) 1 ∧ gets (exec (.poison d a b) s) (ended 3 0 cause) 1) ∧
      (2 ≤ e.state → gets (exec (.resolve d a b) s) s 0 ∧ gets (exec (.poison d a b) s) s 0)) ∧
    (e.state = 1 ∨ e.waiters ≠ [] → exec (.ffree a) s = .next (s.takeTrap 0x105 h 0)) ∧
    (2 ≤ e.state → e.waiters = [] →
      CompletesOver s (s.setFut core slot { FutEntry.reset with gen := (e.gen + 1) % 2 ^ 16 }) (exec (.ffree a) s) [] (fun _ => True))) ∧
  -- a handle of an earlier generation
  (∀ gen, gen < 2 ^ 16 → gen ≠ (s.fut core slot).gen → slot < 1024 → core < 4096 → s.pkgId < 1024 → part < 16 →
    h = 2 ^ 63 + s.pkgId * 2 ^ 52 + core * 2 ^ 40 + slot * 2 ^ 30 + gen * 2 ^ 14 + part * 2 ^ 10 → usable → s.me.ftSpEnt = 0 →
    gets (exec (.fstat d a) s) s 0 ∧ gives s 0 0 ∧ exec (.ffree a) s = .next (s.takeTrap 0x101 h 0))

/-- R167, R178, R184, R370: a future operation on a future of another core, one of a twin member, and every cancellation, is sent to the
future's home, and the context is STALLED for the answer. -/
def Claims.FutureRequests : Prop := ∀ (s : State) (d a b : GReg),
  let h := s.gN a
  let part := s.partOf s.cur.core
  let cl := h / 2 ^ 40 % 4096 / 8
  let remote := h / 2 ^ 40 % 4096 ≠ s.cur.core ∨ s.myCtx.twin = true
  let ok := h < 2 ^ 64 ∧ h / 2 ^ 62 = 2 ∧ h % 1024 = 0 ∧ h / 2 ^ 10 % 16 = part ∧ h / 2 ^ 52 % 1024 = s.pkgId ∧
    s.partOfCluster cl = some part ∧ ∀ c ∈ s.clusters, c.2.fenced = false
  let quiet := s.quietAt s.cur.core s.cur.ctx = true ∧ s.raiseLogged (coversOf true ⟨false, false⟩) = none
  let asks (i : Instr) (op : FutOp) (k : Kont) := Stalls s (s.launchFlight (.fut
    { handle := h, op := op, part := part, back := .ctx s.cur.core s.cur.ctx, root := s.nextId, src := s.pkgId * 4096 + s.cur.core }))
    (exec i s) (.reply s.nextId k s.cur)
  ok → asks (.cancel d a) (.cancel false) (.word d.val) ∧ asks (.cancelTree d a) (.cancel true) (.word d.val) ∧
    (remote → asks (.fstat d a) .stat (.word d.val) ∧ asks (.ttouch d a) .ttouch (.pair d.val) ∧ asks (.ffree a) .free .plain ∧
      (quiet → asks (.resolve d a b) (.finish 2 (s.gN b)) (.word d.val) ∧
        asks (.poison d a b) (.finish 3 (if s.gN b % 512 = 0 then 0x10A else s.gN b % 512)) (.word d.val)) ∧
      (s.cur.ctx ≠ 1 → bits (s.cx cxSTATUS) 9 9 = 0 → h ≠ s.cx cxFUT → s.myCtx.task = none →
        asks (.touch d a) (.touch (some (s.tokenOf s.cur.core s.cur.ctx))) (.touch d.val h true)))

/-- R188 to R190, R202, R197: CHKC, YIELD and TERM. A task that yields keeps its workspace, which becomes a resident one, takes another
slot for its context, and is READY behind the others; one that ends resolves its future with gA, and its record and its context are
free. Its saggar entries are flushed first and its counters are zero (R30, R264). -/
def Claims.TaskInstructions : Prop := ∀ (s : State) (a : GReg) (cl rid slot : Nat) (e : FutEntry),
  let core := s.cur.core
  let ctx := s.cur.ctx
  let canreq := bits (s.cx cxSTATUS) 9 9 = 1
  let k := s.task cl rid
  let c := s.cluster cl
  let runs := 2 ≤ ctx ∧ s.myCtx.task = some (cl, rid)
  let leaves := s.quietAt core ctx = true ∧ s.hasSag core ctx = false
  let record := nearLoc cl 8 (0x3F8000 + 64 * rid)
  let home := s.cx cxFUT = 2 ^ 63 + s.pkgId * 2 ^ 52 + core * 2 ^ 40 + slot * 2 ^ 30 + e.gen * 2 ^ 14 + s.partOf core * 2 ^ 10 ∧
    s.fut core slot = e ∧ e.gen < 2 ^ 16 ∧ slot < 1024 ∧ core < 4096 ∧ s.pkgId < 1024 ∧ s.partOf core < 16 ∧
    Tbl.get 0 s.roots (rootKey (s.partOf core) core slot e.gen) = 0 ∧ e.bad = false
  let fut := s.cx cxFUT
  (canreq → exec .chkc s = .next (s.takeTrap 0x106 0 0)) ∧
  (¬ canreq → Completes s (exec .chkc s) [] (fun _ => True)) ∧
  (ctx = 1 → exec .yield s = .next (s.takeTrap 0x144 0 0)) ∧
  (ctx ≠ 1 → s.myCtx.task = none → Completes s (exec .yield s) [] (fun _ => True)) ∧
  (runs → canreq → exec .yield s = .next (s.takeTrap 0x106 0 0)) ∧
  (runs → ¬ canreq → s.quietAt core ctx = false → s.hasSag core ctx = false ∨ s.myCtx.draining = true →
    Stalls s (s.setMyCtx { s.myCtx with draining := true }).msync (exec .yield s) .retry) ∧
  (runs → ¬ canreq → leaves → k.used = true → rid < 512 → ctx < 12 → ∀ wp, s.freeSlot core = some wp → s.tainted record 16 = false →
    (∀ x, x < 12 → apartFrom (record, 64) (s.wsLoc core x 0, 0xC00)) → apartFrom (record, 64) (pmLoc core wp, 0xC00) →
    apartFrom (s.wsLoc core ctx 0, 0xC00) (pmLoc core wp, 0xC00) →
    ∃ t, exec .yield s = .next t ∧ t.stateAt core ctx = 0 ∧ (t.ctxAt core ctx).wp = wp ∧ (t.ctxAt core ctx).task = none ∧
      (t.core core).resident = (s.core core).resident ++ [(s.myCtx.wp, cl, rid)] ∧
      (t.cluster cl).ready = c.ready.filter (fun x => x != rid) ++ [rid] ∧
      t.task cl rid = { k with ws := .resident core s.myCtx.wp, resume := .again, stage := 2, since := s.clock } ∧
      natOf (t.rd (s.wsLoc core ctx cxPC) 8) = s.pcAfter ∧ natOf (t.rd record 8) = setBits (natOf (s.rd record 8)) 1 0 k.pri ∧
      natOf (t.rd (record + 8) 8) = setBits (natOf (s.rd (record + 8) 8)) 7 5 2) ∧
  (ctx < 2 → exec (.term a) s = .next (s.takeTrap 0x108 0 0)) ∧
  (2 ≤ ctx → leaves → s.raiseLogged (coversOf true ⟨false, false⟩) = none → s.myCtx.task = none → s.cx cxFUT = 0 → ctx < 12 →
    ∃ t, exec (.term a) s = .next t ∧ BytesOnly [s.cxRange cxSTATUS] (s.setMyCtx { (Ctx.reset ctx) with wp := s.myCtx.wp, away := s.myCtx.away }) t ∧
      bits (t.cx cxSTATUS) 3 0 = 0) ∧
  (runs → leaves → ctx < 12 → s.raiseLogged (coversOf true ⟨false, false⟩) = none → home → e.state = 1 → e.waiters = [] → s.myCtx.twin = false →
    ∃ t, exec (.term a) s = .next t ∧ t.stateAt core ctx = 0 ∧ t.task cl rid = Task.reset ∧ (t.ctxAt core ctx).task = none ∧
      (canreq → t.fut core slot = { e with state := 4, value := 0, cause := 0 }) ∧
      (¬ canreq → t.fut core slot = { e with state := 2, value := s.gN a, cause := 0 })) ∧
  (runs → leaves → s.raiseLogged (coversOf true ⟨false, false⟩) = none → fut ≠ 0 → fut / 2 ^ 40 % 4096 ≠ core →
    (∀ c, s.handleReach (core / 8) (s.partOf core) fut = some c → exec (.term a) s = .next (s.takeTrap c fut 0)) ∧
    (s.handleReach (core / 8) (s.partOf core) fut = none → Stalls s (s.launchFlight (.fut
      { handle := fut, op := if canreq then .finish 4 0 else .finish 2 (s.gN a), part := s.partOf core, back := .ctx core ctx,
        root := s.nextId, src := s.pkgId * 4096 + core })) (exec (.term a) s) (.reply s.nextId .ended s.cur)))


/-! ### Messages, the handler context and launches (R205 to R209, R299, R305, R306) -/

/-- R205, R206, R208, R382: SEND. Its checks in order; from a task or the control context the message is counted in SN and sent, from an
activation it is kept for HRET. -/
def Claims.SendMessages : Prop := ∀ (s : State) (d a b : GReg) (n : Fin 9),
  let t := s.gN d
  let part := s.partOf s.cur.core
  let pkg := t / 2 ^ 12 % 1024
  let send := exec (.send d a b n) s
  let room := s.cur.ctx = 1 → ∃ c : Activation, s.me.act = some c ∧ c.sends < 4
  let placed := t < 2 ^ 22 ∧ (pkg = s.pkgId → s.partOfCluster (t % 4096 / 8) = some part) ∧
    (pkg = s.pkgId → s.reaches (s.cur.core / 8) (t % 4096 / 8) = true) ∧ (pkg ≠ s.pkgId → s.routeOpen part pkg = true)
  let lost := t < 2 ^ 22 ∧ (pkg = s.pkgId → s.partOfCluster (t % 4096 / 8) = some part ∧ s.reaches (s.cur.core / 8) (t % 4096 / 8) = false) ∧
    (pkg ≠ s.pkgId → s.routeOpen part pkg = false)
  let m (back : Back) : Flight := .msg
    { part := part, target := t, hpc := s.gN a, word := n.val * 2 ^ 26 + part * 2 ^ 22 + (s.pkgId * 4096 + s.cur.core),
      pay := (List.range n.val).map (fun i => s.gN (regPlus b i)), back := back, refused := none, drain := none }
  (∀ c : Activation, s.cur.ctx = 1 → s.me.act = some c → 4 ≤ c.sends → send = .next (s.takeTrap 0x141 0 0)) ∧
  (room → 2 ^ 22 ≤ t ∨ (pkg = s.pkgId ∧ s.partOfCluster (t % 4096 / 8) ≠ some part) → send = .next (s.takeTrap 0x146 0 0)) ∧
  (room → lost → send = .next (s.takeTrap 0x082 0 0)) ∧
  (room → placed → s.gN a % 4 ≠ 0 → send = .next (s.takeTrap 0x004 (s.gN a) 0)) ∧
  (placed → s.gN a % 4 = 0 →
    (s.cur.ctx ≠ 1 → s.cnt .sn < 63 →
      CompletesOver s (s.launchFlight (m (.count s.cur.core s.cur.ctx .sn s.pc s.nextId))) send [s.cxRange cxCNT]
        (fun t => t.cx cxCNT = s.cx cxCNT + 1)) ∧
    (s.cur.ctx ≠ 1 → s.cnt .sn = 63 → Stalls s s send .retry) ∧
    (∀ c : Activation, s.cur.ctx = 1 → s.me.act = some c → c.sends < 4 →
      CompletesOver s (s.setMe { s.me with act := some { c with sends := c.sends + 1, out := c.out ++ [m .none] } }) send []
        (fun _ => True)))

/-- R208, R209: an activation's stores to its own private memory are buffered, at most 32; HRET applies them in program order, sends
what the activation sent, frees the inbox slot and leaves the context EMPTY, in one step. -/
def Claims.HandlerCommit : Prop := ∀ (s : State) (c : Activation) (d a b : GReg) (v : VReg) (off : Imm) (h : Hint) (w : WaitSel)
    (hi rel : Bool) (p : Dest) (o : Nat),
  let core := s.cur.core
  let buffers (i : Instr) (rel : Bool) (k : Kind) (ea n : Nat) (op : MemOp) := s.goesOn rel w → s.checkAddr k ea n n = .ok p →
    (s.ownOff ea = some o → c.stores < 32 → CompletesOver s
      (s.setMe { s.me with act := some { c with stores := c.stores + 1, buf := c.buf ++ [{ off := o, op := op }] } }) (exec i s) []
        (fun _ => True)) ∧
    (s.ownOff ea = some o → 32 ≤ c.stores → exec i s = .next (s.takeTrap 0x142 0 0)) ∧
    (s.ownOff ea = none → exec i s = .next (s.takeTrap 0x143 0 0))
  let store (i : Instr) (ea n : Nat) (bs : List Byte) := buffers i (h == .order) .store ea n (.store bs false)
  let at_ (x : BufStore) : Range := (pmLoc core x.off, x.op.size)
  (s.cur.ctx ≠ 1 → exec .hret s = .next (s.takeTrap 0x145 0 0)) ∧
  (s.me.act = some c → s.cur.ctx = 1 →
    store (.stb d a off h w) (s.memEa a off 1) 1 (bytesOf 1 (s.gN d)) ∧
    store (.sth d a off h w) (s.memEa a off 2) 2 (bytesOf 2 (s.gN d)) ∧
    store (.stw d a off h w) (s.memEa a off 4) 4 (bytesOf 4 (s.gN d)) ∧
    store (.std d a off h w) (s.memEa a off 8) 8 (bytesOf 8 (s.gN d)) ∧
    store (.vst v a off h w) (s.memEa a off 64) 64 ((List.range 16).flatMap (fun i => bytesOf 4 (s.laneN v i))) ∧
    buffers (.stn a b hi rel w) rel .nibble (s.gN a) 1 (.nibble hi (s.gN b % 16))) ∧
  (s.me.act = some c → s.cur.ctx = 1 → (∀ x ∈ c.buf, ((∃ bs e, x.op = .store bs e) ∨ ∃ hi v, x.op = .nibble hi v) ∧ x.off + x.op.size ≤ 0x30000 ∧
      s.inWords (core / 8) (core % 8) x.off x.op.size = none ∧ s.nearHeld (at_ x).1 x.op.size = false ∧
      apartFrom (at_ x) (s.cxRange cxSTATUS)) →
    ∃ t, exec .hret s = .next t ∧ (t.core core).act = none ∧
      (t.core core).inbox = s.me.inbox.filter (fun e => e.slot != c.slot) ∧ t.stateAt core 1 = 0 ∧
      t.flights = s.flights ++ c.out.zipIdx.map (fun f => (s.nextId + f.2, f.1)) ∧
      (∀ x : Nat, (∀ r ∈ s.cxRange cxSTATUS :: c.buf.map at_, x < r.1 ∨ r.1 + r.2 ≤ x) → t.mem.get x = s.mem.get x) ∧
      (∀ (i : Nat) x bs e, c.buf[i]? = some x → x.op = .store bs e → (∀ (j : Nat) y, i < j → c.buf[j]? = some y → apartFrom (at_ y) (at_ x)) →
        t.rd (at_ x).1 bs.length = bs) ∧
      (∀ (i : Nat) x, c.buf[i]? = some x → (∀ (j : Nat) y, j ≠ i → c.buf[j]? = some y → apartFrom (at_ y) (at_ x)) →
        t.rd (at_ x).1 x.op.size = (x.op.run (s.rd (at_ x).1 x.op.size)).1))

/-- R305, R306, R299: LAUNCH and FLOOD, after their .REL wait. The block is read as a load; LAUNCH asks the queue's service core to append it,
FLOOD registers its launch at the join's home and sends the wake. -/
def Obligations.LaunchInstructions : Prop := ∀ (s : State) (d a b : GReg) (bs : List Byte) (p : Dest) (slot : Nat) (e : FutEntry),
  let core := s.cur.core
  let part := s.partOf core
  let ea := s.gN a
  let q := s.gN b
  let launch := exec (.launch d a b) s
  let flood := exec (.flood a) s
  let ready := s.quietAt core s.cur.ctx = true ∧ s.raiseLogged (coversOf true ⟨false, false⟩) = none ∧ s.cur.ctx ≠ 1 ∧
    s.myCtx.twin = false
  let w (i : Nat) := natOf ((bs.drop (8 * i)).take 8)
  let set := w 3
  let first := set % 2 ^ 12
  let count := set / 2 ^ 12 % 2 ^ 13
  let stride := set / 2 ^ 25 % 2 ^ 12
  let setOk := 1 ≤ count ∧ count ≤ 4096 ∧ 1 ≤ stride ∧ first + (count - 1) * stride ≤ 4095 ∧ set < 2 ^ 39 ∧
    ∀ i, i < count → s.partOfCluster ((first + i * stride) / 8) = some part
  let block := w 0 % 256 = 1 ∧ w 0 / 2 ^ 9 % 2 ^ 23 = 0 ∧ setOk ∧ w 4 ≠ 0 ∧ (w 5 = 0 ∨ (w 5 < 2 ^ 59 ∧ w 5 % 8 = 0)) ∧ w 6 = 0 ∧ w 7 = 0
  let home := w 4 = 2 ^ 63 + s.pkgId * 2 ^ 52 + core * 2 ^ 40 + slot * 2 ^ 30 + e.gen * 2 ^ 14 + part * 2 ^ 10 ∧
    s.fut core slot = e ∧ e.bad = false ∧ e.state = 1 ∧ e.gen < 2 ^ 16 ∧ slot < 1024 ∧ core < 4096 ∧ s.pkgId < 1024 ∧ part < 16 ∧
    s.partOfCluster (core / 8) = some part ∧ ∀ c ∈ s.clusters, c.2.fenced = false
  let fresh := e.tied = false ∧ ∀ l ∈ s.launches, l.2.join ≠ w 4 ∨ l.2.queue ≠ none ∨ l.2.walker ≠ none
  let wake : KWake :=
    { sender := 4 + core, launch := s.nextId, part := part, pc := w 1, arg := w 2, set := set,
      left := (List.range count).map (fun i => first + i * stride) }
  let joined : State :=
    { s with nextId := s.nextId + 1, launches := s.launches ++ [(s.nextId,
        { part := part, count := count, got := 0, bad := 0, done := w 5, join := w 4, queue := none, walker := none, joining := false })] }
  (ready → ea % 64 ≠ 0 → launch = .next (s.takeTrap 0x081 ea 0) ∧ flood = .next (s.takeTrap 0x081 ea 0)) ∧
  (ready → ea % 64 = 0 → s.checkAddr .load ea 64 64 = .ok p →
    (64 ≤ q → launch = .next (s.takeTrap 0x1E5 0 0)) ∧
    (∀ t x, q < 64 → s.readQ part q = .ok (t, x) → x.en = false ∨ x.priv = true → launch = .next (t.takeTrap 0x1E5 0 0)) ∧
    (∀ va, q < 64 → s.readQ part q = .error (0x1C0, va) → launch = .next (s.takeTrap 0x1C0 va 0)) ∧
    (s.isLocal .load p = false → s.pendingTo ea = false →
      (∀ x, q < 64 → s.readQ part q = .ok (s, x) → x.en = true → x.priv = false →
        Stalls s (s.launchFlight (s.reqFor p ea (.load 64) (.ctx core s.cur.ctx) none false)) launch
          (.reply s.nextId (.block d.val (some q)) s.cur)) ∧
      Stalls s (s.launchFlight (s.reqFor p ea (.load 64) (.ctx core s.cur.ctx) none false)) flood
        (.reply s.nextId (.block 0 none) s.cur)) ∧
    (∀ cl u o, p = .unit cl u o → s.isLocal .load p = true → s.localWait .load cl u o 64 ea = false →
      s.tainted (nearLoc cl u o) 64 = false →
      (∀ x, q < 64 → s.readQ part q = .ok (s, x) → x.en = true → x.priv = false →
        launch = .next ((s.launchGo d.val q (s.rd (nearLoc cl u o) 64)).acquireIf (s.sawRelease (nearLoc cl u o) 64))) ∧
      flood = .next ((s.floodGo (s.rd (nearLoc cl u o) 64)).acquireIf (s.sawRelease (nearLoc cl u o) 64)))) ∧
  (w 0 % 256 ≠ 1 → w 0 % 256 ≠ 2 → s.launchGo d.val q bs = s.takeTrap 0x1E5 0 0) ∧
  (w 0 % 256 = 1 ∨ w 0 % 256 = 2 → Stalls s
    (s.launchFlight (.append { part := part, queue := q, block := bs, core := core, ctx := s.cur.ctx }))
    (.next (s.launchGo d.val q bs)) (.reply s.nextId (.word d.val) s.cur)) ∧
  (bs.length = 64 → ¬ block → s.floodGo bs = s.takeTrap 0x1E5 0 0) ∧
  (bs.length = 64 → block → home → s.myCtx.twin = false →
    (fresh → CompletesOver s (joined.launchFlight (.kwake wake)) (.next (s.floodGo bs)) [] (fun _ => True)) ∧
    (¬ fresh → s.floodGo bs = ({ s with nextId := s.nextId + 1 } : State).takeTrap 0x1E5 0 0))

/-! ### The context instructions, the control fields and the bank modes (R212, R223, R317 to R325) -/

/-- R212, R317 to R320, R370, R408: SETWP, START, STOPC, PARK and BANKMODE in the control context. PARK asks the other member of a twin pair
too. -/
def Obligations.ContextControl : Prop := ∀ (s : State) (d a b : GReg), s.cur.ctx = 0 →
  let core := s.cur.core
  let n := s.gN a
  let v := s.gN b
  let st := s.stateAt core n
  let c := s.ctxAt core n
  let cl := core / 8
  let slot := ∃ k, k < 14 ∧ v = 0x30000 + 0xC00 * k
  let other := (∃ x, x < 12 ∧ x ≠ n ∧ (s.ctxAt core x).wp = v) ∨ ∃ r ∈ s.me.resident, r.1 = v
  let apart := apartFrom (pmLoc core v, 0xC00) (s.wsLoc core 0 0, 0xC00)
  let off := apartFrom (s.wsLoc core n 0, 0xC00) (s.wsLoc core 0 0, 0xC00)
  let ready := s.quietAt core 0 = true ∧ s.raiseLogged (coversOf true ⟨false, false⟩) = none
  let gives (x : Nat) (t : State) := t.gN d = if d = 0 then 0 else x
  let returns (i : Instr) (x : Nat) := CompletesOver s s (exec i s) (s.gRange d) (gives x)
  let state (base : State) (i : Instr) (st x : Nat) :=
    CompletesOver s base (exec i s) (s.gRange d ++ [(s.wsLoc core n cxSTATUS, 8)]) (fun t => t.stateAt core n = st ∧ gives x t)
  let setwp := exec (.setwp a b) s
  let start := Instr.start d a b
  let stopc := Instr.stopc d a b
  let park := Instr.park d a
  let bankmode := exec (.bankmode a b) s
  let moves : State := s.setCtxAt core n { c with wp := v, body := none }
  let asked : State := s.setCtxAt core n { c with parkReq := true }
  let barred (x : Ctx) := ∃ key gen a, x.wait = .barrier key gen a
  -- SETWP
  (11 < n ∨ (n ≠ 0 ∧ st ≠ 0 ∧ st ≠ 3) → setwp = .next (s.takeTrap 0x006 0 0)) ∧
  (n ≤ 11 → n = 0 ∨ st = 0 ∨ st = 3 → (¬ slot ∨ other → setwp = .next (s.takeTrap 0x08E 0 0)) ∧
    (slot → ¬ other → apart →
      (n ≠ 0 → CompletesOver s moves setwp [(pmLoc core (v + cxPC), 0x50)] (fun t => ∀ w ∈ heldWords,
        t.cxAt core n w = cxHeld n st w (natOf (s.rd (pmLoc core (v + w)) 8)))) ∧
      (n = 0 → s.tainted (s.wsLoc core 0 cxPC) 0x1F0 = false → ∃ t, setwp = .next t ∧
        BytesOnly (s.onRanges ++ [(pmLoc core (v + cxPC), 0x1F0)]) moves t ∧ t.pc = s.pcAfter ∧ t.cx cxREPS = s.repsAfter ∧
        ∀ o, cxPC ≤ o → o < 0xC00 → (∀ r ∈ s.onRanges, s.wsLoc core 0 o < r.1 ∨ r.1 + r.2 ≤ s.wsLoc core 0 o) →
          t.mem.get (pmLoc core (v + o)) = s.mem.get (s.wsLoc core 0 o)))) ∧
  -- START
  (ready → n < 2 ∨ 11 < n ∨ (s.cluster cl).resv / 2 ^ n % 2 = 0 → exec start s = .next (s.takeTrap 0x147 0 0)) ∧
  (ready → 2 ≤ n → n ≤ 11 → (s.cluster cl).resv / 2 ^ n % 2 = 1 →
    (v % 4 ≠ 0 → exec start s = .next (s.takeTrap 0x004 v 0)) ∧
    (v % 4 = 0 → st ≠ 0 → returns start 0) ∧
    (v % 4 = 0 → st = 0 → off → CompletesOver s
      (s.setCtxAt core n { (Ctx.reset n) with wp := c.wp, away := c.away, helper := true })
      (exec start s) (s.gRange d ++ [cxPC, cxSTATUS, cxCNT, cxFUT, cxREPS].map (fun x => (s.wsLoc core n x, 8))) (fun t =>
        gives 1 t ∧ t.cxAt core n cxPC = v ∧ t.cxAt core n cxSTATUS = 16 * n + 1 ∧ t.cxAt core n cxCNT = 0 ∧
        t.cxAt core n cxFUT = 0 ∧ t.cxAt core n cxREPS = 0))) ∧
  -- STOPC and PARK
  (n < 2 ∨ 11 < n ∨ 1 < v → exec stopc s = .next (s.takeTrap 0x006 0 0)) ∧
  (n < 2 ∨ 11 < n → exec park s = .next (s.takeTrap 0x006 0 0)) ∧
  (2 ≤ n → n ≤ 11 →
    (v = 0 → st = 0 → returns stopc 0) ∧ (v = 0 → st = 3 → returns stopc 2) ∧ (v = 1 → st ≠ 3 → returns stopc 0) ∧
    (v = 1 → st = 3 → off → state (s.setCtxAt core n { c with stopped := false, stopReq := false, wait := .none }) stopc 1 1) ∧
    (v = 0 → st ≠ 0 → st ≠ 3 → c.ending = none → c.holdReq = [] → c.wait = .none ∨ c.wait = .retry ∨ barred c → off →
      state (s.setCtxAt core n { c with wait := .none, draining := false, stopReq := false, stopped := true, badFetch := none }) stopc
        3 1) ∧
    (v = 0 → st ≠ 0 → st ≠ 3 → c.ending ≠ none ∨ c.holdReq ≠ [] →
      Stalls s (s.setCtxAt core n { c with stopReq := true }) (exec stopc s) (.target d.val n false s.cur)) ∧
    (st = 0 ∨ st = 3 ∨ c.helper = true → returns park 0) ∧
    (st ≠ 0 → st ≠ 3 → c.helper = false → ¬ barred c →
      (s.otherCtx core n = none → Stalls s asked (exec park s) (.target d.val n true s.cur)) ∧
      (∀ k x, s.otherCtx core n = some (k, x) → ¬ barred (s.ctxAt k x) →
        Stalls s (asked.setCtxAt k x { asked.ctxAt k x with parkReq := true }) (exec park s) (.target d.val n true s.cur)))) ∧
  -- BANKMODE
  (let mode := v % 4
   let old := (s.cluster cl).csMode / 2 ^ (2 * n) % 4
   let esz := v / 2 ^ 8 % 2 ^ 8
   let bad := 7 < n ∨ v / 4 % 2 ^ 6 ≠ 0 ∨ 2 ^ 16 ≤ v ∨ mode = 3 ∨ (mode = 2 ∧ (esz = 0 ∨ 128 < esz))
   let idle := s.setMyCtx { s.myCtx with wait := .none }
   let count := natOf (s.rd (fifoPage cl n + 16) 8)
   let size := if n = 7 then 0x78000 else 0x80000
   let held := ∃ r ∈ s.running, ∃ k ∈ r.2.held, nearGran (nearLoc cl 8 (0x80000 * n)) ≤ k ∧
     k < nearGran (nearLoc cl 8 (0x80000 * n)) + size / 64
   let modeSet := idle.setCluster cl { idle.cluster cl with csMode := (s.cluster cl).csMode - old * 2 ^ (2 * n) + mode * 2 ^ (2 * n) }
   let switched : State := { modeSet with free := if mode = 1 then s.free else s.free + size }
   let bank : Range := (nearLoc cl 8 (0x80000 * n), size)
   (bad → bankmode = .next (s.takeTrap 0x08F 0 0)) ∧
   (¬ bad → mode = old → CompletesOver s idle bankmode [] (fun _ => True)) ∧
   (¬ bad → mode ≠ old → old = 2 → count ≠ 0 → bankmode = .next (s.takeTrap 0x08B 0 0)) ∧
   (¬ bad → mode ≠ old → old = 2 → count = 0 → held → Stalls s s bankmode (.bank n)) ∧
   (¬ bad → mode ≠ old → old ≠ 2 → held → Stalls s s bankmode (.bank n)) ∧
   (¬ bad → mode ≠ old → (old = 2 → count = 0) → ¬ held → apartFrom bank (s.wsLoc core 0 0, 0xC00) →
     CompletesOver s switched bankmode (if mode = 1 then [] else [bank]) (fun t =>
       mode = 2 → natOf (t.rd (fifoPage cl n) 8) = 0 ∧ natOf (t.rd (fifoPage cl n + 8) 8) = 0 ∧
         natOf (t.rd (fifoPage cl n + 16) 8) = 0 ∧
         natOf (t.rd (fifoPage cl n + 24) 8) = (size - 0x1000) / (64 * esz) * 2 ^ 16 + esz)))

/-- R322 to R325, R259, R341, R350: CTRLR and CTRLW on every field of R323: what is read, what a write changes, and who may do either. The
slice's quotas are written after its window has moved on, and a route that changes holds new requests. -/
def Obligations.ControlFields : Prop := ∀ (s : State) (d a b : GReg),
  let core := s.cur.core
  let cl := core / 8
  let die := core / 1024
  let sel := s.gN a
  let v := s.gN b
  let read := exec (.ctrlr d a) s
  let write := exec (.ctrlw a b) s
  let c := s.core core
  let k := s.cluster cl
  let e := s.die die
  let own : List (Nat × Nat × State) :=
    [(0x0101, c.ftSpBase, s.setCore core { c with ftSpBase := v }), (0x0102, c.ftSpEnt, s.setCore core { c with ftSpEnt := v }),
     (0x0108, c.trVec, s.setCore core { c with trVec := v }), (0x0109, c.trCvec, s.setCore core { c with trCvec := v }),
     (0x010A, c.trMask, s.setCore core { c with trMask := v }), (0x0110, c.mbFut, s.setCore core { c with mbFut := v }),
     (0x0111, c.mbLost, s.setCore core { c with mbLost := v }),
     (0x0100, c.ftLimit, s.setCore core { c with ftLimit := if v = 0 ∨ 1024 < v then 1024 else v }),
     (0x0200, k.ovBase, s.setCluster cl { k with ovBase := v }), (0x0201, k.ovEnt, s.setCluster cl { k with ovEnt := v }),
     (0x0202, k.wsBase, s.setCluster cl { k with wsBase := v }), (0x0203, k.pfBase, s.setCluster cl { k with pfBase := v }),
     (0x0204, k.pfSize, s.setCluster cl { k with pfSize := v }), (0x0205, k.trBase, s.setCluster cl { k with trBase := v }),
     (0x0206, k.resv, s.setCluster cl { k with resv := v }), (0x0210, k.mxWeight, s.setCluster cl { k with mxWeight := v }),
     (0x0211, k.wedgeHold, s.setCluster cl { k with wedgeHold := v }),
     (0x0212, k.mxShapes, s.setCluster cl { k with mxShapes := v }), (0x0219, k.barTmo, s.setCluster cl { k with barTmo := v }),
     (0x0220, k.shelfTimer, s.setCluster cl { k with shelfTimer := v }), (0x0221, k.xtBase, s.setCluster cl { k with xtBase := v }),
     (0x0228, k.accLine, (s.accRoll cl).setCluster cl { (s.accRoll cl).cluster cl with accLine := v }),
     (0x0229, k.accSlice, (s.accRoll cl).setCluster cl { (s.accRoll cl).cluster cl with accSlice := v })]
  let managed : List (Nat × Nat × State) :=
    [(0x0302, e.barTmo, s.setDie die { e with barTmo := v }), (0x0310, e.fsBase, s.setDie die { e with fsBase := v }),
     (0x0311, e.fsQBase, s.setDie die { e with fsQBase := v }), (0x0312, e.fsQSize, s.setDie die { e with fsQSize := v }),
     (0x0313, e.fsQHead, s.setDie die { e with fsQHead := v }), (0x0315, e.fsWmark, s.setDie die { e with fsWmark := v }),
     (0x0316, e.fsRate, s.setDie die { e with fsRate := v }), (0x0403, s.barTmo, { s with barTmo := v }),
     (0x0404, s.pwrCap, { s with pwrCap := v })]
  let ports : List (Nat × Nat × State) := (List.range 144).flatMap (fun n =>
    let p := Tbl.get Port.reset s.ports n
    [(0x0800 + n, p.lretry, { s with ports := Tbl.set Port.reset s.ports n { p with lretry := v } }),
     (0x0900 + n, p.lclass, { s with ports := Tbl.set Port.reset s.ports n { p with lclass := v } })])
  let routes : List (Nat × Nat × State) := (List.range 1024).map (fun p =>
    (0x1000 + p, Tbl.get 0 s.routes p, if Tbl.get 0 s.routes p = v then s
      else { s.holdRoute p with routes := Tbl.set 0 s.routes p v }))
  let readOnly : List (Nat × Nat) :=
    [(0x0218, k.csMode), (0x0300, e.barPart % 2 ^ 64), (0x0301, e.barPart / 2 ^ 64 % 2 ^ 16), (0x0314, e.fsQTail), (0x0317, e.fsHand),
     (0x0400, s.pkgId), (0x0401, s.barPart % 2 ^ 64), (0x0402, s.barPart / 2 ^ 64 % 2 ^ 16)]
  let mine : List (Nat × Nat) :=
    [(2, bits (s.cx cxSTATUS) 24 0 - 256 * bits (s.cx cxSTATUS) 8 8), (5, s.cx cxREPN % 2 ^ 32), (6, s.cx cxREPB / 4 * 4), (0, s.myCtx.wp)]
  let widths : List (Nat × Nat) :=
    [(0x0108, 60), (0x0109, 60), (0x010A, 8), (0x0111, 32), (0x0206, 12), (0x0210, 32), (0x0211, 12), (0x0212, 48), (0x0219, 16),
     (0x0220, 16), (0x0228, 8), (0x0229, 16)]
  let bad := s.fieldBad core sel v = true
  let fp := bits (s.cx cxSTATUS) 18 14 * 4 + bits (s.cx cxSTATUS) 13 12
  let self := sel = s.cur.ctx * 2 ^ 16 + 1
  -- what CTRLR returns
  (s.cur.ctx = 0 → (∀ r ∈ own ++ managed ++ ports ++ routes, sel = r.1 → WritesG s read d (BitVec.ofNat 64 r.2.1)) ∧
    (∀ r ∈ readOnly, sel = r.1 → WritesG s read d (BitVec.ofNat 64 r.2)) ∧ (sel = 0x0308 → WritesG s read d 0) ∧
    (sel = 0x0405 → WritesG s read d (BitVec.ofNat 64 (s.part (s.partOf core)).spid))) ∧
  (s.cur.ctx < 12 → (self → WritesG s read d (BitVec.ofNat 64 fp)) ∧
    ∀ r ∈ mine, sel = s.cur.ctx * 2 ^ 16 + r.1 → WritesG s read d (BitVec.ofNat 64 r.2)) ∧
  -- what CTRLW changes
  (s.cur.ctx = 0 → (∀ r ∈ own, sel = r.1 → (bad → write = .next (s.takeTrap 0x002 0 0)) ∧
      (¬ bad → CompletesOver s r.2.2 write [] (fun _ => True))) ∧
    (∀ r ∈ managed ++ ports ++ routes, sel = r.1 → (s.partOf core ≠ 0 → write = .next (s.takeTrap 0x088 0 0)) ∧
      (s.partOf core = 0 → bad → write = .next (s.takeTrap 0x002 0 0)) ∧
      (s.partOf core = 0 → ¬ bad → CompletesOver s r.2.2 write [] (fun _ => True))) ∧
    (∀ r ∈ readOnly, sel = r.1 → write = .next (s.takeTrap 0x009 0 0)) ∧
    (∀ r ∈ widths, sel = r.1 → 2 ^ r.2 ≤ v → write = .next (s.takeTrap 0x002 0 0)) ∧
    (sel = 0x0405 → write = .next (s.takeTrap 0x088 0 0)) ∧
    (sel = 0x0308 → (bits v 15 12 ≠ s.partOf core → s.partOf core ≠ 0 → write = .next (s.takeTrap 0x088 0 0)) ∧
      (bits v 15 12 = s.partOf core ∨ s.partOf core = 0 → ¬ bad →
        Stalls s (s.launchFlight (.xlInv v (.ctx core 0))) write (.reply s.nextId .plain s.cur)))) ∧
  (s.cur.ctx < 12 → self → (2 ^ 7 ≤ v → write = .next (s.takeTrap 0x002 0 0)) ∧
    (v < 2 ^ 7 → CompletesOver s s write [s.cxRange cxSTATUS] (fun t =>
      t.cx cxSTATUS = setBits (setBits (s.cx cxSTATUS) 18 14 (v / 4)) 13 12 (v % 4)))) ∧
  -- what both refuse
  (2 ^ 20 ≤ sel ∨ (0x0006 < sel % 2 ^ 16 ∧ sel % 2 ^ 16 < 0x0100) ∨ 0x1400 ≤ sel % 2 ^ 16 ∨ (0x0100 ≤ sel % 2 ^ 16 ∧ 2 ^ 16 ≤ sel) →
    read = .next (s.takeTrap 0x009 0 0) ∧ write = .next (s.takeTrap 0x009 0 0)) ∧
  (s.cur.ctx ≠ 0 → (∀ r ∈ own ++ managed, sel = r.1 → read = .next (s.takeTrap 0x003 0 0) ∧ write = .next (s.takeTrap 0x003 0 0)) ∧
    (sel < 2 ^ 20 → sel % 2 ^ 16 ≤ 6 → sel / 2 ^ 16 ≠ s.cur.ctx → read = .next (s.takeTrap 0x009 0 0) ∧ write = .next (s.takeTrap 0x009 0 0)))


/-! ### Accumulates, flushes and ranked heaps (R252 to R258) -/

/-- R255, R256, R262: ACC, ACC.BF16 and RMERGE. The address checks; a matching residual in the saggar rides along, one of another kind is sent
ahead as a flush accumulate; the accumulate is counted in AT and sent, or waits while AT is full. -/
def Claims.AccumulateInstructions : Prop := ∀ (s : State) (a : GReg) (b : VReg) (m : MReg) (ks : Fin 4),
  let core := s.cur.core
  let ea := s.gN a
  let n := (ea / 2 ^ 6 % 2 ^ 7) ^^^ (ea / 2 ^ 13 % 2 ^ 7) ^^^ (ea / 2 ^ 20 % 2 ^ 7)
  let entry : Range := (pmLoc core (0x3C000 + 128 * n), 128)
  let ready := s.cur.ctx ≠ 1 ∧ s.myCtx.twin = false
  let good := ea < 2 ^ 59 ∧ ea % 64 = 0 ∧ ∀ c ∈ s.clusters, c.2.fenced = false
  let lane (i : Nat) := s.laneN b i
  let sum (k : Nat) (x y : Nat) := if k = 0 then (fAdd .rne x y).1
    else accAdd 1 (x % 2 ^ 16) (y % 2 ^ 16) + accAdd 1 (x / 2 ^ 16) (y / 2 ^ 16) * 2 ^ 16
  let own (k ks : Nat) : Accum :=
    { part := s.partOf core, va := ea, kind := k, ks := ks, data := (List.range 16).flatMap (fun i => bytesOf 4 (lane i)),
      mask := s.mN m, back := .count core s.cur.ctx .at_ s.pc s.nextId, core := core, ctx := s.cur.ctx,
      task := match s.myCtx.task with
        | some (_, r) => r + 1
        | none => 0 }
  let word (x : Accum) (i : Nat) := natOf ((x.data.drop (4 * i)).take 4)
  let merged (k : Nat) (x : Accum) : List Byte := (List.range 16).flatMap (fun i => bytesOf 4 (
    if x.mask / 2 ^ i % 2 = 1 then (if s.mN m / 2 ^ i % 2 = 1 then sum k (word x i) (lane i) else word x i) else lane i))
  let rule (i : Instr) (k ks : Nat) :=
    (10 ≤ ea / 2 ^ 56 → exec i s = .next (s.takeTrap 0x080 ea 0)) ∧
    (ea / 2 ^ 56 < 10 → ea % 64 ≠ 0 → exec i s = .next (s.takeTrap 0x081 ea 0)) ∧
    (ea / 2 ^ 56 = 9 → ea % 64 = 0 → ea % 2 ^ 56 < 0x30000 → exec i s = .next (s.takeTrap 0x085 ea 0)) ∧
    (good → s.cnt .at_ = 63 → Stalls s s (exec i s) .retry) ∧
    (good → s.cnt .at_ < 63 →
      let sends (base : State) (x : Accum) (rs : List Range) := CompletesOver s (base.launchFlight (.accum x)) (exec i s)
        (s.cxRange cxCNT :: rs) (fun t => t.cx cxCNT = s.cx cxCNT + 2 ^ 32 ∧ (rs ≠ [] → t.sag core n = none))
      (s.sag core n = none → sends s (own k ks) []) ∧
      (∀ x : Accum, s.sag core n = some x → x.va ≠ ea → sends s (own k ks) []) ∧
      (∀ x : Accum, s.sag core n = some x → x.va = ea → apartFrom entry (s.wsLoc core s.cur.ctx 0, 0xC00) →
        s.tainted entry.1 80 = false →
        (x.kind = k → k ≠ 2 ∨ x.ks = ks → sends s { own k ks with
            data := if k = 2 then (combine x (own k ks)).1 else merged k x,
            mask := if k = 2 then (combine x (own k ks)).2 else s.mN m ||| x.mask } [entry]) ∧
        (x.kind ≠ k ∨ (k = 2 ∧ x.ks ≠ ks) → sends
          ((s.setMe { s.me with flushing := s.me.flushing ++ [s.nextId] }).launchFlight
            (.flush { x with back := (own k ks).back })) (own k ks) [entry])))
  ready → rule (.acc a b m) 0 0 ∧ rule (.accBf16 a b m) 1 0 ∧ rule (.rmerge a b m ks) 2 ks.val

/-- R258: FLUSHRES sends the selected entries of the core's saggar in ascending index as flush accumulates, clears them and adds one to AT;
with nothing of the core in flight the count falls again at once, by an acknowledgement. -/
def Claims.FlushInstructions : Prop := ∀ (s : State) (a b : GReg),
  let core := s.cur.core
  let all : Accum → Bool := fun _ => true
  let within : Accum → Bool := fun x => decide (s.gN a ≤ x.va) && decide (x.va < s.gN a + s.gN b)
  let rule (i : Instr) (sel : Accum → Bool) :=
    let hits := (List.range 128).filterMap (fun n => (s.sag core n).bind (fun x => if sel x then some (n, x) else none))
    let ids := (List.range hits.length).map (· + s.nextId)
    let waits := s.me.flushing ++ ids
    let sent : State := { s with nextId := s.nextId + hits.length, flights := s.flights ++ hits.zipIdx.map (fun h =>
      (s.nextId + h.2, .flush { h.1.2 with back := .count core s.cur.ctx .at_ s.pc 0 })) }
    (s.cnt .at_ = 63 → Stalls s s (exec i s) .retry) ∧
    (s.cnt .at_ < 63 → apartFrom (pmLoc core 0x3C000, 0x4000) (s.wsLoc core s.cur.ctx 0, 0xC00) →
      (∀ h ∈ hits, s.tainted (pmLoc core (0x3C000 + 128 * h.1)) 80 = false) → CompletesOver s
      (if waits = [] then sent.launchFlight (.ack (.count core s.cur.ctx .at_ s.pc s.nextId) 0 0)
       else sent.setMe { s.me with flushing := waits, flushes := s.me.flushes ++ [{ ctx := s.cur.ctx, pc := s.pc, waits := waits }] })
      (exec i s) (s.cxRange cxCNT :: hits.map (fun h => (pmLoc core (0x3C000 + 128 * h.1 + 0x48), 8))) (fun t =>
        t.cx cxCNT = s.cx cxCNT + 2 ^ 32 ∧
        ∀ n, n < 128 → t.sag core n = if n ∈ hits.map (·.1) then none else s.sag core n))
  s.cur.ctx ≠ 1 → s.myCtx.twin = false → rule .flushresAll all ∧ rule (.flushresRange a b) within

/-- R252, R253: HSIFT and HMERGE. The checks on a heap; then the heap at gA becomes what the offers make of it, in one step, and gD holds
the code of HSIFT or the count of HMERGE. -/
def Claims.HeapInstructions : Prop := ∀ (s : State) (d a b : GReg) (off off' : Nat),
  let core := s.cur.core
  let loc (o : Nat) := pmLoc core o
  let header (o : Nat) := natOf (s.rd (loc o) 8)
  let k (o : Nat) := header o % 2 ^ 8
  let n (o : Nat) := header o / 2 ^ 8 % 2 ^ 8
  let heap (o : Nat) : Heap :=
    { cap := k o, nan := bitOf (header o) 32,
      ents := (List.range (n o)).map (fun j => (natOf (s.rd (loc o + 8 + 8 * j) 4), natOf (s.rd (loc o + 12 + 8 * j) 4))) }
  let sound (o : Nat) := 1 ≤ k o ∧ k o ≤ 64 ∧ n o ≤ k o ∧ header o / 2 ^ 16 % 2 ^ 16 = 0 ∧ header o / 2 ^ 33 = 0 ∧
    o + 8 + 8 * k o ≤ 0x30000
  let near := 0x08 * 2 ^ 56 + s.pkgId * 2 ^ 46 + core / 1024 * 2 ^ 44 + core / 8 % 128 * 2 ^ 37 + core % 8 * 2 ^ 33
  let at_ (r : GReg) (o : Nat) := o % 8 = 0 ∧ o + 8 ≤ 0x30000 ∧ (s.gN r = 0x09 * 2 ^ 56 + o ∨
    (s.gN r = near + o ∧ s.pkgId < 1024 ∧ core < 4096 ∧ ∀ c ∈ s.clusters, c.2.fenced = false))
  let free (o : Nat) := s.heapWaits o (k o) = false ∧ s.tainted (loc o) (8 + 8 * n o) = false ∧
    apartFrom (loc o, 8 + 8 * 64) (s.wsLoc core s.cur.ctx 0, 0xC00)
  let leaves (i : Instr) (o : Nat) (h : Heap) (v : Nat) :=
    CompletesOver s s (exec i s) (s.gRange d ++ [(loc o, 8 + 8 * h.ents.length)]) (fun t => (t.gN d = if d = 0 then 0 else v) ∧
      natOf (t.rd (loc o) 8) = boolNat h.nan * 2 ^ 32 + h.ents.length * 2 ^ 8 + h.cap ∧
      ∀ j, j < h.ents.length → natOf (t.rd (loc o + 8 + 8 * j) 4) = (h.ents.getD j noPair).1 ∧
        natOf (t.rd (loc o + 12 + 8 * j) 4) = (h.ents.getD j noPair).2)
  let hsift := Instr.hsift d a b
  let hmerge := Instr.hmerge d a b
  (s.cur.ctx = 1 → exec hsift s = .next (s.takeTrap 0x143 0 0) ∧ exec hmerge s = .next (s.takeTrap 0x143 0 0)) ∧
  (s.cur.ctx ≠ 1 →
    (10 ≤ s.gN a / 2 ^ 56 → exec hsift s = .next (s.takeTrap 0x080 (s.gN a) 0)) ∧
    (s.gN a / 2 ^ 56 < 10 → s.gN a % 8 ≠ 0 → exec hsift s = .next (s.takeTrap 0x081 (s.gN a) 0)) ∧
    (s.gN a < 2 ^ 59 → s.gN a % 8 = 0 → (∀ c ∈ s.clusters, c.2.fenced = false) → exec hsift s = .next (s.takeTrap 0x18A (s.gN a) 0)) ∧
    (at_ a off → ¬ sound off → exec hsift s = .next (s.takeTrap 0x18A (s.gN a) 0) ∧ exec hmerge s = .next (s.takeTrap 0x18A (s.gN a) 0)) ∧
    (at_ a off → sound off → free off →
      let r := (heap off).sift (s.gN b % 2 ^ 32, s.gN b / 2 ^ 32)
      leaves hsift off r.1 r.2) ∧
    (at_ a off → sound off → at_ b off' → sound off' →
      (off ≠ off' → off < off' + 8 + 8 * k off' → off' < off + 8 + 8 * k off → exec hmerge s = .next (s.takeTrap 0x18A (s.gN b) 0)) ∧
      (off ≠ off' → off + 8 + 8 * k off ≤ off' ∨ off' + 8 + 8 * k off' ≤ off → free off → free off' →
        let m := (heap off).merge (heap off')
        leaves hmerge off m m.ents.length) ∧
      (off = off' → free off → leaves hmerge off (heap off) (n off))))

/-- R252, R253, R248: what offering a pair does to a heap. A NaN only sets NAN; a pair that is there, or that a full heap's root outranks or
equals, changes nothing; otherwise the pair is in, in place of the root when the heap was full. No child is outranked by its parent before,
and none is after. -/
def Claims.HeapRules : Prop := ∀ (h : Heap) (p : RPair),
  let ordered (l : List RPair) := ∀ j, 0 < j → j < l.length → RPair.outranks (l.getD ((j - 1) / 2) noPair) (l.getD j noPair) = false
  let r := h.sift p
  h.ents.length ≤ h.cap → h.cap ≤ 64 → 1 ≤ h.cap → (∀ q ∈ h.ents, q.isNan = false) → ordered h.ents →
  r.1.cap = h.cap ∧ r.1.ents.length ≤ r.1.cap ∧ ordered r.1.ents ∧ (∀ q ∈ r.1.ents, q.isNan = false) ∧
  (r.2 = 3 ↔ p.isNan = true) ∧ (r.2 = 3 → r.1 = { h with nan := true }) ∧
  (r.2 ≠ 3 → r.1.nan = h.nan ∧ (r.2 = 4 ↔ ∃ q ∈ h.ents, p.same q = true)) ∧
  (r.2 = 4 ∨ r.2 = 0 → r.1 = h) ∧
  (r.2 = 1 → h.ents.length < h.cap ∧ r.1.ents.Perm (p :: h.ents)) ∧
  (r.2 = 2 → h.ents.length = h.cap ∧ RPair.outranks p (h.ents.getD 0 noPair) = true ∧ r.1.ents.Perm (p :: h.ents.tail)) ∧
  r.2 ≤ 4


/-! ### What the agents do (R124 to R129, R176, R184 to R222, R308, R330 to R344, R364) -/

/-- R330, R334, R335, R342, R217, R229: a request at the home slice of its address, while no engine holds its line: what the slice's TLB
entry lets it do, or the walk that it waits for, as a first write does whose page table entry is no longer valid; the walk itself; and an
atomic at the slice's agent (R125, R129). -/
def Obligations.GlobalAccesses : Prop := ∀ (s : State) (id : Nat) (r : MemReq),
  lookupId id s.flights = some (.mem r) → s.aliases = [] → s.running = [] → r.back.heard = true → r.near = none →
  let slice := s.home r.part r.va
  let die := s.die (slice / 128)
  let access := exec (.homeSliceAccess id) s
  let walk := exec (.pageWalk id) s
  let stage (u : State) (st : Stage) : State :=
    { u with flights := u.flights.map (fun x => if x.1 = id then (id, .mem { r with stage := st }) else x) }
  let answers (a : Answer) := s.inPlace id r.back r.va a
  let queue (l : List Nat) := s.setDie (slice / 128) { die with walkQueue := l }
  (r.stage = .travelling → r.va < 2 ^ 59 → s.inOrder id = true → r.op.size ≤ 64 →
    let waits := access = .next (stage (queue (die.walkQueue ++ [id])) .walking)
    (s.tlbFind slice r.part r.va = none → waits) ∧
    (∀ e : TlbEnt, s.tlbFind slice r.part r.va = some e → r.op.access = .write → e.pte / 2 ^ 7 % 2 = 0 →
      natOf (s.rd e.pteLoc 8) % 2 = 0 → waits) ∧
    (∀ e : TlbEnt, s.tlbFind slice r.part r.va = some e →
      r.op.access ≠ .write ∨ e.pte / 2 ^ 7 % 2 = 1 ∨ natOf (s.rd e.pteLoc 8) % 2 = 1 →
      let size := if e.size = 0 then 2 ^ 16 else if e.size = 1 then 2 ^ 21 else 2 ^ 30
      let level := if e.size = 2 then 3 else 4
      let pa := e.pte / 2 ^ 14 % 2 ^ 34 * 2 ^ 14 + r.va % size
      let uc := bitOf e.pte 8
      let old := s.gRd r.part pa uc r.op.size
      let writes := r.op.access = .write
      (writes → e.pte / 2 ^ 4 % 2 = 0 → access = .next (answers (.fault 0x091 r.va (level + 8)))) ∧
      (r.op = .fetch → e.pte / 2 ^ 5 % 2 = 0 → access = .next (answers (.fault 0x092 r.va (level + 16)))) ∧
      (∀ n, r.op = .load n → s.tainted pa n = true → access = .next (answers (.fault 0x1C0 r.va 0))) ∧
      let reads := access = .next ((s.noteRelease id r pa s).inPlace id r.back r.va (.data (natOf old)))
      (∀ n, r.op = .load n → s.tainted pa n = false → reads) ∧
      (r.op = .fetch → e.pte / 2 ^ 5 % 2 = 1 → s.tainted pa 4 = false → reads) ∧
      (∀ bs, r.op = .store bs false → bs ≠ [] → e.pte / 2 ^ 4 % 2 = 1 → e.pte / 2 ^ 7 % 2 = 1 → ∃ t, access = .next t ∧
        t.flights = (answers (.data 0)).flights ∧ t.gRd r.part pa uc bs.length = bs ∧
        (uc = false → t.mem = s.mem ∧ ∀ k, k < l2Key r.part pa ∨ l2Key r.part pa + bs.length ≤ k → t.l2.find k = s.l2.find k) ∧
        (uc = true → t.l2 = s.l2 ∧ ∀ k, k < pa ∨ pa + bs.length ≤ k → t.mem.get k = s.mem.get k)) ∧
      (r.op.indivisible = true → e.pte / 2 ^ 4 % 2 = 1 → access = .next (stage s (.ready pa uc slice))))) ∧
  (r.stage = .walking → ∀ rest, die.walkQueue = id :: rest →
    (∀ c level, s.walkFor r.part r.va r.op.access = .error (c, level) → r.op ≠ .prefetch → walk = .next ((queue rest).inPlace id r.back r.va
      (.fault c r.va (level + (if r.op.access = .write then 8 else 0) + (if r.op.access = .fetch then 16 else 0))))) ∧
    (∀ l : Leaf, s.walkFor r.part r.va r.op.access = .ok l → ∃ t ent, walk = .next t ∧ t.flights = (stage s .travelling).flights ∧
      t.tlb = ent :: s.tlb ∧ ent.slice = slice ∧ ent.part = r.part ∧ ent.pteLoc = l.first ∧ ent.pte / 2 ^ 8 = l.pte / 2 ^ 8 ∧
      (t.die (slice / 128)).walkQueue = rest ∧ BytesOnly [(l.first, 8)] { (queue rest).keepWalk r.part r.va with tlb := t.tlb, flights := t.flights } t ∧
      natOf (t.rd l.first 8) = setBits (natOf (s.rd l.first 8)) 6 6 1)) ∧
  (∀ pa uc home op b src n, r.stage = .ready pa uc home → r.op = .atomic op b → r.seq = some (src, n) →
    let done := Tbl.get [] (s.cluster home).sliceReplay src
    let old := natOf (s.gRd r.part pa uc op.width)
    let bytes := bytesOf op.width (op.apply old b)
    (∀ v, lookupId n done = some v → exec (.atomicAtAgent id) s = .next (answers (.data v))) ∧
    (∀ e : TlbEnt, lookupId n done = none → done.length < 64 → s.tlbFor home r.part r.va .write = some e →
      s.tainted (pa / 64 * 64) 64 = true → ∃ t, exec (.atomicAtAgent id) s = .next t ∧ t.flights = (answers (.fault 0x1C0 r.va 0)).flights ∧ t.l2 = s.l2) ∧
    (lookupId n done = none → done.length < 64 → s.tainted (pa / 64 * 64) 64 = false →
      (∀ e : TlbEnt, s.tlbFind home r.part r.va = some e → e.pte / 2 ^ 7 % 2 = 1 → ∃ t, exec (.atomicAtAgent id) s = .next t ∧
        t.flights = (answers (.data old)).flights ∧ t.gRd r.part pa uc op.width = bytes ∧
        Tbl.get [] (t.cluster home).sliceReplay src = (n, old) :: done ∧
        (uc = false → t.mem = s.mem ∧ ∀ k, k < l2Key r.part pa ∨ l2Key r.part pa + op.width ≤ k → t.l2.find k = s.l2.find k))))

/-- R308, R220, R222, R124, R211: a near access at the unit of this package that it names, once it is due there, and the stores to POP and PUSH
of a FIFO bank; while a bank is being switched (R223) they wait. A PUSH by software to a bank that is a dock target leaves its entries with free
values. -/
def Claims.NearAccesses : Prop := ∀ (s : State) (id cl u off : Nat) (r : MemReq),
  lookupId id s.flights = some (.mem r) → s.aliases = [] → s.running = [] → r.back.heard = true →
  r.near = some (nearLoc cl u off) → cl < 512 → u < 16 → off < 2 ^ 33 → r.stage = .travelling → s.inOrder id = true → r.refused = none →
  (s.cluster cl).fenced = false →
  let arrive := exec (.nearArrival id) s
  let answers (base : State) (a : Answer) := base.inPlace id r.back r.va a
  let loc := nearLoc cl u off
  let core := 8 * cl + u
  let bank := off / 0x80000
  let mode := (s.cluster cl).csMode / 2 ^ (2 * bank) % 4
  let page := nearLoc cl 8 (0x80000 * bank + (if bank = 7 then 0x78000 else 0x80000) - 0x1000)
  let word (i : Nat) := natOf (s.rd (page + 8 * i) 8)
  let plain := (u < 8 ∨ (u = 8 ∧ off < 0x3F8000 ∧ mode = 0))
  let still := ∀ x y b, (s.ctxAt x y).wait ≠ .bank b
  (s.guard cl r.part = .refuse → arrive = .next (answers s (.fault 0x088 r.va 0))) ∧
  (s.guard cl r.part = .deliver → plain → still →
    (∀ n, r.op = .load n → s.tainted loc n = true → arrive = .next (answers s (.fault 0x1C0 r.va 0))) ∧
    (∀ n, r.op = .load n → s.tainted loc n = false → arrive = .next (answers (s.noteRelease id r loc s) (.data (natOf (s.rd loc n))))) ∧
    (∀ bs, r.op = .store bs false → bs ≠ [] → ∃ t, arrive = .next t ∧ BytesOnly [s.storeRange cl u off bs.length] (answers s (.data 0)) t ∧
      s.holdsStored t cl u off bs)) ∧
  (s.guard cl r.part = .deliver → u = 8 → off < 0x3F8000 → s.switching cl bank = true → arrive = .next s) ∧
  (s.guard cl r.part = .deliver → u < 8 → r.op.indivisible = true → ∀ src n, r.seq = some (src, n) → (s.core core).refusals = [] →
    (32 ≤ (s.core core).inbox.length → ∃ t, arrive = .next t ∧ (t.core core).inbox = (s.core core).inbox ∧
      (t.core core).refusals = [src] ∧ lookupId id t.flights = some (.mem { r with refused := some s.clock })) ∧
    (∀ k, (s.core core).inbox.length < 32 → (∀ e ∈ (s.core core).inbox, e.slot ≠ k) → k < 32 →
      (∀ j, j < k → ∃ e ∈ (s.core core).inbox, e.slot = j) → ∃ t, arrive = .next t ∧
      lookupId id t.flights = some (.mem { r with stage := .ready 0 false 0 }) ∧
      (t.core core).inbox = (s.core core).inbox ++ [{ slot := k, sys := .access id { r with stage := .ready 0 false 0 }, part := r.part, tries := 0 }])) ∧
  (s.guard cl r.part = .deliver → u = 8 → off < 0x3F8000 → mode = 1 → still → arrive = .next (answers s (.fault 0x084 r.va 0))) ∧
  (∀ n bs, s.guard cl r.part = .deliver → u = 8 → off < 0x3F8000 → mode = 2 → still → r.op = .store bs false → bs.length = 8 → n = natOf bs →
    let nent := word 3 / 2 ^ 16 % 2 ^ 16
    let entries := 64 * (word 3 % 2 ^ 8) * nent
    let start := nearLoc cl 8 (0x80000 * bank)
    let moves (i : Instr) (at_ v count : Nat) := ∃ t, exec i s = .next t ∧ BytesOnly [(page, 32)] (answers s (.data 0)) t ∧
      natOf (t.rd (page + at_) 8) = v ∧ natOf (t.rd (page + 16) 8) = count
    (nearLoc cl 8 off = page + 0x20 → 1 ≤ nent → word 0 < nent → word 2 ≤ nent →
      (n ≤ word 2 → moves (.fifoPop id) 0 ((word 0 + n) % nent) (word 2 - n)) ∧
      (word 2 < n → exec (.fifoPop id) s = .next (answers s (.fault 0x08C r.va 0)))) ∧
    (nearLoc cl 8 off = page + 0x28 → 1 ≤ nent → word 1 < nent → word 2 ≤ nent →
      (n ≤ nent - word 2 → s.dockTarget cl bank = false → moves (.fifoPush id) 8 ((word 1 + n) % nent) (word 2 + n)) ∧
      (n ≤ nent - word 2 → 1 ≤ n → s.dockTarget cl bank = true → start + entries ≤ page → ∃ t, exec (.fifoPush id) s = .next t ∧
        BytesOnly [(page, 32), (start, entries)] { answers s (.data 0) with free := t.free } t ∧
        natOf (t.rd (page + 8) 8) = (word 1 + n) % nent ∧ natOf (t.rd (page + 16) 8) = word 2 + n) ∧
      (nent - word 2 < n → exec (.fifoPush id) s = .next (answers s (.fault 0x08D r.va 0)))))

/-- R28, R224, R339, R340: the acknowledgement of the last operation that a count stands for. The count falls; a cause is logged with the
operation's PC and address; contexts of the core that wait to execute their instruction again become READY. -/
def Claims.Acknowledgements : Prop := ∀ (s : State) (id core ctx : Nat) (c : Cnt) (pc g va cause : Nat),
  lookupId id s.flights = some (.ack (.count core ctx c pc g) va cause) → ctx < 12 → s.slotsApart core → cause < 512 → va < 2 ^ 64 → pc < 2 ^ 64 →
  (∀ f ∈ s.flights, f.1 ≠ id → f.2.inGroup c g = false) → s.aliases = [] → s.pairs = [] → 1 ≤ s.cntAt core ctx c →
  let n := s.cxAt core ctx cxSTATUS / 2 ^ 19 % 2 ^ 5
  let log (t : State) (i : Nat) := natOf (t.rd (s.wsLoc core ctx (cxLOG + 24 * i)) 24)
  ∃ t, exec (.acknowledgement id) s = .next t ∧ t.flights = dropId id s.flights ∧ t.cntAt core ctx c = s.cntAt core ctx c - 1 ∧
    (∀ d, d ≠ c → t.cntAt core ctx d = s.cntAt core ctx d) ∧
    (∀ x, x < 12 → s.stateAt core x = 2 → (s.ctxAt core x).wait = .retry → t.stateAt core x = 1 ∧ (t.ctxAt core x).wait = .none) ∧
    (∀ x, x < 12 → s.stateAt core x ≠ 2 → t.stateAt core x = s.stateAt core x) ∧
    (cause = 0 → t.cxAt core ctx cxSTATUS / 256 = s.cxAt core ctx cxSTATUS / 256) ∧
    (cause ≠ 0 → n < 16 → t.cxAt core ctx cxSTATUS / 2 ^ 19 % 2 ^ 5 = n + 1 ∧
      log t n = pc + va * 2 ^ 64 + (cause + c.cls * 2 ^ 9) * 2 ^ 128) ∧
    (cause ≠ 0 → 16 ≤ n → t.cxAt core ctx cxSTATUS / 2 ^ 24 % 2 = 1)

/-- R204, R206, R207, R211, R124, R384: a message at its target's inbox, the activation that takes it, and the system activations. -/
def Obligations.MessageEvents : Prop := ∀ (s : State) (id core : Nat) (m : Msg),
  core < 4096 → s.pkgId < 1024 → s.aliases = [] → s.running = [] →
  let c := s.core core
  let due := lookupId id s.flights = some (.msg m) ∧ m.back.heard = true ∧ s.inOrder id = true ∧ m.target = s.pkgId * 4096 + core ∧
    (s.cluster (core / 8)).fenced = false ∧ s.guard (core / 8) m.part = .deliver
  let takes (i : Instr) := ∀ n, c.inbox.length < 32 → c.refusals = [] → n < 32 → (∀ e ∈ c.inbox, e.slot ≠ n) →
    (∀ j, j < n → ∃ e ∈ c.inbox, e.slot = j) → m.word / 2 ^ 30 = 0 → m.pay.length ≤ 8 → (∀ v ∈ m.pay, v < 2 ^ 64) → m.word < 2 ^ 32 → m.hpc < 2 ^ 64 → ∃ t, exec i s = .next t ∧
    (t.core core).inbox = c.inbox ++ [{ slot := n, sys := .handler, part := m.part, tries := 0 }] ∧
    t.flights = (s.inPlace id m.back (pmLoc core 0 + s.pkgId * 2 ^ 46) (.data 0)).flights ∧
    natOf (t.rd (pmLoc core (0x3B000 + 128 * n)) 8) = m.hpc ∧ natOf (t.rd (pmLoc core (0x3B008 + 128 * n)) 8) = m.word ∧
    ∀ i, i < 8 → natOf (t.rd (pmLoc core (0x3B040 + 128 * n + 8 * i)) 8) = m.pay.getD i 0
  let full (i : Instr) := 32 ≤ c.inbox.length → ∃ t, exec i s = .next t ∧ (t.core core).inbox = c.inbox ∧ t.mem = s.mem ∧
    lookupId id t.flights = some (.msg { m with refused := some s.clock })
  let free := s.stateAt core 1 = 0 ∧ c.act = none ∧ s.clusterRuns (core / 8) = true ∧ (s.cluster (core / 8)).fenced = false ∧
    ∀ f ∈ s.flights, f.1 ∉ c.outbox
  let ws := s.wsLoc core 1 0
  (due → m.refused = none → takes (.messageArrival id) ∧ full (.messageArrival id)) ∧
  (due → ∀ k, m.refused = some k → k + 64 ≤ s.clock → takes (.messageRetry id) ∧ full (.messageRetry id)) ∧
  (∀ e rest, free → c.inbox = e :: rest → e.sys = .handler → e.slot < 32 →
    let word (o : Nat) := natOf (s.rd (pmLoc core (0x3B000 + 128 * e.slot + o)) 8)
    ∃ t, exec (.activation core) s = .next t ∧ (∃ a : Activation, (t.core core).act = some a ∧ a.slot = e.slot ∧ a.sends = 0 ∧
        a.stores = 0 ∧ a.buf = [] ∧ a.out = [] ∧ a.futs = [] ∧ a.count = 0) ∧
      (t.core core).inbox = c.inbox ∧ t.cxAt core 1 cxPC = word 0 / 4 * 4 ∧ t.cxAt core 1 cxSTATUS = 0x11 ∧
      t.cxAt core 1 cxFUT = 0 ∧ t.cxAt core 1 cxCNT = 0 ∧ t.cxAt core 1 cxREPS = 0 ∧
      t.gAt core 1 3 = 0x09 * 2 ^ 56 + 0x3B000 + 128 * e.slot ∧ (∀ i, i < 4 → t.gAt core 1 (4 + i) = word (0x40 + 8 * i)) ∧
      ∀ x : Nat, x < ws ∨ ws + 0xC00 ≤ x → t.mem.get x = s.mem.get x) ∧
  (∀ e rest (r : MemReq) off, free → c.inbox = e :: rest → e.sys = .access id r → lookupId id s.flights = some (.mem r) →
    r.back.heard = true → r.near = some (pmLoc core off) → off + r.op.size ≤ 0x30000 → r.seq = none →
    s.inWords (core / 8) (core % 8) off r.op.size = none → s.tainted (pmLoc core off) r.op.size = false →
    (r.op.indivisible = true) →
    let isNib := match r.op with
      | .nibble _ _ => true
      | _ => false
    let i : Instr := if isNib then .systemNibbleStore core else .systemAtomic core
    let x := r.op.run (s.rd (pmLoc core off) r.op.size)
    ∃ t, exec i s = .next t ∧ (t.core core).inbox = rest.filter (fun y => y.slot != e.slot) ∧
      t.flights = (s.inPlace id r.back r.va (.data x.2)).flights ∧
      (x.1 ≠ [] → t.rd (pmLoc core off) r.op.size = x.1) ∧
      ∀ y : Nat, y < pmLoc core off ∨ pmLoc core off + r.op.size ≤ y → t.mem.get y = s.mem.get y)


/-! ### Events at contexts: posts, barriers, wakes (R138, R159, R211, R216, R314, R360, R363, R364) -/

/-- R363, R364: a post is written at the tail of its supervisor's mailbox with V = 1, its source becomes HELD, and the future of MB.FUT is
resolved. A full mailbox loses the post; a task whose future the post names ends with it FAULTED, a helper ends, and neither becomes
HELD, while the control context does. -/
def Claims.MailboxPosts : Prop := ∀ (s : State) (id : Nat) (p : Post),
  lookupId id s.flights = some (.post p) → p.pkg = s.pkgId → s.partOfCluster ((s.part p.part).supv / 8) = some p.part → s.postFirst id p = true →
  let core := (s.part p.part).supv
  let c := s.core core
  let n := c.mbTail % 64
  let place := pmLoc core (0x3A800 + 32 * n)
  let valid := natOf (s.rd place 8) / 2 ^ 63 % 2
  let go := exec (.mailboxPost id) s
  let taken : State := { s with flights := dropId id s.flights }
  let kept := taken.setCore core { c with mbTail := c.mbTail + 1 }
  let lost := taken.setCore core { c with mbLost := if c.mbLost + 1 < 2 ^ 32 then c.mbLost + 1 else 2 ^ 32 - 1 }
  let kind := p.w0 / 2 ^ 60 % 8
  let told (u : State) := if c.mbFut = 0 then u else u.launchFlight (.fut
    { handle := c.mbFut, op := .finish 2 n, part := c.mbFut / 2 ^ 10 % 16, back := .none, root := 0, src := s.pkgId * 4096 + core })
  let written (t : State) := natOf (t.rd place 8) = 2 ^ 63 + p.w0 % 2 ^ 63 ∧ natOf (t.rd (place + 8) 8) = p.pc ∧
    natOf (t.rd (place + 16) 8) = p.addr ∧ natOf (t.rd (place + 24) 8) = p.aux
  let setTo (t : State) (x y st : Nat) := t.stateAt x y = st ∧ t.cxAt x y cxSTATUS / 256 = s.cxAt x y cxSTATUS / 256
  (valid = 0 → p.pc < 2 ^ 64 → p.addr < 2 ^ 64 → p.aux < 2 ^ 64 →
    ((∀ x y, p.source = some (x, y) → (s.ctxAt x y).wait ≠ .posting) → Reaches (told kept) go [(place, 32)] written) ∧
    (∀ x y, p.source = some (x, y) → (s.ctxAt x y).wait = .posting → x < 4096 → y < 12 → apartFrom (place, 32) (s.wsLoc x y cxSTATUS, 8) →
      Reaches (told (kept.setCtxAt x y { kept.ctxAt x y with wait := .none })) go [(place, 32), (s.wsLoc x y cxSTATUS, 8)] (fun t =>
        written t ∧ setTo t x y 3))) ∧
  (valid = 1 → p.source = none → go = .next lost) ∧
  (valid = 1 → ∀ x y, p.source = some (x, y) → (s.stateAt x y = 0 ∨ (s.ctxAt x y).ending ≠ none) → go = .next lost) ∧
  (valid = 1 → ∀ x y, p.source = some (x, y) → s.stateAt x y ≠ 0 → (s.ctxAt x y).ending = none → x < 4096 → y < 12 →
    let ends (e : Ending) := Reaches (lost.setCtxAt x y { lost.ctxAt x y with wait := .none, ending := some e }) go
      [(s.wsLoc x y cxSTATUS, 8)] (fun t => setTo t x y 2)
    (kind = 0 → s.cxAt x y cxFUT = p.aux → ends (.faulted (p.w0 / 2 ^ 47 % 2 ^ 9) none)) ∧
    (kind = 0 → s.cxAt x y cxFUT ≠ p.aux → go = .next lost) ∧
    (kind ≠ 0 → (s.ctxAt x y).helper = true → ends .final) ∧
    (kind ≠ 0 → (s.ctxAt x y).helper = false → y = 0 → (s.ctxAt x y).wait = .posting →
      Reaches (lost.setCtxAt x y { lost.ctxAt x y with wait := .none }) go [(s.wsLoc x y cxSTATUS, 8)] (fun t => setTo t x y 3)) ∧
    (kind ≠ 0 → (s.ctxAt x y).helper = false → (y ≠ 0 ∨ (s.ctxAt x y).wait ≠ .posting) → go = .next lost))

/-- R138, R216, R159, R360, R314: what reaches a waiting context and a stopped one. BARWAIT completes, with acquire effect, when its phase has; on a
phase that has timed out, after the clock of its expiry, it traps. A drain's wake resolves its future. A HELD task whose future is final ends. An arrival log
delivers its oldest record. -/
def Claims.WaiterEvents : Prop := ∀ (s : State) (core ctx key gen part : Nat) (at_ : Cur) (lvl : Level) (unit obj : Nat),
  at_.core = core → at_.ctx = ctx → ctx < 12 → core < 4096 →
  let phase (k : Nat) := (s.barrier k).word / 2 ^ 48 % 2 ^ 16
  let resumed : State := { s.readyAt core ctx with cur := at_ }
  let wait := exec (.barrierTimeout lvl unit obj) s
  let bkey := barKey lvl unit obj
  let b := s.barrier bkey
  let tmo := match lvl with
    | .quad => (s.cluster (unit / 2)).barTmo
    | .cluster => (s.cluster unit).barTmo
    | .die => (s.die unit).barTmo
    | .package => s.barTmo
  let expired := s.setBarrier bkey { b with timedOut := true }
  let free := s.stateAt core 1 = 0 ∧ (s.core core).act = none ∧ s.clusterRuns (core / 8) = true ∧
    (s.cluster (core / 8)).fenced = false ∧ ∀ f ∈ s.flights, f.1 ∉ (s.core core).outbox
  let p := s.part part
  ((s.ctxAt core ctx).wait = .barrier key gen at_ → s.stateAt core ctx = 2 →
    (phase key ≠ gen → CompletesOver resumed resumed.acquired (exec (.barrierCompletion core ctx) s) [] (fun t => t.stateAt core ctx = 1)) ∧
    (phase key = gen → exec (.barrierCompletion core ctx) s = .next s)) ∧
  (∀ first, b.start = some first → b.timedOut = false → tmo ≠ 0 → first + 1024 * tmo < s.clock →
    ((∀ x y a, (s.ctxAt x y).wait ≠ .barrier bkey (phase bkey) a) → wait = .next expired) ∧
    (s.onlyWaiter bkey (phase bkey) core ctx at_ →
      wait = .next (({ expired.readyAt core ctx with cur := at_ } : State).takeTrap 0x14C 0 b.word))) ∧
  (∀ e rest h v, free → (s.core core).inbox = e :: rest → e.sys = .drain h v →
    exec (.drainWake core) s = .next ((if h / 2 ^ 62 = 2 ∧ h % 2 ^ 10 = 0 ∧ h / 2 ^ 10 % 16 = e.part then s.launchFlight
        (.fut { handle := h, op := .finish 2 v, part := h / 2 ^ 10 % 16, back := .none, root := 0, src := s.pkgId * 4096 + core }) else s).setCore core
      { s.core core with inbox := (s.core core).inbox.filter (fun x => x.slot != e.slot) })) ∧
  (∀ e, (s.ctxAt core ctx).task.isSome = true → s.pairs = [] → s.stateAt core ctx = 3 →
    let h := s.cxAt core ctx cxFUT
    let home := h / 2 ^ 40 % 4096
    let slot := h / 2 ^ 30 % 1024
    s.fut home slot = e → e.gen = h / 2 ^ 14 % 2 ^ 16 → e.state ≠ 0 → h / 2 ^ 52 % 1024 = s.pkgId →
    (2 ≤ e.state → e.bad = false → Reaches (s.setCtxAt core ctx { s.ctxAt core ctx with wait := .none, ending := some .final })
      (exec (.heldTaskEnd core ctx) s) [(s.wsLoc core ctx cxSTATUS, 8)] (fun t =>
        t.stateAt core ctx = 2 ∧ t.cxAt core ctx cxSTATUS / 256 = s.cxAt core ctx cxSTATUS / 256)) ∧
    (e.state = 1 ∨ e.bad = true → exec (.heldTaskEnd core ctx) s = .next s)) ∧
  (p.replaying = true → p.logged = [] → exec (.arrivalLogReplay part) s = .next (s.setPart part { p with replaying := false })) ∧
  (∀ n f rest, p.replaying = true → p.logged = (n, f) :: rest →
    let u := ({ s with flights := s.flights ++ [(n, f)] } : State).redeliver n f
    (u.stillWaits n = true → exec (.arrivalLogReplay part) s = .next s) ∧
    (u.stillWaits n = false → exec (.arrivalLogReplay part) s = .next (u.setPart part
      { u.part part with logged := rest, replayed := p.replayed + 1, replaying := decide (rest ≠ []) })))


/-! ### The scheduler's events (R195 to R203, R369) -/

/-- R195, R197, R308, R369: a task record at its scheduler takes the lowest free queue slot and is READY, or QUEUED where it names tiles; with no
place its future is poisoned. A record that the protection unit refuses poisons it too, one of a swapped partition waits, and a
twin whose partner no cluster can take is poisoned. -/
def Claims.RecordArrival : Prop := ∀ (s : State) (id cl home n : Nat) (r : TaskRec),
  lookupId id s.flights = some (.record home s.pkgId cl r) → s.recordFirst id home s.pkgId cl = true →
  let c := s.cluster cl
  let part := r.handle / 2 ^ 10 % 16
  let go := exec (.taskRecordArrival id) s
  let taken : State := { s with flights := dropId id s.flights }
  let poisons (cause : Nat) := go = .next (taken.launchFlight
    (.fut { handle := r.handle, op := .finish 3 cause, part := part, back := .none, root := 0, src := s.pkgId * 4096 + 8 * cl }))
  let slot := nearLoc cl 8 (0x3F8000 + 64 * n)
  let places (k : Task) (ready queued : List Nat) :=
    Reaches (taken.setCluster cl { c with tasks := Tbl.set Task.reset c.tasks n k, ready := ready, queued := queued }) go [(slot, 64)] (fun t =>
      natOf (t.rd slot 8) = r.pc % 2 ^ 60 / 4 * 4 + r.pri ∧
      natOf (t.rd (slot + 8) 8) = r.handle / 2 ^ 10 * 2 ^ 10 + boolNat r.twin * 2 ^ 9 + boolNat r.rst * 2 ^ 8 + k.stage * 2 ^ 5 ∧
      (∀ i, i < 4 → natOf (t.rd (slot + 16 + 8 * i) 8) = r.args.getD i 0) ∧
      (∀ i, i < 4 → let p := r.tiles.getD i 0
        natOf (t.rd (slot + 48 + 4 * i) 4) = if p = 0 then 0
          else if p % 32 ≠ 0 ∨ p < c.trBase ∨ (p - c.trBase) % 32 ≠ 0 ∨ 0xFFFFFFFE ≤ (p - c.trBase) / 32 then 0xFFFFFFFF
          else (p - c.trBase) / 32 + 1))
  let fresh : Task := { Task.reset with used := true, handle := r.handle, pri := r.pri, elig := r.elig, rst := r.rst, since := s.clock }
  (c.fenced = true → poisons 0x082) ∧
  (c.fenced = false → s.guard cl part = .refuse → poisons 0x088) ∧
  (c.fenced = false → s.guard cl part = .log → go = .next s) ∧
  (c.fenced = false → s.guard cl part = .deliver → r.pair = none →
    (r.twin = true → s.partnerCluster cl part = none → poisons 0x1C2) ∧
    (r.twin = false → (∀ i, i < 512 → (s.task cl i).used = true) → c.ovEnt = 0 → poisons 0x10C) ∧
    (r.twin = false → n < 512 → (s.task cl n).used = false → (∀ i, i < n → (s.task cl i).used = true) →
      r.handle < 2 ^ 64 → r.pri < 4 → (∀ v ∈ r.args, v < 2 ^ 64) →
      ((∀ p ∈ r.tiles, p = 0) → n ∉ c.ready → n ∉ c.queued → places { fresh with stage := 2 } (c.ready ++ [n]) c.queued) ∧
      ((∃ p ∈ r.tiles, p ≠ 0) → places fresh c.ready (c.queued ++ [n]))))

/-- R197 to R203: the other events of a scheduler, on tasks whose record holds a queue slot: a grant of prefetch space and its end, the dispatch of
the first task of the scan that an eligible core can take, the end of a workspace's copy, aging, and the load hint. -/
def Claims.SchedulerEvents : Prop := ∀ (s : State) (cl rid core ctx : Nat),
  let c := s.cluster cl
  let k := s.task cl rid
  let slot := nearLoc cl 8 (0x3F8000 + 64 * rid)
  let part := k.handle / 2 ^ 10 % 16
  let sane := rid < 512 ∧ k.used = true ∧ k.pri < 4 ∧ k.handle < 2 ^ 64
  let held (t : State) (w : Nat) := natOf (t.rd (slot + 8 * w) 8)
  -- a record that enters READY: its stage and priority, and its place in the queue
  let ready (base : State) (o : Host.Outcome State Fault Refusal) (k' : Task) :=
    let c := base.cluster cl
    let r := Reaches (base.setCluster cl { c with
      tasks := Tbl.set Task.reset c.tasks rid { k' with stage := 2, since := s.clock },
      ready := c.ready.filter (· != rid) ++ [rid], queued := c.queued.filter (· != rid) }) o [(slot, 16)]
    r (fun t => held t 0 = held s 0 / 4 * 4 + k'.pri ∧ held t 1 = held s 1 / 2 ^ 8 * 2 ^ 8 + 2 * 2 ^ 5 + held s 1 % 2 ^ 5)
  -- a task that ends with its future FAULTED
  let fails (base : State) (o : Host.Outcome State Fault Refusal) (cause : Nat) := ∃ t, o = .next t ∧
    t.flights = base.flights ++ [(base.nextId, .fut { handle := k.handle, op := .finish 3 cause, part := part, back := .none, root := 0, src := s.pkgId * 4096 + 8 * cl })] ∧
    t.task cl rid = Task.reset ∧ rid ∉ (t.cluster cl).queued ∧ rid ∉ (t.cluster cl).ready ∧ t.mem = base.mem
  let grant := exec (.prefetchGrant cl) s
  let done := exec (.prefetchDone cl rid) s
  let disp := exec (.dispatch cl) s
  let copy := exec (.workspaceCopyDone cl rid) s
  let ws := s.wsLoc core ctx 0
  let starts (t : State) := ({ Ctx.reset ctx with wp := (t.ctxAt core ctx).wp, away := (s.ctxAt core ctx).away, task := some (cl, rid),
                                                  twin := k.twin.isSome, rst := k.rst } : Ctx)
  -- a workspace that a context takes as its own: reserved bits of its words read as zero, and the priority is the task's
  let taken (base t : State) (loc : Nat) :=
    (∀ w ∈ heldWords, w ≠ cxSTATUS → t.cxAt core ctx w = cxHeld ctx 1 w (natOf (base.rd (loc + w) 8))) ∧
    t.cxAt core ctx cxSTATUS = setBits (cxHeld ctx 1 cxSTATUS (natOf (base.rd (loc + cxSTATUS) 8))) 11 10 k.pri
  let words (loc : Nat) : List Range := heldWords.map (fun w => (loc + w, 8))
  let trefs := (List.range 4).map (fun i => natOf (s.rd (slot + 48 + 4 * i) 4))
  -- R198
  (s.prefetchHead cl = some rid → s.prefetchTurn cl = false → grant = .next s) ∧
  (s.prefetchHead cl = some rid → s.prefetchTurn cl = true → sane → s.tainted slot 64 = false →
    (∀ cause, s.readTiles cl part trefs = .error cause → fails s grant cause) ∧
    (∀ (u : State) (ts : List (Option (Nat × Nat × Nat × Int))), s.readTiles cl part trefs = .ok (u, ts) → u.tainted slot 16 = false → u.cluster cl = c →
      let total := (ts.map (fun x => match x with
        | some (_, rb, rows, _) => if rb = 0 then 0 else rows * ((rb + 63) / 64 * 64)
        | none => 0)).sum
      (c.pfSize < total → fails u grant 0x10B) ∧
      (total ≤ c.pfSize → u.poolBarred cl = true → fails u grant 0x084) ∧
      (total ≤ c.pfSize → u.poolBarred cl = false → u.poolRoom cl total = none → grant = .next s) ∧
      (∀ a, total ≤ c.pfSize → u.poolBarred cl = false → u.poolRoom cl total = some a → ∃ t cmd, grant = .next t ∧
        t.running = u.running ++ [(u.nextId, cmd)] ∧ cmd.owner = .task cl rid ∧ cmd.part = part ∧ cmd.failed = none ∧
        (t.task cl rid).stage = 1 ∧ (t.task cl rid).pool = some (a, total) ∧ rid ∉ (t.cluster cl).queued ∧ t.flights = u.flights))) ∧
  -- R197: the last byte has landed, or the copy has failed
  (∀ id cmd, s.running = [(id, cmd)] → cmd.owner = .task cl rid → sane → s.tainted slot 64 = false →
    s.calm cl →
    (cmd.todo = [] → (∀ f ∈ s.flights, f.2.ofCmd id = false) → cmd.failed = none → ready { s with running := [] } done k) ∧
    (∀ cause va, cmd.todo = [] → (∀ f ∈ s.flights, f.2.ofCmd id = false) → cmd.failed = some (cause, va) → k.ws = .fresh →
      fails { s with running := [] } done cause) ∧
    (cmd.todo ≠ [] ∨ (∃ f ∈ s.flights, f.2.ofCmd id = true) → done = .next s)) ∧
  -- R199: who is chosen, and R202: what it starts with
  (s.chooseCore cl k = some (core, ctx) →
    (core / 8 = cl ∧ k.elig / 2 ^ (core % 8) % 2 = 1 ∧ 2 ≤ ctx ∧ ctx < 12 ∧ s.stateAt core ctx = 0 ∧ c.resv / 2 ^ ctx % 2 = 0 ∧
      (∀ x, 2 ≤ x → x < ctx → s.stateAt core x ≠ 0 ∨ c.resv / 2 ^ x % 2 = 1) ∧
      (k.ws = .fresh → ∀ core', core' / 8 = cl → k.elig / 2 ^ (core' % 8) % 2 = 1 →
        (∃ x, 2 ≤ x ∧ x < 12 ∧ s.stateAt core' x = 0 ∧ c.resv / 2 ^ x % 2 = 0) →
        s.busy core < s.busy core' ∨ (s.busy core = s.busy core' ∧ core ≤ core'))) ∧
    (∀ pre post p, s.partOfCluster cl = some p → (s.part p).status = .running → (s.part p).stopping = false → (s.part p).replaying = false →
      c.fenced = false → s.scanOrder cl = pre ++ rid :: post → (∀ r ∈ pre, s.chooseCore cl (s.task cl r) = none) → sane →
      s.tainted slot 64 = false → (s.ctxAt core ctx).wp + 0xC00 ≤ 0x40000 →
      let base := s.setCluster cl { c with
        ready := c.ready.filter (· != rid),
        tasks := Tbl.set Task.reset c.tasks rid { k with stage := 3, core := core, ctx := ctx } }
      (k.resume = .fresh → (∀ v ∈ k.offs, v < 2 ^ 32) → ∃ t, disp = .next t ∧
        BytesOnly [(ws, 0xC00), (slot, 64)] { base.setCtxAt core ctx (starts s) with free := t.free } t ∧
        t.cxAt core ctx cxPC = held s 0 % 2 ^ 60 / 4 * 4 ∧ t.cxAt core ctx cxFUT = k.handle / 2 ^ 10 * 2 ^ 10 ∧ t.cxAt core ctx cxCNT = 0 ∧
        t.cxAt core ctx cxREPS = 0 ∧ t.cxAt core ctx cxSTATUS = k.pri * 2 ^ 10 + ctx * 2 ^ 4 + 1 ∧
        t.gAt core ctx 3 = 0x08 * 2 ^ 56 + s.pkgId * 2 ^ 46 + cl / 128 * 2 ^ 44 + cl % 128 * 2 ^ 37 + 8 * 2 ^ 33 + 0x3F8000 + 64 * rid ∧
        (∀ i, i < 4 → t.gAt core ctx (4 + i) = held s (2 + i)) ∧
        (∀ i, i < 4 → natOf (t.rd (slot + 48 + 4 * i) 4) = k.offs.getD i 0xFFFFFFFF)) ∧
      (∀ wp, k.resume = .again → k.ws = .resident core wp → wp + 0xC00 ≤ 0x40000 → ∃ t, disp = .next t ∧ (t.ctxAt core ctx).wp = wp ∧
        t.ctxAt core ctx = starts t ∧ t.stateAt core ctx = 1 ∧ (t.task cl rid).stage = 3 ∧ (∀ r ∈ (t.core core).resident, r.2 ≠ (cl, rid)) ∧
        taken s t (pmLoc core wp) ∧ BytesOnly ((slot, 16) :: words (pmLoc core wp)) { s with cores := t.cores, clusters := t.clusters } t))) ∧
  -- R202, R203
  (k.used = true → k.stage = 3 → k.core = core → k.ctx = ctx → ctx < 12 → (s.ctxAt core ctx).wait = .copyIn → (s.ctxAt core ctx).task = some (cl, rid) →
    let r := s.copyIn part (c.wsBase + 0xC00 * rid) ws 0xC00
    (r.2 = none → k.resume = .again → ∃ t, copy = .next t ∧ t.ctxAt core ctx = { starts r.1 with away := (r.1.ctxAt core ctx).away } ∧ t.stateAt core ctx = 1 ∧
      taken r.1 t (r.1.wsLoc core ctx 0) ∧ BytesOnly (words (r.1.wsLoc core ctx 0)) { r.1 with cores := t.cores, clusters := t.clusters } t) ∧
    (∀ cause va aux, r.2 = some (cause, va, aux) → r.1.ctxAt core ctx = s.ctxAt core ctx → r.1.task cl rid = k → k.ws = .fresh → ∃ t, copy = .next t ∧ t.stateAt core ctx = 0 ∧
      t.task cl rid = Task.reset ∧ (t.ctxAt core ctx).task = none ∧
      (r.1.nextId + 1, .fut { handle := k.handle, op := .finish 3 cause, part := part, back := .none, root := 0, src := s.pkgId * 4096 + 8 * cl }) ∈ t.flights)) ∧
  -- R201
  (sane → k.stage = 2 → s.tainted slot 64 = false →
    (k.pri < 3 → k.since + 65536 ≤ s.clock → ready s (exec (.taskAging cl rid) s) { k with pri := k.pri + 1 }) ∧
    (k.pri = 3 ∨ s.clock < k.since + 65536 → exec (.taskAging cl rid) s = .next s)) ∧
  -- R200
  (∀ wide, let count := (c.tasks.filter (fun e => decide (e.2.stage ≤ 2))).length +
      ((List.range 8).map (fun i => ((List.range 12).filter (fun x => decide (2 ≤ x) && s.stateAt (8 * cl + i) x != 0)).length)).sum
    let due := if wide then c.hintPkgAt + 1024 ≤ s.clock else c.hintDieAt + 256 ≤ s.clock
    (¬ due → exec (.loadHintPublication cl wide) s = .next s) ∧
    (due → exec (.loadHintPublication cl wide) s = .next (s.setCluster cl
      (if wide then { c with hintPkg := count, hintPkgAt := s.clock } else { c with hintDie := count, hintDieAt := s.clock }))))


/-! ### Events on futures (R176 to R187, R192, R369 to R371) -/

/-- R176, R179 to R187, R192, R184: a request of a context of this package at the home of its future, whose entry `e` the table holds, and a
scheduler's reply to a cancellation. -/
def Obligations.FutureAtHome : Prop := ∀ (s : State) (id core slot : Nat) (e : FutEntry) (q : FutReq) (cl : Nat),
  s.fut core slot = e → e.state ≠ 0 → e.gen < 2 ^ 16 → e.part < 16 → core < 4096 → slot < 1024 → s.pkgId < 1024 →
  s.aliases = [] → (∀ f ∈ s.flights, f.1 < s.nextId) → Tbl.get 0 s.roots (rootKey (s.partOf core) core slot e.gen) = 0 →
  let h := 2 ^ 63 + s.pkgId * 2 ^ 52 + core * 2 ^ 40 + slot * 2 ^ 30 + e.gen * 2 ^ 14 + e.part * 2 ^ 10
  let go := exec (.futureRequest id) s
  let gives (base : State) (a : Answer) := go = .next (base.inPlace id q.back h a)
  let ended (t : State) (x : FutEntry) (st v cause : Nat) : State :=
    let u := t.setFut core slot { x with state := st, value := v, cause := cause, cons := e.cons || !e.waiters.isEmpty, waiters := [] }
    { u with nextId := t.nextId + e.waiters.length, flights := t.flights ++
      e.waiters.zipIdx.map (fun w => (t.nextId + w.2, .wake w.1 h st (if st = 2 then v else cause))) }
  let seen := s.setFut core slot { e with cons := true }
  let mine := s.cluster (core / 8)
  -- R192, R308
  (lookupId id s.flights = some (.fut q) → q.handle = h → q.back.heard = true →
    (mine.fenced = true → gives s (.fault 0x082 h 0)) ∧
    (mine.fenced = false → s.guard (core / 8) q.part = .refuse → gives s (.fault 0x088 h 0)) ∧
    (mine.fenced = false → s.guard (core / 8) q.part = .deliver → e.bad = true → (∀ tree, q.op ≠ .cancel tree) → gives s (.fault 0x1C0 0 0)) ∧
    (mine.fenced = false → s.guard (core / 8) q.part = .deliver → e.bad = false →
      (∀ tok, q.op = .touch tok →
        (e.state = 1 → ∀ w, tok = some w → gives (s.setFut core slot { e with waiters := e.waiters ++ [w] }) (.data (1 * 2 ^ 64))) ∧
        (e.state = 1 → tok = none → gives s (.data (1 * 2 ^ 64))) ∧ (e.state = 2 → gives seen (.data (2 * 2 ^ 64 + e.value))) ∧
        (e.state = 3 → gives seen (.fault 0x102 h e.cause)) ∧ (e.state = 4 → gives seen (.fault 0x103 h 0))) ∧
      (q.op = .ttouch → (e.state = 1 → gives s (.data (1 * 2 ^ 64))) ∧ (e.state = 2 → gives seen (.data (2 * 2 ^ 64 + e.value))) ∧
        (e.state = 3 → gives seen (.data (3 * 2 ^ 64 + e.cause))) ∧ (e.state = 4 → gives seen (.data (4 * 2 ^ 64)))) ∧
      (q.op = .stat → gives s (.data (e.waiters.length * 2 ^ 32 + boolNat e.tied * 2 ^ 17 + (if e.state = 3 then e.cause else 0) * 2 ^ 5 +
        boolNat e.dcan * 2 ^ 4 + boolNat e.cons * 2 ^ 3 + e.state))) ∧
      (∀ st v, q.op = .finish st v → (e.state = 1 → (st = 2 → gives (ended s e 2 v 0) (.data 1)) ∧ (st = 3 → gives (ended s e 3 0 v) (.data 1)) ∧
          (st = 4 → v = 0 → gives (ended s e 4 0 0) (.data 1))) ∧
        (2 ≤ e.state → gives s (.data 0))) ∧
      (∀ l count done, q.op = .join l count done →
        (e.state = 1 → e.tied = false → (∀ x ∈ s.launches, x.2.join ≠ h) → gives { s with launches := s.launches ++ [(l,
          { part := e.part, count := count, got := 0, bad := 0, done := done, join := h, queue := none, walker := none, joining := false })] } (.data 0)) ∧
        (e.state ≠ 1 ∨ e.tied = true → gives s (.fault 0x1E5 0 0))) ∧
      (q.op = .free → (e.state = 1 ∨ e.waiters ≠ [] → gives s (.fault 0x105 h 0)) ∧ (2 ≤ e.state → e.waiters = [] →
        gives (s.setFut core slot { FutEntry.reset with gen := (e.gen + 1) % 2 ^ 16 }) (.data 0))) ∧
      -- R184
      (∀ tree, q.op = .cancel tree → s.cancels = [] →
        (2 ≤ e.state → gives s (.data 0)) ∧
        (e.state = 1 → e.tied = false → gives (ended s { e with dcan := e.dcan || tree } 4 0 0) (.data 4)) ∧
        (e.state = 1 → e.tied = true → go = .next { s with nextId := s.nextId + 1, cancels := [(q.root, q.back, none)], flights := dropId id s.flights ++
          [(s.nextId, .cancelReq h (e.value / 2 ^ 22 % 2 ^ 10) (e.value / 2 ^ 20 % 4 * 128 + e.value / 2 ^ 13 % 128) q.root tree)] })))) ∧
  -- R184, R186: the scheduler's answer
  (∀ code root back tree, lookupId id s.flights = some (.cancelRep h cl code root tree) → s.finishAhead id h = false → e.state = 1 → e.bad = false → back.heard = true →
    s.cancels = [(root, back, none)] → (∀ f ∈ s.flights, f.1 ≠ id → f.2.cancels root = false) → (∀ f ∈ s.flights, f.1 ≠ root) → root < s.nextId →
    let e' := { e with dcan := e.dcan || tree }
    let taken : State := { s with flights := dropId id s.flights }
    let reply : Flight := match back with
      | .ctx _ _ => .reply back (.data code)
      | _ => .ack back 0 0
    let answered (t : State) : State := { t with cancels := [], flights := t.flights ++ [(root, reply)] }
    let told (t : State) : State := if tree then { t with nextId := t.nextId + 1, cancels := [(root, back, some code)],
                                                          flights := t.flights ++ [(t.nextId, Flight.treeCancel h (cl / 512) (cl % 512) root)] }
      else answered t
    (code = 0 → go = .next (answered taken)) ∧ (code = 3 → go = .next (told (if tree then taken.setFut core slot e' else taken))) ∧
    (code = 1 ∨ code = 2 → go = .next (told (ended taken e' 4 0 0))))

/-- R175 to R177, R184, R186, R371: a wake at its waiter, a cancel request at a scheduler, the propagation of a cancellation, and the comparison of a
twin pair's next requests. -/
def Obligations.WakeAndCancelEvents : Prop := ∀ (s : State) (id tok h st v cl n core ctx : Nat) (tree : Bool) (root pair : Nat),
  cl < 512 → s.pkgId < 1024 → n < 8192 → h < 2 ^ 64 →
  let part := h / 2 ^ 10 % 16
  let taken : State := { s with flights := dropId id s.flights }
  let wake := exec (.futureWake id) s
  let cancel := exec (.cancelRequest id) s
  let k := s.task cl n
  let c := s.cluster cl
  let slot := nearLoc cl 8 (0x3F8000 + 64 * n)
  let word (t : State) (l : Nat) := natOf (t.rd l 8)
  let ready (base : State) (r : Resume) (o : Host.Outcome State Fault Refusal) (more : List Range) (p : State → Prop) :=
    Reaches (base.setCluster cl { c with
        tasks := Tbl.set Task.reset c.tasks n { k with stage := 2, since := s.clock, resume := r },
        ready := c.ready.filter (· != n) ++ [n], queued := c.queued.filter (· != n) }) o ((slot, 16) :: more) (fun t =>
      word t (slot + 8) / 2 ^ 5 % 8 = 2 ∧ word t slot = word s slot / 4 * 4 + k.pri ∧ p t)
  let sane := n < 512 ∧ k.used = true ∧ k.pri < 4 ∧ k.twin = none ∧ s.tainted slot 64 = false
  let replies (t : State) (code : Nat) : State := { t with flights := t.flights.map (fun f => if f.1 = id then (id, .cancelRep h (s.pkgId * 512 + cl) code root tree) else f) }
  (lookupId id s.flights = some (.wake tok h st v) → s.wakeFirst id tok h = true → tok = s.pkgId * 2 ^ 22 + cl / 128 * 2 ^ 20 + cl % 128 * 2 ^ 13 + n →
    let lost : Post :=
      { pkg := h / 2 ^ 52 % 2 ^ 10, part := part, w0 := 2 ^ 63 + 6 * 2 ^ 60 + 0x1C6 * 2 ^ 47 + (h / 2 ^ 52 % 2 ^ 10 * 2 ^ 12 + h / 2 ^ 40 % 2 ^ 12),
        pc := 0, addr := tok, aux := h, source := none }
    (c.fenced = true ∨ s.guard cl part = .refuse → wake = .next (taken.launchFlight (.post lost))) ∧
    (c.fenced = false → s.guard cl part = .deliver → (tok, h) ∈ s.orphans →
      wake = .next (({ taken with orphans := s.orphans.erase (tok, h) } : State).launchFlight (.post lost))) ∧
    (c.fenced = false → s.guard cl part = .deliver → s.orphans = [] →
      (∀ d at_, sane → k.stage = 4 → k.resume = .inTouch d h at_ → ready taken (.touched d h st v at_) wake [] (fun _ => True)) ∧
      (∀ (d : GReg) at_, (n = 0x1F00 + core % 8 ∧ ctx = 0) ∨ (n = 0x1F08 + 10 * (core % 8) + (ctx - 2) ∧ 2 ≤ ctx ∧ ctx < 12) → core / 8 = cl →
        (s.ctxAt core ctx).wait = .listed d.val h at_ → s.stateAt core ctx = 2 → at_.core = core → at_.ctx = ctx →
        let woken : State := { taken.readyAt core ctx with cur := at_ }
        (st = 2 → v < 2 ^ 64 → CompletesOver woken woken.acquired wake (woken.gRange d) (fun t => t.gN d = if d = 0 then 0 else v)) ∧
        (st = 3 → wake = .next (woken.takeTrap 0x102 h v)) ∧ (st = 4 → wake = .next (woken.takeTrap 0x103 h 0))))) ∧
  -- R184
  (lookupId id s.flights = some (.cancelReq h s.pkgId cl root tree) → (∀ f ∈ s.flights, ∀ a b x (r : TaskRec), f.2 = .record a b x r → r.handle ≠ h) →
    (s.recordOf cl h = none → cancel = .next (replies s 0)) ∧
    (s.recordOf cl h = some n → sane →
      let freed := match k.ws with
        | .resident x _ => s.setCore x { s.core x with resident := (s.core x).resident.filter (fun r => r.2 != (cl, n)) }
        | _ => s
      (k.stage = 0 ∨ k.stage = 2 → ∃ t, cancel = .next t ∧ t = replies { freed with clusters := t.clusters } 1 ∧ t.task cl n = Task.reset ∧
        n ∉ (t.cluster cl).queued ∧ n ∉ (t.cluster cl).ready ∧ ∀ m, m ≠ n → t.task cl m = s.task cl m) ∧
      (k.stage = 1 → k.ws = .fresh → ∃ t, cancel = .next t ∧ t.task cl n = Task.reset ∧ (∀ r ∈ t.running, r ∈ s.running ∧ r.2.owner ≠ .task cl n) ∧
        (id, .cancelRep h (s.pkgId * 512 + cl) 2 root tree) ∈ t.flights) ∧
      (k.stage = 3 → s.resolving (cl, n) = true → cancel = .next s) ∧
      (k.stage = 3 → (s.ctxAt k.core k.ctx).wait ≠ .copyIn → s.resolving (cl, n) = false → Reaches (replies s 3) cancel [(s.wsLoc k.core k.ctx cxSTATUS, 8)] (fun t =>
        t.cxAt k.core k.ctx cxSTATUS / 2 ^ 9 % 2 = 1 ∧ t.cxAt k.core k.ctx cxSTATUS % 2 ^ 9 = s.cxAt k.core k.ctx cxSTATUS % 2 ^ 9 ∧
        t.cxAt k.core k.ctx cxSTATUS / 2 ^ 10 = s.cxAt k.core k.ctx cxSTATUS / 2 ^ 10)) ∧
      (∀ d loc at_ wp, k.stage = 4 → k.resume = .inCwait d loc at_ → k.ws = .resident core wp → core < 4096 → wp + 0xC00 ≤ 0x40000 →
        let l := pmLoc core (wp + cxSTATUS)
        ready (replies { s with cwaits := s.cwaits.filter (fun w => w.2 != (true, cl, n)) } 3) .again cancel [(l, 8)]
          (fun t => word t l / 2 ^ 9 % 2 = 1 ∧ word t l % 2 ^ 9 = word s l % 2 ^ 9 ∧ word t l / 2 ^ 10 = word s l / 2 ^ 10)))) ∧
  -- R186
  (lookupId id s.flights = some (Flight.treeCancel h s.pkgId cl root) → h ≠ 0 → s.cancels = [] → (∀ i, i < 8 → (s.core (8 * cl + i)).ftSpEnt = 0) →
    let children := (List.range 8).flatMap (fun i => ((s.core (8 * cl + i)).futs.filter (fun f => f.2.state == 1 && f.2.parent == h)).map
      (fun f => (2 ^ 63 + s.pkgId * 2 ^ 52 + (8 * cl + i) * 2 ^ 40 + f.1 * 2 ^ 30 + f.2.gen * 2 ^ 14 + f.2.part * 2 ^ 10, f.2.part)))
    let from_ := s.pkgId * 2 ^ 12 + h / 2 ^ 40 % 2 ^ 12
    exec (.treeCancel id) s = .next { taken with nextId := s.nextId + children.length, flights := taken.flights ++ children.zipIdx.map (fun x =>
      (s.nextId + x.2, .fut { handle := x.1.1, op := .cancel true, part := x.1.2, back := .none, root := root, src := from_ })) }) ∧
  -- R370, R371
  (∀ (x : Pair) ia fa ib fb qa qb, s.pairs = [(pair, x)] → x.qa = (ia, fa) :: qa → x.qb = (ib, fb) :: qb →
    let a := (s.task x.mine.1 x.mine.2).core
    let b := (s.task x.other.1 x.other.2).core
    s.calm (a / 8) → s.calm (b / 8) →
    let ha := fa.chained a x.crcA
    let hb := fb.chained b x.crcB
    (x.crcA = x.crcB → fa.plain a = fb.plain b → ha = hb) ∧
    (ha = hb → ∃ t, exec (.twinCompare pair) s = .next t ∧ t.pairs = [(pair, { x with qa := qa, qb := qb, crcA := ha, crcB := hb })] ∧
      t.flights = s.flights ++ [(ia, fa)] ∧ t = { s with pairs := t.pairs, flights := t.flights, aliases := t.aliases } ∧
      (fb.backOf.1.heard = true → t.aliases = s.aliases ++ [(ia, ib, fb.backOf.1)])) ∧
    (ha ≠ hb → ∃ t, exec (.twinCompare pair) s = .next t ∧
      t.pairs = [(pair, { x with qa := [], qb := [], crcA := 0xFFFFFFFF, crcB := 0xFFFFFFFF })] ∧ t.flights = s.flights ∧
      ((s.task x.mine.1 x.mine.2).used = true → (s.task x.mine.1 x.mine.2).stage = 3 →
        (t.ctxAt a (s.task x.mine.1 x.mine.2).ctx).ending = some (.mismatch 0x1C1))))


/-! ### Accumulates at their lines (R256 to R265) -/

/-- R259, R260, R261, R263, R258: an accumulate at the home slice of its line, whose page the slice's TLB entry gives as writable: applied and
counted toward both quotas, or refused by one of them; a flush accumulate, which is never refused; the window of the quotas; and a
refused addend on its return to an empty saggar entry. -/
def Obligations.AccumulateEvents : Prop := ∀ (s : State) (id cl : Nat) (a : Accum) (e : TlbEnt),
  let slice := s.home a.part a.va
  let c := s.cluster slice
  let win := s.clock / 256
  let rolled := if c.accWin = win then s else s.setCluster slice { c with accWin := win, accCount := 0, accLines := [],
                                                                           accLineNow := c.accLine, accSliceNow := c.accSlice }
  let k := rolled.cluster slice
  let n := (k.accLines.find? (fun l => l.1 == a.part && l.2.1 == a.va)).map (·.2.2)
  let lineFull := k.accLineNow ≠ 0 ∧ ∃ x, n = some x ∧ k.accLineNow ≤ x
  let sliceFull := k.accSliceNow ≠ 0 ∧ k.accSliceNow ≤ k.accCount
  let pa := e.pte / 2 ^ 14 % 2 ^ 34 * 2 ^ 14 + a.va % (if e.size = 0 then 2 ^ 16 else if e.size = 1 then 2 ^ 21 else 2 ^ 30)
  let uc := bitOf e.pte 8
  let old := s.gRd a.part pa uc 64
  let mapped := a.va < 2 ^ 59 ∧ a.va % 64 = 0 ∧ s.running = [] ∧ s.tlbFind slice a.part a.va = some e ∧ e.pte / 2 ^ 7 % 2 = 1
  let word (l : List Byte) (i : Nat) := natOf ((l.drop (4 * i)).take 4)
  let sum (x y : Nat) := if a.kind = 1 then accAdd 1 (x % 2 ^ 16) (y % 2 ^ 16) + accAdd 1 (x / 2 ^ 16) (y / 2 ^ 16) * 2 ^ 16
    else (fAdd .rne x y).1
  -- the line after an application, and the counts
  let applied (t : State) :=
    (a.kind ≠ 2 → ∀ i, i < 16 → word (t.gRd a.part pa uc 64) i = if a.mask / 2 ^ i % 2 = 1 then sum (word old i) (word a.data i) else word old i) ∧
    (a.kind = 2 → t.gRd a.part pa uc 64 = a.applyTo old) ∧
    (uc = false → t.mem = s.mem ∧ ∀ x, x < l2Key a.part pa ∨ l2Key a.part pa + 64 ≤ x → t.l2.find x = s.l2.find x) ∧
    (t.cluster slice).accCount = k.accCount + 1 ∧
    (t.cluster slice).accLines = (match n with
      | some _ => k.accLines.map (fun l => if l.1 = a.part ∧ l.2.1 = a.va then (l.1, l.2.1, l.2.2 + 1) else l)
      | none => if k.accLines.length < 32 then k.accLines ++ [(a.part, a.va, 1)] else k.accLines)
  let arrive := exec (.accumulateArrival id) s
  let flush := exec (.flushAccumulate id) s
  let f := s.core a.core
  let gs := f.flushes.map (fun g => { g with waits := g.waits.filter (· != id) })
  let acks (from_ : Nat) := (gs.filter (fun g => g.waits.isEmpty)).zipIdx.map (fun g =>
    (from_ + g.2, Flight.ack (.count a.core g.1.ctx .at_ g.1.pc (from_ + g.2)) 0 0))
  let left := { f with flushing := f.flushing.filter (· != id), flushes := gs.filter (fun g => !g.waits.isEmpty) }
  let mine := s.cluster cl
  let place := a.va / 2 ^ 6 % 2 ^ 7 ^^^ a.va / 2 ^ 13 % 2 ^ 7 ^^^ a.va / 2 ^ 20 % 2 ^ 7
  -- R259
  (exec (.accqWindow cl) s = .next (if mine.accWin = win then s else s.setCluster cl
    { mine with accWin := win, accCount := 0, accLines := [], accLineNow := mine.accLine, accSliceNow := mine.accSlice })) ∧
  -- R260
  (lookupId id s.flights = some (.accum a) → s.inOrder id = true → s.aliases = [] → a.back.heard = true → mapped → a.data.length = 64 →
    let answers (t : State) (x : Answer) := t.inPlace id a.back a.va x
    (e.pte / 2 ^ 4 % 2 = 0 → arrive = .next (answers s (.fault 0x091 a.va 0))) ∧
    (e.pte / 2 ^ 4 % 2 = 1 → a.mask % 2 ^ 16 = 0 → arrive = .next (answers s (.data 0))) ∧
    (e.pte / 2 ^ 4 % 2 = 1 → a.mask % 2 ^ 16 ≠ 0 →
      (lineFull ∨ sliceFull → arrive = .next { rolled with flights := s.flights.map (fun x => if x.1 = id then (id, .refusal a) else x) }) ∧
      (¬ lineFull → ¬ sliceFull → s.tainted pa 64 = true → arrive = .next (answers rolled (.fault 0x1C0 a.va 0))) ∧
      (¬ lineFull → ¬ sliceFull → s.tainted pa 64 = false → ∃ t, arrive = .next t ∧ t.flights = (answers s (.data 0)).flights ∧ applied t))) ∧
  -- R261, R258
  (lookupId id s.flights = some (.flush a) → s.inOrder id = true → mapped → a.data.length = 64 →
    (e.pte / 2 ^ 4 % 2 = 1 → s.tainted pa 64 = false → ∃ t, flush = .next t ∧ t.flights = dropId id s.flights ++ acks s.nextId ∧
      t.core a.core = left ∧ applied t) ∧
    (e.pte / 2 ^ 4 % 2 = 0 → ∃ t, flush = .next t ∧ t.mem = s.mem ∧ t.l2 = s.l2 ∧ t.core a.core = left ∧
      t.flights = dropId id s.flights ++ [(s.nextId, .post
        { pkg := s.pkgId, part := a.part, w0 := 2 ^ 63 + 5 * 2 ^ 60 + a.ctx * 2 ^ 56 + 0x091 * 2 ^ 47 + (s.pkgId * 4096 + a.core), pc := 0,
          addr := a.va, aux := a.task, source := none })] ++ acks (s.nextId + 1))) ∧
  -- R263
  (∀ ctx pc g, lookupId id s.flights = some (.refusal a) → a.back = .count a.core ctx .at_ pc g → s.sag a.core place = none → a.va < 2 ^ 60 → a.va % 64 = 0 →
    a.mask < 2 ^ 16 → a.kind < 4 → a.ks < 4 → a.part < 16 → a.ctx < 16 → a.task < 2 ^ 14 → a.data.length = 64 → s.aliases = [] → s.pairs = [] →
    (∀ f ∈ s.flights, f.1 ≠ id → f.2.inGroup .at_ g = false) → 1 ≤ s.cntAt a.core ctx .at_ → s.calm (a.core / 8) →
    apartFrom (sagLoc a.core place, 128) (s.wsLoc a.core ctx 0, 0xC00) →
    Reaches { s with flights := dropId id s.flights } (exec (.refusalReturn id) s) [(sagLoc a.core place, 128), (s.wsLoc a.core ctx cxCNT, 8)] (fun t =>
      t.sag a.core place = some { a with back := .none } ∧ t.cntAt a.core ctx .at_ = s.cntAt a.core ctx .at_ - 1 ∧
      ∀ d, d ≠ .at_ → t.cntAt a.core ctx d = s.cntAt a.core ctx d))


/-! ### Events of the matrix unit, the engines and the shelves (R142 to R164, R238 to R250, R268 to R276, R343, R344) -/

/-- R142, R149 to R153, R155, R158, R239 to R244, R250: what a command of a core does that reaches the head of its matrix queue while the unit
holds nothing else: MFMT, MALLOC, MFREE and MZERO at the head; MMA, MDRAIN and MRANK when the arbiter takes them, which charges a
credit; and the release of a wedge entry by its hold time or by a priority-3 member. -/
def Claims.MatrixUnitEvents : Prop := ∀ (s : State) (cl i : Nat) (c : Cmd) (rest : List Cmd),
  i < 8 → cl < 512 → s.calm cl →
  let core := 8 * cl + i
  let q := s.core core
  let u := s.cluster cl
  let behind := match rest with
    | [] => []
    | d :: ds => { d with since := s.clock } :: ds
  let popped := s.setCore core { q with matQ := behind }
  let start := exec (.commandStart core .matrix) s
  let pick := exec (.arbiterPick cl) s
  let group (t : State) (j : Nat) : RowGroup := Tbl.get RowGroup.reset (t.cluster cl).groups j
  let at_ (t r : Nat) : Nat := nearLoc cl 9 (t * 0x10000 + 512 * r)
  let word (t : State) (l : Nat) : Nat := natOf (t.rd l 4)
  let run := { c with fmt := q.fmt }
  let credit (j : Nat) := Tbl.get 0 u.credits j
  let weight (j : Nat) := let w := u.mxWeight / 2 ^ (4 * j) % 16
    if w = 0 then 1 else w
  -- the arbiter takes the one candidate and charges its core
  let refilled := if credit i = 0 then (List.range 8).foldl (fun t j => Tbl.set 0 t j (weight j)) u.credits else u.credits
  let taken := popped.setCluster cl { u with credits := Tbl.set 0 refilled i (Tbl.get 0 refilled i - 1), lastServed := i }
  (q.matQ = c :: rest → u.wedge = [] → s.running = [] →
    (∀ accm rc bf af aS aB bS bB, c.op = .mfmt accm rc bf af aS aB bS bB → start = .next (s.setCore core
      { q with matQ := behind, fmt := { accm := accm, rc := rc, bf := bf, af := af, aS := aS, aB := aB, bS := bS, bB := bB } })) ∧
    (∀ d t g0 ng kind k, c.op = .malloc d t g0 ng kind k →
      let mine (j : Nat) := 8 * t + g0 ≤ j ∧ j ≤ 8 * t + g0 + ng
      let told (v : Nat) := s.flights ++ [(c.id, .reply (.ctx c.core c.ctx) (.data v))]
      ((∃ j h, mine j ∧ (group s j).holder = some h ∧ h ≠ i) → start = .next { popped with flights := told 0 }) ∧
      ((∀ j h, mine j → (group s j).holder = some h → h = i) → ∃ w, start = .next w ∧ w.flights = told 1 ∧ w.core core = popped.core core ∧
        ∀ j, group w j = if mine j then
          { holder := some i, mine := true, kind := kind, k := if kind = 2 then k else 1, sat := false, nan := false } else group s j)) ∧
    (∀ t g0 ng, c.op = .mfree t g0 ng → ∃ w, start = .next w ∧ w = { popped with clusters := w.clusters } ∧
      ∀ j, group w j = if 8 * t + g0 ≤ j ∧ j ≤ 8 * t + g0 + ng then { group s j with holder := none } else group s j) ∧
    (∀ t row0 nr, c.op = .mzero t row0 nr → t < 8 → row0 + nr < 128 → (∀ j, (group s j).k ≤ 64) → ∃ w, start = .next w ∧
      BytesOnly [(at_ t row0, 512 * (nr + 1))] { popped with clusters := w.clusters, running := [(c.id, c)] } w ∧
      (∀ r, row0 ≤ r → r ≤ row0 + nr → let g := s.rowGroup cl t r
        (g.kind ≠ 2 → natOf (w.rd (at_ t r) 512) = 0) ∧
        (g.kind = 2 → ∀ j, j < g.k → word w (at_ t r + 8 * j) = 0xFF800000 ∧ word w (at_ t r + 8 * j + 4) = 0xFFFFFFFF)) ∧
      ∀ j, group w j = if j / 8 = t ∧ row0 ≤ 16 * (j % 8) ∧ 16 * (j % 8) + 15 ≤ row0 + nr then { group s j with sat := false, nan := false }
        else group s j) ∧
    (s.wedgeBound c = true →
      let e : WedgeEnt :=
        { key := run.wedgeKey, members := [run], opened := s.clock, hold := u.wedgeHold, urgent := if c.pri = 3 then some s.clock else none,
          released := none }
      start = .next (popped.setCluster cl { u with wedge := [e] })) ∧
    -- the arbiter's one candidate
    ((∀ j, j < 8 → j ≠ i → (s.core (8 * cl + j)).matQ = []) →
      (s.arbitrated c = false → pick = .next s) ∧
      (∀ t shp row0 nr a sa b sb, c.op = .mma t shp row0 nr a sa b sb → s.wedgeBound c = false → t < 8 →
        let n := 128 * 2 ^ shp
        (row0 + nr) * n + n ≤ 16384 →
        (taken.opVecs c.core c.ctx c.part q.fmt.bf b sb q.fmt.bS q.fmt.bB 0 n = .wait → pick = .next s) ∧
        (∀ (v : State) bs x as, taken.opVecs c.core c.ctx c.part q.fmt.bf b sb q.fmt.bS q.fmt.bB 0 n = .got v bs →
          v.opVecs c.core c.ctx c.part q.fmt.af a sa q.fmt.aS q.fmt.aB 0 (nr + 1) = .got x as →
          x.accTainted cl t (row0 * n) ((nr + 1) * n) q.fmt.accm = false → ∃ w, pick = .next w ∧ w.running = x.running ++ [(c.id, run)] ∧
            w.cores = x.cores ∧ w.flights = x.flights ∧ (w.cluster cl).credits = (x.cluster cl).credits ∧ ∀ r j, r ≤ nr → j < n →
              let l := nearLoc cl 9 (t * 0x10000 + 4 * ((row0 + r) * n + j))
              word w l = (macElem q.fmt.accm (word x l) (as.getD r (.flt [])) (bs.getD j (.flt []))).1)) ∧
      (∀ t row0 nr x d sd, c.op = .mdrain t row0 nr false 0 x d sd → t < 8 → row0 + nr < 128 →
        (∀ r, r ≤ nr → (s.rowGroup cl t (row0 + r)).kind ≠ 2 ∧ s.tainted (at_ t (row0 + r)) 512 = false) →
        pick = .next { taken with running := [(c.id, { run with
          todo := drainChunks d sd ((List.range (nr + 1)).map (fun r => (s.rd (at_ t (row0 + r)) 512, []))), wake := none })] }) ∧
      (∀ ts t row0 nr srow0 ncm base, c.op = .mrank ts t row0 nr srow0 ncm base → t < 8 → ts < 8 → row0 + nr < 128 → srow0 + nr < 128 →
        ncm < 128 → (∀ j, (group s j).k ≤ 64) → (∀ r, r < 128 → s.tainted (at_ t r) 512 = false ∧ s.tainted (at_ ts r) 512 = false) →
        ∃ w, pick = .next w ∧ BytesOnly [(at_ t row0, 512 * (nr + 1))] { taken with clusters := w.clusters, running := [(c.id, run)] } w ∧
          ∀ r, r ≤ nr → let k := (s.rowGroup cl t (row0 + r)).k
            let cands := (List.range (ncm + 1)).map (fun m => (word s (at_ ts (srow0 + r) + 4 * m), (base + m) % 2 ^ 32))
            w.rd (at_ t (row0 + r)) (8 * k) = placesOf k (cands.foldl (offer k) (s.rankedRow cl t (row0 + r))) ∧
            ((∃ p ∈ cands, RPair.isNan p = true) → (w.rowGroup cl t (row0 + r)).nan = true)))) ∧
  -- R244
  (∀ n e, u.wedge[n]? = some e →
    let hold := exec (.wedgeHoldExpiry cl n) s
    let urgent := exec (.wedgePriorityRelease cl n) s
    let newly := (u.wedge.filter (· == e)).map (fun x => { x with released := some s.clock })
    let released := s.setCluster cl { u with wedge := u.wedge.filter (· != e) ++ newly }
    (e.released ≠ none → hold = .next s ∧ urgent = .next s) ∧
    (e.released = none → (e.opened + e.hold ≤ s.clock → hold = .next released) ∧ (s.clock < e.opened + e.hold → hold = .next s) ∧
      (e.urgent = none → urgent = .next s) ∧
      ∀ t, e.urgent = some t → (t + 32 ≤ s.clock → urgent = .next released) ∧ (s.clock < t + 32 → urgent = .next s)))

/-- R142, R143, R146, R162 to R166, R235: a copy command that leaves its queue; a write of an engine performed at its destination in this package's
near space, or failing there; and the end of a command: its object, its future and its counter, a hold where the failure has nobody
else to hear it, and the wake of a drain. -/
def Claims.CommandEvents : Prop := ∀ (s : State) (id fl core : Nat) (c : Cmd) (rest : List Cmd) (w : EngWrite),
  let cl := core / 8
  let q := s.core core
  let behind := match rest with
    | [] => []
    | d :: ds => { d with since := s.clock } :: ds
  let popped := s.setCore core { q with copyQ := behind }
  let start := exec (.commandStart core .copy) s
  let done := exec (.commandCompletion id) s
  let put := exec (.engineWriteAcknowledgement fl) s
  (q.copyQ = c :: rest → s.calm cl →
    (s.copyTurn core = false → start = .next s) ∧
    (s.copyTurn core = true →
      let begins (bytes : Nat) := ∃ w x : _, start = .next w ∧ w = { popped with running := s.running ++ [(c.id, x)] } ∧ x = { c with todo := x.todo } ∧
        (x.todo.map (·.n)).sum = bytes ∧ ∀ k ∈ x.todo, k.va % 64 + k.n ≤ 64
      (∀ esz dst v n, c.op = .tfill esz dst v n → begins (n * 2 ^ esz)) ∧
      (∀ src dst n, c.op = .bytes src dst n → begins n) ∧
      (∀ src dst mask n, c.op = .tmcast src dst mask n → begins (((List.range 16).filter (fun b => mask / 2 ^ b % 2 == 1)).length * n)) ∧
      (∀ d, c.op = .shelfclose [d] → lookupId d (s.cluster cl).shelves = none →
        start = .next { popped with running := s.running ++ [(c.id, { c with shelves := [] })] }))) ∧
  -- R146, R162
  (lookupId fl s.flights = some (.engWrite w) → s.running = [(w.cmd, c)] → c.id = w.cmd → c.cw = .none → c.held = [] → s.calm cl → w.bytes ≠ [] →
    w.va % 64 + w.bytes.length ≤ 64 → (∀ b ∈ w.bad, b < w.bytes.length) →
    let loc := 0x08 * 2 ^ 56 + w.va % 2 ^ 46
    (s.writeWaits fl w = true → put = .next s) ∧
    (s.writeWaits fl w = false → s.engineBar c.core c.ctx w.part w.va = none → w.va / 2 ^ 56 = 8 → w.loose = [] →
      s.inWords (loc / 2 ^ 44 % 4 * 128 + loc / 2 ^ 37 % 128) (loc / 2 ^ 33 % 16) (loc % 2 ^ 33) w.bytes.length = none → ∃ t, put = .next t ∧ t.flights = dropId fl s.flights ∧ t.running = s.running ∧
      (∀ i, i < w.bytes.length → t.mem.get (loc + i) = w.bytes.getD i 0) ∧ (∀ x, x < loc ∨ loc + w.bytes.length ≤ x → t.mem.get x = s.mem.get x)) ∧
    (∀ cause, s.writeWaits fl w = false → s.engineBar c.core c.ctx w.part w.va = some cause → put = .next { s with flights := dropId fl s.flights, running := [(w.cmd, { c with
      todo := c.todo.filter (fun x => x.dest != w.dest), failed := some (c.failed.getD (cause, w.va)),
      dmask := match c.op with
        | .tmcast _ _ _ _ => c.dmask ||| 2 ^ w.dest
        | _ => c.dmask })] })) ∧
  -- R143, R146, R159
  (s.running = [(id, c)] → c.id = id → c.core = core → s.calm cl →
    let pending := c.todo ≠ [] ∨ (∃ f ∈ s.flights, f.2.ofCmd id = true) ∨ c.shelves ≠ []
    let idle : State := { s with running := [] }
    let counts := match c.op with
      | .acct _ _ _ _ _ _ => Cnt.at_
      | op => cmdCnt op
    let cnt : Range := (s.wsLoc core c.ctx cxCNT, 8)
    let counted (t : State) := t.cntAt core c.ctx counts = s.cntAt core c.ctx counts - 1 ∧ ∀ k, k ≠ counts → t.cntAt core c.ctx k = s.cntAt core c.ctx k
    let reports (base : State) := Reaches base done [cnt] counted
    let finish (h st v : Nat) : State := if h / 2 ^ 62 = 2 ∧ h % 2 ^ 10 = 0 ∧ h / 2 ^ 10 % 16 = c.part then
      idle.launchFlight (.fut { handle := h, op := .finish st v, part := h / 2 ^ 10 % 16, back := .none, root := 0, src := s.pkgId * 4096 + core }) else idle
    let isTask := 2 ≤ c.ctx ∧ (s.ctxAt core c.ctx).helper = false
    let told (cause va : Nat) : State := idle.launchFlight (.post
      { pkg := s.pkgId, part := s.partOf core, w0 := 2 ^ 63 + (if isTask then 0 else 1) * 2 ^ 60 + c.ctx * 2 ^ 56 + cause * 2 ^ 47 + (s.pkgId * 4096 + core),
        pc := s.cxAt core c.ctx cxPC / 4 * 4, addr := va, aux := if isTask then s.cxAt core c.ctx cxFUT else c.pc, source := some (core, c.ctx) })
    let plain := match c.op with
      | .mdrain _ _ _ _ d _ _ _ => d ≠ 1
      | .mquant _ _ _ d _ _ _ _ _ _ _ => d ≠ 1
      | _ => True
    (pending ∨ c.owner.isTask = true → done = .next s) ∧
    (¬ pending → c.owner = .ctx → 1 ≤ s.cntAt core c.ctx counts →
      (∀ m, c.wake = some m → c.failed = none → done = .next { s with
        running := [(id, { c with wake := none })], nextId := s.nextId + 1, flights := s.flights ++ [(s.nextId, .msg m)] }) ∧
      (c.wake = none → c.failed = none →
        (c.cw = .none → reports idle) ∧ (∀ h, c.cw = .fut h → reports (finish h 2 0)) ∧
        (∀ va, c.cw = .obj va → va / 2 ^ 56 = 8 → apartFrom (0x08 * 2 ^ 56 + va % 2 ^ 46, 16) (s.wsLoc core c.ctx 0, 0xC00) →
          let l := 0x08 * 2 ^ 56 + va % 2 ^ 46
          Reaches idle done [cnt, (l, 8)] (fun t => counted t ∧ natOf (t.rd l 8) % 2 ^ 48 = natOf (s.rd l 8) % 2 ^ 48 ∧
            natOf (t.rd l 8) / 2 ^ 48 = (natOf (s.rd l 8) / 2 ^ 48 + 2 ^ 16 - 1) % 2 ^ 16))) ∧
      (∀ cause va, c.failed = some (cause, va) → plain →
        (c.cw = .none → reports (if (s.ctxAt core c.ctx).wait = .posting ∨ s.stateAt core c.ctx = 3 then told cause va
          else (told cause va).setCtxAt core c.ctx { s.ctxAt core c.ctx with holdReq := (s.ctxAt core c.ctx).holdReq ++ [(cause, va, c.pc)] })) ∧
        (∀ h, c.cw = .fut h → cause ≠ 0x040 → cause ≠ 0x041 → reports (finish h 3 cause)))) ∧
    (∀ part n x, ¬ pending → c.owner = .queue part n x → c.failed = none → c.wake = none → done = .next idle))


/-- R269 to R276: an open shelf that the timer closes after the clock of its expiry, and a shelf at its dock, which takes one of four buffers: one
that fails its checks is dropped with a post, and a row whose expert's bank has room goes to the FIFO's TAIL, with a message to the owner's
handler. A shelf waits in its buffer behind those before it, and while the message queue is full. -/
def Obligations.ShelfEvents : Prop := ∀ (s : State) (id cl die : Nat) (o : OpenShelf) (x : Shelf),
  let c := s.cluster cl
  let timer := exec (.shelfTimer cl die) s
  let seq := Tbl.get 0 c.shelfSeq die
  let arrive := exec (.shelfArrival id) s
  let taken : State := { s with flights := dropId id s.flights }
  let queued := (s.flights.filter (fun f => match f.2 with
    | .msg m => decide (m.back = .none) && m.word % 2 ^ 22 == s.pkgId * 4096 + 8 * x.dock
    | _ => false)).length
  let ahead := (s.flights.filter (fun f => match f.2 with
    | .docked y => y.dock == x.dock
    | _ => false)).length
  let docked : State := { taken with flights := taken.flights ++ [(id, .docked x)] }
  let post (cause pc addr entry : Nat) : State := taken.launchFlight (.post
    { pkg := s.pkgId, part := x.part, w0 := 2 ^ 63 + 4 * 2 ^ 60 + cause * 2 ^ 47 + x.src, pc := pc, addr := addr,
      aux := x.seq * 2 ^ 32 + entry, source := none })
  -- R271
  (lookupId die c.shelves = some o →
    (c.shelfTimer = 0 ∨ s.clock ≤ o.first + c.shelfTimer → timer = .next s) ∧
    (c.shelfTimer ≠ 0 → o.first + c.shelfTimer < s.clock → ∃ y : Shelf, timer = .next
        { s.setCluster cl { c with shelves := dropId die c.shelves, shelfSeq := Tbl.set 0 c.shelfSeq die ((seq + 1) % 2 ^ 32) } with
          nextId := s.nextId + 1, flights := s.flights ++ [(s.nextId, .shelf y)] } ∧
      y = { seq := seq, src := s.pkgId * 4096 + 8 * cl, part := o.part, ddie := die, rb := o.rb, rows := o.rows, dock := o.dock, crc := y.sum })) ∧
  (lookupId die c.shelves = none → timer = .next s) ∧
  -- R274, R276
  (lookupId id s.flights = some (.shelf x) → s.shelfFirst id x = true → s.running = [] → id < s.nextId →
    (4 ≤ ahead → arrive = .next s) ∧
    (ahead < 4 → x.crc ≠ x.sum → arrive = .next (post 0x18D 0 0 0)) ∧
    (ahead < 4 → x.crc = x.sum → s.partOfCluster x.dock ≠ some x.part → arrive = .next (post 0x088 0 0 0)) ∧
    (1 ≤ ahead → ahead < 4 → x.crc = x.sum → s.partOfCluster x.dock = some x.part → arrive = .next docked) ∧
    (ahead = 0 → 256 ≤ queued → x.rows ≠ [] → x.crc = x.sum → s.partOfCluster x.dock = some x.part → arrive = .next docked) ∧
    (ahead = 0 → queued < 256 → x.crc = x.sum → s.partOfCluster x.dock = some x.part → ∀ n bs bad, x.rows = [(n, bs, bad)] → n < 2 ^ 32 →
      let va := (s.cluster x.dock).xtBase + 0x40 + 32 * (n / 2 ^ 20)
      (∀ cause aux, docked.agentRead x.part va 32 = .error (cause, aux) → arrive = .next (post cause 0 va n)) ∧
      (∀ (u : State) (ent : List Byte), docked.agentRead x.part va 32 = .ok (u, ent) →
        let w := natOf (ent.take 8)
        let hpc := natOf ((ent.drop 8).take 8)
        let to_ := w / 2 ^ 61 % 4 * 128 + w / 2 ^ 54 % 128
        let bank := w / 2 ^ 48 % 8
        let rb := w / 2 ^ 36 % 2 ^ 8
        let bad_ := w / 2 ^ 63 % 2 = 0 ∨ 8 < w / 2 ^ 44 % 2 ^ 4 ∨ rb = 0 ∨ rb = 255
        let posts (cause : Nat) := ∃ t, arrive = .next t ∧ t.flights = dropId id u.flights ++ [(u.nextId, .post
          { pkg := u.pkgId, part := x.part, w0 := 2 ^ 63 + 4 * 2 ^ 60 + cause * 2 ^ 47 + x.src, pc := 0, addr := va,
            aux := x.seq * 2 ^ 32 + n, source := none })] ∧ t.mem = u.mem
        let page := nearLoc to_ 8 (0x80000 * bank + (if bank = 7 then 0x78000 else 0x80000) - 0x1000)
        let field (i : Nat) := natOf (u.rd (page + 8 * i) 8)
        let nent := field 3 / 2 ^ 16 % 2 ^ 16
        let entsz := field 3 % 2 ^ 8
        let slot := nearLoc to_ 8 (0x80000 * bank + field 1 * 64 * entsz)
        (bad_ ∨ w / 2 ^ 61 % 4 ≠ x.ddie → posts 0x18B) ∧
        (¬ bad_ → w / 2 ^ 61 % 4 = x.ddie → rb ≠ x.rb → posts 0x18C) ∧
        (¬ bad_ → w / 2 ^ 61 % 4 = x.ddie → rb = x.rb → (u.cluster to_).fenced = true → posts 0x082) ∧
        (¬ bad_ → w / 2 ^ 61 % 4 = x.ddie → rb = x.rb → (u.cluster to_).fenced = false → u.partOfCluster to_ ≠ some x.part → posts 0x088) ∧
        (¬ bad_ → w / 2 ^ 61 % 4 = x.ddie → rb = x.rb → (u.cluster to_).fenced = false → u.partOfCluster to_ = some x.part →
          (u.cluster to_).csMode / 2 ^ (2 * bank) % 4 = 2 → rb ≤ entsz → field 2 < nent → bs.length = 64 * rb → bad = [] → field 1 < nent →
          nent * 64 * entsz ≤ (if bank = 7 then 0x77000 else 0x7F000) → 
          let m : Msg :=
            { part := x.part, target := u.pkgId * 4096 + 8 * to_ + w / 2 ^ 51 % 8, hpc := hpc,
              word := 3 * 2 ^ 26 + x.part * 2 ^ 22 + (u.pkgId * 4096 + 8 * x.dock), pay := [n / 2 ^ 20, field 1, n % 2 ^ 20], back := .none,
              refused := none, drain := none }
          ∃ t, arrive = .next t ∧ BytesOnly [(slot, 64 * rb), (page + 8, 16)] { u with flights := t.flights, nextId := u.nextId + 1 } t ∧
            t.flights = dropId id u.flights ++ [(u.nextId, .msg m)] ∧
            t.rd slot (64 * rb) = bs ∧ natOf (t.rd (page + 8) 8) = (field 1 + 1) % nent ∧ natOf (t.rd (page + 16) 8) = field 2 + 1))))

/-- R343, R344: one record of a frame sweeper's scan, when its clocks have passed and its queue is below the watermark. A used bit is cleared, and
the TLB entries filled from that leaf dropped; a leaf not used since is reported; either way the hand moves on. -/
def Obligations.SweeperRule : Prop := ∀ (s : State) (die : Nat),
  let d := s.die die
  let sweep := exec (.sweeperRecord die) s
  let queued := (d.fsQTail + 2 ^ 32 - d.fsQHead) % 2 ^ 32
  let due := d.fsRate ≠ 0 ∧ d.fsAt + d.fsRate ≤ s.clock ∧ queued < d.fsWmark
  let r := natOf (s.rd (d.fsBase + 8 * d.fsHand) 8)
  let leaf := r / 8 % 2 ^ 45 * 8
  let e := natOf (s.rd leaf 8)
  let moved := { d with fsHand := (d.fsHand + (if r % 8 = 2 then 32 else 1)) % 2 ^ 22, fsAt := s.clock }
  let mapped := (r % 8 = 1 ∨ r % 8 = 2) ∧ e % 4 = 3
  let entry := d.fsQBase + 16 * (d.fsQTail % d.fsQSize)
  (¬ due → sweep = .next s) ∧
  (due → ¬ mapped → sweep = .next (s.setDie die moved)) ∧
  (due → mapped → e / 2 ^ 6 % 2 = 1 → Reaches { s.setDie die moved with tlb := s.tlb.filter (fun x => x.pteLoc != leaf) } sweep [(leaf, 8)]
    (fun t => natOf (t.rd leaf 8) = e - 2 ^ 6)) ∧
  (due → mapped → e / 2 ^ 6 % 2 = 0 → queued < d.fsQSize → Reaches (s.setDie die { moved with fsQTail := (d.fsQTail + 1) % 2 ^ 32 }) sweep [(entry, 16)]
    (fun t => natOf (t.rd entry 8) = e / 2 ^ 16 % 2 ^ 32 * 2 ^ 16 ∧ natOf (t.rd (entry + 8) 8) = leaf)) ∧
  (due → mapped → e / 2 ^ 6 % 2 = 0 → d.fsQSize ≤ queued → sweep = .next (s.setDie die moved))


/-! ### Queues, launches and graphs (R292 to R306) -/

/-- R292 to R297, R299, R301, R303: the packets of a queue. The service core whose turn has come to the queue checks the packet at READ and runs
it; a packet that fails stops the queue, with cause, step, packet and address in its descriptor and a notice to the control node; one
that finishes moves READ on. -/
def Claims.QueuePackets : Prop := ∀ (s t0 t : State) (part q : Nat) (ds ps : List Byte),
  let d := qdescOf ds
  let ws := wordsOf ps
  let w (i : Nat) := ws.getD i 0
  let qva := (s.part part).cqBase + 64 * q
  let slot := d.ring + 64 * (d.read % (if d.nslot = 0 then 1 else d.nslot))
  s.agentRead part qva 64 = .ok (t0, ds) → t0.agentRead part slot 64 = .ok (t, ps) →
  s.partRuns part = true → d.en = true → (s.qstate part q).stopped = false → (s.qstate part q).write ≠ d.read → (s.qstate part q).asked = none → s.refire = none →
  t.cores = s.cores → t.queues = s.queues → t.parts = s.parts →
  let key := 64 * part + q
  let mine := s.nextQueue d.die = some key
  let served := t.setDie d.die { t.die d.die with lastQueue := key }
  let store (u : State) (off : Nat) (bs : List Byte) : State := match u.agentWrite part (qva + off) bs with
    | .ok v => v
    | .error _ => u
  let finished (u : State) : State :=
    let v := store u 0x18 (bytesOf 4 (d.read + 1))
    v.setQ part q { v.qstate part q with gaveUp := none, begun := false, asked := none }
  let stopped (u : State) (cause step addr : Nat) : State :=
    let v := store u 0x20 (bytesOf 8 (step * 2 ^ 10 + cause * 2 + 1) ++ bytesOf 8 slot ++ bytesOf 8 addr)
    let x := v.setQ part q { v.qstate part q with stopped := true, gaveUp := none, begun := false, asked := none }
    { x with toHost := x.toHost ++ [.queueStopped part q] }
  let good := served.pktBad part d ws = none
  let opc := w 0 % 256
  let set := w 3
  let cores := (List.range (set / 2 ^ 12 % 2 ^ 13)).map (fun i => set % 2 ^ 12 + i * (set / 2 ^ 25 % 2 ^ 12))
  let data := ((ws.drop 3).take 4).flatMap (bytesOf 8) |>.take (w 2)
  let test (cmp x v m : Nat) : Prop :=
    let sgn (a : Nat) : Int := (BitVec.ofNat 64 a).toInt
    (cmp = 0 ∧ x &&& m = v) ∨ (cmp = 1 ∧ x &&& m ≠ v) ∨ (cmp = 2 ∧ v ≤ x &&& m) ∨ (cmp = 3 ∧ x &&& m < v) ∨
      (cmp = 4 ∧ sgn v ≤ sgn (x &&& m)) ∨ (cmp = 5 ∧ sgn (x &&& m) < sgn v)
  let tested (o : Host.Outcome State Fault Refusal) (u : State) :=
    (∀ c aux, u.agentRead part (w 1) 8 = .error (c, aux) → o = .next (stopped u c 0 (w 1))) ∧
    (∀ (v : State) bs, u.agentRead part (w 1) 8 = .ok (v, bs) →
      (test (w 2) (natOf bs) (w 3) (w 4) → o = .next (finished v)) ∧
      (¬ test (w 2) (natOf bs) (w 3) (w 4) → o = .next (v.setQ part q { v.qstate part q with gaveUp := some v.clock, begun := false })))
  let pairs := [(0x00, Instr.packetNop part q), (0x01, .launchKernel part q), (0x02, .launchGraph part q), (0x03, .write part q),
    (0x04, .writeSignal part q), (0x05, .waitValue part q), (0x06, .copy part q), (0x07, .packetFence part q), (0x10, .ctrlWrite part q)]
  -- R293, R295
  (∀ p ∈ pairs, (opc ≠ p.1 ∨ ¬ mine → exec p.2 s = .next s) ∧
    (opc = p.1 → mine →
      (w 0 / 2 ^ 9 % 2 ^ 23 ≠ 0 → exec p.2 s = .next (stopped served 0x1E1 0 0)) ∧
      (p.1 = 0x10 → w 0 / 2 ^ 9 % 2 ^ 23 = 0 → (∀ i, 4 ≤ i → i < 8 → w i = 0) → w 1 < 2 ^ 12 → w 2 < 2 ^ 16 → d.priv = false →
        exec p.2 s = .next (stopped served 0x1E3 0 0)) ∧
      (∀ c, served.pktBad part d ws = some c → exec p.2 s = .next (stopped served c 0 0)))) ∧
  -- R294
  (mine → good →
    (opc = 0x00 → exec (.packetNop part q) s = .next (finished served)) ∧
    (opc = 0x07 → exec (.packetFence part q) s = .next (finished served)) ∧
    (opc = 0x01 →
      let l : Launch :=
        { part := part, count := set / 2 ^ 12 % 2 ^ 13, got := 0, bad := 0, done := w 5, join := w 4, queue := some key, walker := none, joining := false }
      let k : KWake := { sender := d.die, launch := t.nextId, part := part, pc := w 1, arg := w 2, set := set, left := cores }
      exec (.launchKernel part q) s = .next (finished { served with
        launches := t.launches ++ [(t.nextId, l)], flights := t.flights ++ [(t.nextId + 1, .kwake k)], nextId := t.nextId + 2 })) ∧
    (∀ n, opc = 0x02 → n < 16 → lookupId n (t.die d.die).walkers = none → (∀ m, m < n → (lookupId m (t.die d.die).walkers).isSome = true) →
      let k : Walker := { part := part, q := q, base := w 1, node := w 2, join := w 4, done := w 5, failed := 0, st := .at_ }
      exec (.launchGraph part q) s = .next (finished (t.setDie d.die
        { t.die d.die with lastQueue := key, walkers := (t.die d.die).walkers ++ [(n, k)] }))) ∧
    (∀ (u : State), opc = 0x03 → served.agentWriteAll part (w 1) data = (u, none) → exec (.write part q) s = .next (finished u)) ∧
    (∀ (u : State) c a x, opc = 0x03 → served.agentWriteAll part (w 1) data = (u, some (c, a, x)) →
      exec (.write part q) s = .next (stopped u c 0 (a / 64 * 64))) ∧
    (∀ (u : State) c a x, opc = 0x04 → served.agentWriteAll part (w 1) data = (u, some (c, a, x)) →
      exec (.writeSignal part q) s = .next (stopped u c 0 (a / 64 * 64))) ∧
    (∀ (u v : State) (n : Nat), opc = 0x04 → served.agentWriteAll part (w 1) data = (u, none) → u.handleReach (128 * d.die) part (w 4) = none →
      w 4 / 2 ^ 52 % 2 ^ 10 = u.pkgId → u.futApply (w 4) (.finish 2 (w 5)) = (v, .data n) → exec (.writeSignal part q) s = .next (finished v)) ∧
    (∀ (u : State), opc = 0x04 → served.agentWriteAll part (w 1) data = (u, none) → u.handleReach (128 * d.die) part (w 4) = none →
      w 4 / 2 ^ 52 % 2 ^ 10 ≠ u.pkgId → exec (.writeSignal part q) s = .next
        ((u.setQ part q { u.qstate part q with begun := true, asked := some u.nextId }).launchFlight (.fut
          { handle := w 4, op := .finish 2 (w 5), part := part, back := .packet part q, root := 0, src := u.pkgId * 4096 + 1024 * d.die }))) ∧
    (∀ (u : State) c, opc = 0x04 → served.agentWriteAll part (w 1) data = (u, none) → u.handleReach (128 * d.die) part (w 4) = some c →
      exec (.writeSignal part q) s = .next (stopped u c 1 0)) ∧
    (opc = 0x05 → tested (exec (.waitValue part q) s) served) ∧
    (opc = 0x06 → ∃ c : Cmd, exec (.copy part q) s = .next (finished { served with nextId := t.nextId + 1, running := t.running ++ [(t.nextId, c)] }) ∧
      c.id = t.nextId ∧ c.part = part ∧ c.op = .bytes (w 1) (w 2) (w 3) ∧ c.owner = .queue part q (d.die * 128 + w 4) ∧
      c.core = 8 * (d.die * 128 + w 4) ∧ c.cw = .none ∧ (c.todo.map (·.n)).sum = w 3)) ∧
  -- R296
  (opc = 0x05 → t.pktBad part d ws = none → (s.qstate part q).gaveUp.isSome = true → s.dieBusy d.die = false → s.running = [] →
    tested (exec (.waitValueRetest part q) s) t) ∧
  ((s.qstate part q).gaveUp = none → exec (.waitValueRetest part q) s = .next s)


/-- R309, R310, R322, R341: CTRL_WRITE, BAR_ASSIGN, QUEUE_CONFIG and CTX_START, once the service core's turn has come to them and the checks of
R295 are passed. A packet whose operands fail its own check stops its queue; a write of XL.INV finishes when the invalidation has. One that finishes
returns the entry of its target to the control node (R307, log entry 123). The queue's descriptor after a packet is as `Claims.QueuePackets` says. -/
def Obligations.PrivilegedPackets : Prop := ∀ (s t : State) (part q addr : Nat) (d : QDesc) (ws : List Nat),
  s.head part q = .pkt t addr d ws → (s.qstate part q).asked = none → s.nextQueue d.die = some (64 * part + q) →
  let u := t.setDie d.die { t.die d.die with lastQueue := 64 * part + q }
  u.pktBad part d ws = none →
  let w (i : Nat) := ws.getD i 0
  let opc := w 0 % 256
  let ok (v : State) (target : Nat) : Host.Outcome State Fault Refusal :=
    let x := v.finishPacket part q d
    .next { x with toHost := x.toHost ++ [x.entryMsg target] }
  let bad : Host.Outcome State Fault Refusal := .next (u.stopQueue part q 0x1E2 0 addr 0)
  let on (v : State) : Host.Outcome State Fault Refusal := .next (v.setQ part q { v.qstate part q with begun := true })
  let ctrl := exec (.ctrlWrite part q) s
  let good := u.ctrlWriteOk (w 1) (w 2) (w 3) = true
  let inval : State := { u with nextId := u.nextId + 1, flights := u.flights ++ [(u.nextId, .xlInv (w 3) .device)] }
  let started := (u.qstate part q).begun = true
  let waits := ∃ f ∈ u.flights, f.2 = .xlInv (w 3) .device
  let bar := exec (.barAssign part q) s
  let entry := w 3 * 2 ^ 64 + w 2
  let die := w 1 / 2 % 4
  let conf := exec (.queueConfig part q) s
  let p := w 1 % 16
  let n := w 1 / 16 % 64
  let slots := w 2 % 2 ^ 32
  let va := (u.part p).cqBase + 64 * n
  let fits := p ≠ 0 ∧ (u.part p).status ≠ .unused ∧ (∃ k, 4 ≤ k ∧ k < 17 ∧ slots = 2 ^ k) ∧ w 3 % 4096 = 0 ∧ w 3 < 2 ^ 59
  let start := exec (.ctxStart part q) s
  let core := w 1
  let held := ∃ h ∈ (u.partOfCluster (core / 8)).toList, (u.part h).status ≠ .resetting
  let may := held ∧ w 2 % 4 = 0 ∧ u.stateAt core 0 = 0
  let wp := u.startSlot core
  let free (k : Nat) := (∀ x, 1 ≤ x → x < 12 → (u.ctxAt core x).wp ≠ 0x30000 + 0xC00 * k) ∧ ∀ r ∈ (u.core core).resident, r.1 ≠ 0x30000 + 0xC00 * k
  let fresh := u.setCtxAt core 0 { Ctx.reset 0 with wp := wp, away := (u.ctxAt core 0).away }
  -- R309, R341
  (opc = 0x10 → (¬ good → ctrl = bad) ∧ (good → w 2 ≠ 0x308 → ctrl = ok (u.fieldSet (w 1) 0 (w 2) (w 3)) (u.partOf (w 1))) ∧
    (good → w 2 = 0x308 → (¬ started → ctrl = on inval) ∧ (started → waits → ctrl = .next u) ∧ (started → ¬ waits → ctrl = ok u (u.partOf (w 1))))) ∧
  (opc = 0x14 → (w 1 % 2 = 0 → bar = ok (u.setDie die { u.die die with barPart := entry }) part) ∧
    (w 1 % 2 = 1 → bar = ok { u with barPart := entry } part)) ∧
  (opc = 0x15 → (¬ fits → conf = bad) ∧
    (fits → ∀ c aux, u.agentWrite p va (bytesOf 8 (w 3) ++ bytesOf 8 (w 2) ++ List.replicate 24 0) = .error (c, aux) →
      conf = .next (u.stopQueue part q c 0 addr va)) ∧
    (fits → ∀ v, u.agentWrite p va (bytesOf 8 (w 3) ++ bytesOf 8 (w 2) ++ List.replicate 24 0) = .ok v →
      conf = ok (v.setQ p n { write := 0, stopped := false, gaveUp := none, begun := false, asked := none }) p)) ∧
  -- R310
  (opc = 0x16 → (¬ may → start = bad) ∧
    (may → ∃ v : State, start = ok v (u.partOf core) ∧ BytesOnly [(pmLoc core wp, 0xC00)] { fresh with free := v.free } v ∧ v.cxAt core 0 cxPC = w 2 % 2 ^ 64 ∧
      v.cxAt core 0 cxFUT = 0 ∧ v.cxAt core 0 cxCNT = 0 ∧ v.cxAt core 0 cxREPS = 0 ∧ v.cxAt core 0 cxSTATUS = 1 ∧ v.gAt core 0 4 = w 3 ∧
      (∀ k, k < 14 → free k → (∀ j, j < k → ¬ free j) → wp = 0x30000 + 0xC00 * k)))

/-- R307, R309, R311, R312, R314, R316: PART_STOP, PART_START and PART_RESET. A stop is pushed on, and its packet waits, until every context stands
at an instruction boundary and nothing is in flight; shelves then close, and a layer is saved with SAVE. A start with RESTORE applies the layers
and waits for the replay of the arrival log. A reset leaves every context EMPTY and the partition's near memories zero; what a partition that is
swapped out owes, and the clusters that it keeps, are the model's reading (log entry 124). A pairing that R309 does not list stops the queue. -/
def Claims.PartitionPackets : Prop := ∀ (s t : State) (part q addr : Nat) (d : QDesc) (ws : List Nat),
  s.head part q = .pkt t addr d ws → (s.qstate part q).asked = none → s.nextQueue d.die = some (64 * part + q) →
  let u := t.setDie d.die { t.die d.die with lastQueue := 64 * part + q }
  u.pktBad part d ws = none →
  let w (i : Nat) := ws.getD i 0
  let opc := w 0 % 256
  let ok (v : State) : Host.Outcome State Fault Refusal :=
    let y := v.finishPacket part q d
    .next { y with toHost := y.toHost ++ [y.entryMsg (w 1 % 16)] }
  let bad : Host.Outcome State Fault Refusal := .next (u.stopQueue part q 0x1E2 0 addr 0)
  let on (v : State) : Host.Outcome State Fault Refusal := .next (v.setQ part q { v.qstate part q with begun := true })
  let p := w 1 % 16
  let x := u.part p
  let opt (i : Nat) : Prop := w 1 / 2 ^ i % 2 = 1
  let at_ (v : State) (st : PartStatus) : State := v.setPart p { v.part p with status := st, stopping := false, replaying := false }
  let run (v : State) : State :=
    v.setPart p { v.part p with status := .running, stopping := false, replaying := !(v.part p).logged.isEmpty, root := (v.part p).pages }
  let stop := exec (.partStop part q) s
  let image := w 2 % 4096 = 0 ∧ w 2 < 2 ^ 59
  let stops := p ≠ 0 ∧ x.status = .running ∧ (opt 4 → image ∧ (opt 5 → x.baseline ≠ 0))
  let pushed := u.pushStop p
  let closed := u.closeShelves p
  let ended := x.stopping = true ∧ u.stopDone p = true
  let start := exec (.partStart part q) s
  let begun := (u.qstate part q).begun = true
  let starts := p ≠ 0 ∧ (¬ opt 4 → x.status = .stopped) ∧ (opt 4 → x.status = .swapped ∧ u.clustersTaken p = false ∧ w 2 < 2 ^ 59)
  let reset := exec (.partReset part q) s
  let resets := w 1 ≠ 0 ∧ x.status ≠ .unused
  let owed := if x.status = .swapped then u.resetSwapped p else u
  let done := u.resetPart p
  -- R311, R312
  (opc = 0x11 → (¬ stops → stop = bad) ∧
    (stops → ¬ ended → stop = on pushed ∧ (pushed.part p).stopping = true ∧ pushed.partRuns p = false) ∧
    (stops → ended → ¬ opt 4 → stop = ok (at_ closed .stopped)) ∧
    (stops → ended → opt 4 → ∀ v c a, closed.saveLayer part p (w 2) (w 1 / 2 ^ 5 % 2 == 1) = (v, some (c, a)) → stop = .next (v.stopQueue part q c 1 addr a)) ∧
    (stops → ended → opt 4 → ∀ v, closed.saveLayer part p (w 2) (w 1 / 2 ^ 5 % 2 == 1) = (v, none) → stop = ok (at_ v .swapped) ∧
      (v.part p).baseline = w 2)) ∧
  -- R312, R314
  (opc = 0x12 → (¬ begun → ¬ starts → start = bad) ∧ (¬ begun → starts → ¬ opt 4 → start = ok (run u)) ∧
    (¬ begun → starts → opt 4 → ∀ c a, u.restoreFrom part p (w 2) = .error (c, a) → start = .next (u.stopQueue part q c 0 addr a)) ∧
    (¬ begun → starts → opt 4 → ∀ v, u.restoreFrom part p (w 2) = .ok v →
      (v.part p).baseline = w 2 ∧ ((v.part p).logged = [] → start = ok (run v)) ∧ ((v.part p).logged ≠ [] → start = on (run v))) ∧
    (begun → (x.replaying = true → start = .next u) ∧ (x.replaying = false → start = ok u))) ∧
  -- R316
  (opc = 0x13 → (¬ resets → reset = bad) ∧ (resets → x.status ≠ .resetting → reset = on (owed.setPart p { owed.part p with status := .resetting })) ∧
    (resets → x.status = .resetting → reset = ok done ∧ (done.part p).status = .stopped ∧ (done.part p).baseline = 0 ∧ (done.part p).logged = [] ∧
      (∀ cl ∈ x.clusters, cl < 512 → ∀ loc, loc / 2 ^ 56 = 8 → loc / 2 ^ 44 % 4 * 128 + loc / 2 ^ 37 % 128 = cl → loc / 2 ^ 46 % 2 ^ 10 = 0 →
        done.mem.get loc = 0) ∧
      (∀ cl ∈ x.clusters, (done.cluster cl).csMode = 0 ∧ (done.cluster cl).tasks = [] ∧
        ∀ core ctx, core / 8 = cl → core < 4096 → ctx < 12 → done.stateAt core ctx = 0)))

/-- R298, R309, R394: the expiry of a time slice. Between packets, and not while the package refires, the running partition is stopped; when its stop is complete it is saved and becomes
SWAPPED; then the next partition starts, from its last layer when it is swapped out. -/
def Claims.TimeSlices : Prop := ∀ (s : State) (old new image : Nat),
  let x := s.part old
  let slice := exec (.timeSliceExpiry old new image) s
  let inPacket := (∃ k ∈ s.queues, k.1 / 64 = old ∧ k.2.begun = true) ∨ s.refire ≠ none
  let ended := x.stopping = true ∧ s.stopDone old = true
  let run (v : State) : State :=
    v.setPart new { v.part new with status := .running, stopping := false, replaying := !(v.part new).logged.isEmpty, root := (v.part new).pages }
  (old = 0 ∨ new = 0 → slice = .next s) ∧
  (old ≠ 0 → new ≠ 0 → x.status = .running →
    (inPacket → x.stopping = false → slice = .next s) ∧
    ((¬ inPacket ∨ x.stopping = true) → ¬ ended → slice = .next (s.pushStop old) ∧ ((s.pushStop old).part old).stopping = true) ∧
    (ended → ∀ v, (s.closeShelves old).saveLayer 0 old image false = (v, none) →
      slice = .next (v.setPart old { v.part old with status := .swapped, stopping := false, replaying := false })) ∧
    (ended → ∀ v e, (s.closeShelves old).saveLayer 0 old image false = (v, some e) → slice = .next s)) ∧
  (x.status = .swapped → s.refire ≠ none → slice = .next s) ∧
  (old ≠ 0 → new ≠ 0 → x.status = .swapped → old ≠ new → s.clustersTaken new = false → s.refire = none →
    ((s.part new).status = .stopped → slice = .next (run s)) ∧
    ((s.part new).status = .swapped → ∀ v, s.restoreFrom 0 new (s.part new).baseline = .ok v → slice = .next (run v)) ∧
    ((s.part new).status = .swapped → ∀ e, s.restoreFrom 0 new (s.part new).baseline = .error e → slice = .next s))

/-- R292, R295: a doorbell and a poll read a queue's descriptor again. A queue that has stopped resumes when STOP is clear, past the packet with SKIP.
A packet that cannot be read, or whose opcode is not assigned, stops its queue. -/
def Claims.QueueAttention : Prop := ∀ (s t : State) (part q die value : Nat) (ds : List Byte),
  let va := (s.part part).cqBase + 64 * q
  let d := qdescOf ds
  let x := t.qstate part q
  let bell := exec (.svcDoorbell die value) s
  let poll := exec (.queuePoll part q) s
  let store (u : State) (off : Nat) (bs : List Byte) : State := match u.agentWrite part (va + off) bs with
    | .ok v => v
    | .error _ => u
  let resumes := x.stopped = true ∧ d.status % 2 = 0
  let skip := d.status / 2 ^ 13 % 2 = 1
  let seen (r : State) :=
    (¬ resumes → r = t.setQ part q { x with write := d.write }) ∧
    (resumes → ¬ skip → r = t.setQ part q { x with write := d.write, stopped := false }) ∧
    (resumes → skip → r = (store t 0x18 (bytesOf 4 (d.read + 1))).setQ part q { x with write := d.write, stopped := false })
  (2 ^ 10 ≤ value → bell = .next s) ∧
  (s.agentRead part va 64 = .ok (t, ds) → t.parts = s.parts →
    (value = 64 * part + q → q < 64 → part < 16 → (d.die ≠ die → bell = .next s) ∧ (d.die = die → ∃ r, bell = .next r ∧ seen r)) ∧
    (∃ r : State, seen r ∧
      (r.head part q = .none → poll = .next r) ∧
      (∀ u slot c, r.head part q = .bad u slot c → (slot ≠ va → poll = .next (u.stopQueue part q c 0 slot slot)) ∧
        (slot = va → poll = .next (u.stopQueue part q 0x1C0 0 0 va))) ∧
      (∀ u slot e ws, r.head part q = .pkt u slot e ws →
        let opc := ws.getD 0 0 % 256
        let mine := r.nextQueue e.die = some (64 * part + q)
        let known := opc ≤ 7 ∨ (0x10 ≤ opc ∧ opc ≤ 0x16)
        (known ∨ ¬ mine → poll = .next r) ∧
        (¬ known → mine → poll = .next ((u.setDie e.die { u.die e.die with lastQueue := 64 * part + q }).stopQueue part q 0x1E0 0 slot 0)))))


/-- R303, R304 (and the log entry on node words that R303 does not list): a walker at a node of its graph. A node that fails its checks, or cannot
be read, stops the walk; a stopped walk ends, with its cause stored, posted and counted, when no kernel of it is left. END takes the done step,
KERNEL sends a wake, COND and LOOP test and choose between NEXT and ALT, and JOIN waits for the walk's kernels. -/
def Obligations.GraphNodes : Prop := ∀ (s t : State) (die n : Nat) (k : Walker) (bs : List Byte),
  let va := k.base + 64 * k.node
  let w (i : Nat) := (wordsOf bs).getD i 0
  let typ := w 0 % 256
  let next := w 0 / 2 ^ 16 % 2 ^ 16
  let alt := w 0 / 2 ^ 32 % 2 ^ 16
  let src := s.pkgId * 4096 + 1024 * die
  let finish := exec (.graphEnd die n) s
  let put (u : State) (k' : Walker) : State := u.setDie die { u.die die with walkers := putId n k' (u.die die).walkers }
  let gone (u : State) : State := u.setDie die { u.die die with walkers := dropId n (u.die die).walkers }
  let busy := ∃ l ∈ s.launches, l.2.walker = some (die, n)
  let held := k.done ≠ 0 ∧ s.rangeHeld k.part k.done 8 = true
  let posted (u : State) (cause pc addr : Nat) : State := (u.launchFlight (.post
    { pkg := u.pkgId, part := k.part, w0 := 2 ^ 63 + 4 * 2 ^ 60 + cause * 2 ^ 47 + src, pc := pc, addr := addr, aux := 0,
      source := none })).bumpErrs k.part k.q
  -- the join is resolved through its home, and what the queue began is complete when that is done; the number is taken in any case
  let joined (u : State) (st v : Nat) : State := if k.join = 0 then { u with nextId := u.nextId + 1 }
    else
      let x : Launch :=
        { part := k.part, count := 0, got := 0, bad := 0, done := 0, join := k.join, queue := some (64 * k.part + k.q), walker := none,
          joining := true }
      ({ u with nextId := u.nextId + 1, launches := u.launches ++ [(u.nextId, x)] } : State).launchFlight (.fut
        { handle := k.join, op := .finish st v, part := k.join / 2 ^ 10 % 16, back := .join u.nextId, root := 0, src := src })
  let stored (u : State) (word : Nat) (p : State → Prop) : Prop :=
    (k.done = 0 → p u) ∧ (∀ v, k.done ≠ 0 → u.agentWrite k.part k.done (bytesOf 8 word) = .ok v → p v) ∧
    (∀ c aux, k.done ≠ 0 → u.agentWrite k.part k.done (bytesOf 8 word) = .error (c, aux) → p (posted u c 0 k.done))
  let runs := s.partRuns k.part = true ∧ s.refire = none
  lookupId n (s.die die).walkers = some k → k.q < 64 →
  -- R304: a stopped walk
  (∀ cause, k.st = .stopping cause → (busy ∨ held ∨ ¬ runs → finish = .next s) ∧
    (¬ busy → ¬ held → runs → stored s (2 ^ 63 + cause) (fun u => finish = .next (gone (posted (joined u 3 cause) cause va 0))))) ∧
  (k.st = .at_ → runs → s.rangeHeld k.part va 64 = false →
    (∀ c aux, s.agentRead k.part va 64 = .error (c, aux) → finish = .next (put s { k with st := .stopping c })) ∧
    (s.agentRead k.part va 64 = .ok (t, bs) → t.dies = s.dies → t.launches = s.launches → t.pkgId = s.pkgId →
      let zero (i : Nat) := ∀ j, i ≤ j → j < 8 → w j = 0
      let words := (typ = 0 → zero 1) ∧ (typ = 1 → w 3 < 2 ^ 39 ∧ zero 4) ∧ (typ = 2 → w 2 < 6 ∧ zero 5) ∧
        (typ = 3 → w 1 < 2 ∧ w 2 < 2 ^ 32 ∧ w 4 < 6 ∧ w 7 < 2 ^ 32) ∧ (typ = 4 → zero 1)
      let reachable (node : Nat) := ∃ x, t.translate k.part (k.base + 64 * node) .read = .ok x
      let good := typ < 5 ∧ w 0 / 2 ^ 9 % 2 ^ 7 = 0 ∧ w 0 < 2 ^ 48 ∧ (typ ≠ 1 → w 0 / 2 ^ 8 % 2 = 0) ∧ (typ ≠ 2 → typ ≠ 3 → alt = 0) ∧ words ∧
        (typ = 1 → t.coreSetOk k.part (w 3) = true) ∧ (typ ≠ 0 → reachable next) ∧ (typ = 2 ∨ typ = 3 → reachable alt)
      let events := [(1, Instr.graphKernel die n), (2, .graphCond die n), (3, .graphLoop die n), (4, .graphJoin die n)]
      let to_ (u : State) (node : Nat) : Host.Outcome State Fault Refusal := .next (put u { k with node := node })
      let stop (u : State) (c : Nat) : Host.Outcome State Fault Refusal := .next (put u { k with st := .stopping c })
      let sgn (a : Nat) : Int := (BitVec.ofNat 64 a).toInt
      let test (cmp x v m : Nat) : Prop :=
        (cmp = 0 ∧ x &&& m = v) ∨ (cmp = 1 ∧ x &&& m ≠ v) ∨ (cmp = 2 ∧ v ≤ x &&& m) ∨ (cmp = 3 ∧ x &&& m < v) ∨
          (cmp = 4 ∧ sgn v ≤ sgn (x &&& m)) ∨ (cmp = 5 ∧ sgn (x &&& m) < sgn v)
      let tested (o : Host.Outcome State Fault Refusal) (a cmp v m : Nat) : Prop := a % 64 ≤ 56 → t.rangeHeld k.part a 8 = false →
        (∀ c aux, t.agentRead k.part a 8 = .error (c, aux) → o = stop t c) ∧
        (∀ (u : State) (xs : List Byte), t.agentRead k.part a 8 = .ok (u, xs) → (test cmp (natOf xs) v m → o = to_ u next) ∧ (¬ test cmp (natOf xs) v m → o = to_ u alt))
      let set := w 3
      let cores := (List.range (set / 2 ^ 12 % 2 ^ 13)).map (fun i => set % 2 ^ 12 + i * (set / 2 ^ 25 % 2 ^ 12))
      let l : Launch :=
        { part := k.part, count := set / 2 ^ 12 % 2 ^ 13, got := 0, bad := 0, done := 0, join := 0, queue := none, walker := some (die, n),
          joining := false }
      let wake : KWake := { sender := die, launch := t.nextId, part := k.part, pc := w 1, arg := w 2, set := set, left := cores }
      let sent : State := { t with
        launches := t.launches ++ [(t.nextId, l)], flights := t.flights ++ [(t.nextId + 1, .kwake wake)], nextId := t.nextId + 2 }
      (¬ good → finish = stop s 0x1E4 ∧ ∀ e ∈ events, exec e.2 s = .next s) ∧
      (good → (typ ≠ 0 → finish = .next s) ∧ (∀ e ∈ events, typ ≠ e.1 → exec e.2 s = .next s) ∧
        (typ = 0 → (busy ∨ held → finish = .next s) ∧
          (¬ busy → ¬ held → stored t k.failed (fun u => finish = .next (gone (joined u 2 k.failed))))) ∧
        (typ = 1 → (w 0 / 2 ^ 8 % 2 = 0 → exec (.graphKernel die n) s = to_ sent next) ∧
          (w 0 / 2 ^ 8 % 2 = 1 → exec (.graphKernel die n) s = .next (put sent { k with st := .kernel t.nextId next }))) ∧
        (typ = 2 → tested (exec (.graphCond die n) s) (w 1) (w 2) (w 3) (w 4)) ∧
        (typ = 3 → w 1 = 1 → tested (exec (.graphLoop die n) s) (w 3) (w 4) (w 5) (w 6)) ∧
        (typ = 3 → w 1 = 0 →
          let more := w 7 < w 2
          (∀ c aux, t.agentWrite k.part (va + 56) (bytesOf 4 (if more then w 7 + 1 else 0)) = .error (c, aux) →
            exec (.graphLoop die n) s = stop t c) ∧
          (∀ u, t.agentWrite k.part (va + 56) (bytesOf 4 (if more then w 7 + 1 else 0)) = .ok u →
            exec (.graphLoop die n) s = to_ u (if more then next else alt))) ∧
        (typ = 4 → (busy → exec (.graphJoin die n) s = .next s) ∧ (¬ busy → exec (.graphJoin die n) s = to_ t next)))))

/-- R299 to R302, R305: a wake at a core of its set, the report of a root that has ended at the launch's counting agent, with the done step when it
was the last one, and the append of a launch block to a queue. -/
def Obligations.LaunchEvents : Prop := ∀ (s : State) (id core : Nat),
  let taken : State := { s with flights := dropId id s.flights }
  -- R299, R300
  (∀ (w : KWake) pre post, s.flights = pre ++ (id, .kwake w) :: post → (∀ f ∈ pre, f.1 ≠ id) → (∀ f ∈ post, f.1 ≠ id) →
    let wake := exec (.launchWake id core) s
    let cl := core / 8
    let left := w.left.erase core
    let base : State := if left = [] then taken else { s with flights := pre ++ (id, .kwake { w with left := left }) :: post }
    let next := core ∈ w.left ∧ ∀ f ∈ pre, ∀ x, f.2 = .kwake x → x.sender = w.sender → core ∉ x.left
    let root (h : Nat) : TaskRec :=
      { pc := w.pc, pri := w.set / 2 ^ 37 % 4, handle := h, twin := false, rst := false,
        args := [w.arg, (core - w.set % 2 ^ 12) / (w.set / 2 ^ 25 % 2 ^ 12), w.set / 2 ^ 12 % 2 ^ 13, core], tiles := [], elig := 2 ^ (core % 8),
        pair := none }
    (¬ next → wake = .next s) ∧
    (next → (s.cluster cl).fenced = true ∨ s.guard cl w.part = .refuse → wake = .next (base.launchFlight (.report w.launch false))) ∧
    (next → (s.cluster cl).fenced = false → s.guard cl w.part = .log → wake = .next s) ∧
    (next → (s.cluster cl).fenced = false → s.guard cl w.part = .deliver →
      let place := 2 ^ 63 + (s.pkgId * 2 ^ 22 + cl / 128 * 2 ^ 20 + cl % 128 * 2 ^ 13)
      (∀ e, base.futNew core w.part place 0 true = .error e → wake = .next (base.launchFlight (.report w.launch false))) ∧
      (∀ (u : State) (h : Nat), base.futNew core w.part place 0 true = .ok (u, h) →
        let key := w.part * 2 ^ 40 + core * 2 ^ 26 + h / 2 ^ 14 % 2 ^ 16 * 2 ^ 10 + h / 2 ^ 30 % 2 ^ 10
        wake = .next { u with
          roots := Tbl.set 0 u.roots key (w.launch + 1), flights := u.flights ++ [(u.nextId, .record core s.pkgId cl (root h))],
          nextId := u.nextId + 1 }))) ∧
  -- R301, R302
  (∀ (l : Nat) (ok : Bool) (x : Launch), lookupId id s.flights = some (.report l ok) → lookupId l s.launches = some x →
    let report := exec (.rootReport id) s
    let bad := x.bad + (if ok then 0 else 1)
    let over_ : State := { taken with launches := dropId l s.launches }
    -- a core that counts waits for its partition
    let away := x.walker = none ∧ x.queue = none ∧ s.guard (x.join / 2 ^ 40 % 2 ^ 12 / 8) x.part ≠ .deliver
    (away → report = .next s) ∧
    (¬ away → x.got + 1 < x.count → report = .next { taken with launches := putId l { x with got := x.got + 1, bad := bad } s.launches }) ∧
    (x.count ≤ x.got + 1 → ∀ die n k, x.walker = some (die, n) → lookupId n (s.die die).walkers = some k →
      let k' : Walker := match k.st with
        | .kernel y next => if y = l then { k with failed := k.failed + bad, st := .at_, node := next } else { k with failed := k.failed + bad }
        | _ => { k with failed := k.failed + bad }
      report = .next (over_.setDie die { s.die die with walkers := putId n k' (s.die die).walkers })) ∧
    (¬ away → x.count ≤ x.got + 1 → x.walker = none → x.done ≠ 0 → s.rangeHeld x.part x.done 8 = true → report = .next s) ∧
    (∀ q, x.count ≤ x.got + 1 → x.walker = none → x.queue = some q → (x.done ≠ 0 → s.rangeHeld x.part x.done 8 = false) →
      let joined (u : State) : State := if x.join = 0 then u
        else ({ u with launches := u.launches ++ [(l, { x with got := x.got + 1, bad := bad, joining := true })] } : State).launchFlight (.fut
          { handle := x.join, op := .finish 2 bad, part := x.join / 2 ^ 10 % 16, back := .join l, root := 0,
            src := s.pkgId * 4096 + 1024 * over_.queueDie q })
      (x.done = 0 → report = .next (joined over_)) ∧
      (∀ v, x.done ≠ 0 → over_.agentWrite x.part x.done (bytesOf 8 bad) = .ok v → report = .next (joined v)) ∧
      (∀ c aux, x.done ≠ 0 → over_.agentWrite x.part x.done (bytesOf 8 bad) = .error (c, aux) → ∃ p : Post, report = .next (joined
        ((over_.launchFlight (.post p)).bumpErrs x.part (q % 64))) ∧ p.w0 / 2 ^ 47 % 2 ^ 9 = c ∧ p.addr = x.done ∧ p.part = x.part ∧ p.w0 / 2 ^ 60 = 12)) ∧
    (∀ u b, ¬ away → x.count ≤ x.got + 1 → x.walker = none → x.queue = none → x.done = 0 → x.join ≠ 0 →
      over_.finishAt (x.join / 2 ^ 40 % 2 ^ 12) (x.join / 2 ^ 30 % 2 ^ 10) (x.join / 2 ^ 14 % 2 ^ 16) 2 bad = .ok (u, b) → report = .next u)) ∧
  (∀ (l : Nat) (ok : Bool), lookupId id s.flights = some (.report l ok) → lookupId l s.launches = none →
    exec (.rootReport id) s = .next taken) ∧
  -- R305
  (∀ (a : Append) (t : State) (ds : List Byte), lookupId id s.flights = some (.append a) → s.agentRead a.part (s.qVa a.part a.queue) 64 = .ok (t, ds) →
    t.aliases = [] →
    let append := exec (.launchAppend id) s
    let d := qdescOf ds
    let slot := d.ring + 64 * (d.write % (if d.nslot = 0 then 1 else d.nslot))
    let replies (u : State) (x : Answer) : Host.Outcome State Fault Refusal := .next (u.inPlace id (.ctx a.core a.ctx) 0 x)
    (s.rangeHeld a.part slot 64 = true → append = .next s) ∧
    (s.rangeHeld a.part slot 64 = false → d.nslot ≤ (d.write + 2 ^ 32 - d.read) % 2 ^ 32 → append = replies t (.data 0)) ∧
    (s.rangeHeld a.part slot 64 = false → (d.write + 2 ^ 32 - d.read) % 2 ^ 32 < d.nslot →
      (∀ c aux, t.agentWrite a.part slot a.block = .error (c, aux) → append = replies t (.fault c slot aux)) ∧
      (∀ u v w, t.agentWrite a.part slot a.block = .ok u → u.agentWrite a.part (u.qVa a.part a.queue + 0x10) (bytesOf 4 (d.write + 1)) = .ok v →
        v.reread a.part a.queue = w → w.aliases = [] → append = replies w (.data 1))))


/-- R353 to R355, R398, R399: requests of the control node, which a service core takes when what it took before has been performed, and the failure
of a control port, after which what was accepted is answered on the other. That a control request may not name the system area of a private memory
is the model's reading (log entry 27). -/
def Obligations.ControlPorts : Prop := ∀ (s : State) (port die part addr len : Nat) (data : List Byte),
  let takes (n : Nat) := s.booted = true ∧ port < 2 ∧ port ∉ s.deadPorts ∧ 1 ≤ n ∧ addr % 64 + n ≤ 64 ∧
    ∀ f ∈ s.flights, ∀ p r, f.2.backOf.1 ≠ .host p die r
  let read (g : PortTarget) := exec (.controlPortRead port die g addr len) s
  let write (g : PortTarget) := exec (.controlPortWrite port die g addr data) s
  let tells (u : State) (m : HostMsg) : Host.Outcome State Fault Refusal := .next { u with toHost := u.toHost ++ [m] }
  let sends (near : Option Nat) (op : MemOp) (n : Nat) : Host.Outcome State Fault Refusal := .next (s.launchFlight (.mem
    { part := part, va := addr, near := near, op := op, back := .host port die n, seq := none, stage := .travelling, refused := none,
      rel := false, again := false }))
  let unused := (s.part part).status = .unused
  let both (n : Nat) (g : PortTarget) (o : Nat → Host.Outcome State Fault Refusal) : Prop :=
    (takes len → n = len → read g = o len) ∧ (takes data.length → n = data.length → write g = o 0)
  let d := s.die die
  let regs := [(0x000, d.power % 2 ^ 32), (0x008, d.temp % 2 ^ 16), (0x010, d.ce % 2 ^ 64), (0x018, d.ue % 2 ^ 64), (0x020, d.lretry % 2 ^ 64),
    (0x028, s.duty % 256), (0x100, 0), (0x200, if s.refire.isSome then 1 else 0),
    (0x330, (if s.quote.isSome then 1 else 0) + 2 * (if s.quoting then 1 else 0))]
  let fails := exec (.controlPortFailure port) s
  let moved (b : Back) : Back := match b with
    | .host p x n => if p = port then .host (1 - port) x n else b
    | b => b
  let onOther (f : Nat × Flight) : Nat × Flight := match f.2 with
    | .mem r => (f.1, .mem { r with back := moved r.back })
    | _ => f
  (∀ g, (¬ takes len → read g = .next s) ∧ (¬ takes data.length → write g = .next s)) ∧
  -- R353
  (unused → ∀ n, both n (.global part) (fun _ => tells s (.refused port 0x088)) ∧ both n (.near part) (fun _ => tells s (.refused port 0x088))) ∧
  (¬ unused → 2 ^ 59 ≤ addr → ∀ n, both n (.global part) (fun _ => tells s (.refused port 0x080))) ∧
  (¬ unused → addr < 2 ^ 59 → (takes len → read (.global part) = sends none (.load len) len) ∧
    (takes data.length → write (.global part) = sends none (.store data false) 0)) ∧
  (∀ cl u off n, ¬ unused → cl < 512 → u < 16 → off < 2 ^ 33 → s.pkgId < 1024 →
    addr = 0x08 * 2 ^ 56 + s.pkgId * 2 ^ 46 + cl / 128 * 2 ^ 44 + cl % 128 * 2 ^ 37 + u * 2 ^ 33 + off →
    let size := if u < 8 then 0x40000 else if u = 8 then 0x400000 else 0x80000
    (10 ≤ u → both n (.near part) (fun _ => tells s (.refused port 0x082))) ∧
    (u < 10 → size ≤ off → both n (.near part) (fun _ => tells s (.refused port 0x083))) ∧
    (u < 8 → off < size → 0x30000 < off + n → both n (.near part) (fun _ => tells s (.refused port 0x088))) ∧
    (u < 10 → off < size → (u < 8 → off + n ≤ 0x30000) →
      (takes len → n = len → read (.near part) = sends (some (nearLoc cl u off)) (.load len) len) ∧
      (takes data.length → n = data.length → write (.near part) = sends (some (nearLoc cl u off)) (.store data false) 0))) ∧
  -- R398, R399
  (takes len → ∃ bs : List Byte, read .svc = tells s (.data port bs) ∧ bs.length = len ∧
    (∀ r ∈ regs, addr = r.1 → len = 8 → natOf bs = r.2) ∧
    (∀ q, s.quote = some q → ∀ i, i < len → 0x400 ≤ addr + i → addr + i < 0x560 → bs.getD i 0 = q.getD (addr + i - 0x400) 0)) ∧
  (takes data.length → ∃ u, write .svc = tells u (.done port) ∧
    (addr = 0x100 → data.length = 8 → exec (.svcDoorbell die (natOf data)) s = .next u) ∧
    (addr = 0x200 → data.length = 8 → exec (.svcRefire die (natOf data)) s = .next u) ∧
    (0x300 ≤ addr → addr < 0x330 → exec (.svcAttest (addr - 0x300) data) s = .next u) ∧
    (addr + data.length ≤ 0x100 ∨ (0x108 ≤ addr ∧ addr + data.length ≤ 0x200) ∨ (0x208 ≤ addr ∧ addr + data.length ≤ 0x300) ∨ 0x330 ≤ addr → u = s)) ∧
  -- R355
  (2 ≤ port ∨ port ∈ s.deadPorts → fails = .next s) ∧
  (port < 2 → port ∉ s.deadPorts → fails = .next { s with
    deadPorts := s.deadPorts ++ [port], flights := s.flights.map onOther,
    parts := s.parts.map (fun p => (p.1, { p.2 with logged := p.2.logged.map onOther })) })

/-- R387 to R391, R393, R394: power-good, refiring, its takeover and its end, and the failure of the active kiln. An image that fails a check of R388
is reported with the check's number and does not run; a package whose kilns both refuse theirs stays in reset, and says so at both control ports.
That other notices go to the first control port that works is the model's choice (log entry 126). -/
def Obligations.FirmwareEvents : Prop := ∀ (s : State) (die value : Nat),
  let svn (u : State) : Nat := match (if u.activeB then u.kilnB else u.kilnA).image with
    | some im => im.svn
    | none => 0
  let port (u : State) : Nat := if 0 ∈ u.deadPorts then 1 else 0
  let noteAt (u : State) (n code cause detail : Nat) : State := { u with toHost := u.toHost ++ [.notice n code cause (svn u) detail] }
  let note (u : State) : Nat → Nat → Nat → State := noteAt u (port u)
  let keyed : State := { s with deviceKey := some (Config.deriveKey Config.deviceFuses % (bpN - 1) + 1) }
  let active (u : State) : Option FwImage := if u.activeB then u.kilnB.image else u.kilnA.image
  let standby (u : State) : Option FwImage := if u.activeB then u.kilnA.image else u.kilnB.image
  let failed (r : Except Nat FwImage) : List Nat := match r with
    | .error n => [n]
    | .ok _ => []
  let up (t : State) (im : FwImage) (other : Option FwImage) (b : Bool) : Prop :=
    t.booted = true ∧ t.activeB = b ∧ active t = some im ∧ t.pkgId = Config.packageId % 1024 ∧
    (im.commit = true → ∀ n, n < im.svn → n < 128 → n ∈ t.fuses) ∧ (im.commit = false → t.fuses = s.fuses ∧ standby t = other) ∧
    t.toHost.getLast? = some (.notice (port s) 0x01 0 im.svn (if b then 1 else 0)) ∧ t.deviceKey = keyed.deviceKey ∧
    ((t.part 0).status = .running ∧ (t.part 0).pages = Config.bootPages ∧ (t.part 0).root = Config.bootPages ∧ (t.part 0).supv = Config.bootSupv ∧ (t.part 0).cqBase = Config.bootQueues ∧
      (∀ c, c ∈ (t.part 0).clusters ↔ c < 512 ∧ c ∈ Config.bootClusters) ∧ (∀ n, n ∈ (t.part 0).ports ↔ n < 144 ∧ n ∈ Config.bootPorts))
  let power := exec .powerGood s
  let refire := exec (.svcRefire die value) s
  let still := (∀ q ∈ s.queues, q.2.begun = false) ∧ (∀ d ∈ s.dies, ∀ w ∈ d.2.walkers, ∀ l next, w.2.st ≠ .kernel l next) ∧
    ∀ p ∈ s.parts, p.2.status ≠ .resetting
  let resetting := ∃ p ∈ s.parts, p.2.status = .resetting
  let takeover := exec .refireTakeover s
  let abort := exec .refireAbort s
  let failover := exec .kilnFailover s
  -- R390
  (s.booted = true → power = .next s) ∧
  (s.booted = false → ∃ t, power = .next t ∧
    (∀ n ∈ failed (s.verify (Config.flash false)) ++ failed (s.verify (Config.flash true)), .notice (port s) 0x02 0 (svn s) n ∈ t.toHost) ∧
    match s.verify (Config.flash false), s.verify (Config.flash true) with
    | .ok x, b => up t x b.toOption false
    | .error _, .ok y => up t y none true ∧ .notice (port s) 0x05 0 y.svn 0 ∈ t.toHost
    | .error m, .error n => t = noteAt (noteAt (noteAt (noteAt keyed 0 0x02 0 m) 1 0x02 0 m) 0 0x02 0 n) 1 0x02 0 n) ∧
  -- R393, R394
  (s.booted = false ∨ s.refire ≠ none → refire = .next s) ∧
  (s.booted = true → s.refire = none → value % 4096 ≠ 0 ∨ 2 ^ 59 ≤ value → refire = .next (note s 0x04 0 1)) ∧
  (∀ (t u : State) (h body : List Byte), s.booted = true → s.refire = none → value % 4096 = 0 → value < 2 ^ 59 →
    s.agentReadAll 0 value 256 = .ok (t, h) → natOf ((h.drop 8).take 8) ≤ 0x1C0000 →
    t.agentReadAll 0 (value + 256) (natOf ((h.drop 8).take 8)) = .ok (u, body) →
    (∀ n, u.verify (h ++ body) = .error n → refire = .next (note (note u 0x02 0 n) 0x04 0 1)) ∧
    (∀ im, u.verify (h ++ body) = .ok im →
      let ver := match active u with
        | some x => x.stateVer
        | none => 0
      (ver < im.stateMin ∨ im.stateVer < ver → refire = .next (note u 0x04 0 2)) ∧
      (im.stateMin ≤ ver → ver ≤ im.stateVer → refire = .next { u with refire := some { image := im, since := u.clock } }))) ∧
  (s.refire = none → takeover = .next s ∧ abort = .next s) ∧
  (∀ r, s.refire = some r → (¬ still → takeover = .next s) ∧
    (still → ∃ t, takeover = .next t ∧ t.activeB = !s.activeB ∧ t.refire = none ∧ active t = some r.image ∧
      t.toHost.getLast? = some (.notice (port s) 0x03 0 r.image.svn r.image.stateVer) ∧ (r.image.commit = false → standby t = some r.image ∧ t.fuses = s.fuses)) ∧
    (still ∨ resetting ∨ s.clock ≤ r.since + 8000000 → abort = .next s) ∧
    (¬ still → ¬ resetting → r.since + 8000000 < s.clock → abort = .next (note { s with refire := none } 0x04 0 3))) ∧
  (let other := match s.refire with
    | some r => some r.image
    | none => standby s
  (s.booted = false ∨ other = none → failover = .next s) ∧
  (∀ im, s.booted = true → other = some im → ∃ t, failover = .next t ∧ t.activeB = !s.activeB ∧ active t = some im ∧ standby t = none ∧
    t.refire = none ∧ t.toHost = s.toHost ++ [.notice (port s) 0x05 0 im.svn 0] ∧
    (im.commit = true → ∀ n, n < im.svn → n < 128 → n ∈ t.fuses) ∧ (im.commit = false → t.fuses = s.fuses)))

/-- R395, R397, R399: the nonce and the quote, signed with the device's key, the power limiter and the thermal stop, which goes on with the
partitions that it has begun to stop when the die has cooled. The duty that the limiter sets and the signature's secret number are free values (log
entries 4 and 31). -/
def Obligations.PlatformLimits : Prop := ∀ (s : State) (off mw die : Nat) (data : List Byte),
  let attest := exec (.svcAttest off data) s
  let quote := exec .attestQuoteReady s
  let nonce := (List.range 48).map (fun i => if off ≤ i ∧ i < off + data.length then data.getD (i - off) 0 else s.nonce.getD i 0)
  let cut (bs : List Byte) : List Byte := (List.range 48).map (fun i => bs.getD i 0)
  let running (k : Kiln) : List Byte := match k.image with
    | some im => im.bytes
    | none => []
  let act := if s.activeB then s.kilnB else s.kilnA
  let other := match s.refire with
    | some r => r.image.bytes
    | none => running (if s.activeB then s.kilnA else s.kilnB)
  let power := exec (.powerLimit mw) s
  let note (u : State) (code detail : Nat) : State := { u with toHost := u.toHost ++ [.notice (if 0 ∈ s.deadPorts then 1 else 0) code 0 (match act.image with
    | some im => im.svn
    | none => 0) detail] }
  let thermal := exec (.thermalStop die) s
  let told := (s.die die).hot
  let runs := (s.parts.filter (fun p => decide (p.2.status = .running) && p.2.clusters.any (fun c => c / 128 == die) && !told.contains p.1)).map (·.1)
  let mine := told ++ (if 105 * 16 < (s.die die).temp then runs else [])
  -- R395, R399
  (s.booted = false → attest = .next s) ∧
  (s.booted = true → off ≤ 47 → 47 < off + data.length → attest = .next { s with nonce := nonce, quoting := true, quote := none }) ∧
  (s.booted = true → off + data.length ≤ 47 → attest = .next { s with nonce := nonce }) ∧
  (s.quoting = false → quote = .next s) ∧
  (s.quoting = true → ∃ q, quote = .next { s with quoting := false, free := s.free + 1, quote := some q } ∧ q.length = 0x160 ∧
    q.take 48 = cut s.nonce ∧ (q.drop 0x30).take 48 = cut (sha384 Config.rom) ∧ (q.drop 0x60).take 48 = cut (sha384 (running act)) ∧
    (q.drop 0x90).take 48 = cut (sha384 other) ∧ (q.drop 0xC0).take 48 = cut (sha384 (Config.stateTable s.stateTable)) ∧ natOf ((q.drop 0xF8).take 8) = s.pkgId % 2 ^ 64 ∧
    (∀ n, n ≤ 128 → (∀ i, i < n → i ∈ s.fuses) → (n = 128 ∨ n ∉ s.fuses) → natOf ((q.drop 0xF0).take 8) = n) ∧
    ∃ k, 1 ≤ k ∧ k < bpN ∧ q.drop 0x100 = ecdsaSign (s.deviceKey.getD 0) k (q.take 0x100)) ∧
  -- R397
  (s.booted = false → power = .next s) ∧
  (s.booted = true → s.pwrCap * 1000 < mw → ∃ duty, duty < 256 ∧
    (s.duty = 256 → power = .next (note { s with duty := duty, free := s.free + 1 } 0x06 duty)) ∧
    (s.duty ≠ 256 → power = .next { s with duty := duty, free := s.free + 1 })) ∧
  (s.booted = true → mw ≤ s.pwrCap * 1000 → (s.duty = 256 → power = .next s) ∧ (s.duty ≠ 256 → power = .next (note { s with duty := 256 } 0x06 256))) ∧
  (mine = [] → thermal = .next s) ∧
  (∀ p, mine = [p] → (s.part p).status = .running → (∃ c ∈ (s.part p).clusters, c / 128 = die) →
    (¬ ((s.part p).stopping = true ∧ s.stopDone p = true) → ∃ t, thermal = .next t ∧ (t.die die).hot = [p] ∧
      t = { s.pushStop p with dies := t.dies } ∧ (t.part p).stopping = true) ∧
    ((s.part p).stopping = true → s.stopDone p = true → ∃ t, thermal = .next t ∧ (t.part p).status = .stopped ∧ (t.die die).hot = [] ∧
      t.toHost.getLast? = (note s 0x07 (2 ^ die)).toHost.getLast?))


/-- R373 to R375, R377, R378: a port declares its link dead, or is retrained, and its update goes out on every live link; an update of another port
is accepted when its SEQ is newer, and forwarded; and the rounds of a drain, after the fourth of which what is still on the dead path is settled by
its kind. -/
def Claims.LinkEvents : Prop := ∀ (s : State) (port word dest : Nat),
  let p := Tbl.get Port.reset s.ports port
  let seq := (p.seq + 1) % 2 ^ 32
  let live (u : State) (n : Nat) : Bool := match Config.cable u.pkgId n with
    | some far => !(Tbl.get (0, false) u.links2 (u.pkgId * 256 + n)).2 && !(Tbl.get (0, false) u.links2 far).2
    | none => false
  let floods (u : State) (word : Nat) (but : Option Nat) : State :=
    { u with toLinks := u.toLinks ++ ((List.range 144).filter (fun n => live u n && decide (some n ≠ but))).map (fun n => (n, word)) }
  let own (dead : Bool) : Host.Outcome State Fault Refusal := .next (floods { s with
    ports := Tbl.set Port.reset s.ports port { p with dead := dead, seq := seq, replays := [], unlocked := none },
    links2 := Tbl.set (0, false) s.links2 (s.pkgId * 256 + port) (seq, dead), recompute := true }
    (seq * 2 ^ 32 + s.pkgId * 2 ^ 22 + port * 2 ^ 14 + (if dead then 0 else 1) * 2 ^ 12) none)
  let fails := p.lretry < (p.replays.filter (fun x => decide (s.clock < x + 65536))).length ∨ ∃ x, p.unlocked = some x ∧ x + 2000 < s.clock
  let update := exec (.linkStateUpdate port word) s
  let key := word / 2 ^ 22 % 2 ^ 10 * 256 + word / 2 ^ 14 % 2 ^ 8
  let new := word / 2 ^ 32 % 2 ^ 32
  let newer := (new + 2 ^ 32 - (Tbl.get (0, false) s.links2 key).1) % 2 ^ 32
  let accepted := s.booted = true ∧ port < 144 ∧ p.dead = false ∧ word / 2 ^ 12 % 4 < 2 ∧ 1 ≤ newer ∧ newer < 2 ^ 31
  let round := exec (.drainRoundEnd dest) s
  -- R373, R374
  (144 ≤ port ∨ s.booted = false ∨ p.dead = true ∨ ¬ fails → exec (.linkDead port) s = .next s) ∧
  (port < 144 → s.booted = true → p.dead = false → fails → exec (.linkDead port) s = own true) ∧
  (s.booted = true → p.dead = true → exec (.linkRetrained port) s = own false) ∧
  (s.booted = false ∨ p.dead = false → exec (.linkRetrained port) s = .next s) ∧
  -- R375
  (¬ accepted → update = .next s) ∧
  (accepted → update = .next (floods { s with
    links2 := Tbl.set (0, false) s.links2 key (new, decide (word / 2 ^ 12 % 4 = 0)), recompute := true } word (some port))) ∧
  -- R377, R378
  (s.drains.find? (fun d => d.dest == dest) = none → round = .next s) ∧
  (∀ d, s.drains.find? (fun d => d.dest == dest) = some d →
    let left := d.left.filter (fun id => decide ((lookupId id s.flights).bind s.destOf = some dest))
    let others := s.drains.filter (fun x => x.dest != dest)
    let over_ : State := { s with drains := others }
    (left = [] → round = .next over_) ∧ (left ≠ [] → d.round = 0 ∨ s.clock < d.ends → round = .next s) ∧
    (left ≠ [] → d.ends ≤ s.clock → 1 ≤ d.round → d.round < 4 → round = .next { s with
      drains := others ++ [{ dest := d.dest, round := d.round + 1, ends := d.ends + 40000 * 2 ^ d.round, left := left }] }) ∧
    (∀ id f, left = [id] → d.ends ≤ s.clock → 4 ≤ d.round → lookupId id s.flights = some f → s.aliases = [] →
      let gone : State := { over_ with flights := dropId id s.flights }
      (∀ r, f = .mem r → r.back.heard = true →
        (r.op.indivisible = true → r.seq ≠ none → r.again = false → s.routeClass dest = 1 →
          round = .next { over_ with flights := putId id (.mem { r with stage := .travelling, refused := none, again := true }) s.flights }) ∧
        (r.op.indivisible = false ∨ r.seq = none ∨ r.again = true ∨ s.routeClass dest ≠ 1 → round = .next (over_.inPlace id r.back r.va (.fault 0x1C5 r.va 0)))) ∧
      (∀ q, f = .fut q → q.back.heard = true → round = .next (over_.inPlace id q.back q.handle (.fault 0x1C5 q.handle 0))) ∧
      (∀ m, f = .msg m → m.back.heard = true → ∃ va, round = .next (over_.inPlace id m.back va (.fault 0x1C5 va 0))) ∧
      (∀ tok h st v, f = .wake tok h st v → ∃ w : Post, round = .next (gone.launchFlight (.post w)) ∧ w.w0 / 2 ^ 60 = 14 ∧ w.w0 / 2 ^ 47 % 2 ^ 9 = 0x1C6 ∧
        w.pkg = h / 2 ^ 52 % 2 ^ 10 ∧ w.part = h / 2 ^ 10 % 16 ∧ w.aux = h)))

/-- R347, R376: a recomputation gives every other package the path of fewest hops over live links, among those one whose first port has the lowest
number, with CLASS FULL when every link of it is FULL; a package that no path reaches gets CLASS 0. The requests to a package whose route changed
are drained from round 1 on when a link of the old route is dead (R377), and only waited for when it is not (R350). Which of several paths from one
first port gives the class is the model's choice (log entry 53). -/
def Obligations.RouteRecomputation : Prop := ∀ (s : State),
  let go := exec .routeRecomputation s
  (s.recompute = false ∨ s.refire ≠ none → go = .next s) ∧
  (s.recompute = true → s.refire = none → s.pkgId < 1024 → ∃ t, go = .next t ∧ t.recompute = false ∧ ∀ p, p < 1024 → p ≠ s.pkgId →
    let e := Tbl.get 0 t.routes p
    let ports := Tbl.get [] t.routePorts p
    ((e = 0 ∧ ports = [] ∧ ∀ hops first full, hops < 255 → ¬ s.path first hops p full) ∨
      (∃ hops first full, hops < 255 ∧ s.path first hops p full ∧ e = (hops + 1) * 2 ^ 16 + (if full then 1 else 2) ∧ ports = [first] ∧
        (∀ n port f, n < hops → ¬ s.path port n p f) ∧ ∀ port f, s.path port hops p f → first ≤ port)) ∧
    let same := e = Tbl.get 0 s.routes p ∧ ports = Tbl.get [] s.routePorts p ∧ Tbl.get [] t.routeLinks p = Tbl.get [] s.routeLinks p
    let broken := s.routeDead p = true ∨ ∃ d ∈ s.drains, d.dest = p ∧ d.round ≠ 0
    (same → ∀ d : Drain, d.dest = p → (d ∈ t.drains ↔ d ∈ s.drains)) ∧
    (¬ same → ∀ d ∈ t.drains, d.dest = p → (broken → d.round = 1 ∧ d.ends = s.clock + 40000) ∧ (¬ broken → d.round = 0)))

/-- R380, R381: a fenced cluster takes no more traffic; what its slice had cached of page tables goes; every line that it alone held reads as poison;
and every partition that holds the cluster is reset, one that is swapped out as log entry 124 says. -/
def Claims.ClusterFence : Prop := ∀ (s : State) (cl : Nat),
  let go := exec (.clusterFence cl) s
  let holders := s.parts.filter (fun p => p.2.clusters.contains cl && decide (p.2.status ≠ .unused))
  (512 ≤ cl ∨ s.booted = false ∨ (s.cluster cl).fenced = true → go = .next s) ∧
  (cl < 512 → s.booted = true → (s.cluster cl).fenced = false → ∃ t, go = .next t ∧ (t.cluster cl).fenced = true ∧ (∀ e ∈ t.tlb, e.slice ≠ cl) ∧
    (∀ x, x ≠ cl → (t.cluster x).fenced = (s.cluster x).fenced) ∧
    (holders = [] →
      (∀ h ∈ s.holders, h.2.1 = cl + 1 → 2 ^ 58 ≤ h.1 →
        let pa := (h.1 - 2 ^ 58) % 2 ^ 34 * 64
        (∀ w, w < 8 → pa + 8 * w ∈ t.poisoned) ∧ ∀ a, 64 * h.1 ≤ a → a < 64 * h.1 + 64 → t.l2.get a = 0) ∧
      t.mem = s.mem ∧ t.cores = s.cores ∧ t.parts = s.parts) ∧
    (∀ p, holders.map (·.1) = [p] → s.parts = [(p, s.part p)] →
      (t.part p).baseline = 0 ∧ (t.part p).status = .stopped ∧
        ∀ c ∈ (t.part p).clusters, ∀ core ctx, core / 8 = c → c < 512 → ctx < 12 → t.stateAt core ctx = 0))


/-- R46, R310, R323, R135, R307: what reset leaves, as far as the specification states it: the values of the control fields, every barrier object,
every context EMPTY, every bank in SCRATCH mode, and no partition. That memory lists no byte is the model's choice (log entry 1); the empty memory
has the form that every step keeps. -/
def Obligations.ResetState : Prop :=
  let s := State.reset
  let fields : List (Nat × Nat) :=
    [(0x0100, 1024), (0x0101, 0), (0x0102, 0), (0x0108, 0), (0x0109, 0), (0x010A, 0), (0x0110, 0), (0x0111, 0), (0x0200, 0), (0x0201, 0),
     (0x0202, 0), (0x0203, 0), (0x0204, 0), (0x0205, 0), (0x0206, 0), (0x0210, 0x11111111), (0x0211, 256), (0x0212, 0x4000200010), (0x0218, 0),
     (0x0219, 0), (0x0220, 2000), (0x0221, 0), (0x0228, 8), (0x0229, 256), (0x0300, 0), (0x0301, 0), (0x0302, 0), (0x0310, 0), (0x0311, 0),
     (0x0312, 64), (0x0313, 0), (0x0314, 0), (0x0315, 16), (0x0316, 0), (0x0317, 0), (0x0400, 0), (0x0401, 0), (0x0402, 0), (0x0403, 0),
     (0x0404, 4500), (0x0405, 0)]
  s.Ok ∧ s.mem = [] ∧
  (∀ core, core < 4096 → (∀ f ∈ fields, s.fieldValue core 0 f.1 = f.2) ∧
    (∀ port, port < 144 → s.fieldValue core 0 (0x0800 + port) = 16 ∧ s.fieldValue core 0 (0x0900 + port) = 1) ∧
    (∀ pkg, pkg < 1024 → s.fieldValue core 0 (0x1000 + pkg) = 0) ∧ ∀ ctx, ctx < 12 → s.stateAt core ctx = 0) ∧
  (∀ key, (s.barrier key).word = 0 * 2 ^ 48 + 0 * 2 ^ 32 + 1 * 2 ^ 16 + 1) ∧
  (∀ p, (s.part p).status = .unused) ∧ s.booted = false

/-- R33, R35, R36, R39, R43, R53, R140: words of the specification's tables of worked encodings decode to the instructions that they stand for, and
a word of zeros to none. -/
def Obligations.WorkedEncodings : Prop :=
  (decodeWords [0x00144241]).toOption = some (.add 9 4 5, 1) ∧ (decodeWords [0xFFC02105]).toOption = some (.addi 4 2 { pfx := 0, val := -16 }, 1) ∧
  (decodeWords [0x800C71C9]).toOption = some (.srai 7 7 3, 1) ∧ (decodeWords [0xFFEC0199]).toOption = some (.bne 6 0 { pfx := 0, val := -5 }, 1) ∧
  (decodeWords [0x04248290]).toOption = some (.fmadd 10 8 9, 1) ∧ (decodeWords [0x06004152]).toOption = some (.ftoe4 5 4 (.named .rne), 1) ∧
  (decodeWords [0x3050021F]).toOption = some (.repi 8 1 4, 1) ∧ (decodeWords [0x0443AD30]).toOption = some (.vfma 20 21 3 2, 1) ∧
  (decodeWords [0x23084275]).toOption = some (.vgath 9 4 2 1, 1) ∧
  (decodeWords [0x00D03223]).toOption = some (.ldd 8 3 { pfx := 0, val := 3 } .order { sn := false, sg := false }, 1) ∧
  (decodeWords [0x01248029]).toOption = some (.aaddPost 8 9 false { sn := false, sg := false }, 1) ∧ (decodeWords [0x03FF07EC]).toOption = some (.wait 0 31 31 0 31, 1) ∧
  (decodeWords [0x0148052E]).toOption = some (.barrive .cluster 2 20, 1) ∧ (decodeWords [0x5010C278]).toOption = some (.spawn 9 12 4 .die 2 false false, 1) ∧
  (decodeWords [0x02185279]).toOption = some (.resolve 9 5 6, 1) ∧ (decodeWords [0x0010807D]).toOption = some (.acc 8 4 1, 1) ∧
  (decodeWords [0x002CA27B]).toOption = some (.launch 9 10 11, 1) ∧ (decodeWords [0x0628903C]).toOption = some (.ctrlw 9 10, 1) ∧
  (decodeWords [0x0709D13E, 0x002CA248, 0x00000000, 0x0000004C]).toOption = some (.mma 5 3 4 7 8 9 10 11 (.obj 12), 4) ∧
  (decodeWords [0x0000043E, 0x00000004, 0x00000000, 0x00000045]).toOption = some (.tcopy 4 (.obj 5), 4) ∧ (decodeWords [0]).toOption = none

/-- R33, R35 to R40, R43, R44, R140: decoding what the encoder writes for a well-formed instruction gives the instruction back, whatever words follow
it: no bit of an encoding is dropped. -/
def Obligations.DecodeOfEncode : Prop := ∀ (i : Instr) (rest : List Nat), i.wf = true → i.isEvent = false →
  decodeWords (encode i ++ rest) = .ok (i, (encode i).length)

/-- R33, R37, R43, R46, R53: what words decode to is well formed and no step of another agent, and the words that it was read from are those that the
encoder writes: every instruction has one encoding, and a reserved bit is never ignored. -/
def Obligations.EncodeOfDecode : Prop := ∀ (ws : List Nat) (i : Instr) (n : Nat), (∀ w ∈ ws, w < 2 ^ 32) → decodeWords ws = .ok (i, n) →
  i.wf = true ∧ i.isEvent = false ∧ 1 ≤ n ∧ n ≤ 4 ∧ encode i = ws.take n

/-- R9, R217, R224: a step keeps memory and the dirty lines of L2 in the form in which equal contents are equal data. -/
def Obligations.StepKeepsForm : Prop := ∀ s t : State, s.Ok → step s = .next t → t.Ok

/-- R252, R253: HSIFT and HMERGE complete on every heap that their checks let through and that nothing holds: outside the handler context, with gA at a
sound heap, and gB at one too, the same or apart from it, for HMERGE; with no posted atomic or engine on its words and no poison in what is read. -/
def Obligations.HeapsComplete : Prop := ∀ (s : State) (d a b : GReg) (off off' : Nat) (h g : Heap), s.cur.ctx ≠ 1 →
  s.heapAt (s.gN a) = .ok (off, h) → s.heapWaits off h.cap = false → s.tainted (pmLoc s.cur.core off) (8 + 8 * h.ents.length) = false →
  let r := h.sift (s.gN b % 2 ^ 32, s.gN b / 2 ^ 32)
  exec (.hsift d a b) s = .next ((s.wr (pmLoc s.cur.core off) r.1.bytes).done d (BitVec.ofNat 64 r.2)) ∧
  (s.heapAt (s.gN b) = .ok (off', g) → s.heapWaits off' g.cap = false → s.tainted (pmLoc s.cur.core off') (8 + 8 * g.ents.length) = false →
    off = off' ∨ off + 8 + 8 * h.cap ≤ off' ∨ off' + 8 + 8 * g.cap ≤ off →
    let m := if off = off' then h else h.merge g
    exec (.hmerge d a b) s = .next ((s.wr (pmLoc s.cur.core off) m.bytes).done d (BitVec.ofNat 64 m.ents.length)))

/-- R341: an invalidation waits for the accesses that translated through an entry that it drops, and with WB for lines that an engine holds; then it
completes. No TLB and no walker cache of the package holds a matching entry, and with WB every line of the range that L2 holds is in its frame and
gone from L2. -/
def Obligations.InvalidationCompletes : Prop := ∀ (s : State) (id v : Nat) (back : Back),
  lookupId id s.flights = some (.xlInv v back) → s.aliases = [] → (back.heard = true ∨ back = .device) →
  let go := exec (.xlInv id) s
  let part := v / 2 ^ 12 % 2 ^ 4
  let wb := v / 2 ^ 11 % 2 = 1
  let late := ∃ f ∈ s.flights, ∃ r pa uc slice, f.2 = .mem r ∧ r.stage = .ready pa uc slice ∧ r.near = none ∧
    (invCovers v r.part r.va = true ∨ ∃ e ∈ s.tlb, invTlb v e = true ∧ r.part = e.part ∧ e.vbase ≤ r.va ∧ r.va < e.vbase + pageBytes e.size)
  (late ∨ (wb ∧ s.invHeld v = true) → go = .next s) ∧
  (¬ late → (wb → s.invHeld v = false) → ∃ t, go = .next t ∧ t.tlb = s.tlb.filter (fun e => !invTlb v e) ∧
    (∀ die e, e ∈ (t.die die).walkCache ↔ e ∈ (s.die die).walkCache ∧ invWalk v e = false) ∧
    t.flights = (if back = .device then dropId id s.flights else (s.inPlace id back 0 (.data 0)).flights) ∧
    t.cores = s.cores ∧ t.clusters = s.clusters ∧ t.parts = s.parts ∧ t.poisoned = s.poisoned ∧
    (¬ wb → t.mem = s.mem ∧ t.l2 = s.l2 ∧ t.holders = s.holders) ∧
    (wb → s.Ok → ∀ h ∈ s.holders, l2Key part 0 ≤ 64 * h.1 → 64 * h.1 < l2Key (part + 1) 0 → invCovers v part h.2.2 = true →
      ∀ i, i < 64 → t.l2.find (64 * h.1 + i) = none ∧ [t.mem.get (64 * h.1 - l2Key part 0 + i)] = s.gRd part (64 * h.1 - l2Key part 0 + i) false 1))

/-! ### Statements over several claims -/

/-- Integer arithmetic, products and quotients, compares and conditional moves complete with their results. -/
def Obligations.IntegerArithmetic : Prop := Claims.IntegerResults ∧ Claims.MultiplyDivideResults ∧ Claims.CompareMoveResults

/-- Bit counts, reversals, extensions and bit fields complete with their results. -/
def Obligations.BitInstructions : Prop := Claims.BitCountResults ∧ Claims.BitFieldResults

/-- Scalar floating point and conversions are rounded once and accrue their flags. -/
def Obligations.ScalarFloating : Prop := Claims.ScalarFloatResults ∧ Claims.ConversionResults

/-- Rounding is correct, overflow goes by mode and destination, widening is exact. -/
def Obligations.FloatRounding : Prop := Claims.FloatOrderRules ∧ Claims.RoundingIsCorrect ∧ Claims.OverflowRule ∧ Claims.WideningIsExact

/-- REP and REPI: how a repetition begins, passes and ends, and how registers are renumbered. -/
def Obligations.RepeatRules : Prop := Claims.RepeatBegins ∧ Claims.RepeatPasses ∧ Claims.RenumberingRule

/-- Which context issues, and the checks of privilege and of a REP body before an instruction runs. -/
def Obligations.IssueRules : Prop := Claims.IssueChoice ∧ Claims.PrivilegeAndBodyTraps

/-- Taking a trap: HELD with a post, a routine entered, a task ended, an activation rolled back. -/
def Obligations.TrapEntry : Prop := Claims.TrapHolds ∧ Claims.TrapEntersRoutine ∧ Claims.TrapEndsTask ∧ Claims.HandlerRollsBack

/-- TRAP takes a software trap, and ERET returns from the frame at g2. -/
def Obligations.TrapAndReturn : Prop := Claims.TrapInstruction ∧ Claims.ReturnFromTrap

/-- Vector arithmetic, lane by lane under the mask. -/
def Obligations.VectorArithmetic : Prop := Claims.VectorFloatResults ∧ Claims.VectorIntegerResults

/-- Vector compares, masks, permutes, conversions and moves. -/
def Obligations.VectorComparesAndMoves : Prop := Claims.VectorCompareResults ∧ Claims.VectorMoveResults

/-- Block-scaled conversion, reductions and scans. -/
def Obligations.VectorConversions : Prop := Claims.BlockScaleConversion ∧ Claims.VectorReductionResults

/-- The checks on an address in their order, and the traps of an access that fails them. -/
def Obligations.AccessChecking : Prop := Claims.AddressChecks ∧ Claims.AccessFaults

/-- What an access waits for, and the deferred faults that the wait raises. -/
def Obligations.AccessOrdering : Prop := Claims.WaitsBeforeAccess ∧ Claims.LoggedFaults

/-- Loads and stores of local targets complete at once, with their frame. -/
def Obligations.LocalAccesses : Prop := Claims.LocalLoads ∧ Claims.LocalStores

/-- Remote accesses are counted or block, and a reply completes what blocks. -/
def Obligations.RequestsAndReplies : Prop := Claims.PostedOperations ∧ Claims.BlockingRequests ∧ Claims.RepliesComplete

/-- Prefetches, gathers and scatters. -/
def Obligations.PrefetchGatherScatter : Prop := Claims.PrefetchRule ∧ Claims.GatherScatter

/-- Copy and shelf commands at issue, and where the units' instructions trap. -/
def Obligations.CopyCommandsAndGates : Prop := Claims.CopyCommands ∧ Claims.UnitGates

/-- SPAWN, SPAWNT, CALLAT, CHKC, YIELD and TERM. -/
def Obligations.TaskCreation : Prop := Claims.SpawnRules ∧ Claims.TaskInstructions

/-- The future instructions at their own core, and their requests to another. -/
def Obligations.FutureRules : Prop := Claims.FutureInstructions ∧ Claims.FutureRequests

/-- SEND, and the activation that HRET commits. -/
def Obligations.MessagesAndHandlers : Prop := Claims.SendMessages ∧ Claims.HandlerCommit

/-- ACC, ACC.BF16, RMERGE and FLUSHRES. -/
def Obligations.AccumulateAndFlush : Prop := Claims.AccumulateInstructions ∧ Claims.FlushInstructions

/-- HSIFT and HMERGE, and what an offer does to a heap. -/
def Obligations.Heaps : Prop := Claims.HeapInstructions ∧ Claims.HeapRules

/-- Near accesses at their unit, and acknowledgements at the context that counts them. -/
def Obligations.NearTraffic : Prop := Claims.NearAccesses ∧ Claims.Acknowledgements

/-- Posts at a mailbox, and what ends the waits of BARWAIT, of drains and of a HELD task. -/
def Obligations.PostsAndWaiters : Prop := Claims.MailboxPosts ∧ Claims.WaiterEvents

/-- A task record's way through its scheduler: arrival, prefetch, dispatch, copies, aging and hints. -/
def Obligations.SchedulerRules : Prop := Claims.RecordArrival ∧ Claims.SchedulerEvents

/-- What the commands of the engines do, and how they end. -/
def Obligations.EngineEvents : Prop := Claims.MatrixUnitEvents ∧ Claims.CommandEvents

/-- The packets of a queue, doorbells and polls, and how a queue stops and resumes. -/
def Obligations.QueueRules : Prop := Claims.QueuePackets ∧ Claims.QueueAttention

/-- How a partition stops, is saved, starts, is reset and is swapped. -/
def Obligations.PartitionRules : Prop := Claims.PartitionPackets ∧ Claims.TimeSlices

/-- Dead links, link-state updates, the rounds of a drain, and a fenced cluster. -/
def Obligations.LinkRules : Prop := Claims.LinkEvents ∧ Claims.ClusterFence
end

