-- ==== Sys2Proof/Laws/Memory.lean ====
section
/-! SUPPORT. Laws/Memory.lean: reading after writing, the canonical form of memories and tables, and bytes against
numbers. -/
namespace Sys2Proof.Machine

/-! ### Bytes and numbers -/

@[simp] theorem bytesOf_length (n v : Nat) : (bytesOf n v).length = n := by
  induction n generalizing v with
  | zero => rfl
  | succ n ih => simp [bytesOf, ih]

theorem natOf_bytesOf (n v : Nat) : natOf (bytesOf n v) = v % 2 ^ (8 * n) := by
  induction n generalizing v with
  | zero => simp [bytesOf, natOf, Nat.mod_one]
  | succ n ih =>
    simp only [bytesOf, natOf, ih, BitVec.toNat_ofNat]
    have h : 2 ^ (8 * (n + 1)) = 256 * 2 ^ (8 * n) := by rw [Nat.mul_add, Nat.pow_add]; norm_num; ring
    rw [h, Nat.mod_mul]

theorem natOf_lt (bs : List Byte) : natOf bs < 2 ^ (8 * bs.length) := by
  induction bs with
  | nil => simp [natOf]
  | cons b bs ih =>
    have hb := b.isLt
    have h : 2 ^ (8 * (b :: bs).length) = 256 * 2 ^ (8 * bs.length) := by
      rw [List.length_cons, Nat.mul_add, Nat.pow_add]; norm_num; ring
    rw [h]; simp only [natOf]; omega

/-! ### Lists with rising keys -/

theorem risingKeys_cons {α : Type} (c : Nat × α) (l : List (Nat × α)) :
    risingKeys (c :: l) = true ↔ (∀ d ∈ l, c.1 < d.1) ∧ risingKeys l = true := by
  induction l generalizing c with
  | nil => simp [risingKeys]
  | cons d l ih =>
    have h := ih d
    obtain ⟨a, x⟩ := c
    obtain ⟨b, y⟩ := d
    simp only [risingKeys, Bool.and_eq_true, decide_eq_true_eq, List.forall_mem_cons] at *
    constructor
    · rintro ⟨hab, hr⟩
      exact ⟨⟨hab, fun e he => Nat.lt_trans hab ((h.1 hr).1 e he)⟩, hr⟩
    · rintro ⟨⟨hab, _⟩, hr⟩
      exact ⟨hab, hr⟩

theorem risingKeys_iff_pairwise {α : Type} (l : List (Nat × α)) :
    risingKeys l = true ↔ l.Pairwise (fun c d => c.1 < d.1) := by
  induction l with
  | nil => simp [risingKeys]
  | cons c l ih => rw [risingKeys_cons, List.pairwise_cons, ih]

theorem risingKeys_filter {α : Type} (p : Nat × α → Bool) (l : List (Nat × α)) (h : risingKeys l = true) :
    risingKeys (l.filter p) = true := by
  rw [risingKeys_iff_pairwise] at *
  exact h.filter p

/-- What a cut leaves rises when the cells put in the middle do and lie in the range that is cut. -/
theorem risingKeys_cut {m : Memory} {a n : Nat} {mid : Memory} (h : risingKeys m = true) (hm : risingKeys mid = true)
    (hr : ∀ c ∈ mid, a ≤ c.1 ∧ c.1 < a + n) : risingKeys (m.cut a n mid) = true := by
  rw [risingKeys_iff_pairwise] at *
  simp only [Memory.cut, List.pairwise_append, List.mem_append, List.mem_filter, decide_eq_true_eq]
  refine ⟨⟨h.filter _, hm, fun x hx y hy => ?_⟩, h.filter _, ?_⟩
  · exact Nat.lt_of_lt_of_le hx.2 (hr y hy).1
  · rintro x (hx | hx) y hy
    · omega
    · exact Nat.lt_of_lt_of_le (hr x hx).2 hy.2

theorem cellsFrom_range (a : Nat) (bs : List Byte) : ∀ c ∈ cellsFrom a bs, a ≤ c.1 ∧ c.1 < a + bs.length := by
  induction bs generalizing a with
  | nil => simp [cellsFrom]
  | cons b bs ih =>
    intro c hc
    simp only [List.length_cons]
    by_cases hb : b = resetByte a
    · simp only [cellsFrom, hb, if_true] at hc
      have := ih (a + 1) c hc; omega
    · simp only [cellsFrom, hb, if_false, List.mem_cons] at hc
      rcases hc with rfl | hc
      · simp
      · have := ih (a + 1) c hc; omega

theorem allCells_range (a : Nat) (bs : List Byte) : ∀ c ∈ allCells a bs, a ≤ c.1 ∧ c.1 < a + bs.length := by
  induction bs generalizing a with
  | nil => simp [allCells]
  | cons b bs ih =>
    intro c hc
    simp only [List.length_cons]
    simp only [allCells, List.mem_cons] at hc
    rcases hc with rfl | hc
    · simp
    · have := ih (a + 1) c hc; omega

theorem cellsFrom_rising (a : Nat) (bs : List Byte) : risingKeys (cellsFrom a bs) = true := by
  induction bs generalizing a with
  | nil => rfl
  | cons b bs ih =>
    by_cases hb : b = resetByte a
    · simpa [cellsFrom, hb] using ih (a + 1)
    · simp only [cellsFrom, hb, if_false, risingKeys_cons]
      refine ⟨fun d hd => ?_, ih (a + 1)⟩
      have := cellsFrom_range (a + 1) bs d hd; omega

theorem allCells_rising (a : Nat) (bs : List Byte) : risingKeys (allCells a bs) = true := by
  induction bs generalizing a with
  | nil => rfl
  | cons b bs ih =>
    simp only [allCells, risingKeys_cons]
    refine ⟨fun d hd => ?_, ih (a + 1)⟩
    have := allCells_range (a + 1) bs d hd; omega

theorem cellsFrom_ne_reset (a : Nat) (bs : List Byte) : ∀ c ∈ cellsFrom a bs, c.2 ≠ resetByte c.1 := by
  induction bs generalizing a with
  | nil => simp [cellsFrom]
  | cons b bs ih =>
    intro c hc
    by_cases hb : b = resetByte a
    · simp only [cellsFrom, hb, if_true] at hc; exact ih _ c hc
    · simp only [cellsFrom, hb, if_false, List.mem_cons] at hc
      rcases hc with rfl | hc
      · exact hb
      · exact ih _ c hc

/-! ### The canonical form (R224; log entry 1) -/

theorem Memory.wf_iff (m : Memory) : m.wf = true ↔ risingKeys m = true ∧ ∀ c ∈ m, c.2 ≠ resetByte c.1 := by
  simp [Memory.wf]

@[simp] theorem Memory.wf_nil : Memory.wf [] = true := rfl

/-- Dropping cells keeps the canonical form. -/
theorem Memory.wf_filter {m : Memory} (p : Host.Cell → Bool) (h : m.wf = true) : Memory.wf (m.filter p) = true := by
  rw [Memory.wf_iff] at *
  exact ⟨risingKeys_filter p m h.1, fun c hc => h.2 c (List.mem_of_mem_filter hc)⟩

/-- A write keeps the canonical form. -/
theorem Memory.wf_write {m : Memory} (a : Nat) (bs : List Byte) (h : m.wf = true) : (m.write a bs).wf = true := by
  rw [Memory.wf_iff] at *
  refine ⟨risingKeys_cut h.1 (cellsFrom_rising a bs) (cellsFrom_range a bs), fun c hc => ?_⟩
  simp only [Memory.write, Memory.cut, List.mem_append, List.mem_filter] at hc
  rcases hc with (⟨hc, _⟩ | hc) | ⟨hc, _⟩
  · exact h.2 c hc
  · exact cellsFrom_ne_reset a bs c hc
  · exact h.2 c hc

/-- Writes one after another keep the canonical form. -/
theorem Memory.wf_foldl_write {α : Type} (f : α → Nat) (g : α → List Byte) (l : List α) {m : Memory} (h : m.wf = true) :
    Memory.wf (l.foldl (fun m c => m.write (f c) (g c)) m) = true := by
  induction l generalizing m with
  | nil => exact h
  | cons c l ih => exact ih (Memory.wf_write _ _ h)

/-- The L2 overlay stays a list of rising locations. -/
theorem Memory.rising_overlay {m : Memory} (a : Nat) (bs : List Byte) (h : risingKeys m = true) :
    risingKeys (m.overlay a bs) = true := risingKeys_cut h (allCells_rising a bs) (allCells_range a bs)

/-! ### Reading after writing -/

theorem Memory.get_append (m n : Memory) (a : Nat) :
    Memory.get (m ++ n) a = if m.any (fun c => c.1 == a) then m.get a else n.get a := by
  induction m with
  | nil => simp
  | cons c m ih =>
    obtain ⟨k, b⟩ := c
    by_cases h : k = a
    · simp [Memory.get, h]
    · have h' : (k == a) = false := by simp [h]
      simp only [List.cons_append, Memory.get, h, if_false, List.any_cons, h', Bool.false_or, ih]

theorem Memory.get_of_not_mem (m : Memory) (a : Nat) (h : m.any (fun c => c.1 == a) = false) : m.get a = resetByte a := by
  induction m with
  | nil => rfl
  | cons c m ih =>
    obtain ⟨k, b⟩ := c
    simp only [List.any_cons, Bool.or_eq_false_iff] at h
    have hk : k ≠ a := by simpa using h.1
    simp [Memory.get, hk, ih h.2]

theorem Memory.get_filter (m : Memory) (p : Host.Cell → Bool) (a : Nat) (q : Bool) (h : ∀ b, p (a, b) = q) :
    Memory.get (m.filter p) a = if q then m.get a else resetByte a := by
  induction m with
  | nil => cases q <;> rfl
  | cons c m ih =>
    obtain ⟨k, b⟩ := c
    by_cases hp : p (k, b) = true
    · simp only [List.filter_cons, hp, if_true, Memory.get]
      by_cases hk : k = a
      · subst hk
        have : q = true := by rw [← h b]; exact hp
        simp [this]
      · simp [hk, ih]
    · simp only [List.filter_cons, hp, Bool.false_eq_true, if_false, ih, Memory.get]
      by_cases hk : k = a
      · subst hk
        have : q = false := by rw [← h b]; simpa using hp
        simp [this]
      · simp [hk]

theorem Memory.any_filter (m : Memory) (p : Host.Cell → Bool) (a : Nat) (h : ∀ b, p (a, b) = false) :
    (m.filter p).any (fun c => c.1 == a) = false := by
  rw [List.any_eq_false]
  intro c hc
  have hp := (List.mem_filter.1 hc).2
  simp only [beq_iff_eq]
  rintro rfl
  simp [h c.2] at hp

theorem cellsFrom_get (a : Nat) (bs : List Byte) (x : Nat) :
    Memory.get (cellsFrom a bs) x = if a ≤ x ∧ x < a + bs.length then bs.getD (x - a) 0 else resetByte x := by
  induction bs generalizing a with
  | nil => simp [cellsFrom, Memory.get]
  | cons b bs ih =>
    have hx : ∀ h : a < x, (b :: bs).getD (x - a) 0 = bs.getD (x - (a + 1)) 0 := fun h => by
      rw [show x - a = (x - (a + 1)) + 1 by omega]; simp
    simp only [List.length_cons]
    by_cases hb : b = resetByte a
    · rw [cellsFrom, if_pos hb, ih]
      rcases Nat.lt_trichotomy a x with h | h | h
      · rw [hx h]; split_ifs <;> first | rfl | omega
      · subst h; rw [if_neg (by omega), if_pos (by omega)]; simp [hb]
      · rw [if_neg (by omega), if_neg (by omega)]
    · simp only [cellsFrom, hb, if_false, Memory.get, ih]
      rcases Nat.lt_trichotomy a x with h | h | h
      · rw [if_neg (by omega), hx h]; split_ifs <;> first | rfl | omega
      · subst h; simp
      · rw [if_neg (by omega), if_neg (by omega), if_neg (by omega)]

/-- A byte read after a write: the written byte inside the range, the old one outside (R224). -/
theorem Memory.get_write (m : Memory) (a : Nat) (bs : List Byte) (x : Nat) :
    (m.write a bs).get x = if a ≤ x ∧ x < a + bs.length then bs.getD (x - a) 0 else m.get x := by
  have h2 := Memory.get_filter m (fun c => decide (a + bs.length ≤ c.1)) x (decide (a + bs.length ≤ x)) (fun _ => rfl)
  have h1 := Memory.get_filter m (fun c => decide (c.1 < a)) x (decide (x < a)) (fun _ => rfl)
  have hc := cellsFrom_get a bs x
  have nlo (h : ¬ x < a) : (m.filter (fun c => decide (c.1 < a))).any (fun c => c.1 == x) = false :=
    Memory.any_filter m _ x (fun b => by simpa using Nat.le_of_not_lt h)
  have nhi (h : ¬ a + bs.length ≤ x) : (m.filter (fun c => decide (a + bs.length ≤ c.1))).any (fun c => c.1 == x) = false :=
    Memory.any_filter m _ x (fun b => by simpa using h)
  have nmid (h : ¬ (a ≤ x ∧ x < a + bs.length)) : (cellsFrom a bs).any (fun c => c.1 == x) = false := by
    rw [List.any_eq_false]; intro c hcm; have := cellsFrom_range a bs c hcm; simp only [beq_iff_eq]; omega
  simp only [Memory.write, Memory.cut, Memory.get_append, List.any_append]
  by_cases hb : x < a
  · have hn : ¬ (a ≤ x ∧ x < a + bs.length) := by omega
    have hh := Memory.get_of_not_mem _ _ (nhi (by omega))
    simp only [nmid hn, Bool.or_false, hn, if_false]
    split_ifs with h
    · rw [h1]; simp [hb]
    · have h4 := Memory.get_of_not_mem _ _ (Bool.eq_false_iff.2 h)
      rw [h1, if_pos (by simpa using hb)] at h4
      rw [hh, h4]
  · simp only [nlo hb, Bool.false_or, Bool.false_eq_true, if_false]
    by_cases hi : x < a + bs.length
    · have hp : a ≤ x ∧ x < a + bs.length := by omega
      have hh := Memory.get_of_not_mem _ _ (nhi (by omega))
      simp only [hp, and_self, if_true]
      split_ifs with h
      · rw [hc, if_pos hp]
      · have h4 := Memory.get_of_not_mem _ _ (Bool.eq_false_iff.2 h)
        rw [hc, if_pos hp] at h4
        rw [hh, h4]
    · have hn : ¬ (a ≤ x ∧ x < a + bs.length) := by omega
      simp only [nmid hn, hn, Bool.false_eq_true, if_false]
      rw [h2, if_pos (by simp; omega)]

@[simp] theorem Memory.read_length (m : Memory) (a n : Nat) : (m.read a n).length = n := by
  induction n generalizing a with
  | zero => rfl
  | succ n ih => simp [Memory.read, ih]

theorem Memory.read_eq_map (m : Memory) (a n : Nat) : m.read a n = (List.range n).map (fun i => m.get (a + i)) := by
  induction n generalizing a with
  | zero => rfl
  | succ n ih =>
    rw [List.range_succ_eq_map, List.map_cons, List.map_map, Memory.read, ih]
    simp [Function.comp_def, Nat.add_assoc, Nat.add_comm 1]

/-- Two memories that agree on a range read alike there. -/
theorem Memory.read_congr {m m' : Memory} {a n : Nat} (h : ∀ x, a ≤ x → x < a + n → m'.get x = m.get x) :
    m'.read a n = m.read a n := by
  rw [Memory.read_eq_map, Memory.read_eq_map]
  refine List.map_congr_left (fun i hi => h _ (by omega) ?_)
  have := List.mem_range.1 hi; omega

/-- What was written is read back. -/
theorem Memory.read_write_same (m : Memory) (a : Nat) (bs : List Byte) : (m.write a bs).read a bs.length = bs := by
  rw [Memory.read_eq_map]
  refine List.ext_getElem (by simp) (fun i h1 h2 => ?_)
  simp only [List.getElem_map, List.getElem_range, Memory.get_write]
  rw [if_pos (by omega), Nat.add_sub_cancel_left]
  simp [h2]

/-- A read that meets no byte of a write is not changed by it. -/
theorem Memory.read_write_disjoint (m : Memory) (a : Nat) (bs : List Byte) (x n : Nat)
    (h : x + n ≤ a ∨ a + bs.length ≤ x) : (m.write a bs).read x n = m.read x n := by
  refine Memory.read_congr (fun y hy hy' => ?_)
  rw [Memory.get_write, if_neg (by omega)]

/-! ### Tables -/

theorem Tbl.get_append {α : Type} (d : α) (m n : Tbl α) (a : Nat) :
    Tbl.get d (m ++ n) a = if m.any (fun c => c.1 == a) then Tbl.get d m a else Tbl.get d n a := by
  induction m with
  | nil => simp
  | cons c m ih =>
    obtain ⟨k, b⟩ := c
    by_cases h : k = a
    · simp [Tbl.get, h]
    · have h' : (k == a) = false := by simp [h]
      simp only [List.cons_append, Tbl.get, h, if_false, List.any_cons, h', Bool.false_or, ih]

theorem Tbl.get_of_not_mem {α : Type} (d : α) (m : Tbl α) (a : Nat) (h : m.any (fun c => c.1 == a) = false) :
    Tbl.get d m a = d := by
  induction m with
  | nil => rfl
  | cons c m ih =>
    obtain ⟨k, b⟩ := c
    simp only [List.any_cons, Bool.or_eq_false_iff] at h
    have hk : k ≠ a := by simpa using h.1
    simp [Tbl.get, hk, ih h.2]

theorem Tbl.get_filter {α : Type} (d : α) (m : Tbl α) (p : Nat × α → Bool) (a : Nat) (q : Bool) (h : ∀ b, p (a, b) = q) :
    Tbl.get d (m.filter p) a = if q then Tbl.get d m a else d := by
  induction m with
  | nil => cases q <;> rfl
  | cons c m ih =>
    obtain ⟨k, b⟩ := c
    by_cases hp : p (k, b) = true
    · simp only [List.filter_cons, hp, if_true, Tbl.get]
      by_cases hk : k = a
      · subst hk
        have : q = true := by rw [← h b]; exact hp
        simp [this]
      · simp [hk, ih]
    · simp only [List.filter_cons, hp, Bool.false_eq_true, if_false, ih, Tbl.get]
      by_cases hk : k = a
      · subst hk
        have : q = false := by rw [← h b]; simpa using hp
        simp [this]
      · simp [hk]

/-- Another entry is not changed when one entry is set, whatever the table's default is taken to be. -/
theorem Tbl.get_set_ne {α : Type} [DecidableEq α] (d d' : α) (m : Tbl α) (k : Nat) (v : α) (a : Nat) (hn : a ≠ k) :
    Tbl.get d' (Tbl.set d m k v) a = Tbl.get d' m a := by
  have hlo := Tbl.get_filter d' m (fun e => decide (e.1 < k)) a (decide (a < k)) (fun _ => rfl)
  have hhi := Tbl.get_filter d' m (fun e => decide (k < e.1)) a (decide (k < a)) (fun _ => rfl)
  have nlo (h : ¬ a < k) : (m.filter (fun e => decide (e.1 < k))).any (fun c => c.1 == a) = false := by
    rw [List.any_eq_false]; intro c hc; have := (List.mem_filter.1 hc).2; simp at this ⊢; omega
  have nhi (h : ¬ k < a) : (m.filter (fun e => decide (k < e.1))).any (fun c => c.1 == a) = false := by
    rw [List.any_eq_false]; intro c hc; have := (List.mem_filter.1 hc).2; simp at this ⊢; omega
  have hmid : (if v = d then ([] : Tbl α) else [(k, v)]).any (fun c => c.1 == a) = false := by
    split_ifs <;> simp; omega
  simp only [Tbl.set, Tbl.get_append, List.any_append, hmid, Bool.or_false]
  rcases Nat.lt_or_gt_of_ne hn with h | h
  · split_ifs with h1
    · rw [hlo]; simp [h]
    · have h4 := Tbl.get_of_not_mem d' _ _ (Bool.eq_false_iff.2 h1)
      rw [hlo] at h4; simp [h] at h4
      rw [Tbl.get_of_not_mem d' _ _ (nhi (by omega)), h4]
  · simp only [nlo (by omega), Bool.false_eq_true, if_false]
    rw [hhi]; simp [h]

/-- A table's entry after one entry is set. -/
@[simp] theorem Tbl.get_set {α : Type} [DecidableEq α] (d : α) (m : Tbl α) (k : Nat) (v : α) (a : Nat) :
    Tbl.get d (Tbl.set d m k v) a = if a = k then v else Tbl.get d m a := by
  by_cases h : a = k
  · subst h
    have nlo : (m.filter (fun e => decide (e.1 < a))).any (fun c => c.1 == a) = false := by
      rw [List.any_eq_false]; intro c hc; have := (List.mem_filter.1 hc).2; simp at this ⊢; omega
    have nhi : (m.filter (fun e => decide (a < e.1))).any (fun c => c.1 == a) = false := by
      rw [List.any_eq_false]; intro c hc; have := (List.mem_filter.1 hc).2; simp at this ⊢; omega
    simp only [Tbl.set, Tbl.get_append, List.any_append, nlo, Bool.false_or, if_true]
    by_cases hv : v = d
    · simp only [hv, if_true, List.any_nil, Bool.false_eq_true, if_false]
      exact Tbl.get_of_not_mem d _ _ nhi
    · simp [hv, Tbl.get]
  · rw [if_neg h]; exact Tbl.get_set_ne d d m k v a h

end Sys2Proof.Machine
end

