-- ==== Sys2Proof/Laws/PerInstr.lean ====
section
/-! SUPPORT. Laws/PerInstr.lean: the family Fields: whatever its operands, an instruction's encoding is one to four 32-bit words
(R33), and a step of another agent has none. One lemma a constructor. -/
namespace Sys2Proof.Laws

/-- The shape of an instruction's encoding (R33, R35, R140). -/
def Fields.Statement (i : Instr) : Prop :=
  (∀ w ∈ encode i, w < 2 ^ 32) ∧ (encode i).length ≤ 4 ∧ (encode i).isEmpty = i.isEvent

/-! ### Words put together; these are proved without reduction, so that no proof multiplies by a power of two in unary -/

theorem packWord_nil (w : Nat) : packWord w [] = w := by rw [packWord, List.foldl]
theorem packWord_cons (w v n : Nat) (fs : List (Nat × Nat)) : packWord w ((v, n) :: fs) = packWord (w + v * 2 ^ n) fs := by
  rw [packWord, List.foldl, packWord]

/-! ### Codes fit their fields -/

theorem bit_lt (b : Bool) : bit b < 2 := by cases b <;> decide
theorem roundMode_code_lt (m : RoundMode) : m.code < 4 := by cases m <;> decide
theorem roundSel_code_lt (r : RoundSel) : r.code < 8 := by
  cases r with
  | named m => exact Nat.lt_of_lt_of_le (roundMode_code_lt m) (by decide)
  | dynamic => decide
theorem hint_code_lt (h : Hint) : h.code < 4 := by cases h <;> decide
theorem waitSel_code_lt (w : WaitSel) : w.code < 4 := by obtain ⟨a, b⟩ := w; cases a <;> cases b <;> decide
theorem scope_code_lt (c : Scope) : c.code < 8 := by cases c <;> decide
theorem level_code_lt (l : Level) : l.code < 4 := by cases l <;> decide
theorem place_code_lt (p : Place) : p.code < 4 := by cases p <;> decide
theorem groupKind_code_lt (k : GroupKind) : k.code < 4 := by cases k <;> decide
theorem completion_word_lt (c : Completion) : c.word < 2 ^ 8 := by
  cases c with
  | none => decide
  | obj g => have := g.isLt; simp only [Completion.word]; omega
  | fut g => have := g.isLt; simp only [Completion.word]; omega
theorem drainDst_code_lt (d : DrainDst) : d.code < 4 := by cases d <;> simp [DrainDst.code]
theorem drainDst_reg_lt (d : DrainDst) : d.reg < 64 := by
  cases d with
  | mem => decide
  | fut x => exact x.isLt
  | hnd x => exact x.isLt
theorem quantFmt_word_lt (q : QuantFmt) : q.word < 2 ^ 24 := by
  cases q with
  | fb4 s b d => have := s.isLt; have := b.isLt; have := d.isLt; simp only [QuantFmt.word]; omega
  | _ => decide
theorem imm_field_lt (i : Imm) (n : Nat) : i.field n < 2 ^ n := Nat.mod_lt _ (Nat.two_pow_pos n)

/-- X words are 32-bit words, and at most two (R39). -/
theorem prefixWords_ok (base : Nat) (i : Imm) :
    (∀ w ∈ prefixWords base i, w < 2 ^ 32) ∧ (prefixWords base i).length ≤ 2 := by
  obtain ⟨p, v⟩ := i
  have hv := v.isLt
  match p with
  | 0 => simp [prefixWords, Imm.prefixes]
  | 1 =>
    refine ⟨?_, by simp [prefixWords, Imm.prefixes]⟩
    simp only [prefixWords, Imm.prefixes, List.map_cons, List.map_nil, List.mem_singleton, forall_eq]
    have := Nat.mod_lt (v.toNat / 2 ^ base) (show 0 < 2 ^ 26 by decide)
    omega
  | p + 2 =>
    refine ⟨?_, by simp [prefixWords, Imm.prefixes]⟩
    simp only [prefixWords, Imm.prefixes, List.map_cons, List.map_nil, List.forall_mem_cons]
    refine ⟨by omega, by omega, by simp⟩

/-! ### Encodings by their number of words -/

theorem Fields.of_none {i : Instr} (he : encode i = []) (hi : i.isEvent = true) : Fields.Statement i := by
  simp [Fields.Statement, he, hi]
theorem Fields.of_one {i : Instr} {w : Nat} (he : encode i = [w]) (hi : i.isEvent = false) (hw : w < 2 ^ 32) :
    Fields.Statement i := by
  simp only [Fields.Statement, he, hi, List.mem_singleton, forall_eq]
  exact ⟨hw, by simp, rfl⟩
theorem Fields.of_imm {i : Instr} {base w : Nat} {imm : Imm} (he : encode i = prefixWords base imm ++ [w])
    (hi : i.isEvent = false) (hw : w < 2 ^ 32) : Fields.Statement i := by
  obtain ⟨h1, h2⟩ := prefixWords_ok base imm
  simp only [Fields.Statement, he, hi, List.length_append, List.length_singleton]
  refine ⟨fun x hx => ?_, by omega, by simp⟩
  rcases List.mem_append.1 hx with h | h
  · exact h1 x h
  · rw [List.mem_singleton.1 h]; exact hw
theorem Fields.of_four {i : Instr} {w0 w1 w2 w3 : Nat} (he : encode i = [w0, w1, w2, w3]) (hi : i.isEvent = false)
    (h : w0 < 2 ^ 32 ∧ w1 < 2 ^ 32 ∧ w2 < 2 ^ 32 ∧ w3 < 2 ^ 32) : Fields.Statement i := by
  obtain ⟨h0, h1, h2, h3⟩ := h
  simp only [Fields.Statement, he, hi, List.forall_mem_cons]
  exact ⟨⟨h0, h1, h2, h3, by simp⟩, by simp, rfl⟩

/-! ### One lemma a constructor -/

theorem Fields.add (d : GReg) (a : GReg) (b : GReg) : Fields.Statement (.add d a b) :=
  Fields.of_one rfl rfl (by have := d.isLt; have := a.isLt; have := b.isLt; simp only [packWord_cons, packWord_nil]; omega)
theorem Fields.sub (d : GReg) (a : GReg) (b : GReg) : Fields.Statement (.sub d a b) :=
  Fields.of_one rfl rfl (by have := d.isLt; have := a.isLt; have := b.isLt; simp only [packWord_cons, packWord_nil]; omega)
theorem Fields.and (d : GReg) (a : GReg) (b : GReg) : Fields.Statement (.and d a b) :=
  Fields.of_one rfl rfl (by have := d.isLt; have := a.isLt; have := b.isLt; simp only [packWord_cons, packWord_nil]; omega)
theorem Fields.or (d : GReg) (a : GReg) (b : GReg) : Fields.Statement (.or d a b) :=
  Fields.of_one rfl rfl (by have := d.isLt; have := a.isLt; have := b.isLt; simp only [packWord_cons, packWord_nil]; omega)
theorem Fields.xor (d : GReg) (a : GReg) (b : GReg) : Fields.Statement (.xor d a b) :=
  Fields.of_one rfl rfl (by have := d.isLt; have := a.isLt; have := b.isLt; simp only [packWord_cons, packWord_nil]; omega)
theorem Fields.andn (d : GReg) (a : GReg) (b : GReg) : Fields.Statement (.andn d a b) :=
  Fields.of_one rfl rfl (by have := d.isLt; have := a.isLt; have := b.isLt; simp only [packWord_cons, packWord_nil]; omega)
theorem Fields.shl (d : GReg) (a : GReg) (b : GReg) : Fields.Statement (.shl d a b) :=
  Fields.of_one rfl rfl (by have := d.isLt; have := a.isLt; have := b.isLt; simp only [packWord_cons, packWord_nil]; omega)
theorem Fields.shr (d : GReg) (a : GReg) (b : GReg) : Fields.Statement (.shr d a b) :=
  Fields.of_one rfl rfl (by have := d.isLt; have := a.isLt; have := b.isLt; simp only [packWord_cons, packWord_nil]; omega)
theorem Fields.sra (d : GReg) (a : GReg) (b : GReg) : Fields.Statement (.sra d a b) :=
  Fields.of_one rfl rfl (by have := d.isLt; have := a.isLt; have := b.isLt; simp only [packWord_cons, packWord_nil]; omega)
theorem Fields.rol (d : GReg) (a : GReg) (b : GReg) : Fields.Statement (.rol d a b) :=
  Fields.of_one rfl rfl (by have := d.isLt; have := a.isLt; have := b.isLt; simp only [packWord_cons, packWord_nil]; omega)
theorem Fields.ror (d : GReg) (a : GReg) (b : GReg) : Fields.Statement (.ror d a b) :=
  Fields.of_one rfl rfl (by have := d.isLt; have := a.isLt; have := b.isLt; simp only [packWord_cons, packWord_nil]; omega)
theorem Fields.min (d : GReg) (a : GReg) (b : GReg) : Fields.Statement (.min d a b) :=
  Fields.of_one rfl rfl (by have := d.isLt; have := a.isLt; have := b.isLt; simp only [packWord_cons, packWord_nil]; omega)
theorem Fields.max (d : GReg) (a : GReg) (b : GReg) : Fields.Statement (.max d a b) :=
  Fields.of_one rfl rfl (by have := d.isLt; have := a.isLt; have := b.isLt; simp only [packWord_cons, packWord_nil]; omega)
theorem Fields.minu (d : GReg) (a : GReg) (b : GReg) : Fields.Statement (.minu d a b) :=
  Fields.of_one rfl rfl (by have := d.isLt; have := a.isLt; have := b.isLt; simp only [packWord_cons, packWord_nil]; omega)
theorem Fields.maxu (d : GReg) (a : GReg) (b : GReg) : Fields.Statement (.maxu d a b) :=
  Fields.of_one rfl rfl (by have := d.isLt; have := a.isLt; have := b.isLt; simp only [packWord_cons, packWord_nil]; omega)
theorem Fields.mul (d : GReg) (a : GReg) (b : GReg) : Fields.Statement (.mul d a b) :=
  Fields.of_one rfl rfl (by have := d.isLt; have := a.isLt; have := b.isLt; simp only [packWord_cons, packWord_nil]; omega)
theorem Fields.mulh (d : GReg) (a : GReg) (b : GReg) : Fields.Statement (.mulh d a b) :=
  Fields.of_one rfl rfl (by have := d.isLt; have := a.isLt; have := b.isLt; simp only [packWord_cons, packWord_nil]; omega)
theorem Fields.mulhu (d : GReg) (a : GReg) (b : GReg) : Fields.Statement (.mulhu d a b) :=
  Fields.of_one rfl rfl (by have := d.isLt; have := a.isLt; have := b.isLt; simp only [packWord_cons, packWord_nil]; omega)
theorem Fields.div (d : GReg) (a : GReg) (b : GReg) : Fields.Statement (.div d a b) :=
  Fields.of_one rfl rfl (by have := d.isLt; have := a.isLt; have := b.isLt; simp only [packWord_cons, packWord_nil]; omega)
theorem Fields.divu (d : GReg) (a : GReg) (b : GReg) : Fields.Statement (.divu d a b) :=
  Fields.of_one rfl rfl (by have := d.isLt; have := a.isLt; have := b.isLt; simp only [packWord_cons, packWord_nil]; omega)
theorem Fields.rem (d : GReg) (a : GReg) (b : GReg) : Fields.Statement (.rem d a b) :=
  Fields.of_one rfl rfl (by have := d.isLt; have := a.isLt; have := b.isLt; simp only [packWord_cons, packWord_nil]; omega)
theorem Fields.remu (d : GReg) (a : GReg) (b : GReg) : Fields.Statement (.remu d a b) :=
  Fields.of_one rfl rfl (by have := d.isLt; have := a.isLt; have := b.isLt; simp only [packWord_cons, packWord_nil]; omega)
theorem Fields.cmpeq (d : GReg) (a : GReg) (b : GReg) : Fields.Statement (.cmpeq d a b) :=
  Fields.of_one rfl rfl (by have := d.isLt; have := a.isLt; have := b.isLt; simp only [packWord_cons, packWord_nil]; omega)
theorem Fields.cmpne (d : GReg) (a : GReg) (b : GReg) : Fields.Statement (.cmpne d a b) :=
  Fields.of_one rfl rfl (by have := d.isLt; have := a.isLt; have := b.isLt; simp only [packWord_cons, packWord_nil]; omega)
theorem Fields.cmplt (d : GReg) (a : GReg) (b : GReg) : Fields.Statement (.cmplt d a b) :=
  Fields.of_one rfl rfl (by have := d.isLt; have := a.isLt; have := b.isLt; simp only [packWord_cons, packWord_nil]; omega)
theorem Fields.cmpltu (d : GReg) (a : GReg) (b : GReg) : Fields.Statement (.cmpltu d a b) :=
  Fields.of_one rfl rfl (by have := d.isLt; have := a.isLt; have := b.isLt; simp only [packWord_cons, packWord_nil]; omega)
theorem Fields.cmple (d : GReg) (a : GReg) (b : GReg) : Fields.Statement (.cmple d a b) :=
  Fields.of_one rfl rfl (by have := d.isLt; have := a.isLt; have := b.isLt; simp only [packWord_cons, packWord_nil]; omega)
theorem Fields.cmpleu (d : GReg) (a : GReg) (b : GReg) : Fields.Statement (.cmpleu d a b) :=
  Fields.of_one rfl rfl (by have := d.isLt; have := a.isLt; have := b.isLt; simp only [packWord_cons, packWord_nil]; omega)
theorem Fields.cmovz (d : GReg) (a : GReg) (b : GReg) : Fields.Statement (.cmovz d a b) :=
  Fields.of_one rfl rfl (by have := d.isLt; have := a.isLt; have := b.isLt; simp only [packWord_cons, packWord_nil]; omega)
theorem Fields.cmovnz (d : GReg) (a : GReg) (b : GReg) : Fields.Statement (.cmovnz d a b) :=
  Fields.of_one rfl rfl (by have := d.isLt; have := a.isLt; have := b.isLt; simp only [packWord_cons, packWord_nil]; omega)
theorem Fields.clz (d : GReg) (a : GReg) : Fields.Statement (.clz d a) :=
  Fields.of_one rfl rfl (by have := d.isLt; have := a.isLt; simp only [packWord_cons, packWord_nil]; omega)
theorem Fields.ctz (d : GReg) (a : GReg) : Fields.Statement (.ctz d a) :=
  Fields.of_one rfl rfl (by have := d.isLt; have := a.isLt; simp only [packWord_cons, packWord_nil]; omega)
theorem Fields.popc (d : GReg) (a : GReg) : Fields.Statement (.popc d a) :=
  Fields.of_one rfl rfl (by have := d.isLt; have := a.isLt; simp only [packWord_cons, packWord_nil]; omega)
theorem Fields.brev (d : GReg) (a : GReg) : Fields.Statement (.brev d a) :=
  Fields.of_one rfl rfl (by have := d.isLt; have := a.isLt; simp only [packWord_cons, packWord_nil]; omega)
theorem Fields.bswap (d : GReg) (a : GReg) : Fields.Statement (.bswap d a) :=
  Fields.of_one rfl rfl (by have := d.isLt; have := a.isLt; simp only [packWord_cons, packWord_nil]; omega)
theorem Fields.sextb (d : GReg) (a : GReg) : Fields.Statement (.sextb d a) :=
  Fields.of_one rfl rfl (by have := d.isLt; have := a.isLt; simp only [packWord_cons, packWord_nil]; omega)
theorem Fields.sexth (d : GReg) (a : GReg) : Fields.Statement (.sexth d a) :=
  Fields.of_one rfl rfl (by have := d.isLt; have := a.isLt; simp only [packWord_cons, packWord_nil]; omega)
theorem Fields.sextw (d : GReg) (a : GReg) : Fields.Statement (.sextw d a) :=
  Fields.of_one rfl rfl (by have := d.isLt; have := a.isLt; simp only [packWord_cons, packWord_nil]; omega)
theorem Fields.zextb (d : GReg) (a : GReg) : Fields.Statement (.zextb d a) :=
  Fields.of_one rfl rfl (by have := d.isLt; have := a.isLt; simp only [packWord_cons, packWord_nil]; omega)
theorem Fields.zexth (d : GReg) (a : GReg) : Fields.Statement (.zexth d a) :=
  Fields.of_one rfl rfl (by have := d.isLt; have := a.isLt; simp only [packWord_cons, packWord_nil]; omega)
theorem Fields.zextw (d : GReg) (a : GReg) : Fields.Statement (.zextw d a) :=
  Fields.of_one rfl rfl (by have := d.isLt; have := a.isLt; simp only [packWord_cons, packWord_nil]; omega)
theorem Fields.bext (d : GReg) (a : GReg) (b : GReg) : Fields.Statement (.bext d a b) :=
  Fields.of_one rfl rfl (by have := d.isLt; have := a.isLt; have := b.isLt; simp only [packWord_cons, packWord_nil]; omega)
theorem Fields.bins (d : GReg) (a : GReg) (b : GReg) : Fields.Statement (.bins d a b) :=
  Fields.of_one rfl rfl (by have := d.isLt; have := a.isLt; have := b.isLt; simp only [packWord_cons, packWord_nil]; omega)
theorem Fields.addi (d : GReg) (a : GReg) (imm : Imm) : Fields.Statement (.addi d a imm) :=
  Fields.of_imm rfl rfl (by have := d.isLt; have := a.isLt; have := imm_field_lt imm 14; simp only [packWord_cons, packWord_nil]; omega)
theorem Fields.andi (d : GReg) (a : GReg) (imm : Imm) : Fields.Statement (.andi d a imm) :=
  Fields.of_imm rfl rfl (by have := d.isLt; have := a.isLt; have := imm_field_lt imm 14; simp only [packWord_cons, packWord_nil]; omega)
theorem Fields.ori (d : GReg) (a : GReg) (imm : Imm) : Fields.Statement (.ori d a imm) :=
  Fields.of_imm rfl rfl (by have := d.isLt; have := a.isLt; have := imm_field_lt imm 14; simp only [packWord_cons, packWord_nil]; omega)
theorem Fields.xori (d : GReg) (a : GReg) (imm : Imm) : Fields.Statement (.xori d a imm) :=
  Fields.of_imm rfl rfl (by have := d.isLt; have := a.isLt; have := imm_field_lt imm 14; simp only [packWord_cons, packWord_nil]; omega)
theorem Fields.cmpeqi (d : GReg) (a : GReg) (imm : Imm) : Fields.Statement (.cmpeqi d a imm) :=
  Fields.of_imm rfl rfl (by have := d.isLt; have := a.isLt; have := imm_field_lt imm 14; simp only [packWord_cons, packWord_nil]; omega)
theorem Fields.cmplti (d : GReg) (a : GReg) (imm : Imm) : Fields.Statement (.cmplti d a imm) :=
  Fields.of_imm rfl rfl (by have := d.isLt; have := a.isLt; have := imm_field_lt imm 14; simp only [packWord_cons, packWord_nil]; omega)
theorem Fields.cmpltui (d : GReg) (a : GReg) (imm : Imm) : Fields.Statement (.cmpltui d a imm) :=
  Fields.of_imm rfl rfl (by have := d.isLt; have := a.isLt; have := imm_field_lt imm 14; simp only [packWord_cons, packWord_nil]; omega)
theorem Fields.addpc (d : GReg) (imm : Imm) : Fields.Statement (.addpc d imm) :=
  Fields.of_imm rfl rfl (by have := d.isLt; have := imm_field_lt imm 14; simp only [packWord_cons, packWord_nil]; omega)
theorem Fields.muli (d : GReg) (a : GReg) (imm : Imm) : Fields.Statement (.muli d a imm) :=
  Fields.of_imm rfl rfl (by have := d.isLt; have := a.isLt; have := imm_field_lt imm 14; simp only [packWord_cons, packWord_nil]; omega)
theorem Fields.shli (d : GReg) (a : GReg) (sh : Fin 64) : Fields.Statement (.shli d a sh) :=
  Fields.of_one rfl rfl (by have := d.isLt; have := a.isLt; have := sh.isLt; simp only [packWord_cons, packWord_nil]; omega)
theorem Fields.shri (d : GReg) (a : GReg) (sh : Fin 64) : Fields.Statement (.shri d a sh) :=
  Fields.of_one rfl rfl (by have := d.isLt; have := a.isLt; have := sh.isLt; simp only [packWord_cons, packWord_nil]; omega)
theorem Fields.srai (d : GReg) (a : GReg) (sh : Fin 64) : Fields.Statement (.srai d a sh) :=
  Fields.of_one rfl rfl (by have := d.isLt; have := a.isLt; have := sh.isLt; simp only [packWord_cons, packWord_nil]; omega)
theorem Fields.rori (d : GReg) (a : GReg) (sh : Fin 64) : Fields.Statement (.rori d a sh) :=
  Fields.of_one rfl rfl (by have := d.isLt; have := a.isLt; have := sh.isLt; simp only [packWord_cons, packWord_nil]; omega)
theorem Fields.fadd (d : GReg) (a : GReg) (b : GReg) : Fields.Statement (.fadd d a b) :=
  Fields.of_one rfl rfl (by have := d.isLt; have := a.isLt; have := b.isLt; simp only [packWord_cons, packWord_nil]; omega)
theorem Fields.fsub (d : GReg) (a : GReg) (b : GReg) : Fields.Statement (.fsub d a b) :=
  Fields.of_one rfl rfl (by have := d.isLt; have := a.isLt; have := b.isLt; simp only [packWord_cons, packWord_nil]; omega)
theorem Fields.fmul (d : GReg) (a : GReg) (b : GReg) : Fields.Statement (.fmul d a b) :=
  Fields.of_one rfl rfl (by have := d.isLt; have := a.isLt; have := b.isLt; simp only [packWord_cons, packWord_nil]; omega)
theorem Fields.fdiv (d : GReg) (a : GReg) (b : GReg) : Fields.Statement (.fdiv d a b) :=
  Fields.of_one rfl rfl (by have := d.isLt; have := a.isLt; have := b.isLt; simp only [packWord_cons, packWord_nil]; omega)
theorem Fields.fmadd (d : GReg) (a : GReg) (b : GReg) : Fields.Statement (.fmadd d a b) :=
  Fields.of_one rfl rfl (by have := d.isLt; have := a.isLt; have := b.isLt; simp only [packWord_cons, packWord_nil]; omega)
theorem Fields.fmsub (d : GReg) (a : GReg) (b : GReg) : Fields.Statement (.fmsub d a b) :=
  Fields.of_one rfl rfl (by have := d.isLt; have := a.isLt; have := b.isLt; simp only [packWord_cons, packWord_nil]; omega)
theorem Fields.fmin (d : GReg) (a : GReg) (b : GReg) : Fields.Statement (.fmin d a b) :=
  Fields.of_one rfl rfl (by have := d.isLt; have := a.isLt; have := b.isLt; simp only [packWord_cons, packWord_nil]; omega)
theorem Fields.fmax (d : GReg) (a : GReg) (b : GReg) : Fields.Statement (.fmax d a b) :=
  Fields.of_one rfl rfl (by have := d.isLt; have := a.isLt; have := b.isLt; simp only [packWord_cons, packWord_nil]; omega)
theorem Fields.fsqrt (d : GReg) (a : GReg) : Fields.Statement (.fsqrt d a) :=
  Fields.of_one rfl rfl (by have := d.isLt; have := a.isLt; simp only [packWord_cons, packWord_nil]; omega)
theorem Fields.fabs (d : GReg) (a : GReg) : Fields.Statement (.fabs d a) :=
  Fields.of_one rfl rfl (by have := d.isLt; have := a.isLt; simp only [packWord_cons, packWord_nil]; omega)
theorem Fields.fneg (d : GReg) (a : GReg) : Fields.Statement (.fneg d a) :=
  Fields.of_one rfl rfl (by have := d.isLt; have := a.isLt; simp only [packWord_cons, packWord_nil]; omega)
theorem Fields.fcopys (d : GReg) (a : GReg) (b : GReg) : Fields.Statement (.fcopys d a b) :=
  Fields.of_one rfl rfl (by have := d.isLt; have := a.isLt; have := b.isLt; simp only [packWord_cons, packWord_nil]; omega)
theorem Fields.fcmpeq (d : GReg) (a : GReg) (b : GReg) : Fields.Statement (.fcmpeq d a b) :=
  Fields.of_one rfl rfl (by have := d.isLt; have := a.isLt; have := b.isLt; simp only [packWord_cons, packWord_nil]; omega)
theorem Fields.fcmplt (d : GReg) (a : GReg) (b : GReg) : Fields.Statement (.fcmplt d a b) :=
  Fields.of_one rfl rfl (by have := d.isLt; have := a.isLt; have := b.isLt; simp only [packWord_cons, packWord_nil]; omega)
theorem Fields.fcmple (d : GReg) (a : GReg) (b : GReg) : Fields.Statement (.fcmple d a b) :=
  Fields.of_one rfl rfl (by have := d.isLt; have := a.isLt; have := b.isLt; simp only [packWord_cons, packWord_nil]; omega)
theorem Fields.fcmpun (d : GReg) (a : GReg) (b : GReg) : Fields.Statement (.fcmpun d a b) :=
  Fields.of_one rfl rfl (by have := d.isLt; have := a.isLt; have := b.isLt; simp only [packWord_cons, packWord_nil]; omega)
theorem Fields.fclass (d : GReg) (a : GReg) : Fields.Statement (.fclass d a) :=
  Fields.of_one rfl rfl (by have := d.isLt; have := a.isLt; simp only [packWord_cons, packWord_nil]; omega)
theorem Fields.itof (d : GReg) (a : GReg) (rc : RoundSel) : Fields.Statement (.itof d a rc) :=
  Fields.of_one rfl rfl (by have := d.isLt; have := a.isLt; have := roundSel_code_lt rc; simp only [packWord_cons, packWord_nil]; omega)
theorem Fields.utof (d : GReg) (a : GReg) (rc : RoundSel) : Fields.Statement (.utof d a rc) :=
  Fields.of_one rfl rfl (by have := d.isLt; have := a.isLt; have := roundSel_code_lt rc; simp only [packWord_cons, packWord_nil]; omega)
theorem Fields.ftoi (d : GReg) (a : GReg) (rc : RoundSel) : Fields.Statement (.ftoi d a rc) :=
  Fields.of_one rfl rfl (by have := d.isLt; have := a.isLt; have := roundSel_code_lt rc; simp only [packWord_cons, packWord_nil]; omega)
theorem Fields.ftou (d : GReg) (a : GReg) (rc : RoundSel) : Fields.Statement (.ftou d a rc) :=
  Fields.of_one rfl rfl (by have := d.isLt; have := a.isLt; have := roundSel_code_lt rc; simp only [packWord_cons, packWord_nil]; omega)
theorem Fields.ftobf (d : GReg) (a : GReg) (rc : RoundSel) : Fields.Statement (.ftobf d a rc) :=
  Fields.of_one rfl rfl (by have := d.isLt; have := a.isLt; have := roundSel_code_lt rc; simp only [packWord_cons, packWord_nil]; omega)
theorem Fields.bftof (d : GReg) (a : GReg) (rc : RoundSel) : Fields.Statement (.bftof d a rc) :=
  Fields.of_one rfl rfl (by have := d.isLt; have := a.isLt; have := roundSel_code_lt rc; simp only [packWord_cons, packWord_nil]; omega)
theorem Fields.ftoe4 (d : GReg) (a : GReg) (rc : RoundSel) : Fields.Statement (.ftoe4 d a rc) :=
  Fields.of_one rfl rfl (by have := d.isLt; have := a.isLt; have := roundSel_code_lt rc; simp only [packWord_cons, packWord_nil]; omega)
theorem Fields.e4tof (d : GReg) (a : GReg) (rc : RoundSel) : Fields.Statement (.e4tof d a rc) :=
  Fields.of_one rfl rfl (by have := d.isLt; have := a.isLt; have := roundSel_code_lt rc; simp only [packWord_cons, packWord_nil]; omega)
theorem Fields.ftoe5 (d : GReg) (a : GReg) (rc : RoundSel) (inf : Bool) : Fields.Statement (.ftoe5 d a rc inf) :=
  Fields.of_one rfl rfl (by have := d.isLt; have := a.isLt; have := roundSel_code_lt rc; have := bit_lt inf; simp only [packWord_cons, packWord_nil]; omega)
theorem Fields.e5tof (d : GReg) (a : GReg) (rc : RoundSel) : Fields.Statement (.e5tof d a rc) :=
  Fields.of_one rfl rfl (by have := d.isLt; have := a.isLt; have := roundSel_code_lt rc; simp only [packWord_cons, packWord_nil]; omega)
theorem Fields.ftoe2 (d : GReg) (a : GReg) (rc : RoundSel) : Fields.Statement (.ftoe2 d a rc) :=
  Fields.of_one rfl rfl (by have := d.isLt; have := a.isLt; have := roundSel_code_lt rc; simp only [packWord_cons, packWord_nil]; omega)
theorem Fields.e2tof (d : GReg) (a : GReg) (rc : RoundSel) : Fields.Statement (.e2tof d a rc) :=
  Fields.of_one rfl rfl (by have := d.isLt; have := a.isLt; have := roundSel_code_lt rc; simp only [packWord_cons, packWord_nil]; omega)
theorem Fields.beq (a : GReg) (b : GReg) (imm : Imm) : Fields.Statement (.beq a b imm) :=
  Fields.of_imm rfl rfl (by have := a.isLt; have := b.isLt; have := imm_field_lt imm 14; simp only [packWord_cons, packWord_nil]; omega)
theorem Fields.bne (a : GReg) (b : GReg) (imm : Imm) : Fields.Statement (.bne a b imm) :=
  Fields.of_imm rfl rfl (by have := a.isLt; have := b.isLt; have := imm_field_lt imm 14; simp only [packWord_cons, packWord_nil]; omega)
theorem Fields.blt (a : GReg) (b : GReg) (imm : Imm) : Fields.Statement (.blt a b imm) :=
  Fields.of_imm rfl rfl (by have := a.isLt; have := b.isLt; have := imm_field_lt imm 14; simp only [packWord_cons, packWord_nil]; omega)
theorem Fields.bge (a : GReg) (b : GReg) (imm : Imm) : Fields.Statement (.bge a b imm) :=
  Fields.of_imm rfl rfl (by have := a.isLt; have := b.isLt; have := imm_field_lt imm 14; simp only [packWord_cons, packWord_nil]; omega)
theorem Fields.bltu (a : GReg) (b : GReg) (imm : Imm) : Fields.Statement (.bltu a b imm) :=
  Fields.of_imm rfl rfl (by have := a.isLt; have := b.isLt; have := imm_field_lt imm 14; simp only [packWord_cons, packWord_nil]; omega)
theorem Fields.bgeu (a : GReg) (b : GReg) (imm : Imm) : Fields.Statement (.bgeu a b imm) :=
  Fields.of_imm rfl rfl (by have := a.isLt; have := b.isLt; have := imm_field_lt imm 14; simp only [packWord_cons, packWord_nil]; omega)
theorem Fields.jal (d : GReg) (imm : Imm) : Fields.Statement (.jal d imm) :=
  Fields.of_imm rfl rfl (by have := d.isLt; have := imm_field_lt imm 20; simp only [packWord_cons, packWord_nil]; omega)
theorem Fields.jalr (d : GReg) (a : GReg) (imm : Imm) : Fields.Statement (.jalr d a imm) :=
  Fields.of_imm rfl rfl (by have := d.isLt; have := a.isLt; have := imm_field_lt imm 10; simp only [packWord_cons, packWord_nil]; omega)
theorem Fields.loopnz (d : GReg) (imm : Imm) : Fields.Statement (.loopnz d imm) :=
  Fields.of_imm rfl rfl (by have := d.isLt; have := imm_field_lt imm 10; simp only [packWord_cons, packWord_nil]; omega)
theorem Fields.rep (a : GReg) (stride : Fin 8) (len : Fin 16) : Fields.Statement (.rep a stride len) :=
  Fields.of_one rfl rfl (by have := a.isLt; have := stride.isLt; have := len.isLt; simp only [packWord_cons, packWord_nil]; omega)
theorem Fields.repi (count : Fin 4096) (stride : Fin 8) (len : Fin 16) : Fields.Statement (.repi count stride len) :=
  Fields.of_one rfl rfl (by have := count.isLt; have := stride.isLt; have := len.isLt; simp only [packWord_cons, packWord_nil]; omega)
theorem Fields.ldb (d : GReg) (a : GReg) (off : Imm) (h : Hint) (w : WaitSel) : Fields.Statement (.ldb d a off h w) :=
  Fields.of_imm rfl rfl (by have := d.isLt; have := a.isLt; have := imm_field_lt off 10; have := hint_code_lt h; have := waitSel_code_lt w; simp only [packWord_cons, packWord_nil]; omega)
theorem Fields.ldh (d : GReg) (a : GReg) (off : Imm) (h : Hint) (w : WaitSel) : Fields.Statement (.ldh d a off h w) :=
  Fields.of_imm rfl rfl (by have := d.isLt; have := a.isLt; have := imm_field_lt off 10; have := hint_code_lt h; have := waitSel_code_lt w; simp only [packWord_cons, packWord_nil]; omega)
theorem Fields.ldw (d : GReg) (a : GReg) (off : Imm) (h : Hint) (w : WaitSel) : Fields.Statement (.ldw d a off h w) :=
  Fields.of_imm rfl rfl (by have := d.isLt; have := a.isLt; have := imm_field_lt off 10; have := hint_code_lt h; have := waitSel_code_lt w; simp only [packWord_cons, packWord_nil]; omega)
theorem Fields.ldd (d : GReg) (a : GReg) (off : Imm) (h : Hint) (w : WaitSel) : Fields.Statement (.ldd d a off h w) :=
  Fields.of_imm rfl rfl (by have := d.isLt; have := a.isLt; have := imm_field_lt off 10; have := hint_code_lt h; have := waitSel_code_lt w; simp only [packWord_cons, packWord_nil]; omega)
theorem Fields.pref (a : GReg) (off : Imm) (stream : Bool) (w : WaitSel) : Fields.Statement (.pref a off stream w) :=
  Fields.of_imm rfl rfl (by have := a.isLt; have := imm_field_lt off 10; have := bit_lt stream; have := waitSel_code_lt w; simp only [packWord_cons, packWord_nil]; omega)
theorem Fields.stb (d : GReg) (a : GReg) (off : Imm) (h : Hint) (w : WaitSel) : Fields.Statement (.stb d a off h w) :=
  Fields.of_imm rfl rfl (by have := d.isLt; have := a.isLt; have := imm_field_lt off 10; have := hint_code_lt h; have := waitSel_code_lt w; simp only [packWord_cons, packWord_nil]; omega)
theorem Fields.sth (d : GReg) (a : GReg) (off : Imm) (h : Hint) (w : WaitSel) : Fields.Statement (.sth d a off h w) :=
  Fields.of_imm rfl rfl (by have := d.isLt; have := a.isLt; have := imm_field_lt off 10; have := hint_code_lt h; have := waitSel_code_lt w; simp only [packWord_cons, packWord_nil]; omega)
theorem Fields.stw (d : GReg) (a : GReg) (off : Imm) (h : Hint) (w : WaitSel) : Fields.Statement (.stw d a off h w) :=
  Fields.of_imm rfl rfl (by have := d.isLt; have := a.isLt; have := imm_field_lt off 10; have := hint_code_lt h; have := waitSel_code_lt w; simp only [packWord_cons, packWord_nil]; omega)
theorem Fields.std (d : GReg) (a : GReg) (off : Imm) (h : Hint) (w : WaitSel) : Fields.Statement (.std d a off h w) :=
  Fields.of_imm rfl rfl (by have := d.isLt; have := a.isLt; have := imm_field_lt off 10; have := hint_code_lt h; have := waitSel_code_lt w; simp only [packWord_cons, packWord_nil]; omega)
theorem Fields.stn (a : GReg) (b : GReg) (hi : Bool) (rel : Bool) (w : WaitSel) : Fields.Statement (.stn a b hi rel w) :=
  Fields.of_one rfl rfl (by have := a.isLt; have := b.isLt; have := bit_lt hi; have := bit_lt rel; have := waitSel_code_lt w; simp only [packWord_cons, packWord_nil]; omega)
theorem Fields.axchg (d : GReg) (a : GReg) (b : GReg) (acq : Bool) (rel : Bool) (w : WaitSel) : Fields.Statement (.axchg d a b acq rel w) :=
  Fields.of_one rfl rfl (by have := d.isLt; have := a.isLt; have := b.isLt; have := bit_lt acq; have := bit_lt rel; have := waitSel_code_lt w; simp only [packWord_cons, packWord_nil]; omega)
theorem Fields.aadd (d : GReg) (a : GReg) (b : GReg) (acq : Bool) (rel : Bool) (w : WaitSel) : Fields.Statement (.aadd d a b acq rel w) :=
  Fields.of_one rfl rfl (by have := d.isLt; have := a.isLt; have := b.isLt; have := bit_lt acq; have := bit_lt rel; have := waitSel_code_lt w; simp only [packWord_cons, packWord_nil]; omega)
theorem Fields.aand (d : GReg) (a : GReg) (b : GReg) (acq : Bool) (rel : Bool) (w : WaitSel) : Fields.Statement (.aand d a b acq rel w) :=
  Fields.of_one rfl rfl (by have := d.isLt; have := a.isLt; have := b.isLt; have := bit_lt acq; have := bit_lt rel; have := waitSel_code_lt w; simp only [packWord_cons, packWord_nil]; omega)
theorem Fields.aor (d : GReg) (a : GReg) (b : GReg) (acq : Bool) (rel : Bool) (w : WaitSel) : Fields.Statement (.aor d a b acq rel w) :=
  Fields.of_one rfl rfl (by have := d.isLt; have := a.isLt; have := b.isLt; have := bit_lt acq; have := bit_lt rel; have := waitSel_code_lt w; simp only [packWord_cons, packWord_nil]; omega)
theorem Fields.axor (d : GReg) (a : GReg) (b : GReg) (acq : Bool) (rel : Bool) (w : WaitSel) : Fields.Statement (.axor d a b acq rel w) :=
  Fields.of_one rfl rfl (by have := d.isLt; have := a.isLt; have := b.isLt; have := bit_lt acq; have := bit_lt rel; have := waitSel_code_lt w; simp only [packWord_cons, packWord_nil]; omega)
theorem Fields.amin (d : GReg) (a : GReg) (b : GReg) (acq : Bool) (rel : Bool) (w : WaitSel) : Fields.Statement (.amin d a b acq rel w) :=
  Fields.of_one rfl rfl (by have := d.isLt; have := a.isLt; have := b.isLt; have := bit_lt acq; have := bit_lt rel; have := waitSel_code_lt w; simp only [packWord_cons, packWord_nil]; omega)
theorem Fields.amax (d : GReg) (a : GReg) (b : GReg) (acq : Bool) (rel : Bool) (w : WaitSel) : Fields.Statement (.amax d a b acq rel w) :=
  Fields.of_one rfl rfl (by have := d.isLt; have := a.isLt; have := b.isLt; have := bit_lt acq; have := bit_lt rel; have := waitSel_code_lt w; simp only [packWord_cons, packWord_nil]; omega)
theorem Fields.aminu (d : GReg) (a : GReg) (b : GReg) (acq : Bool) (rel : Bool) (w : WaitSel) : Fields.Statement (.aminu d a b acq rel w) :=
  Fields.of_one rfl rfl (by have := d.isLt; have := a.isLt; have := b.isLt; have := bit_lt acq; have := bit_lt rel; have := waitSel_code_lt w; simp only [packWord_cons, packWord_nil]; omega)
theorem Fields.amaxu (d : GReg) (a : GReg) (b : GReg) (acq : Bool) (rel : Bool) (w : WaitSel) : Fields.Statement (.amaxu d a b acq rel w) :=
  Fields.of_one rfl rfl (by have := d.isLt; have := a.isLt; have := b.isLt; have := bit_lt acq; have := bit_lt rel; have := waitSel_code_lt w; simp only [packWord_cons, packWord_nil]; omega)
theorem Fields.afadd (d : GReg) (a : GReg) (b : GReg) (acq : Bool) (rel : Bool) (w : WaitSel) : Fields.Statement (.afadd d a b acq rel w) :=
  Fields.of_one rfl rfl (by have := d.isLt; have := a.isLt; have := b.isLt; have := bit_lt acq; have := bit_lt rel; have := waitSel_code_lt w; simp only [packWord_cons, packWord_nil]; omega)
theorem Fields.axchgPost (a : GReg) (b : GReg) (rel : Bool) (w : WaitSel) : Fields.Statement (.axchgPost a b rel w) :=
  Fields.of_one rfl rfl (by have := a.isLt; have := b.isLt; have := bit_lt rel; have := waitSel_code_lt w; simp only [packWord_cons, packWord_nil]; omega)
theorem Fields.aaddPost (a : GReg) (b : GReg) (rel : Bool) (w : WaitSel) : Fields.Statement (.aaddPost a b rel w) :=
  Fields.of_one rfl rfl (by have := a.isLt; have := b.isLt; have := bit_lt rel; have := waitSel_code_lt w; simp only [packWord_cons, packWord_nil]; omega)
theorem Fields.aandPost (a : GReg) (b : GReg) (rel : Bool) (w : WaitSel) : Fields.Statement (.aandPost a b rel w) :=
  Fields.of_one rfl rfl (by have := a.isLt; have := b.isLt; have := bit_lt rel; have := waitSel_code_lt w; simp only [packWord_cons, packWord_nil]; omega)
theorem Fields.aorPost (a : GReg) (b : GReg) (rel : Bool) (w : WaitSel) : Fields.Statement (.aorPost a b rel w) :=
  Fields.of_one rfl rfl (by have := a.isLt; have := b.isLt; have := bit_lt rel; have := waitSel_code_lt w; simp only [packWord_cons, packWord_nil]; omega)
theorem Fields.axorPost (a : GReg) (b : GReg) (rel : Bool) (w : WaitSel) : Fields.Statement (.axorPost a b rel w) :=
  Fields.of_one rfl rfl (by have := a.isLt; have := b.isLt; have := bit_lt rel; have := waitSel_code_lt w; simp only [packWord_cons, packWord_nil]; omega)
theorem Fields.aminPost (a : GReg) (b : GReg) (rel : Bool) (w : WaitSel) : Fields.Statement (.aminPost a b rel w) :=
  Fields.of_one rfl rfl (by have := a.isLt; have := b.isLt; have := bit_lt rel; have := waitSel_code_lt w; simp only [packWord_cons, packWord_nil]; omega)
theorem Fields.amaxPost (a : GReg) (b : GReg) (rel : Bool) (w : WaitSel) : Fields.Statement (.amaxPost a b rel w) :=
  Fields.of_one rfl rfl (by have := a.isLt; have := b.isLt; have := bit_lt rel; have := waitSel_code_lt w; simp only [packWord_cons, packWord_nil]; omega)
theorem Fields.aminuPost (a : GReg) (b : GReg) (rel : Bool) (w : WaitSel) : Fields.Statement (.aminuPost a b rel w) :=
  Fields.of_one rfl rfl (by have := a.isLt; have := b.isLt; have := bit_lt rel; have := waitSel_code_lt w; simp only [packWord_cons, packWord_nil]; omega)
theorem Fields.amaxuPost (a : GReg) (b : GReg) (rel : Bool) (w : WaitSel) : Fields.Statement (.amaxuPost a b rel w) :=
  Fields.of_one rfl rfl (by have := a.isLt; have := b.isLt; have := bit_lt rel; have := waitSel_code_lt w; simp only [packWord_cons, packWord_nil]; omega)
theorem Fields.afaddPost (a : GReg) (b : GReg) (rel : Bool) (w : WaitSel) : Fields.Statement (.afaddPost a b rel w) :=
  Fields.of_one rfl rfl (by have := a.isLt; have := b.isLt; have := bit_lt rel; have := waitSel_code_lt w; simp only [packWord_cons, packWord_nil]; omega)
theorem Fields.cas (d : GReg) (a : GReg) (b : GReg) (acq : Bool) (rel : Bool) (w : WaitSel) : Fields.Statement (.cas d a b acq rel w) :=
  Fields.of_one rfl rfl (by have := d.isLt; have := a.isLt; have := b.isLt; have := bit_lt acq; have := bit_lt rel; have := waitSel_code_lt w; simp only [packWord_cons, packWord_nil]; omega)
theorem Fields.casp (d : GReg) (a : GReg) (b : GReg) (acq : Bool) (rel : Bool) (w : WaitSel) : Fields.Statement (.casp d a b acq rel w) :=
  Fields.of_one rfl rfl (by have := d.isLt; have := a.isLt; have := b.isLt; have := bit_lt acq; have := bit_lt rel; have := waitSel_code_lt w; simp only [packWord_cons, packWord_nil]; omega)
theorem Fields.wait (at_ : Fin 32) (tl : Fin 32) (cp : Fin 32) (sg : Fin 32) (sn : Fin 32) : Fields.Statement (.wait at_ tl cp sg sn) :=
  Fields.of_one rfl rfl (by have := at_.isLt; have := tl.isLt; have := cp.isLt; have := sg.isLt; have := sn.isLt; simp only [packWord_cons, packWord_nil]; omega)
theorem Fields.fence (scope : Scope) : Fields.Statement (.fence scope) :=
  Fields.of_one rfl rfl (by have := scope_code_lt scope; simp only [packWord_cons, packWord_nil]; omega)
theorem Fields.cwait (d : GReg) (a : GReg) : Fields.Statement (.cwait d a) :=
  Fields.of_one rfl rfl (by have := d.isLt; have := a.isLt; simp only [packWord_cons, packWord_nil]; omega)
theorem Fields.bararm (lvl : Level) (obj : Fin 16) (a : GReg) : Fields.Statement (.bararm lvl obj a) :=
  Fields.of_one rfl rfl (by have := level_code_lt lvl; have := obj.isLt; have := a.isLt; simp only [packWord_cons, packWord_nil]; omega)
theorem Fields.barrive (lvl : Level) (obj : Fin 16) (d : GReg) : Fields.Statement (.barrive lvl obj d) :=
  Fields.of_one rfl rfl (by have := level_code_lt lvl; have := obj.isLt; have := d.isLt; simp only [packWord_cons, packWord_nil]; omega)
theorem Fields.barwait (lvl : Level) (obj : Fin 16) (a : GReg) : Fields.Statement (.barwait lvl obj a) :=
  Fields.of_one rfl rfl (by have := level_code_lt lvl; have := obj.isLt; have := a.isLt; simp only [packWord_cons, packWord_nil]; omega)
theorem Fields.barq (lvl : Level) (obj : Fin 16) (d : GReg) : Fields.Statement (.barq lvl obj d) :=
  Fields.of_one rfl rfl (by have := level_code_lt lvl; have := obj.isLt; have := d.isLt; simp only [packWord_cons, packWord_nil]; omega)
theorem Fields.vfadd (d : VReg) (a : VReg) (b : VReg) (m : MReg) : Fields.Statement (.vfadd d a b m) :=
  Fields.of_one rfl rfl (by have := d.isLt; have := a.isLt; have := b.isLt; have := m.isLt; simp only [packWord_cons, packWord_nil]; omega)
theorem Fields.vfsub (d : VReg) (a : VReg) (b : VReg) (m : MReg) : Fields.Statement (.vfsub d a b m) :=
  Fields.of_one rfl rfl (by have := d.isLt; have := a.isLt; have := b.isLt; have := m.isLt; simp only [packWord_cons, packWord_nil]; omega)
theorem Fields.vfmul (d : VReg) (a : VReg) (b : VReg) (m : MReg) : Fields.Statement (.vfmul d a b m) :=
  Fields.of_one rfl rfl (by have := d.isLt; have := a.isLt; have := b.isLt; have := m.isLt; simp only [packWord_cons, packWord_nil]; omega)
theorem Fields.vfdiv (d : VReg) (a : VReg) (b : VReg) (m : MReg) : Fields.Statement (.vfdiv d a b m) :=
  Fields.of_one rfl rfl (by have := d.isLt; have := a.isLt; have := b.isLt; have := m.isLt; simp only [packWord_cons, packWord_nil]; omega)
theorem Fields.vfma (d : VReg) (a : VReg) (b : VReg) (m : MReg) : Fields.Statement (.vfma d a b m) :=
  Fields.of_one rfl rfl (by have := d.isLt; have := a.isLt; have := b.isLt; have := m.isLt; simp only [packWord_cons, packWord_nil]; omega)
theorem Fields.vfms (d : VReg) (a : VReg) (b : VReg) (m : MReg) : Fields.Statement (.vfms d a b m) :=
  Fields.of_one rfl rfl (by have := d.isLt; have := a.isLt; have := b.isLt; have := m.isLt; simp only [packWord_cons, packWord_nil]; omega)
theorem Fields.vfmin (d : VReg) (a : VReg) (b : VReg) (m : MReg) : Fields.Statement (.vfmin d a b m) :=
  Fields.of_one rfl rfl (by have := d.isLt; have := a.isLt; have := b.isLt; have := m.isLt; simp only [packWord_cons, packWord_nil]; omega)
theorem Fields.vfmax (d : VReg) (a : VReg) (b : VReg) (m : MReg) : Fields.Statement (.vfmax d a b m) :=
  Fields.of_one rfl rfl (by have := d.isLt; have := a.isLt; have := b.isLt; have := m.isLt; simp only [packWord_cons, packWord_nil]; omega)
theorem Fields.vfabs (d : VReg) (a : VReg) (m : MReg) : Fields.Statement (.vfabs d a m) :=
  Fields.of_one rfl rfl (by have := d.isLt; have := a.isLt; have := m.isLt; simp only [packWord_cons, packWord_nil]; omega)
theorem Fields.vfneg (d : VReg) (a : VReg) (m : MReg) : Fields.Statement (.vfneg d a m) :=
  Fields.of_one rfl rfl (by have := d.isLt; have := a.isLt; have := m.isLt; simp only [packWord_cons, packWord_nil]; omega)
theorem Fields.vfsqrt (d : VReg) (a : VReg) (m : MReg) : Fields.Statement (.vfsqrt d a m) :=
  Fields.of_one rfl rfl (by have := d.isLt; have := a.isLt; have := m.isLt; simp only [packWord_cons, packWord_nil]; omega)
theorem Fields.vfrcp (d : VReg) (a : VReg) (m : MReg) : Fields.Statement (.vfrcp d a m) :=
  Fields.of_one rfl rfl (by have := d.isLt; have := a.isLt; have := m.isLt; simp only [packWord_cons, packWord_nil]; omega)
theorem Fields.vfrsq (d : VReg) (a : VReg) (m : MReg) : Fields.Statement (.vfrsq d a m) :=
  Fields.of_one rfl rfl (by have := d.isLt; have := a.isLt; have := m.isLt; simp only [packWord_cons, packWord_nil]; omega)
theorem Fields.vfexp2 (d : VReg) (a : VReg) (m : MReg) : Fields.Statement (.vfexp2 d a m) :=
  Fields.of_one rfl rfl (by have := d.isLt; have := a.isLt; have := m.isLt; simp only [packWord_cons, packWord_nil]; omega)
theorem Fields.vflog2 (d : VReg) (a : VReg) (m : MReg) : Fields.Statement (.vflog2 d a m) :=
  Fields.of_one rfl rfl (by have := d.isLt; have := a.isLt; have := m.isLt; simp only [packWord_cons, packWord_nil]; omega)
theorem Fields.vbfma (d : VReg) (a : VReg) (b : VReg) (m : MReg) : Fields.Statement (.vbfma d a b m) :=
  Fields.of_one rfl rfl (by have := d.isLt; have := a.isLt; have := b.isLt; have := m.isLt; simp only [packWord_cons, packWord_nil]; omega)
theorem Fields.vadd (d : VReg) (a : VReg) (b : VReg) (m : MReg) : Fields.Statement (.vadd d a b m) :=
  Fields.of_one rfl rfl (by have := d.isLt; have := a.isLt; have := b.isLt; have := m.isLt; simp only [packWord_cons, packWord_nil]; omega)
theorem Fields.vsub (d : VReg) (a : VReg) (b : VReg) (m : MReg) : Fields.Statement (.vsub d a b m) :=
  Fields.of_one rfl rfl (by have := d.isLt; have := a.isLt; have := b.isLt; have := m.isLt; simp only [packWord_cons, packWord_nil]; omega)
theorem Fields.vmul (d : VReg) (a : VReg) (b : VReg) (m : MReg) : Fields.Statement (.vmul d a b m) :=
  Fields.of_one rfl rfl (by have := d.isLt; have := a.isLt; have := b.isLt; have := m.isLt; simp only [packWord_cons, packWord_nil]; omega)
theorem Fields.vmulh (d : VReg) (a : VReg) (b : VReg) (m : MReg) : Fields.Statement (.vmulh d a b m) :=
  Fields.of_one rfl rfl (by have := d.isLt; have := a.isLt; have := b.isLt; have := m.isLt; simp only [packWord_cons, packWord_nil]; omega)
theorem Fields.vmin (d : VReg) (a : VReg) (b : VReg) (m : MReg) : Fields.Statement (.vmin d a b m) :=
  Fields.of_one rfl rfl (by have := d.isLt; have := a.isLt; have := b.isLt; have := m.isLt; simp only [packWord_cons, packWord_nil]; omega)
theorem Fields.vmax (d : VReg) (a : VReg) (b : VReg) (m : MReg) : Fields.Statement (.vmax d a b m) :=
  Fields.of_one rfl rfl (by have := d.isLt; have := a.isLt; have := b.isLt; have := m.isLt; simp only [packWord_cons, packWord_nil]; omega)
theorem Fields.vminu (d : VReg) (a : VReg) (b : VReg) (m : MReg) : Fields.Statement (.vminu d a b m) :=
  Fields.of_one rfl rfl (by have := d.isLt; have := a.isLt; have := b.isLt; have := m.isLt; simp only [packWord_cons, packWord_nil]; omega)
theorem Fields.vmaxu (d : VReg) (a : VReg) (b : VReg) (m : MReg) : Fields.Statement (.vmaxu d a b m) :=
  Fields.of_one rfl rfl (by have := d.isLt; have := a.isLt; have := b.isLt; have := m.isLt; simp only [packWord_cons, packWord_nil]; omega)
theorem Fields.vand (d : VReg) (a : VReg) (b : VReg) (m : MReg) : Fields.Statement (.vand d a b m) :=
  Fields.of_one rfl rfl (by have := d.isLt; have := a.isLt; have := b.isLt; have := m.isLt; simp only [packWord_cons, packWord_nil]; omega)
theorem Fields.vor (d : VReg) (a : VReg) (b : VReg) (m : MReg) : Fields.Statement (.vor d a b m) :=
  Fields.of_one rfl rfl (by have := d.isLt; have := a.isLt; have := b.isLt; have := m.isLt; simp only [packWord_cons, packWord_nil]; omega)
theorem Fields.vxor (d : VReg) (a : VReg) (b : VReg) (m : MReg) : Fields.Statement (.vxor d a b m) :=
  Fields.of_one rfl rfl (by have := d.isLt; have := a.isLt; have := b.isLt; have := m.isLt; simp only [packWord_cons, packWord_nil]; omega)
theorem Fields.vshl (d : VReg) (a : VReg) (b : VReg) (m : MReg) : Fields.Statement (.vshl d a b m) :=
  Fields.of_one rfl rfl (by have := d.isLt; have := a.isLt; have := b.isLt; have := m.isLt; simp only [packWord_cons, packWord_nil]; omega)
theorem Fields.vshr (d : VReg) (a : VReg) (b : VReg) (m : MReg) : Fields.Statement (.vshr d a b m) :=
  Fields.of_one rfl rfl (by have := d.isLt; have := a.isLt; have := b.isLt; have := m.isLt; simp only [packWord_cons, packWord_nil]; omega)
theorem Fields.vsra (d : VReg) (a : VReg) (b : VReg) (m : MReg) : Fields.Statement (.vsra d a b m) :=
  Fields.of_one rfl rfl (by have := d.isLt; have := a.isLt; have := b.isLt; have := m.isLt; simp only [packWord_cons, packWord_nil]; omega)
theorem Fields.vadds (d : VReg) (a : VReg) (b : VReg) (m : MReg) : Fields.Statement (.vadds d a b m) :=
  Fields.of_one rfl rfl (by have := d.isLt; have := a.isLt; have := b.isLt; have := m.isLt; simp only [packWord_cons, packWord_nil]; omega)
theorem Fields.vsubs (d : VReg) (a : VReg) (b : VReg) (m : MReg) : Fields.Statement (.vsubs d a b m) :=
  Fields.of_one rfl rfl (by have := d.isLt; have := a.isLt; have := b.isLt; have := m.isLt; simp only [packWord_cons, packWord_nil]; omega)
theorem Fields.vfcmpeq (d : MReg) (a : VReg) (b : VReg) (m : MReg) : Fields.Statement (.vfcmpeq d a b m) :=
  Fields.of_one rfl rfl (by have := d.isLt; have := a.isLt; have := b.isLt; have := m.isLt; simp only [packWord_cons, packWord_nil]; omega)
theorem Fields.vfcmplt (d : MReg) (a : VReg) (b : VReg) (m : MReg) : Fields.Statement (.vfcmplt d a b m) :=
  Fields.of_one rfl rfl (by have := d.isLt; have := a.isLt; have := b.isLt; have := m.isLt; simp only [packWord_cons, packWord_nil]; omega)
theorem Fields.vfcmple (d : MReg) (a : VReg) (b : VReg) (m : MReg) : Fields.Statement (.vfcmple d a b m) :=
  Fields.of_one rfl rfl (by have := d.isLt; have := a.isLt; have := b.isLt; have := m.isLt; simp only [packWord_cons, packWord_nil]; omega)
theorem Fields.vcmpeq (d : MReg) (a : VReg) (b : VReg) (m : MReg) : Fields.Statement (.vcmpeq d a b m) :=
  Fields.of_one rfl rfl (by have := d.isLt; have := a.isLt; have := b.isLt; have := m.isLt; simp only [packWord_cons, packWord_nil]; omega)
theorem Fields.vcmplt (d : MReg) (a : VReg) (b : VReg) (m : MReg) : Fields.Statement (.vcmplt d a b m) :=
  Fields.of_one rfl rfl (by have := d.isLt; have := a.isLt; have := b.isLt; have := m.isLt; simp only [packWord_cons, packWord_nil]; omega)
theorem Fields.vcmpltu (d : MReg) (a : VReg) (b : VReg) (m : MReg) : Fields.Statement (.vcmpltu d a b m) :=
  Fields.of_one rfl rfl (by have := d.isLt; have := a.isLt; have := b.isLt; have := m.isLt; simp only [packWord_cons, packWord_nil]; omega)
theorem Fields.vsel (d : VReg) (a : VReg) (b : VReg) (m : MReg) : Fields.Statement (.vsel d a b m) :=
  Fields.of_one rfl rfl (by have := d.isLt; have := a.isLt; have := b.isLt; have := m.isLt; simp only [packWord_cons, packWord_nil]; omega)
theorem Fields.mand (d : MReg) (a : MReg) (b : MReg) : Fields.Statement (.mand d a b) :=
  Fields.of_one rfl rfl (by have := d.isLt; have := a.isLt; have := b.isLt; simp only [packWord_cons, packWord_nil]; omega)
theorem Fields.mor (d : MReg) (a : MReg) (b : MReg) : Fields.Statement (.mor d a b) :=
  Fields.of_one rfl rfl (by have := d.isLt; have := a.isLt; have := b.isLt; simp only [packWord_cons, packWord_nil]; omega)
theorem Fields.mxor (d : MReg) (a : MReg) (b : MReg) : Fields.Statement (.mxor d a b) :=
  Fields.of_one rfl rfl (by have := d.isLt; have := a.isLt; have := b.isLt; simp only [packWord_cons, packWord_nil]; omega)
theorem Fields.mnot (d : MReg) (a : MReg) : Fields.Statement (.mnot d a) :=
  Fields.of_one rfl rfl (by have := d.isLt; have := a.isLt; simp only [packWord_cons, packWord_nil]; omega)
theorem Fields.vperm (d : VReg) (a : VReg) (b : VReg) (m : MReg) : Fields.Statement (.vperm d a b m) :=
  Fields.of_one rfl rfl (by have := d.isLt; have := a.isLt; have := b.isLt; have := m.isLt; simp only [packWord_cons, packWord_nil]; omega)
theorem Fields.vrotl (d : VReg) (a : VReg) (b : VReg) (m : MReg) : Fields.Statement (.vrotl d a b m) :=
  Fields.of_one rfl rfl (by have := d.isLt; have := a.isLt; have := b.isLt; have := m.isLt; simp only [packWord_cons, packWord_nil]; omega)
theorem Fields.vziplo (d : VReg) (a : VReg) (b : VReg) (m : MReg) : Fields.Statement (.vziplo d a b m) :=
  Fields.of_one rfl rfl (by have := d.isLt; have := a.isLt; have := b.isLt; have := m.isLt; simp only [packWord_cons, packWord_nil]; omega)
theorem Fields.vziphi (d : VReg) (a : VReg) (b : VReg) (m : MReg) : Fields.Statement (.vziphi d a b m) :=
  Fields.of_one rfl rfl (by have := d.isLt; have := a.isLt; have := b.isLt; have := m.isLt; simp only [packWord_cons, packWord_nil]; omega)
theorem Fields.vcvtif (d : VReg) (a : VReg) (m : MReg) : Fields.Statement (.vcvtif d a m) :=
  Fields.of_one rfl rfl (by have := d.isLt; have := a.isLt; have := m.isLt; simp only [packWord_cons, packWord_nil]; omega)
theorem Fields.vcvtfi (d : VReg) (a : VReg) (m : MReg) : Fields.Statement (.vcvtfi d a m) :=
  Fields.of_one rfl rfl (by have := d.isLt; have := a.isLt; have := m.isLt; simp only [packWord_cons, packWord_nil]; omega)
theorem Fields.vcvtfbf (d : VReg) (a : VReg) (b : VReg) (m : MReg) : Fields.Statement (.vcvtfbf d a b m) :=
  Fields.of_one rfl rfl (by have := d.isLt; have := a.isLt; have := b.isLt; have := m.isLt; simp only [packWord_cons, packWord_nil]; omega)
theorem Fields.vcvtbff (d : VReg) (a : VReg) (m : MReg) : Fields.Statement (.vcvtbff d a m) :=
  Fields.of_one rfl rfl (by have := d.isLt; have := a.isLt; have := m.isLt; simp only [packWord_cons, packWord_nil]; omega)
theorem Fields.vcvtfe4 (d : VReg) (a : VReg) (m : MReg) : Fields.Statement (.vcvtfe4 d a m) :=
  Fields.of_one rfl rfl (by have := d.isLt; have := a.isLt; have := m.isLt; simp only [packWord_cons, packWord_nil]; omega)
theorem Fields.vcvtfe5 (d : VReg) (a : VReg) (m : MReg) : Fields.Statement (.vcvtfe5 d a m) :=
  Fields.of_one rfl rfl (by have := d.isLt; have := a.isLt; have := m.isLt; simp only [packWord_cons, packWord_nil]; omega)
theorem Fields.vcvtfb4 (d : VReg) (a : VReg) (b : VReg) (m : MReg) : Fields.Statement (.vcvtfb4 d a b m) :=
  Fields.of_one rfl rfl (by have := d.isLt; have := a.isLt; have := b.isLt; have := m.isLt; simp only [packWord_cons, packWord_nil]; omega)
theorem Fields.vcvte4f (d : VReg) (a : VReg) (m : MReg) : Fields.Statement (.vcvte4f d a m) :=
  Fields.of_one rfl rfl (by have := d.isLt; have := a.isLt; have := m.isLt; simp only [packWord_cons, packWord_nil]; omega)
theorem Fields.vcvte5f (d : VReg) (a : VReg) (m : MReg) : Fields.Statement (.vcvte5f d a m) :=
  Fields.of_one rfl rfl (by have := d.isLt; have := a.isLt; have := m.isLt; simp only [packWord_cons, packWord_nil]; omega)
theorem Fields.vcvtfe5Inf (d : VReg) (a : VReg) (m : MReg) : Fields.Statement (.vcvtfe5Inf d a m) :=
  Fields.of_one rfl rfl (by have := d.isLt; have := a.isLt; have := m.isLt; simp only [packWord_cons, packWord_nil]; omega)
theorem Fields.vredadd (d : VReg) (a : VReg) (m : MReg) : Fields.Statement (.vredadd d a m) :=
  Fields.of_one rfl rfl (by have := d.isLt; have := a.isLt; have := m.isLt; simp only [packWord_cons, packWord_nil]; omega)
theorem Fields.vredfadd (d : VReg) (a : VReg) (m : MReg) : Fields.Statement (.vredfadd d a m) :=
  Fields.of_one rfl rfl (by have := d.isLt; have := a.isLt; have := m.isLt; simp only [packWord_cons, packWord_nil]; omega)
theorem Fields.vredfmax (d : VReg) (a : VReg) (m : MReg) : Fields.Statement (.vredfmax d a m) :=
  Fields.of_one rfl rfl (by have := d.isLt; have := a.isLt; have := m.isLt; simp only [packWord_cons, packWord_nil]; omega)
theorem Fields.vredfmin (d : VReg) (a : VReg) (m : MReg) : Fields.Statement (.vredfmin d a m) :=
  Fields.of_one rfl rfl (by have := d.isLt; have := a.isLt; have := m.isLt; simp only [packWord_cons, packWord_nil]; omega)
theorem Fields.vscan (d : VReg) (a : VReg) (m : MReg) : Fields.Statement (.vscan d a m) :=
  Fields.of_one rfl rfl (by have := d.isLt; have := a.isLt; have := m.isLt; simp only [packWord_cons, packWord_nil]; omega)
theorem Fields.vscanf (d : VReg) (a : VReg) (m : MReg) : Fields.Statement (.vscanf d a m) :=
  Fields.of_one rfl rfl (by have := d.isLt; have := a.isLt; have := m.isLt; simp only [packWord_cons, packWord_nil]; omega)
theorem Fields.vscanx (d : VReg) (a : VReg) (m : MReg) : Fields.Statement (.vscanx d a m) :=
  Fields.of_one rfl rfl (by have := d.isLt; have := a.isLt; have := m.isLt; simp only [packWord_cons, packWord_nil]; omega)
theorem Fields.vprune (d : MReg) (a : VReg) (b : VReg) (m : MReg) : Fields.Statement (.vprune d a b m) :=
  Fields.of_one rfl rfl (by have := d.isLt; have := a.isLt; have := b.isLt; have := m.isLt; simp only [packWord_cons, packWord_nil]; omega)
theorem Fields.vbcast (d : VReg) (a : GReg) (m : MReg) : Fields.Statement (.vbcast d a m) :=
  Fields.of_one rfl rfl (by have := d.isLt; have := a.isLt; have := m.isLt; simp only [packWord_cons, packWord_nil]; omega)
theorem Fields.vextr (d : GReg) (a : VReg) (b : GReg) : Fields.Statement (.vextr d a b) :=
  Fields.of_one rfl rfl (by have := d.isLt; have := a.isLt; have := b.isLt; simp only [packWord_cons, packWord_nil]; omega)
theorem Fields.vinsr (d : VReg) (a : GReg) (b : GReg) : Fields.Statement (.vinsr d a b) :=
  Fields.of_one rfl rfl (by have := d.isLt; have := a.isLt; have := b.isLt; simp only [packWord_cons, packWord_nil]; omega)
theorem Fields.vgath (d : VReg) (a : GReg) (b : VReg) (m : MReg) : Fields.Statement (.vgath d a b m) :=
  Fields.of_one rfl rfl (by have := d.isLt; have := a.isLt; have := b.isLt; have := m.isLt; simp only [packWord_cons, packWord_nil]; omega)
theorem Fields.vscat (d : VReg) (a : GReg) (b : VReg) (m : MReg) : Fields.Statement (.vscat d a b m) :=
  Fields.of_one rfl rfl (by have := d.isLt; have := a.isLt; have := b.isLt; have := m.isLt; simp only [packWord_cons, packWord_nil]; omega)
theorem Fields.mtog (d : GReg) (a : MReg) : Fields.Statement (.mtog d a) :=
  Fields.of_one rfl rfl (by have := d.isLt; have := a.isLt; simp only [packWord_cons, packWord_nil]; omega)
theorem Fields.gtom (d : MReg) (a : GReg) : Fields.Statement (.gtom d a) :=
  Fields.of_one rfl rfl (by have := d.isLt; have := a.isLt; simp only [packWord_cons, packWord_nil]; omega)
theorem Fields.vld (d : VReg) (a : GReg) (off : Imm) (h : Hint) (w : WaitSel) : Fields.Statement (.vld d a off h w) :=
  Fields.of_imm rfl rfl (by have := d.isLt; have := a.isLt; have := imm_field_lt off 10; have := hint_code_lt h; have := waitSel_code_lt w; simp only [packWord_cons, packWord_nil]; omega)
theorem Fields.vst (d : VReg) (a : GReg) (off : Imm) (h : Hint) (w : WaitSel) : Fields.Statement (.vst d a off h w) :=
  Fields.of_imm rfl rfl (by have := d.isLt; have := a.isLt; have := imm_field_lt off 10; have := hint_code_lt h; have := waitSel_code_lt w; simp only [packWord_cons, packWord_nil]; omega)
theorem Fields.spawn (d : GReg) (a : GReg) (b : GReg) (plc : Place) (pri : Fin 4) (twin : Bool) (rst : Bool) : Fields.Statement (.spawn d a b plc pri twin rst) :=
  Fields.of_one rfl rfl (by have := d.isLt; have := a.isLt; have := b.isLt; have := place_code_lt plc; have := pri.isLt; have := bit_lt twin; have := bit_lt rst; simp only [packWord_cons, packWord_nil]; omega)
theorem Fields.spawnt (d : GReg) (a : GReg) (b : GReg) (plc : Place) (pri : Fin 4) (twin : Bool) (rst : Bool) : Fields.Statement (.spawnt d a b plc pri twin rst) :=
  Fields.of_one rfl rfl (by have := d.isLt; have := a.isLt; have := b.isLt; have := place_code_lt plc; have := pri.isLt; have := bit_lt twin; have := bit_lt rst; simp only [packWord_cons, packWord_nil]; omega)
theorem Fields.callat (d : GReg) (a : GReg) (b : GReg) (pri : Fin 4) : Fields.Statement (.callat d a b pri) :=
  Fields.of_one rfl rfl (by have := d.isLt; have := a.isLt; have := b.isLt; have := pri.isLt; simp only [packWord_cons, packWord_nil]; omega)
theorem Fields.touch (d : GReg) (a : GReg) : Fields.Statement (.touch d a) :=
  Fields.of_one rfl rfl (by have := d.isLt; have := a.isLt; simp only [packWord_cons, packWord_nil]; omega)
theorem Fields.ttouch (d : GReg) (a : GReg) : Fields.Statement (.ttouch d a) :=
  Fields.of_one rfl rfl (by have := d.isLt; have := a.isLt; simp only [packWord_cons, packWord_nil]; omega)
theorem Fields.resolve (d : GReg) (a : GReg) (b : GReg) : Fields.Statement (.resolve d a b) :=
  Fields.of_one rfl rfl (by have := d.isLt; have := a.isLt; have := b.isLt; simp only [packWord_cons, packWord_nil]; omega)
theorem Fields.poison (d : GReg) (a : GReg) (b : GReg) : Fields.Statement (.poison d a b) :=
  Fields.of_one rfl rfl (by have := d.isLt; have := a.isLt; have := b.isLt; simp only [packWord_cons, packWord_nil]; omega)
theorem Fields.cancel (d : GReg) (a : GReg) : Fields.Statement (.cancel d a) :=
  Fields.of_one rfl rfl (by have := d.isLt; have := a.isLt; simp only [packWord_cons, packWord_nil]; omega)
theorem Fields.cancelTree (d : GReg) (a : GReg) : Fields.Statement (.cancelTree d a) :=
  Fields.of_one rfl rfl (by have := d.isLt; have := a.isLt; simp only [packWord_cons, packWord_nil]; omega)
theorem Fields.fnew (d : GReg) : Fields.Statement (.fnew d) :=
  Fields.of_one rfl rfl (by have := d.isLt; simp only [packWord_cons, packWord_nil]; omega)
theorem Fields.ffree (a : GReg) : Fields.Statement (.ffree a) :=
  Fields.of_one rfl rfl (by have := a.isLt; simp only [packWord_cons, packWord_nil]; omega)
theorem Fields.fstat (d : GReg) (a : GReg) : Fields.Statement (.fstat d a) :=
  Fields.of_one rfl rfl (by have := d.isLt; have := a.isLt; simp only [packWord_cons, packWord_nil]; omega)
theorem Fields.chkc : Fields.Statement .chkc :=
  Fields.of_one rfl rfl (by simp only [packWord_nil]; omega)
theorem Fields.yield : Fields.Statement .yield :=
  Fields.of_one rfl rfl (by simp only [packWord_nil]; omega)
theorem Fields.term (a : GReg) : Fields.Statement (.term a) :=
  Fields.of_one rfl rfl (by have := a.isLt; simp only [packWord_cons, packWord_nil]; omega)
theorem Fields.send (d : GReg) (a : GReg) (b : GReg) (n : Fin 9) : Fields.Statement (.send d a b n) :=
  Fields.of_one rfl rfl (by have := d.isLt; have := a.isLt; have := b.isLt; have := n.isLt; simp only [packWord_cons, packWord_nil]; omega)
theorem Fields.hret : Fields.Statement .hret :=
  Fields.of_one rfl rfl (by simp only [packWord_nil]; omega)
theorem Fields.launch (d : GReg) (a : GReg) (b : GReg) : Fields.Statement (.launch d a b) :=
  Fields.of_one rfl rfl (by have := d.isLt; have := a.isLt; have := b.isLt; simp only [packWord_cons, packWord_nil]; omega)
theorem Fields.flood (a : GReg) : Fields.Statement (.flood a) :=
  Fields.of_one rfl rfl (by have := a.isLt; simp only [packWord_cons, packWord_nil]; omega)
theorem Fields.setwp (a : GReg) (b : GReg) : Fields.Statement (.setwp a b) :=
  Fields.of_one rfl rfl (by have := a.isLt; have := b.isLt; simp only [packWord_cons, packWord_nil]; omega)
theorem Fields.start (d : GReg) (a : GReg) (b : GReg) : Fields.Statement (.start d a b) :=
  Fields.of_one rfl rfl (by have := d.isLt; have := a.isLt; have := b.isLt; simp only [packWord_cons, packWord_nil]; omega)
theorem Fields.stopc (d : GReg) (a : GReg) (b : GReg) : Fields.Statement (.stopc d a b) :=
  Fields.of_one rfl rfl (by have := d.isLt; have := a.isLt; have := b.isLt; simp only [packWord_cons, packWord_nil]; omega)
theorem Fields.trap (a : GReg) : Fields.Statement (.trap a) :=
  Fields.of_one rfl rfl (by have := a.isLt; simp only [packWord_cons, packWord_nil]; omega)
theorem Fields.eret : Fields.Statement .eret :=
  Fields.of_one rfl rfl (by simp only [packWord_nil]; omega)
theorem Fields.ctrlr (d : GReg) (a : GReg) : Fields.Statement (.ctrlr d a) :=
  Fields.of_one rfl rfl (by have := d.isLt; have := a.isLt; simp only [packWord_cons, packWord_nil]; omega)
theorem Fields.ctrlw (a : GReg) (b : GReg) : Fields.Statement (.ctrlw a b) :=
  Fields.of_one rfl rfl (by have := a.isLt; have := b.isLt; simp only [packWord_cons, packWord_nil]; omega)
theorem Fields.bankmode (a : GReg) (b : GReg) : Fields.Statement (.bankmode a b) :=
  Fields.of_one rfl rfl (by have := a.isLt; have := b.isLt; simp only [packWord_cons, packWord_nil]; omega)
theorem Fields.park (d : GReg) (a : GReg) : Fields.Statement (.park d a) :=
  Fields.of_one rfl rfl (by have := d.isLt; have := a.isLt; simp only [packWord_cons, packWord_nil]; omega)
theorem Fields.acc (a : GReg) (b : VReg) (m : MReg) : Fields.Statement (.acc a b m) :=
  Fields.of_one rfl rfl (by have := a.isLt; have := b.isLt; have := m.isLt; simp only [packWord_cons, packWord_nil]; omega)
theorem Fields.accBf16 (a : GReg) (b : VReg) (m : MReg) : Fields.Statement (.accBf16 a b m) :=
  Fields.of_one rfl rfl (by have := a.isLt; have := b.isLt; have := m.isLt; simp only [packWord_cons, packWord_nil]; omega)
theorem Fields.rmerge (a : GReg) (b : VReg) (m : MReg) (ks : Fin 4) : Fields.Statement (.rmerge a b m ks) :=
  Fields.of_one rfl rfl (by have := a.isLt; have := b.isLt; have := m.isLt; have := ks.isLt; simp only [packWord_cons, packWord_nil]; omega)
theorem Fields.flushresAll : Fields.Statement .flushresAll :=
  Fields.of_one rfl rfl (by simp only [packWord_nil]; omega)
theorem Fields.flushresRange (a : GReg) (b : GReg) : Fields.Statement (.flushresRange a b) :=
  Fields.of_one rfl rfl (by have := a.isLt; have := b.isLt; simp only [packWord_cons, packWord_nil]; omega)
theorem Fields.hsift (d : GReg) (a : GReg) (b : GReg) : Fields.Statement (.hsift d a b) :=
  Fields.of_one rfl rfl (by have := d.isLt; have := a.isLt; have := b.isLt; simp only [packWord_cons, packWord_nil]; omega)
theorem Fields.hmerge (d : GReg) (a : GReg) (b : GReg) : Fields.Statement (.hmerge d a b) :=
  Fields.of_one rfl rfl (by have := d.isLt; have := a.isLt; have := b.isLt; simp only [packWord_cons, packWord_nil]; omega)
theorem Fields.shelfput (a : GReg) (b : GReg) : Fields.Statement (.shelfput a b) :=
  Fields.of_one rfl rfl (by have := a.isLt; have := b.isLt; simp only [packWord_cons, packWord_nil]; omega)
theorem Fields.shelfcloseAll : Fields.Statement .shelfcloseAll :=
  Fields.of_one rfl rfl (by simp only [packWord_nil]; omega)
theorem Fields.shelfcloseDie (a : GReg) : Fields.Statement (.shelfcloseDie a) :=
  Fields.of_one rfl rfl (by have := a.isLt; simp only [packWord_cons, packWord_nil]; omega)
theorem Fields.mfmt (accm : Bool) (rc : RoundMode) (bf : Fin 16) (af : Fin 16) (gAS : GReg) (gAB : GReg) (gBS : GReg) (gBB : GReg) : Fields.Statement (.mfmt accm rc bf af gAS gAB gBS gBB) :=
  Fields.of_four rfl rfl (by have := bit_lt accm; have := roundMode_code_lt rc; have := bf.isLt; have := af.isLt; have := gAS.isLt; have := gAB.isLt; have := gBS.isLt; have := gBB.isLt; simp only [packWord_cons, packWord_nil]; refine ⟨?_, ?_, ?_, ?_⟩ <;> omega)
theorem Fields.malloc (d : GReg) (t : Fin 8) (g0 : Fin 8) (ng : Fin 8) (kind : GroupKind) (ks : Fin 4) : Fields.Statement (.malloc d t g0 ng kind ks) :=
  Fields.of_four rfl rfl (by have := d.isLt; have := t.isLt; have := g0.isLt; have := ng.isLt; have := groupKind_code_lt kind; have := ks.isLt; simp only [packWord_cons, packWord_nil]; refine ⟨?_, ?_, ?_, ?_⟩ <;> omega)
theorem Fields.mfree (t : Fin 8) (g0 : Fin 8) (ng : Fin 8) : Fields.Statement (.mfree t g0 ng) :=
  Fields.of_four rfl rfl (by have := t.isLt; have := g0.isLt; have := ng.isLt; simp only [packWord_cons, packWord_nil]; refine ⟨?_, ?_, ?_, ?_⟩ <;> omega)
theorem Fields.mzero (t : Fin 8) (row0 : Fin 128) (nr : Fin 128) (cw : Completion) : Fields.Statement (.mzero t row0 nr cw) :=
  Fields.of_four rfl rfl (by have := t.isLt; have := row0.isLt; have := nr.isLt; have := completion_word_lt cw; simp only [packWord_cons, packWord_nil]; refine ⟨?_, ?_, ?_, ?_⟩ <;> omega)
theorem Fields.mma (t : Fin 8) (shp : Fin 4) (row0 : Fin 128) (nr : Fin 128) (gA : GReg) (gSA : GReg) (gB : GReg) (gSB : GReg) (cw : Completion) : Fields.Statement (.mma t shp row0 nr gA gSA gB gSB cw) :=
  Fields.of_four rfl rfl (by have := t.isLt; have := shp.isLt; have := row0.isLt; have := nr.isLt; have := gA.isLt; have := gSA.isLt; have := gB.isLt; have := gSB.isLt; have := completion_word_lt cw; simp only [packWord_cons, packWord_nil]; refine ⟨?_, ?_, ?_, ?_⟩ <;> omega)
theorem Fields.gmma (t : Fin 8) (nt : Fin 8) (nw : Fin 4) (ng : Fin 64) (gA : GReg) (gSA : GReg) (gG : GReg) (gSB : GReg) (cw : Completion) : Fields.Statement (.gmma t nt nw ng gA gSA gG gSB cw) :=
  Fields.of_four rfl rfl (by have := t.isLt; have := nt.isLt; have := nw.isLt; have := ng.isLt; have := gA.isLt; have := gSA.isLt; have := gG.isLt; have := gSB.isLt; have := completion_word_lt cw; simp only [packWord_cons, packWord_nil]; refine ⟨?_, ?_, ?_, ?_⟩ <;> omega)
theorem Fields.mdrain (t : Fin 8) (row0 : Fin 128) (nr : Fin 128) (df : Bool) (dst : DrainDst) (gD : GReg) (gSD : GReg) (cw : Completion) : Fields.Statement (.mdrain t row0 nr df dst gD gSD cw) :=
  Fields.of_four rfl rfl (by have := t.isLt; have := row0.isLt; have := nr.isLt; have := bit_lt df; have := drainDst_code_lt dst; have := drainDst_reg_lt dst; have := gD.isLt; have := gSD.isLt; have := completion_word_lt cw; simp only [packWord_cons, packWord_nil]; refine ⟨?_, ?_, ?_, ?_⟩ <;> omega)
theorem Fields.mquant (t : Fin 8) (row0 : Fin 128) (nr : Fin 128) (dst : DrainDst) (qf : QuantFmt) (gD : GReg) (gSD : GReg) (cw : Completion) : Fields.Statement (.mquant t row0 nr dst qf gD gSD cw) :=
  Fields.of_four rfl rfl (by have := t.isLt; have := row0.isLt; have := nr.isLt; have := drainDst_code_lt dst; have := drainDst_reg_lt dst; have := quantFmt_word_lt qf; have := gD.isLt; have := gSD.isLt; have := completion_word_lt cw; simp only [packWord_cons, packWord_nil]; refine ⟨?_, ?_, ?_, ?_⟩ <;> omega)
theorem Fields.msync : Fields.Statement .msync :=
  Fields.of_four rfl rfl (by refine ⟨?_, ?_, ?_, ?_⟩ <;> omega)
theorem Fields.mrank (ts : Fin 8) (t : Fin 8) (row0 : Fin 128) (nr : Fin 128) (srow0 : Fin 128) (ncm : Fin 128) (gC : GReg) (cw : Completion) : Fields.Statement (.mrank ts t row0 nr srow0 ncm gC cw) :=
  Fields.of_four rfl rfl (by have := ts.isLt; have := t.isLt; have := row0.isLt; have := nr.isLt; have := srow0.isLt; have := ncm.isLt; have := gC.isLt; have := completion_word_lt cw; simp only [packWord_cons, packWord_nil]; refine ⟨?_, ?_, ?_, ?_⟩ <;> omega)
theorem Fields.mthr (row0 : Fin 128) (t : Fin 8) (gF : GReg) (d : VReg) (cw : Completion) : Fields.Statement (.mthr row0 t gF d cw) :=
  Fields.of_four rfl rfl (by have := row0.isLt; have := t.isLt; have := gF.isLt; have := d.isLt; have := completion_word_lt cw; simp only [packWord_cons, packWord_nil]; refine ⟨?_, ?_, ?_, ?_⟩ <;> omega)
theorem Fields.acct (t : Fin 8) (row0 : Fin 128) (nr : Fin 128) (df : Bool) (gD : GReg) (gSD : GReg) (cw : Completion) : Fields.Statement (.acct t row0 nr df gD gSD cw) :=
  Fields.of_four rfl rfl (by have := t.isLt; have := row0.isLt; have := nr.isLt; have := bit_lt df; have := gD.isLt; have := gSD.isLt; have := completion_word_lt cw; simp only [packWord_cons, packWord_nil]; refine ⟨?_, ?_, ?_, ?_⟩ <;> omega)
theorem Fields.tcopy (gT : GReg) (cw : Completion) : Fields.Statement (.tcopy gT cw) :=
  Fields.of_four rfl rfl (by have := gT.isLt; have := completion_word_lt cw; simp only [packWord_cons, packWord_nil]; refine ⟨?_, ?_, ?_, ?_⟩ <;> omega)
theorem Fields.tgather (gS : GReg) (gD : GReg) (gI : GReg) (gN : GReg) (gRB : GReg) (gSS : GReg) (gDS : GReg) (cw : Completion) : Fields.Statement (.tgather gS gD gI gN gRB gSS gDS cw) :=
  Fields.of_four rfl rfl (by have := gS.isLt; have := gD.isLt; have := gI.isLt; have := gN.isLt; have := gRB.isLt; have := gSS.isLt; have := gDS.isLt; have := completion_word_lt cw; simp only [packWord_cons, packWord_nil]; refine ⟨?_, ?_, ?_, ?_⟩ <;> omega)
theorem Fields.tscatter (gS : GReg) (gD : GReg) (gI : GReg) (gN : GReg) (gRB : GReg) (gSS : GReg) (gDS : GReg) (cw : Completion) : Fields.Statement (.tscatter gS gD gI gN gRB gSS gDS cw) :=
  Fields.of_four rfl rfl (by have := gS.isLt; have := gD.isLt; have := gI.isLt; have := gN.isLt; have := gRB.isLt; have := gSS.isLt; have := gDS.isLt; have := completion_word_lt cw; simp only [packWord_cons, packWord_nil]; refine ⟨?_, ?_, ?_, ?_⟩ <;> omega)
theorem Fields.tmcast (gS : GReg) (gD : GReg) (gM : GReg) (gN : GReg) (cw : Completion) : Fields.Statement (.tmcast gS gD gM gN cw) :=
  Fields.of_four rfl rfl (by have := gS.isLt; have := gD.isLt; have := gM.isLt; have := gN.isLt; have := completion_word_lt cw; simp only [packWord_cons, packWord_nil]; refine ⟨?_, ?_, ?_, ?_⟩ <;> omega)
theorem Fields.tfill (esz : Fin 4) (gD : GReg) (gV : GReg) (gN : GReg) (cw : Completion) : Fields.Statement (.tfill esz gD gV gN cw) :=
  Fields.of_four rfl rfl (by have := esz.isLt; have := gD.isLt; have := gV.isLt; have := gN.isLt; have := completion_word_lt cw; simp only [packWord_cons, packWord_nil]; refine ⟨?_, ?_, ?_, ?_⟩ <;> omega)
theorem Fields.packetNop (part : Nat) (q : Nat) : Fields.Statement (.packetNop part q) :=
  Fields.of_none rfl rfl
theorem Fields.launchKernel (part : Nat) (q : Nat) : Fields.Statement (.launchKernel part q) :=
  Fields.of_none rfl rfl
theorem Fields.launchGraph (part : Nat) (q : Nat) : Fields.Statement (.launchGraph part q) :=
  Fields.of_none rfl rfl
theorem Fields.write (part : Nat) (q : Nat) : Fields.Statement (.write part q) :=
  Fields.of_none rfl rfl
theorem Fields.writeSignal (part : Nat) (q : Nat) : Fields.Statement (.writeSignal part q) :=
  Fields.of_none rfl rfl
theorem Fields.waitValue (part : Nat) (q : Nat) : Fields.Statement (.waitValue part q) :=
  Fields.of_none rfl rfl
theorem Fields.waitValueRetest (part : Nat) (q : Nat) : Fields.Statement (.waitValueRetest part q) :=
  Fields.of_none rfl rfl
theorem Fields.copy (part : Nat) (q : Nat) : Fields.Statement (.copy part q) :=
  Fields.of_none rfl rfl
theorem Fields.packetFence (part : Nat) (q : Nat) : Fields.Statement (.packetFence part q) :=
  Fields.of_none rfl rfl
theorem Fields.ctrlWrite (part : Nat) (q : Nat) : Fields.Statement (.ctrlWrite part q) :=
  Fields.of_none rfl rfl
theorem Fields.partStop (part : Nat) (q : Nat) : Fields.Statement (.partStop part q) :=
  Fields.of_none rfl rfl
theorem Fields.partStart (part : Nat) (q : Nat) : Fields.Statement (.partStart part q) :=
  Fields.of_none rfl rfl
theorem Fields.partReset (part : Nat) (q : Nat) : Fields.Statement (.partReset part q) :=
  Fields.of_none rfl rfl
theorem Fields.barAssign (part : Nat) (q : Nat) : Fields.Statement (.barAssign part q) :=
  Fields.of_none rfl rfl
theorem Fields.queueConfig (part : Nat) (q : Nat) : Fields.Statement (.queueConfig part q) :=
  Fields.of_none rfl rfl
theorem Fields.ctxStart (part : Nat) (q : Nat) : Fields.Statement (.ctxStart part q) :=
  Fields.of_none rfl rfl
theorem Fields.queuePoll (part : Nat) (q : Nat) : Fields.Statement (.queuePoll part q) :=
  Fields.of_none rfl rfl
theorem Fields.graphEnd (die : Nat) (walker : Nat) : Fields.Statement (.graphEnd die walker) :=
  Fields.of_none rfl rfl
theorem Fields.graphKernel (die : Nat) (walker : Nat) : Fields.Statement (.graphKernel die walker) :=
  Fields.of_none rfl rfl
theorem Fields.graphCond (die : Nat) (walker : Nat) : Fields.Statement (.graphCond die walker) :=
  Fields.of_none rfl rfl
theorem Fields.graphLoop (die : Nat) (walker : Nat) : Fields.Statement (.graphLoop die walker) :=
  Fields.of_none rfl rfl
theorem Fields.graphJoin (die : Nat) (walker : Nat) : Fields.Statement (.graphJoin die walker) :=
  Fields.of_none rfl rfl
theorem Fields.launchAppend (id : Nat) : Fields.Statement (.launchAppend id) :=
  Fields.of_none rfl rfl
theorem Fields.launchWake (id : Nat) (core : Nat) : Fields.Statement (.launchWake id core) :=
  Fields.of_none rfl rfl
theorem Fields.rootReport (id : Nat) : Fields.Statement (.rootReport id) :=
  Fields.of_none rfl rfl
theorem Fields.controlPortRead (port : Nat) (die : Nat) (tgt : PortTarget) (addr : Nat) (len : Nat) : Fields.Statement (.controlPortRead port die tgt addr len) :=
  Fields.of_none rfl rfl
theorem Fields.controlPortWrite (port : Nat) (die : Nat) (tgt : PortTarget) (addr : Nat) (data : List Byte) : Fields.Statement (.controlPortWrite port die tgt addr data) :=
  Fields.of_none rfl rfl
theorem Fields.controlPortFailure (port : Nat) : Fields.Statement (.controlPortFailure port) :=
  Fields.of_none rfl rfl
theorem Fields.svcDoorbell (die : Nat) (value : Nat) : Fields.Statement (.svcDoorbell die value) :=
  Fields.of_none rfl rfl
theorem Fields.svcRefire (die : Nat) (value : Nat) : Fields.Statement (.svcRefire die value) :=
  Fields.of_none rfl rfl
theorem Fields.refireTakeover : Fields.Statement .refireTakeover :=
  Fields.of_none rfl rfl
theorem Fields.refireAbort : Fields.Statement .refireAbort :=
  Fields.of_none rfl rfl
theorem Fields.svcAttest (off : Nat) (data : List Byte) : Fields.Statement (.svcAttest off data) :=
  Fields.of_none rfl rfl
theorem Fields.attestQuoteReady : Fields.Statement .attestQuoteReady :=
  Fields.of_none rfl rfl
theorem Fields.xlInv (id : Nat) : Fields.Statement (.xlInv id) :=
  Fields.of_none rfl rfl
theorem Fields.fifoPop (id : Nat) : Fields.Statement (.fifoPop id) :=
  Fields.of_none rfl rfl
theorem Fields.fifoPush (id : Nat) : Fields.Statement (.fifoPush id) :=
  Fields.of_none rfl rfl
theorem Fields.powerGood : Fields.Statement .powerGood :=
  Fields.of_none rfl rfl
theorem Fields.kilnFailover : Fields.Statement .kilnFailover :=
  Fields.of_none rfl rfl
theorem Fields.thermalStop (die : Nat) : Fields.Statement (.thermalStop die) :=
  Fields.of_none rfl rfl
theorem Fields.powerLimit (milliwatts : Nat) : Fields.Statement (.powerLimit milliwatts) :=
  Fields.of_none rfl rfl
theorem Fields.timeSliceExpiry (old : Nat) (new : Nat) (image : Nat) : Fields.Statement (.timeSliceExpiry old new image) :=
  Fields.of_none rfl rfl
theorem Fields.linkDead (port : Nat) : Fields.Statement (.linkDead port) :=
  Fields.of_none rfl rfl
theorem Fields.linkRetrained (port : Nat) : Fields.Statement (.linkRetrained port) :=
  Fields.of_none rfl rfl
theorem Fields.linkStateUpdate (port : Nat) (word : Nat) : Fields.Statement (.linkStateUpdate port word) :=
  Fields.of_none rfl rfl
theorem Fields.routeRecomputation : Fields.Statement .routeRecomputation :=
  Fields.of_none rfl rfl
theorem Fields.drainRoundEnd (dest : Nat) : Fields.Statement (.drainRoundEnd dest) :=
  Fields.of_none rfl rfl
theorem Fields.clusterFence (cl : Nat) : Fields.Statement (.clusterFence cl) :=
  Fields.of_none rfl rfl
theorem Fields.nearArrival (id : Nat) : Fields.Statement (.nearArrival id) :=
  Fields.of_none rfl rfl
theorem Fields.arrivalLogReplay (part : Nat) : Fields.Statement (.arrivalLogReplay part) :=
  Fields.of_none rfl rfl
theorem Fields.homeSliceAccess (id : Nat) : Fields.Statement (.homeSliceAccess id) :=
  Fields.of_none rfl rfl
theorem Fields.pageWalk (id : Nat) : Fields.Statement (.pageWalk id) :=
  Fields.of_none rfl rfl
theorem Fields.atomicAtAgent (id : Nat) : Fields.Statement (.atomicAtAgent id) :=
  Fields.of_none rfl rfl
theorem Fields.replyArrival (id : Nat) : Fields.Statement (.replyArrival id) :=
  Fields.of_none rfl rfl
theorem Fields.acknowledgement (id : Nat) : Fields.Statement (.acknowledgement id) :=
  Fields.of_none rfl rfl
theorem Fields.accumulateArrival (id : Nat) : Fields.Statement (.accumulateArrival id) :=
  Fields.of_none rfl rfl
theorem Fields.flushAccumulate (id : Nat) : Fields.Statement (.flushAccumulate id) :=
  Fields.of_none rfl rfl
theorem Fields.refusalReturn (id : Nat) : Fields.Statement (.refusalReturn id) :=
  Fields.of_none rfl rfl
theorem Fields.accqWindow (cl : Nat) : Fields.Statement (.accqWindow cl) :=
  Fields.of_none rfl rfl
theorem Fields.arbiterPick (cl : Nat) : Fields.Statement (.arbiterPick cl) :=
  Fields.of_none rfl rfl
theorem Fields.wedgeHoldExpiry (cl : Nat) (entry : Nat) : Fields.Statement (.wedgeHoldExpiry cl entry) :=
  Fields.of_none rfl rfl
theorem Fields.wedgePriorityRelease (cl : Nat) (entry : Nat) : Fields.Statement (.wedgePriorityRelease cl entry) :=
  Fields.of_none rfl rfl
theorem Fields.commandStart (core : Nat) (eng : Engine) : Fields.Statement (.commandStart core eng) :=
  Fields.of_none rfl rfl
theorem Fields.commandCompletion (id : Nat) : Fields.Statement (.commandCompletion id) :=
  Fields.of_none rfl rfl
theorem Fields.engineWriteAcknowledgement (id : Nat) : Fields.Statement (.engineWriteAcknowledgement id) :=
  Fields.of_none rfl rfl
theorem Fields.drainWake (core : Nat) : Fields.Statement (.drainWake core) :=
  Fields.of_none rfl rfl
theorem Fields.shelfTimer (cl : Nat) (die : Nat) : Fields.Statement (.shelfTimer cl die) :=
  Fields.of_none rfl rfl
theorem Fields.shelfArrival (id : Nat) : Fields.Statement (.shelfArrival id) :=
  Fields.of_none rfl rfl
theorem Fields.sweeperRecord (die : Nat) : Fields.Statement (.sweeperRecord die) :=
  Fields.of_none rfl rfl
theorem Fields.taskRecordArrival (id : Nat) : Fields.Statement (.taskRecordArrival id) :=
  Fields.of_none rfl rfl
theorem Fields.prefetchGrant (cl : Nat) : Fields.Statement (.prefetchGrant cl) :=
  Fields.of_none rfl rfl
theorem Fields.prefetchDone (cl : Nat) (rid : Nat) : Fields.Statement (.prefetchDone cl rid) :=
  Fields.of_none rfl rfl
theorem Fields.dispatch (cl : Nat) : Fields.Statement (.dispatch cl) :=
  Fields.of_none rfl rfl
theorem Fields.workspaceCopyDone (cl : Nat) (rid : Nat) : Fields.Statement (.workspaceCopyDone cl rid) :=
  Fields.of_none rfl rfl
theorem Fields.taskAging (cl : Nat) (rid : Nat) : Fields.Statement (.taskAging cl rid) :=
  Fields.of_none rfl rfl
theorem Fields.loadHintPublication (cl : Nat) (wide : Bool) : Fields.Statement (.loadHintPublication cl wide) :=
  Fields.of_none rfl rfl
theorem Fields.cancelRequest (id : Nat) : Fields.Statement (.cancelRequest id) :=
  Fields.of_none rfl rfl
theorem Fields.treeCancel (id : Nat) : Fields.Statement (.treeCancel id) :=
  Fields.of_none rfl rfl
theorem Fields.futureRequest (id : Nat) : Fields.Statement (.futureRequest id) :=
  Fields.of_none rfl rfl
theorem Fields.futureWake (id : Nat) : Fields.Statement (.futureWake id) :=
  Fields.of_none rfl rfl
theorem Fields.messageArrival (id : Nat) : Fields.Statement (.messageArrival id) :=
  Fields.of_none rfl rfl
theorem Fields.messageRetry (id : Nat) : Fields.Statement (.messageRetry id) :=
  Fields.of_none rfl rfl
theorem Fields.activation (core : Nat) : Fields.Statement (.activation core) :=
  Fields.of_none rfl rfl
theorem Fields.systemAtomic (core : Nat) : Fields.Statement (.systemAtomic core) :=
  Fields.of_none rfl rfl
theorem Fields.systemNibbleStore (core : Nat) : Fields.Statement (.systemNibbleStore core) :=
  Fields.of_none rfl rfl
theorem Fields.barrierTimeout (lvl : Level) (unit : Nat) (obj : Nat) : Fields.Statement (.barrierTimeout lvl unit obj) :=
  Fields.of_none rfl rfl
theorem Fields.mailboxPost (id : Nat) : Fields.Statement (.mailboxPost id) :=
  Fields.of_none rfl rfl
theorem Fields.heldTaskEnd (core : Nat) (ctx : Nat) : Fields.Statement (.heldTaskEnd core ctx) :=
  Fields.of_none rfl rfl
theorem Fields.twinCompare (pair : Nat) : Fields.Statement (.twinCompare pair) :=
  Fields.of_none rfl rfl
theorem Fields.barrierCompletion (core : Nat) (ctx : Nat) : Fields.Statement (.barrierCompletion core ctx) :=
  Fields.of_none rfl rfl

end Sys2Proof.Laws
end

