-- ==== Sys2Proof/Laws/Regs.lean ====
section
/-! SUPPORT. Laws/Regs.lean: what a write of a register does to the registers and to the rest of the state, and what
completing an instruction does; one lemma for each shared way in which instructions complete. -/
namespace Sys2Proof.Machine

/-! ### BytesOnly as a relation -/

theorem BytesOnly.refl (rs : List Range) (s : State) : BytesOnly rs s s :=
  ⟨rfl, fun _ _ => rfl, fun _ h => h, fun _ h _ => h⟩

theorem BytesOnly.trans {r1 r2 : List Range} {s t u : State} (h : BytesOnly r1 s t) (g : BytesOnly r2 t u) :
    BytesOnly (r1 ++ r2) s u := by
  refine ⟨?_, fun a ha => ?_, fun w hw => h.healed w (g.healed w hw), fun w hw hd => ?_⟩
  · rw [g.rest, h.rest]
  · rw [g.byte a (fun r hr => ha r (List.mem_append_right _ hr)), h.byte a (fun r hr => ha r (List.mem_append_left _ hr))]
  · exact g.kept w (h.kept w hw (fun r hr => hd r (List.mem_append_left _ hr))) (fun r hr => hd r (List.mem_append_right _ hr))

theorem BytesOnly.mono {r1 r2 : List Range} {s t : State} (h : BytesOnly r1 s t) (hr : ∀ r ∈ r1, r ∈ r2) :
    BytesOnly r2 s t :=
  ⟨h.rest, fun a ha => h.byte a (fun r x => ha r (hr r x)), h.healed, fun w hw hd => h.kept w hw (fun r x => hd r (hr r x))⟩

/-- Bytes written at a location. -/
theorem BytesOnly.wr (s : State) (loc : Nat) (bs : List Byte) : BytesOnly [(loc, bs.length)] s (s.wr loc bs) := by
  refine ⟨rfl, fun a ha => ?_, fun w hw => (List.mem_filter.1 hw).1, fun w hw hd => List.mem_filter.2 ⟨hw, ?_⟩⟩
  · have := ha _ (List.mem_singleton_self _)
    simp only [State.wr, State.put, Memory.get_write]
    rw [if_neg (by omega)]
  · have hd := hd _ (List.mem_singleton_self _)
    by_cases hb : bs.length = 0
    · rcases hd with h | h <;> simp at h ⊢ <;> omega
    · rcases hd with h | h <;> simp at h ⊢ <;> omega

/-- Bytes written in a workspace through the register cache. -/
theorem BytesOnly.cacheWr (s : State) (c x off : Nat) (bs : List Byte) :
    BytesOnly [(s.wsLoc c x off, bs.length)] s (s.cacheWr c x off bs) :=
  have h := BytesOnly.wr s (s.wsLoc c x off) bs
  ⟨rfl, h.byte, h.healed, h.kept⟩

section rest
variable {rs : List Range} {s t : State} (h : BytesOnly rs s t)
include h

theorem BytesOnly.cur : t.cur = s.cur := by rw [h.rest]
theorem BytesOnly.ctxAt (c x : Nat) : t.ctxAt c x = s.ctxAt c x := by rw [h.rest]; rfl
theorem BytesOnly.core (c : Nat) : t.core c = s.core c := by rw [h.rest]; rfl
theorem BytesOnly.wsLoc (c x off : Nat) : t.wsLoc c x off = s.wsLoc c x off := by
  simp only [State.wsLoc, h.ctxAt]

/-- A word outside every range reads as before. -/
theorem BytesOnly.wsGet (c x off n : Nat) (hd : ∀ r ∈ rs, s.wsLoc c x off + n ≤ r.1 ∨ r.1 + r.2 ≤ s.wsLoc c x off) :
    t.wsGet c x off n = s.wsGet c x off n := by
  simp only [State.wsGet, h.wsLoc, State.rd]
  congr 1
  refine Memory.read_congr (fun a ha ha' => h.byte a (fun r hr => ?_))
  have := hd r hr; omega

end rest

/-! ### Words of a workspace -/

theorem wsLoc_eq (s : State) (c x off : Nat) : s.wsLoc c x off = s.wsLoc c x 0 + off := by
  simp only [State.wsLoc, pmLoc, nearLoc]; omega

theorem wsGet_lt (s : State) (c x off n : Nat) : s.wsGet c x off n < 2 ^ (8 * n) := by
  have := natOf_lt (s.rd (s.wsLoc c x off) n)
  simpa [State.wsGet, State.rd] using this

@[simp] theorem wsLoc_wr (s : State) (loc : Nat) (bs : List Byte) (c x off : Nat) :
    (s.wr loc bs).wsLoc c x off = s.wsLoc c x off := rfl

theorem wsSet_bytesOnly (s : State) (c x off n v : Nat) : BytesOnly [(s.wsLoc c x off, n)] s (s.wsSet c x off n v) := by
  have := BytesOnly.cacheWr s c x off (bytesOf n v)
  rwa [bytesOf_length] at this

/-- A word read back after it is written. -/
theorem wsGet_wsSet (s : State) (c x off n v : Nat) : (s.wsSet c x off n v).wsGet c x off n = v % 2 ^ (8 * n) := by
  have h := Memory.read_write_same s.mem (s.wsLoc c x off) (bytesOf n v)
  rw [bytesOf_length] at h
  simp only [State.wsGet, State.rd]
  rw [show (s.wsSet c x off n v).mem = s.mem.write (s.wsLoc c x off) (bytesOf n v) from rfl,
    show (s.wsSet c x off n v).wsLoc c x off = s.wsLoc c x off from rfl, h, natOf_bytesOf]

/-- A word of the same workspace read after another is written. -/
theorem wsGet_wsSet_ne (s : State) (c x off n v off' n' : Nat) (h : off' + n' ≤ off ∨ off + n ≤ off') :
    (s.wsSet c x off n v).wsGet c x off' n' = s.wsGet c x off' n' := by
  refine (wsSet_bytesOnly s c x off n v).wsGet c x off' n' (fun r hr => ?_)
  rw [List.mem_singleton] at hr; subst hr
  have h1 := wsLoc_eq s c x off
  have h2 := wsLoc_eq s c x off'
  simp only; omega

@[simp] theorem cxAt_wsSet (s : State) (c x off n v off' : Nat) (h : off' + 8 ≤ off ∨ off + n ≤ off') :
    (s.wsSet c x off n v).cxAt c x off' = s.cxAt c x off' := wsGet_wsSet_ne s c x off n v off' 8 h

/-! ### General registers, mask registers and context words -/

theorem setGAt_bytesOnly (s : State) (c x r v : Nat) :
    BytesOnly (if r = 0 then [] else [(s.wsLoc c x (8 * r), 8)]) s (s.setGAt c x r v) := by
  unfold State.setGAt
  split_ifs
  · exact BytesOnly.refl _ _
  · exact wsSet_bytesOnly s c x (8 * r) 8 v

theorem gReg_zero (r : GReg) : r.val = 0 ↔ r = 0 := ⟨fun h => Fin.ext h, fun h => by simp [h]⟩
theorem mReg_zero (r : MReg) : r.val = 0 ↔ r = 0 := ⟨fun h => Fin.ext h, fun h => by simp [h]⟩

/-- A write of a general register changes its bytes alone, and none for g0 (R21). -/
theorem setGN_bytesOnly (s : State) (d : GReg) (v : Nat) : BytesOnly (s.gRange d) s (s.setGN d v) := by
  have := setGAt_bytesOnly s s.cur.core s.cur.ctx d.val (v % 2 ^ 64)
  simp only [gReg_zero] at this
  exact this

theorem setG_bytesOnly (s : State) (d : GReg) (v : Word) : BytesOnly (s.gRange d) s (s.setG d v) := by
  have := setGAt_bytesOnly s s.cur.core s.cur.ctx d.val v.toNat
  simp only [gReg_zero] at this
  exact this

/-- A general register read back after it is written; g0 reads zero (R21). -/
theorem gAt_setGAt (s : State) (c x r v : Nat) : (s.setGAt c x r v).gAt c x r = if r = 0 then 0 else v % 2 ^ 64 := by
  by_cases h : r = 0
  · simp [State.gAt, h]
  · simp only [State.gAt, State.setGAt, h, if_false]
    exact wsGet_wsSet s c x (8 * r) 8 v

@[simp] theorem setGAt_cur (s : State) (c x r v : Nat) : (s.setGAt c x r v).cur = s.cur := (setGAt_bytesOnly s c x r v).cur

theorem gN_setGN (s : State) (d : GReg) (v : Nat) : (s.setGN d v).gN d = if d = 0 then 0 else v % 2 ^ 64 := by
  have h := gAt_setGAt s s.cur.core s.cur.ctx d.val (v % 2 ^ 64)
  rw [Nat.mod_mod] at h
  simpa only [State.gN, State.setGN, setGAt_cur, gReg_zero] using h

theorem g_setG (s : State) (d : GReg) (v : Word) : (s.setG d v).g d = if d = 0 then 0 else v := by
  have h := gAt_setGAt s s.cur.core s.cur.ctx d.val v.toNat
  rw [Nat.mod_eq_of_lt v.isLt] at h
  simp only [State.g, State.gN, State.setG, setGAt_cur, h, gReg_zero]
  split_ifs <;> simp

theorem setMN_bytesOnly (s : State) (d : MReg) (v : Nat) : BytesOnly (s.mRange d) s (s.setMN d v) := by
  unfold State.setMN State.mRange
  simp only [mReg_zero]
  split_ifs
  · exact BytesOnly.refl _ _
  · exact wsSet_bytesOnly s _ _ _ 2 v

/-- A mask register read back after it is written; m0 reads all ones (R21). -/
theorem mN_setMN (s : State) (d : MReg) (v : Nat) : (s.setMN d v).mN d = if d = 0 then 0xFFFF else v % 2 ^ 16 := by
  by_cases h : d = 0
  · simp [State.mN, h]
  · have h' : d.val ≠ 0 := fun x => h ((mReg_zero d).1 x)
    simp only [State.mN, State.setMN, h, h', if_false]
    rw [(wsSet_bytesOnly s _ _ _ 2 v).cur]
    exact wsGet_wsSet s _ _ _ 2 v

theorem setCx_bytesOnly (s : State) (off v : Nat) : BytesOnly [s.cxRange off] s (s.setCx off v) :=
  wsSet_bytesOnly s s.cur.core s.cur.ctx off 8 v

@[simp] theorem setCx_cur (s : State) (off v : Nat) : (s.setCx off v).cur = s.cur := (setCx_bytesOnly s off v).cur

/-- A context word read back after it is written. -/
theorem cx_setCx (s : State) (off v : Nat) : (s.setCx off v).cx off = v % 2 ^ 64 := by
  simp only [State.cx, setCx_cur]
  exact wsGet_wsSet s _ _ off 8 v

/-- Another context word is not changed. -/
theorem cx_setCx_ne (s : State) (off v off' : Nat) (h : off' + 8 ≤ off ∨ off + 8 ≤ off') : (s.setCx off v).cx off' = s.cx off' := by
  simp only [State.cx, setCx_cur]
  exact wsGet_wsSet_ne s _ _ off 8 v off' 8 h

theorem cx_lt (s : State) (off : Nat) : s.cx off < 2 ^ 64 := wsGet_lt s _ _ off 8

/-- A context word outside every range of a change reads as before. -/
theorem BytesOnly.cx {rs : List Range} {s t : State} (h : BytesOnly rs s t) (off : Nat)
    (hd : ∀ r ∈ rs, s.wsLoc s.cur.core s.cur.ctx off + 8 ≤ r.1 ∨ r.1 + r.2 ≤ s.wsLoc s.cur.core s.cur.ctx off) :
    t.cx off = s.cx off := by
  simp only [State.cx, h.cur]
  exact h.wsGet _ _ off 8 hd

/-- A general register outside every range of a change reads as before. -/
theorem BytesOnly.gN {rs : List Range} {s t : State} (h : BytesOnly rs s t) (r : GReg)
    (hd : ∀ x ∈ rs, ∀ y ∈ s.gRange r, y.1 + 8 ≤ x.1 ∨ x.1 + x.2 ≤ y.1) : t.gN r = s.gN r := by
  simp only [State.gN, State.gAt, h.cur]
  split_ifs with h0
  · rfl
  · refine h.wsGet _ _ _ 8 (fun x hx => hd x hx (s.wsLoc s.cur.core s.cur.ctx (8 * r.val), 8) ?_)
    simp [State.gRange, ← gReg_zero, h0]

/-! ### Ranges of one workspace do not meet -/

/-- A range within the workspace of the executing context, at an offset. -/
def State.inWs (s : State) (r : Range) (off n : Nat) : Prop := r = (s.wsLoc s.cur.core s.cur.ctx 0 + off, n)

theorem cxRange_inWs (s : State) (off : Nat) : s.inWs (s.cxRange off) off 8 := by
  simp only [State.inWs, State.cxRange, wsLoc_eq s _ _ off]
theorem vRange_inWs (s : State) (r : VReg) : s.inWs (s.vRange r) (0x200 + 64 * r.val) 64 := by
  simp only [State.inWs, State.vRange, wsLoc_eq s _ _ (0x200 + 64 * r.val)]
theorem gRange_inWs (s : State) (r : GReg) (x : Range) (h : x ∈ s.gRange r) : s.inWs x (8 * r.val) 8 := by
  unfold State.gRange at h
  split_ifs at h
  · simp at h
  · rw [List.mem_singleton] at h; subst h
    simp only [State.inWs, wsLoc_eq s _ _ (8 * r.val)]
theorem mRange_inWs (s : State) (r : MReg) (x : Range) (h : x ∈ s.mRange r) : s.inWs x (0xA00 + 2 * r.val) 2 := by
  unfold State.mRange at h
  split_ifs at h
  · simp at h
  · rw [List.mem_singleton] at h; subst h
    simp only [State.inWs, wsLoc_eq s _ _ (0xA00 + 2 * r.val)]

/-- Every range lies in the workspace and away from CX.PC, CX.REPS, CX.REPN and CX.REPB, which decide how an instruction
completes. -/
def State.apart (s : State) (rs : List Range) : Prop :=
  ∀ r ∈ rs, ∃ off n, s.inWs r off n ∧ (off + n ≤ cxPC ∨ (cxPC + 8 ≤ off ∧ off + n ≤ cxREPS) ∨ cxREPB + 8 ≤ off)

theorem gRange_apart (s : State) (r : GReg) : s.apart (s.gRange r) := fun x hx =>
  ⟨_, _, gRange_inWs s r x hx, .inl (by have := r.isLt; unfold cxPC; omega)⟩
theorem mRange_apart (s : State) (r : MReg) : s.apart (s.mRange r) := fun x hx =>
  ⟨_, _, mRange_inWs s r x hx, .inl (by have := r.isLt; unfold cxPC; omega)⟩
theorem vRange_apart (s : State) (r : VReg) : s.apart [s.vRange r] := fun x hx =>
  ⟨_, _, by rw [List.mem_singleton] at hx; subst hx; exact vRange_inWs s r, .inl (by have := r.isLt; unfold cxPC; omega)⟩
theorem cxRange_apart (s : State) (off : Nat) (h : (cxPC + 8 ≤ off ∧ off + 8 ≤ cxREPS) ∨ cxREPB + 8 ≤ off) :
    s.apart [s.cxRange off] := fun x hx =>
  ⟨_, _, by rw [List.mem_singleton] at hx; subst hx; exact cxRange_inWs s off, .inr h⟩
theorem apart_nil (s : State) : s.apart [] := by intro r h; simp at h
theorem State.apart.append {s : State} {a b : List Range} (ha : s.apart a) (hb : s.apart b) : s.apart (a ++ b) := fun x hx =>
  (List.mem_append.1 hx).elim (ha x) (hb x)

/-- The words that decide how an instruction completes. -/
def flowWord (off : Nat) : Prop := off = cxPC ∨ off = cxREPS ∨ off = cxREPN ∨ off = cxREPB

/-- A change away from those words leaves them. -/
theorem BytesOnly.cx_of_apart {rs : List Range} {s t : State} (h : BytesOnly rs s t) (hr : s.apart rs) (off : Nat)
    (ho : flowWord off) : t.cx off = s.cx off := by
  refine h.cx off (fun r hx => ?_)
  obtain ⟨o, n, he, hn⟩ := hr r hx
  rw [State.inWs] at he; subst he
  rw [wsLoc_eq s _ _ off]
  simp only [flowWord, cxPC, cxREPS, cxREPN, cxREPB] at hn ho ⊢; omega

/-! ### Completing an instruction -/

/-- What follows from a change away from those words for the way an instruction completes. -/
theorem BytesOnly.after_of_apart {rs : List Range} {s t : State} (h : BytesOnly rs s t) (hr : s.apart rs) :
    t.pcAfter = s.pcAfter ∧ t.repsAfter = s.repsAfter ∧ t.onRanges = s.onRanges := by
  have c (off : Nat) (ho : flowWord off) := h.cx_of_apart hr off ho
  have hreps := c cxREPS (.inr (.inl rfl))
  have hn : t.nextPC = s.nextPC := by simp only [State.nextPC, State.pc, c cxPC (.inl rfl), h.cur]
  have he : t.passEnds = s.passEnds := by simp only [State.passEnds, hreps, h.cur]
  have hf : t.passFollows = s.passFollows := by simp only [State.passFollows, hreps, c cxREPN (.inr (.inr (.inl rfl)))]
  refine ⟨?_, ?_, ?_⟩
  · simp only [State.pcAfter, he, hf, c cxREPB (.inr (.inr (.inr rfl))), hn]
  · simp only [State.repsAfter, he, hf, hreps]
  · simp only [State.onRanges, he, State.cxRange, h.cur, h.wsLoc]

theorem pc_setPC (s : State) (v : Nat) : (s.setPC v).pc = v % 2 ^ 64 / 4 * 4 := by
  simp only [State.pc, State.setPC, cx_setCx]; omega

theorem setPC_bytesOnly (s : State) (v : Nat) : BytesOnly [s.cxRange cxPC] s (s.setPC v) := setCx_bytesOnly s cxPC _

/-- One more pass in CX.REPS (R95). -/
theorem setBits_pass (r n : Nat) (hr : r < 2 ^ 64) (h : bits r 63 32 + 1 < bits n 31 0) :
    setBits r 63 32 (bits r 63 32 + 1) % 2 ^ 64 = r + 2 ^ 32 := by
  have hn : bits n 31 0 < 2 ^ 32 := by simp only [bits]; exact Nat.mod_lt _ (by decide)
  simp only [setBits]
  norm_num [bits] at *
  omega

/-- Completing an instruction: CX.PC moves on, CX.REPS counts the pass that ends, and nothing else changes (R95). -/
theorem advance_spec (s : State) :
    s.advance.pc = s.pcAfter ∧ s.advance.cx cxREPS = s.repsAfter ∧ BytesOnly s.onRanges s s.advance := by
  have hreps (t : State) (v : Nat) : (t.setPC v).cx cxREPS = t.cx cxREPS := cx_setCx_ne t cxPC _ cxREPS (.inr (by decide))
  unfold State.advance State.pcAfter State.repsAfter State.onRanges State.passEnds State.passFollows
  have hcr (v : Nat) : (s.setCx cxREPS v).cxRange cxPC = s.cxRange cxPC := by
    simp only [State.cxRange, setCx_cur, (setCx_bytesOnly s cxREPS v).wsLoc]
  have step (v w : Nat) : BytesOnly [s.cxRange cxPC, s.cxRange cxREPS] s ((s.setCx cxREPS v).setPC w) := by
    have h1 := setCx_bytesOnly s cxREPS v
    have h2 := setPC_bytesOnly (s.setCx cxREPS v) w
    rw [hcr] at h2
    refine (h1.trans h2).mono (fun r hr => ?_)
    simp only [List.mem_append, List.mem_cons, List.not_mem_nil, or_false] at hr ⊢
    exact hr.symm
  by_cases h1 : (s.cur.last && bitOf (s.cx cxREPS) 0) = true
  · by_cases h2 : bits (s.cx cxREPS) 63 32 + 1 < bits (s.cx cxREPN) 31 0
    · simp only [h1, h2, if_true, decide_true, Bool.and_self]
      exact ⟨pc_setPC _ _, by rw [hreps, cx_setCx]; exact setBits_pass _ _ (cx_lt s _) h2, step _ _⟩
    · simp only [h1, h2, if_true, if_false, decide_false, Bool.and_false, Bool.false_eq_true]
      exact ⟨pc_setPC _ _, by rw [hreps, cx_setCx]; rfl, step _ _⟩
  · simp only [h1, Bool.false_and, Bool.false_eq_true, if_false]
    exact ⟨pc_setPC _ _, hreps _ _, setPC_bytesOnly _ _⟩

/-- A change that is followed by completing, over a base that completes as `s` does. -/
theorem completesOver_of_apart {s b t : State} {rs : List Range} {p : State → Prop} (hs : b.pcAfter = s.pcAfter)
    (hq : b.repsAfter = s.repsAfter) (hs' : b.onRanges = s.onRanges) (h : BytesOnly rs b t) (hr : b.apart rs)
    (hp : ∀ u, BytesOnly b.onRanges t u → p u) : CompletesOver s b (.next t.advance) rs p := by
  obtain ⟨hpc, hre, hon⟩ := h.after_of_apart hr
  obtain ⟨ha, hc, hb⟩ := advance_spec t
  rw [hon] at hb
  refine ⟨_, rfl, by rw [ha, hpc, hs], by rw [hc, hre, hq], (h.trans hb).mono (fun r hx => ?_), hp _ hb⟩
  rw [← hs']
  exact List.mem_append.2 (List.mem_append.1 hx).symm

/-- A change that is followed by completing. -/
theorem completes_of_apart {s t : State} {rs : List Range} {p : State → Prop} (h : BytesOnly rs s t) (hr : s.apart rs)
    (hp : ∀ u, BytesOnly s.onRanges t u → p u) : Completes s (.next t.advance) rs p :=
  completesOver_of_apart rfl rfl rfl h hr hp

/-- Completing writes no word but CX.PC and CX.REPS. -/
theorem onRanges_inWs (s : State) (r : Range) (h : r ∈ s.onRanges) : s.inWs r cxPC 8 ∨ s.inWs r cxREPS 8 := by
  unfold State.onRanges at h
  simp only [List.mem_cons] at h
  rcases h with rfl | h
  · exact .inl (cxRange_inWs s cxPC)
  · split_ifs at h
    · rw [List.mem_singleton] at h; subst h
      exact .inr (cxRange_inWs s cxREPS)
    · simp at h

/-- Another word reads the same before and after completing. -/
theorem wsGet_onRanges {rs : List Range} {s t u : State} (hst : BytesOnly rs s t) (h : BytesOnly s.onRanges t u) (off n : Nat)
    (ho : off + n ≤ cxPC ∨ (cxPC + 8 ≤ off ∧ off + n ≤ cxREPS) ∨ cxREPS + 8 ≤ off) :
    u.wsGet s.cur.core s.cur.ctx off n = t.wsGet s.cur.core s.cur.ctx off n := by
  refine h.wsGet _ _ off n (fun r hr => ?_)
  rw [hst.wsLoc, wsLoc_eq s]
  rcases onRanges_inWs s r hr with he | he <;> (rw [State.inWs] at he; subst he; simp only [cxPC, cxREPS] at ho ⊢; omega)

theorem gN_onRanges {s t u : State} {rs : List Range} (hst : BytesOnly rs s t) (h : BytesOnly s.onRanges t u) (r : GReg) :
    u.gN r = t.gN r := by
  simp only [State.gN, State.gAt, h.cur, hst.cur]
  split_ifs
  · rfl
  · exact wsGet_onRanges hst h _ 8 (.inl (by have := r.isLt; unfold cxPC; omega))

theorem mN_onRanges {s t u : State} {rs : List Range} (hst : BytesOnly rs s t) (h : BytesOnly s.onRanges t u) (r : MReg) :
    u.mN r = t.mN r := by
  simp only [State.mN, h.cur, hst.cur]
  split_ifs
  · rfl
  · exact wsGet_onRanges hst h _ 2 (.inl (by have := r.isLt; unfold cxPC; omega))

theorem laneN_onRanges {s t u : State} {rs : List Range} (hst : BytesOnly rs s t) (h : BytesOnly s.onRanges t u) (r : VReg) (i : Nat)
    (hi : i < 16) : u.laneN r i = t.laneN r i := by
  simp only [State.laneN, h.cur, hst.cur]
  exact wsGet_onRanges hst h _ 4 (.inl (by have := r.isLt; unfold cxPC; omega))

theorem cx_onRanges {s t u : State} {rs : List Range} (hst : BytesOnly rs s t) (h : BytesOnly s.onRanges t u) (off : Nat)
    (ho : off + 8 ≤ cxPC ∨ (cxPC + 8 ≤ off ∧ off + 8 ≤ cxREPS) ∨ cxREPS + 8 ≤ off) : u.cx off = t.cx off := by
  simp only [State.cx, State.cxAt, h.cur, hst.cur]
  exact wsGet_onRanges hst h off 8 ho

/-- An instruction that writes one general register. -/
theorem done_writesG (s : State) (d : GReg) (v : Word) : WritesG s (.next (s.done d v)) d v := by
  have hb := setG_bytesOnly s d v
  refine completes_of_apart hb (gRange_apart s d) (fun u hu => ?_)
  rw [State.g, gN_onRanges hb hu d]
  exact g_setG s d v

/-- An instruction that writes one mask register. -/
theorem setMN_completes (s : State) (d : MReg) (v : Nat) :
    Completes s (.next (s.setMN d v).advance) (s.mRange d) (fun t => t.mN d = if d = 0 then 0xFFFF else v % 2 ^ 16) := by
  have hb := setMN_bytesOnly s d v
  refine completes_of_apart hb (mRange_apart s d) (fun u hu => ?_)
  rw [mN_onRanges hb hu d]
  exact mN_setMN s d v

theorem gN_setStatus (s : State) (hi lo v : Nat) (r : GReg) : (s.setStatus hi lo v).gN r = s.gN r := by
  refine (setCx_bytesOnly s cxSTATUS _).gN r (fun x hx y hy => ?_)
  rw [List.mem_singleton] at hx; subst hx
  have h1 := cxRange_inWs s cxSTATUS
  have h2 := gRange_inWs s r y hy
  rw [State.inWs] at h1 h2
  rw [h1, h2]
  have := r.isLt
  simp only [cxSTATUS]; omega

/-- A scalar floating-point instruction. -/
theorem doneF_writesF (s : State) (d : GReg) (r : Nat × FFlags) : WritesF s (.next (s.doneF d r)) d r := by
  have hb := setGN_bytesOnly s d r.1
  have hst : (s.setGN d r.1).cx cxSTATUS = s.cx cxSTATUS := by
    refine hb.cx cxSTATUS (fun x hx => ?_)
    have h2 := gRange_inWs s d x hx
    rw [State.inWs] at h2; subst h2
    rw [wsLoc_eq s _ _ cxSTATUS]
    have := d.isLt
    simp only [cxSTATUS]; omega
  have ha : BytesOnly [s.cxRange cxSTATUS] (s.setGN d r.1) ((s.setGN d r.1).accrue r.2) := by
    have := setCx_bytesOnly (s.setGN d r.1) cxSTATUS
      (setBits ((s.setGN d r.1).cx cxSTATUS) 18 14 ((s.setGN d r.1).status 18 14 ||| r.2.toNat))
    rwa [State.cxRange, hb.cur, hb.wsLoc] at this
  have h := hb.trans ha
  refine completes_of_apart h ((gRange_apart s d).append (cxRange_apart s cxSTATUS (.inl (by decide)))) (fun u hu => ⟨?_, ?_⟩)
  · rw [gN_onRanges h hu d, State.accrue, gN_setStatus, gN_setGN]
  · rw [cx_onRanges h hu cxSTATUS (.inr (.inl (by decide))), State.accrue, State.setStatus, cx_setCx]
    simp only [State.status, hst]
    refine Nat.mod_eq_of_lt ?_
    have := cx_lt s cxSTATUS
    simp only [setBits]
    norm_num at *
    omega

end Sys2Proof.Machine
end

