-- ==== Sys2Proof/Laws/State.lean ====
section
/-! SUPPORT. Laws/State.lean: what each update of the state leaves unchanged, field by field, and what a changed record reads
as. Every lemma of the first part is true by definition, so that no proof unfolds a record update. -/
namespace Sys2Proof.Machine

/-! ### After a write of bytes -/

section
variable (s : State) (loc : Nat) (bs : List Byte)
@[simp] theorem wr_clock : (s.wr loc bs).clock = s.clock := rfl
@[simp] theorem wr_cur : (s.wr loc bs).cur = s.cur := rfl
@[simp] theorem wr_turn : (s.wr loc bs).turn = s.turn := rfl
@[simp] theorem wr_agenda : (s.wr loc bs).agenda = s.agenda := rfl
@[simp] theorem wr_nextId : (s.wr loc bs).nextId = s.nextId := rfl
@[simp] theorem wr_free : (s.wr loc bs).free = s.free := rfl
@[simp] theorem wr_pkgId : (s.wr loc bs).pkgId = s.pkgId := rfl
@[simp] theorem wr_l2 : (s.wr loc bs).l2 = s.l2 := rfl
@[simp] theorem wr_cores : (s.wr loc bs).cores = s.cores := rfl
@[simp] theorem wr_clusters : (s.wr loc bs).clusters = s.clusters := rfl
@[simp] theorem wr_dies : (s.wr loc bs).dies = s.dies := rfl
@[simp] theorem wr_parts : (s.wr loc bs).parts = s.parts := rfl
@[simp] theorem wr_tlb : (s.wr loc bs).tlb = s.tlb := rfl
@[simp] theorem wr_flights : (s.wr loc bs).flights = s.flights := rfl
@[simp] theorem wr_links : (s.wr loc bs).links = s.links := rfl
@[simp] theorem wr_barriers : (s.wr loc bs).barriers = s.barriers := rfl
@[simp] theorem wr_barPart : (s.wr loc bs).barPart = s.barPart := rfl
@[simp] theorem wr_barTmo : (s.wr loc bs).barTmo = s.barTmo := rfl
@[simp] theorem wr_routes : (s.wr loc bs).routes = s.routes := rfl
@[simp] theorem wr_routePorts : (s.wr loc bs).routePorts = s.routePorts := rfl
@[simp] theorem wr_routeLinks : (s.wr loc bs).routeLinks = s.routeLinks := rfl
@[simp] theorem wr_chunks : (s.wr loc bs).chunks = s.chunks := rfl
@[simp] theorem wr_unsaved : (s.wr loc bs).unsaved = s.unsaved := rfl
@[simp] theorem wr_running : (s.wr loc bs).running = s.running := rfl
@[simp] theorem wr_cancels : (s.wr loc bs).cancels = s.cancels := rfl
@[simp] theorem wr_orphans : (s.wr loc bs).orphans = s.orphans := rfl
@[simp] theorem wr_pairs : (s.wr loc bs).pairs = s.pairs := rfl
@[simp] theorem wr_aliases : (s.wr loc bs).aliases = s.aliases := rfl
@[simp] theorem wr_cwaits : (s.wr loc bs).cwaits = s.cwaits := rfl
@[simp] theorem wr_launches : (s.wr loc bs).launches = s.launches := rfl
@[simp] theorem wr_roots : (s.wr loc bs).roots = s.roots := rfl
@[simp] theorem wr_queues : (s.wr loc bs).queues = s.queues := rfl
@[simp] theorem wr_images : (s.wr loc bs).images = s.images := rfl
@[simp] theorem wr_toHost : (s.wr loc bs).toHost = s.toHost := rfl
@[simp] theorem wr_toFar : (s.wr loc bs).toFar = s.toFar := rfl
@[simp] theorem wr_toLinks : (s.wr loc bs).toLinks = s.toLinks := rfl
@[simp] theorem wr_booted : (s.wr loc bs).booted = s.booted := rfl
@[simp] theorem wr_kilnA : (s.wr loc bs).kilnA = s.kilnA := rfl
@[simp] theorem wr_kilnB : (s.wr loc bs).kilnB = s.kilnB := rfl
@[simp] theorem wr_activeB : (s.wr loc bs).activeB = s.activeB := rfl
@[simp] theorem wr_fuses : (s.wr loc bs).fuses = s.fuses := rfl
@[simp] theorem wr_refire : (s.wr loc bs).refire = s.refire := rfl
@[simp] theorem wr_nonce : (s.wr loc bs).nonce = s.nonce := rfl
@[simp] theorem wr_quoting : (s.wr loc bs).quoting = s.quoting := rfl
@[simp] theorem wr_quote : (s.wr loc bs).quote = s.quote := rfl
@[simp] theorem wr_deviceKey : (s.wr loc bs).deviceKey = s.deviceKey := rfl
@[simp] theorem wr_pwrCap : (s.wr loc bs).pwrCap = s.pwrCap := rfl
@[simp] theorem wr_duty : (s.wr loc bs).duty = s.duty := rfl
@[simp] theorem wr_deadPorts : (s.wr loc bs).deadPorts = s.deadPorts := rfl
@[simp] theorem wr_ports : (s.wr loc bs).ports = s.ports := rfl
@[simp] theorem wr_links2 : (s.wr loc bs).links2 = s.links2 := rfl
@[simp] theorem wr_recompute : (s.wr loc bs).recompute = s.recompute := rfl
@[simp] theorem wr_drains : (s.wr loc bs).drains = s.drains := rfl
@[simp] theorem wr_holders : (s.wr loc bs).holders = s.holders := rfl
end

/-! ### After a write of a word of a workspace -/

section
variable (s : State) (core ctx off n v : Nat)
@[simp] theorem wsSet_clock : (s.wsSet core ctx off n v).clock = s.clock := rfl
@[simp] theorem wsSet_cur : (s.wsSet core ctx off n v).cur = s.cur := rfl
@[simp] theorem wsSet_turn : (s.wsSet core ctx off n v).turn = s.turn := rfl
@[simp] theorem wsSet_agenda : (s.wsSet core ctx off n v).agenda = s.agenda := rfl
@[simp] theorem wsSet_nextId : (s.wsSet core ctx off n v).nextId = s.nextId := rfl
@[simp] theorem wsSet_free : (s.wsSet core ctx off n v).free = s.free := rfl
@[simp] theorem wsSet_pkgId : (s.wsSet core ctx off n v).pkgId = s.pkgId := rfl
@[simp] theorem wsSet_l2 : (s.wsSet core ctx off n v).l2 = s.l2 := rfl
@[simp] theorem wsSet_cores : (s.wsSet core ctx off n v).cores = s.cores := rfl
@[simp] theorem wsSet_clusters : (s.wsSet core ctx off n v).clusters = s.clusters := rfl
@[simp] theorem wsSet_dies : (s.wsSet core ctx off n v).dies = s.dies := rfl
@[simp] theorem wsSet_parts : (s.wsSet core ctx off n v).parts = s.parts := rfl
@[simp] theorem wsSet_tlb : (s.wsSet core ctx off n v).tlb = s.tlb := rfl
@[simp] theorem wsSet_flights : (s.wsSet core ctx off n v).flights = s.flights := rfl
@[simp] theorem wsSet_links : (s.wsSet core ctx off n v).links = s.links := rfl
@[simp] theorem wsSet_barriers : (s.wsSet core ctx off n v).barriers = s.barriers := rfl
@[simp] theorem wsSet_barPart : (s.wsSet core ctx off n v).barPart = s.barPart := rfl
@[simp] theorem wsSet_barTmo : (s.wsSet core ctx off n v).barTmo = s.barTmo := rfl
@[simp] theorem wsSet_routes : (s.wsSet core ctx off n v).routes = s.routes := rfl
@[simp] theorem wsSet_routePorts : (s.wsSet core ctx off n v).routePorts = s.routePorts := rfl
@[simp] theorem wsSet_routeLinks : (s.wsSet core ctx off n v).routeLinks = s.routeLinks := rfl
@[simp] theorem wsSet_dirty : (s.wsSet core ctx off n v).dirty = s.dirty := rfl
@[simp] theorem wsSet_running : (s.wsSet core ctx off n v).running = s.running := rfl
@[simp] theorem wsSet_cancels : (s.wsSet core ctx off n v).cancels = s.cancels := rfl
@[simp] theorem wsSet_orphans : (s.wsSet core ctx off n v).orphans = s.orphans := rfl
@[simp] theorem wsSet_pairs : (s.wsSet core ctx off n v).pairs = s.pairs := rfl
@[simp] theorem wsSet_aliases : (s.wsSet core ctx off n v).aliases = s.aliases := rfl
@[simp] theorem wsSet_cwaits : (s.wsSet core ctx off n v).cwaits = s.cwaits := rfl
@[simp] theorem wsSet_launches : (s.wsSet core ctx off n v).launches = s.launches := rfl
@[simp] theorem wsSet_roots : (s.wsSet core ctx off n v).roots = s.roots := rfl
@[simp] theorem wsSet_queues : (s.wsSet core ctx off n v).queues = s.queues := rfl
@[simp] theorem wsSet_images : (s.wsSet core ctx off n v).images = s.images := rfl
@[simp] theorem wsSet_toHost : (s.wsSet core ctx off n v).toHost = s.toHost := rfl
@[simp] theorem wsSet_toFar : (s.wsSet core ctx off n v).toFar = s.toFar := rfl
@[simp] theorem wsSet_toLinks : (s.wsSet core ctx off n v).toLinks = s.toLinks := rfl
@[simp] theorem wsSet_booted : (s.wsSet core ctx off n v).booted = s.booted := rfl
@[simp] theorem wsSet_kilnA : (s.wsSet core ctx off n v).kilnA = s.kilnA := rfl
@[simp] theorem wsSet_kilnB : (s.wsSet core ctx off n v).kilnB = s.kilnB := rfl
@[simp] theorem wsSet_activeB : (s.wsSet core ctx off n v).activeB = s.activeB := rfl
@[simp] theorem wsSet_fuses : (s.wsSet core ctx off n v).fuses = s.fuses := rfl
@[simp] theorem wsSet_refire : (s.wsSet core ctx off n v).refire = s.refire := rfl
@[simp] theorem wsSet_nonce : (s.wsSet core ctx off n v).nonce = s.nonce := rfl
@[simp] theorem wsSet_quoting : (s.wsSet core ctx off n v).quoting = s.quoting := rfl
@[simp] theorem wsSet_quote : (s.wsSet core ctx off n v).quote = s.quote := rfl
@[simp] theorem wsSet_deviceKey : (s.wsSet core ctx off n v).deviceKey = s.deviceKey := rfl
@[simp] theorem wsSet_pwrCap : (s.wsSet core ctx off n v).pwrCap = s.pwrCap := rfl
@[simp] theorem wsSet_duty : (s.wsSet core ctx off n v).duty = s.duty := rfl
@[simp] theorem wsSet_deadPorts : (s.wsSet core ctx off n v).deadPorts = s.deadPorts := rfl
@[simp] theorem wsSet_ports : (s.wsSet core ctx off n v).ports = s.ports := rfl
@[simp] theorem wsSet_links2 : (s.wsSet core ctx off n v).links2 = s.links2 := rfl
@[simp] theorem wsSet_recompute : (s.wsSet core ctx off n v).recompute = s.recompute := rfl
@[simp] theorem wsSet_drains : (s.wsSet core ctx off n v).drains = s.drains := rfl
@[simp] theorem wsSet_holders : (s.wsSet core ctx off n v).holders = s.holders := rfl
end

/-! ### After a write of undefined contents -/

section
variable (s : State) (loc n : Nat)
@[simp] theorem wrFree_clock : (s.wrFree loc n).clock = s.clock := rfl
@[simp] theorem wrFree_cur : (s.wrFree loc n).cur = s.cur := rfl
@[simp] theorem wrFree_turn : (s.wrFree loc n).turn = s.turn := rfl
@[simp] theorem wrFree_agenda : (s.wrFree loc n).agenda = s.agenda := rfl
@[simp] theorem wrFree_nextId : (s.wrFree loc n).nextId = s.nextId := rfl
@[simp] theorem wrFree_pkgId : (s.wrFree loc n).pkgId = s.pkgId := rfl
@[simp] theorem wrFree_l2 : (s.wrFree loc n).l2 = s.l2 := rfl
@[simp] theorem wrFree_cores : (s.wrFree loc n).cores = s.cores := rfl
@[simp] theorem wrFree_clusters : (s.wrFree loc n).clusters = s.clusters := rfl
@[simp] theorem wrFree_dies : (s.wrFree loc n).dies = s.dies := rfl
@[simp] theorem wrFree_parts : (s.wrFree loc n).parts = s.parts := rfl
@[simp] theorem wrFree_tlb : (s.wrFree loc n).tlb = s.tlb := rfl
@[simp] theorem wrFree_flights : (s.wrFree loc n).flights = s.flights := rfl
@[simp] theorem wrFree_links : (s.wrFree loc n).links = s.links := rfl
@[simp] theorem wrFree_barriers : (s.wrFree loc n).barriers = s.barriers := rfl
@[simp] theorem wrFree_barPart : (s.wrFree loc n).barPart = s.barPart := rfl
@[simp] theorem wrFree_barTmo : (s.wrFree loc n).barTmo = s.barTmo := rfl
@[simp] theorem wrFree_routes : (s.wrFree loc n).routes = s.routes := rfl
@[simp] theorem wrFree_routePorts : (s.wrFree loc n).routePorts = s.routePorts := rfl
@[simp] theorem wrFree_routeLinks : (s.wrFree loc n).routeLinks = s.routeLinks := rfl
@[simp] theorem wrFree_chunks : (s.wrFree loc n).chunks = s.chunks := rfl
@[simp] theorem wrFree_unsaved : (s.wrFree loc n).unsaved = s.unsaved := rfl
@[simp] theorem wrFree_running : (s.wrFree loc n).running = s.running := rfl
@[simp] theorem wrFree_cancels : (s.wrFree loc n).cancels = s.cancels := rfl
@[simp] theorem wrFree_orphans : (s.wrFree loc n).orphans = s.orphans := rfl
@[simp] theorem wrFree_pairs : (s.wrFree loc n).pairs = s.pairs := rfl
@[simp] theorem wrFree_aliases : (s.wrFree loc n).aliases = s.aliases := rfl
@[simp] theorem wrFree_cwaits : (s.wrFree loc n).cwaits = s.cwaits := rfl
@[simp] theorem wrFree_launches : (s.wrFree loc n).launches = s.launches := rfl
@[simp] theorem wrFree_roots : (s.wrFree loc n).roots = s.roots := rfl
@[simp] theorem wrFree_queues : (s.wrFree loc n).queues = s.queues := rfl
@[simp] theorem wrFree_images : (s.wrFree loc n).images = s.images := rfl
@[simp] theorem wrFree_toHost : (s.wrFree loc n).toHost = s.toHost := rfl
@[simp] theorem wrFree_toFar : (s.wrFree loc n).toFar = s.toFar := rfl
@[simp] theorem wrFree_toLinks : (s.wrFree loc n).toLinks = s.toLinks := rfl
@[simp] theorem wrFree_booted : (s.wrFree loc n).booted = s.booted := rfl
@[simp] theorem wrFree_kilnA : (s.wrFree loc n).kilnA = s.kilnA := rfl
@[simp] theorem wrFree_kilnB : (s.wrFree loc n).kilnB = s.kilnB := rfl
@[simp] theorem wrFree_activeB : (s.wrFree loc n).activeB = s.activeB := rfl
@[simp] theorem wrFree_fuses : (s.wrFree loc n).fuses = s.fuses := rfl
@[simp] theorem wrFree_refire : (s.wrFree loc n).refire = s.refire := rfl
@[simp] theorem wrFree_nonce : (s.wrFree loc n).nonce = s.nonce := rfl
@[simp] theorem wrFree_quoting : (s.wrFree loc n).quoting = s.quoting := rfl
@[simp] theorem wrFree_quote : (s.wrFree loc n).quote = s.quote := rfl
@[simp] theorem wrFree_deviceKey : (s.wrFree loc n).deviceKey = s.deviceKey := rfl
@[simp] theorem wrFree_pwrCap : (s.wrFree loc n).pwrCap = s.pwrCap := rfl
@[simp] theorem wrFree_duty : (s.wrFree loc n).duty = s.duty := rfl
@[simp] theorem wrFree_deadPorts : (s.wrFree loc n).deadPorts = s.deadPorts := rfl
@[simp] theorem wrFree_ports : (s.wrFree loc n).ports = s.ports := rfl
@[simp] theorem wrFree_links2 : (s.wrFree loc n).links2 = s.links2 := rfl
@[simp] theorem wrFree_recompute : (s.wrFree loc n).recompute = s.recompute := rfl
@[simp] theorem wrFree_drains : (s.wrFree loc n).drains = s.drains := rfl
@[simp] theorem wrFree_holders : (s.wrFree loc n).holders = s.holders := rfl
end

/-! ### After words becoming poisoned -/

section
variable (s : State) (loc : Nat) (bad : List Nat)
@[simp] theorem poisonAt_clock : (s.poisonAt loc bad).clock = s.clock := rfl
@[simp] theorem poisonAt_cur : (s.poisonAt loc bad).cur = s.cur := rfl
@[simp] theorem poisonAt_turn : (s.poisonAt loc bad).turn = s.turn := rfl
@[simp] theorem poisonAt_agenda : (s.poisonAt loc bad).agenda = s.agenda := rfl
@[simp] theorem poisonAt_nextId : (s.poisonAt loc bad).nextId = s.nextId := rfl
@[simp] theorem poisonAt_free : (s.poisonAt loc bad).free = s.free := rfl
@[simp] theorem poisonAt_pkgId : (s.poisonAt loc bad).pkgId = s.pkgId := rfl
@[simp] theorem poisonAt_mem : (s.poisonAt loc bad).mem = s.mem := rfl
@[simp] theorem poisonAt_l2 : (s.poisonAt loc bad).l2 = s.l2 := rfl
@[simp] theorem poisonAt_cores : (s.poisonAt loc bad).cores = s.cores := rfl
@[simp] theorem poisonAt_clusters : (s.poisonAt loc bad).clusters = s.clusters := rfl
@[simp] theorem poisonAt_dies : (s.poisonAt loc bad).dies = s.dies := rfl
@[simp] theorem poisonAt_parts : (s.poisonAt loc bad).parts = s.parts := rfl
@[simp] theorem poisonAt_tlb : (s.poisonAt loc bad).tlb = s.tlb := rfl
@[simp] theorem poisonAt_flights : (s.poisonAt loc bad).flights = s.flights := rfl
@[simp] theorem poisonAt_links : (s.poisonAt loc bad).links = s.links := rfl
@[simp] theorem poisonAt_barriers : (s.poisonAt loc bad).barriers = s.barriers := rfl
@[simp] theorem poisonAt_barPart : (s.poisonAt loc bad).barPart = s.barPart := rfl
@[simp] theorem poisonAt_barTmo : (s.poisonAt loc bad).barTmo = s.barTmo := rfl
@[simp] theorem poisonAt_routes : (s.poisonAt loc bad).routes = s.routes := rfl
@[simp] theorem poisonAt_routePorts : (s.poisonAt loc bad).routePorts = s.routePorts := rfl
@[simp] theorem poisonAt_routeLinks : (s.poisonAt loc bad).routeLinks = s.routeLinks := rfl
@[simp] theorem poisonAt_dirty : (s.poisonAt loc bad).dirty = s.dirty := rfl
@[simp] theorem poisonAt_chunks : (s.poisonAt loc bad).chunks = s.chunks := rfl
@[simp] theorem poisonAt_unsaved : (s.poisonAt loc bad).unsaved = s.unsaved := rfl
@[simp] theorem poisonAt_released : (s.poisonAt loc bad).released = s.released := rfl
@[simp] theorem poisonAt_past : (s.poisonAt loc bad).past = s.past := rfl
@[simp] theorem poisonAt_running : (s.poisonAt loc bad).running = s.running := rfl
@[simp] theorem poisonAt_cancels : (s.poisonAt loc bad).cancels = s.cancels := rfl
@[simp] theorem poisonAt_orphans : (s.poisonAt loc bad).orphans = s.orphans := rfl
@[simp] theorem poisonAt_pairs : (s.poisonAt loc bad).pairs = s.pairs := rfl
@[simp] theorem poisonAt_aliases : (s.poisonAt loc bad).aliases = s.aliases := rfl
@[simp] theorem poisonAt_cwaits : (s.poisonAt loc bad).cwaits = s.cwaits := rfl
@[simp] theorem poisonAt_launches : (s.poisonAt loc bad).launches = s.launches := rfl
@[simp] theorem poisonAt_roots : (s.poisonAt loc bad).roots = s.roots := rfl
@[simp] theorem poisonAt_queues : (s.poisonAt loc bad).queues = s.queues := rfl
@[simp] theorem poisonAt_images : (s.poisonAt loc bad).images = s.images := rfl
@[simp] theorem poisonAt_toHost : (s.poisonAt loc bad).toHost = s.toHost := rfl
@[simp] theorem poisonAt_toFar : (s.poisonAt loc bad).toFar = s.toFar := rfl
@[simp] theorem poisonAt_toLinks : (s.poisonAt loc bad).toLinks = s.toLinks := rfl
@[simp] theorem poisonAt_booted : (s.poisonAt loc bad).booted = s.booted := rfl
@[simp] theorem poisonAt_kilnA : (s.poisonAt loc bad).kilnA = s.kilnA := rfl
@[simp] theorem poisonAt_kilnB : (s.poisonAt loc bad).kilnB = s.kilnB := rfl
@[simp] theorem poisonAt_activeB : (s.poisonAt loc bad).activeB = s.activeB := rfl
@[simp] theorem poisonAt_fuses : (s.poisonAt loc bad).fuses = s.fuses := rfl
@[simp] theorem poisonAt_refire : (s.poisonAt loc bad).refire = s.refire := rfl
@[simp] theorem poisonAt_nonce : (s.poisonAt loc bad).nonce = s.nonce := rfl
@[simp] theorem poisonAt_quoting : (s.poisonAt loc bad).quoting = s.quoting := rfl
@[simp] theorem poisonAt_quote : (s.poisonAt loc bad).quote = s.quote := rfl
@[simp] theorem poisonAt_deviceKey : (s.poisonAt loc bad).deviceKey = s.deviceKey := rfl
@[simp] theorem poisonAt_pwrCap : (s.poisonAt loc bad).pwrCap = s.pwrCap := rfl
@[simp] theorem poisonAt_duty : (s.poisonAt loc bad).duty = s.duty := rfl
@[simp] theorem poisonAt_deadPorts : (s.poisonAt loc bad).deadPorts = s.deadPorts := rfl
@[simp] theorem poisonAt_ports : (s.poisonAt loc bad).ports = s.ports := rfl
@[simp] theorem poisonAt_links2 : (s.poisonAt loc bad).links2 = s.links2 := rfl
@[simp] theorem poisonAt_recompute : (s.poisonAt loc bad).recompute = s.recompute := rfl
@[simp] theorem poisonAt_drains : (s.poisonAt loc bad).drains = s.drains := rfl
@[simp] theorem poisonAt_holders : (s.poisonAt loc bad).holders = s.holders := rfl
end

/-! ### After a change of a core's record -/

section
variable (s : State) (n : Nat) (c : CoreState)
@[simp] theorem setCore_clock : (s.setCore n c).clock = s.clock := rfl
@[simp] theorem setCore_cur : (s.setCore n c).cur = s.cur := rfl
@[simp] theorem setCore_turn : (s.setCore n c).turn = s.turn := rfl
@[simp] theorem setCore_agenda : (s.setCore n c).agenda = s.agenda := rfl
@[simp] theorem setCore_nextId : (s.setCore n c).nextId = s.nextId := rfl
@[simp] theorem setCore_free : (s.setCore n c).free = s.free := rfl
@[simp] theorem setCore_pkgId : (s.setCore n c).pkgId = s.pkgId := rfl
@[simp] theorem setCore_mem : (s.setCore n c).mem = s.mem := rfl
@[simp] theorem setCore_l2 : (s.setCore n c).l2 = s.l2 := rfl
@[simp] theorem setCore_poisoned : (s.setCore n c).poisoned = s.poisoned := rfl
@[simp] theorem setCore_clusters : (s.setCore n c).clusters = s.clusters := rfl
@[simp] theorem setCore_dies : (s.setCore n c).dies = s.dies := rfl
@[simp] theorem setCore_parts : (s.setCore n c).parts = s.parts := rfl
@[simp] theorem setCore_tlb : (s.setCore n c).tlb = s.tlb := rfl
@[simp] theorem setCore_flights : (s.setCore n c).flights = s.flights := rfl
@[simp] theorem setCore_links : (s.setCore n c).links = s.links := rfl
@[simp] theorem setCore_barriers : (s.setCore n c).barriers = s.barriers := rfl
@[simp] theorem setCore_barPart : (s.setCore n c).barPart = s.barPart := rfl
@[simp] theorem setCore_barTmo : (s.setCore n c).barTmo = s.barTmo := rfl
@[simp] theorem setCore_routes : (s.setCore n c).routes = s.routes := rfl
@[simp] theorem setCore_routePorts : (s.setCore n c).routePorts = s.routePorts := rfl
@[simp] theorem setCore_routeLinks : (s.setCore n c).routeLinks = s.routeLinks := rfl
@[simp] theorem setCore_dirty : (s.setCore n c).dirty = s.dirty := rfl
@[simp] theorem setCore_chunks : (s.setCore n c).chunks = s.chunks := rfl
@[simp] theorem setCore_unsaved : (s.setCore n c).unsaved = s.unsaved := rfl
@[simp] theorem setCore_released : (s.setCore n c).released = s.released := rfl
@[simp] theorem setCore_past : (s.setCore n c).past = s.past := rfl
@[simp] theorem setCore_running : (s.setCore n c).running = s.running := rfl
@[simp] theorem setCore_cancels : (s.setCore n c).cancels = s.cancels := rfl
@[simp] theorem setCore_orphans : (s.setCore n c).orphans = s.orphans := rfl
@[simp] theorem setCore_pairs : (s.setCore n c).pairs = s.pairs := rfl
@[simp] theorem setCore_aliases : (s.setCore n c).aliases = s.aliases := rfl
@[simp] theorem setCore_cwaits : (s.setCore n c).cwaits = s.cwaits := rfl
@[simp] theorem setCore_launches : (s.setCore n c).launches = s.launches := rfl
@[simp] theorem setCore_roots : (s.setCore n c).roots = s.roots := rfl
@[simp] theorem setCore_queues : (s.setCore n c).queues = s.queues := rfl
@[simp] theorem setCore_images : (s.setCore n c).images = s.images := rfl
@[simp] theorem setCore_toHost : (s.setCore n c).toHost = s.toHost := rfl
@[simp] theorem setCore_toFar : (s.setCore n c).toFar = s.toFar := rfl
@[simp] theorem setCore_toLinks : (s.setCore n c).toLinks = s.toLinks := rfl
@[simp] theorem setCore_booted : (s.setCore n c).booted = s.booted := rfl
@[simp] theorem setCore_kilnA : (s.setCore n c).kilnA = s.kilnA := rfl
@[simp] theorem setCore_kilnB : (s.setCore n c).kilnB = s.kilnB := rfl
@[simp] theorem setCore_activeB : (s.setCore n c).activeB = s.activeB := rfl
@[simp] theorem setCore_fuses : (s.setCore n c).fuses = s.fuses := rfl
@[simp] theorem setCore_refire : (s.setCore n c).refire = s.refire := rfl
@[simp] theorem setCore_nonce : (s.setCore n c).nonce = s.nonce := rfl
@[simp] theorem setCore_quoting : (s.setCore n c).quoting = s.quoting := rfl
@[simp] theorem setCore_quote : (s.setCore n c).quote = s.quote := rfl
@[simp] theorem setCore_deviceKey : (s.setCore n c).deviceKey = s.deviceKey := rfl
@[simp] theorem setCore_pwrCap : (s.setCore n c).pwrCap = s.pwrCap := rfl
@[simp] theorem setCore_duty : (s.setCore n c).duty = s.duty := rfl
@[simp] theorem setCore_deadPorts : (s.setCore n c).deadPorts = s.deadPorts := rfl
@[simp] theorem setCore_ports : (s.setCore n c).ports = s.ports := rfl
@[simp] theorem setCore_links2 : (s.setCore n c).links2 = s.links2 := rfl
@[simp] theorem setCore_recompute : (s.setCore n c).recompute = s.recompute := rfl
@[simp] theorem setCore_drains : (s.setCore n c).drains = s.drains := rfl
@[simp] theorem setCore_holders : (s.setCore n c).holders = s.holders := rfl
end

/-! ### After a change of a context's record -/

section
variable (s : State) (core ctx : Nat) (c : Ctx)
@[simp] theorem setCtxAt_clock : (s.setCtxAt core ctx c).clock = s.clock := rfl
@[simp] theorem setCtxAt_cur : (s.setCtxAt core ctx c).cur = s.cur := rfl
@[simp] theorem setCtxAt_turn : (s.setCtxAt core ctx c).turn = s.turn := rfl
@[simp] theorem setCtxAt_agenda : (s.setCtxAt core ctx c).agenda = s.agenda := rfl
@[simp] theorem setCtxAt_nextId : (s.setCtxAt core ctx c).nextId = s.nextId := rfl
@[simp] theorem setCtxAt_free : (s.setCtxAt core ctx c).free = s.free := rfl
@[simp] theorem setCtxAt_pkgId : (s.setCtxAt core ctx c).pkgId = s.pkgId := rfl
@[simp] theorem setCtxAt_mem : (s.setCtxAt core ctx c).mem = s.mem := rfl
@[simp] theorem setCtxAt_l2 : (s.setCtxAt core ctx c).l2 = s.l2 := rfl
@[simp] theorem setCtxAt_poisoned : (s.setCtxAt core ctx c).poisoned = s.poisoned := rfl
@[simp] theorem setCtxAt_clusters : (s.setCtxAt core ctx c).clusters = s.clusters := rfl
@[simp] theorem setCtxAt_dies : (s.setCtxAt core ctx c).dies = s.dies := rfl
@[simp] theorem setCtxAt_parts : (s.setCtxAt core ctx c).parts = s.parts := rfl
@[simp] theorem setCtxAt_tlb : (s.setCtxAt core ctx c).tlb = s.tlb := rfl
@[simp] theorem setCtxAt_flights : (s.setCtxAt core ctx c).flights = s.flights := rfl
@[simp] theorem setCtxAt_links : (s.setCtxAt core ctx c).links = s.links := rfl
@[simp] theorem setCtxAt_barriers : (s.setCtxAt core ctx c).barriers = s.barriers := rfl
@[simp] theorem setCtxAt_barPart : (s.setCtxAt core ctx c).barPart = s.barPart := rfl
@[simp] theorem setCtxAt_barTmo : (s.setCtxAt core ctx c).barTmo = s.barTmo := rfl
@[simp] theorem setCtxAt_routes : (s.setCtxAt core ctx c).routes = s.routes := rfl
@[simp] theorem setCtxAt_routePorts : (s.setCtxAt core ctx c).routePorts = s.routePorts := rfl
@[simp] theorem setCtxAt_routeLinks : (s.setCtxAt core ctx c).routeLinks = s.routeLinks := rfl
@[simp] theorem setCtxAt_dirty : (s.setCtxAt core ctx c).dirty = s.dirty := rfl
@[simp] theorem setCtxAt_chunks : (s.setCtxAt core ctx c).chunks = s.chunks := rfl
@[simp] theorem setCtxAt_unsaved : (s.setCtxAt core ctx c).unsaved = s.unsaved := rfl
@[simp] theorem setCtxAt_released : (s.setCtxAt core ctx c).released = s.released := rfl
@[simp] theorem setCtxAt_past : (s.setCtxAt core ctx c).past = s.past := rfl
@[simp] theorem setCtxAt_running : (s.setCtxAt core ctx c).running = s.running := rfl
@[simp] theorem setCtxAt_cancels : (s.setCtxAt core ctx c).cancels = s.cancels := rfl
@[simp] theorem setCtxAt_orphans : (s.setCtxAt core ctx c).orphans = s.orphans := rfl
@[simp] theorem setCtxAt_pairs : (s.setCtxAt core ctx c).pairs = s.pairs := rfl
@[simp] theorem setCtxAt_aliases : (s.setCtxAt core ctx c).aliases = s.aliases := rfl
@[simp] theorem setCtxAt_cwaits : (s.setCtxAt core ctx c).cwaits = s.cwaits := rfl
@[simp] theorem setCtxAt_launches : (s.setCtxAt core ctx c).launches = s.launches := rfl
@[simp] theorem setCtxAt_roots : (s.setCtxAt core ctx c).roots = s.roots := rfl
@[simp] theorem setCtxAt_queues : (s.setCtxAt core ctx c).queues = s.queues := rfl
@[simp] theorem setCtxAt_images : (s.setCtxAt core ctx c).images = s.images := rfl
@[simp] theorem setCtxAt_toHost : (s.setCtxAt core ctx c).toHost = s.toHost := rfl
@[simp] theorem setCtxAt_toFar : (s.setCtxAt core ctx c).toFar = s.toFar := rfl
@[simp] theorem setCtxAt_toLinks : (s.setCtxAt core ctx c).toLinks = s.toLinks := rfl
@[simp] theorem setCtxAt_booted : (s.setCtxAt core ctx c).booted = s.booted := rfl
@[simp] theorem setCtxAt_kilnA : (s.setCtxAt core ctx c).kilnA = s.kilnA := rfl
@[simp] theorem setCtxAt_kilnB : (s.setCtxAt core ctx c).kilnB = s.kilnB := rfl
@[simp] theorem setCtxAt_activeB : (s.setCtxAt core ctx c).activeB = s.activeB := rfl
@[simp] theorem setCtxAt_fuses : (s.setCtxAt core ctx c).fuses = s.fuses := rfl
@[simp] theorem setCtxAt_refire : (s.setCtxAt core ctx c).refire = s.refire := rfl
@[simp] theorem setCtxAt_nonce : (s.setCtxAt core ctx c).nonce = s.nonce := rfl
@[simp] theorem setCtxAt_quoting : (s.setCtxAt core ctx c).quoting = s.quoting := rfl
@[simp] theorem setCtxAt_quote : (s.setCtxAt core ctx c).quote = s.quote := rfl
@[simp] theorem setCtxAt_deviceKey : (s.setCtxAt core ctx c).deviceKey = s.deviceKey := rfl
@[simp] theorem setCtxAt_pwrCap : (s.setCtxAt core ctx c).pwrCap = s.pwrCap := rfl
@[simp] theorem setCtxAt_duty : (s.setCtxAt core ctx c).duty = s.duty := rfl
@[simp] theorem setCtxAt_deadPorts : (s.setCtxAt core ctx c).deadPorts = s.deadPorts := rfl
@[simp] theorem setCtxAt_ports : (s.setCtxAt core ctx c).ports = s.ports := rfl
@[simp] theorem setCtxAt_links2 : (s.setCtxAt core ctx c).links2 = s.links2 := rfl
@[simp] theorem setCtxAt_recompute : (s.setCtxAt core ctx c).recompute = s.recompute := rfl
@[simp] theorem setCtxAt_drains : (s.setCtxAt core ctx c).drains = s.drains := rfl
@[simp] theorem setCtxAt_holders : (s.setCtxAt core ctx c).holders = s.holders := rfl
end

/-! ### After a change of a cluster's record -/

section
variable (s : State) (n : Nat) (c : Cluster)
@[simp] theorem setCluster_clock : (s.setCluster n c).clock = s.clock := rfl
@[simp] theorem setCluster_cur : (s.setCluster n c).cur = s.cur := rfl
@[simp] theorem setCluster_turn : (s.setCluster n c).turn = s.turn := rfl
@[simp] theorem setCluster_agenda : (s.setCluster n c).agenda = s.agenda := rfl
@[simp] theorem setCluster_nextId : (s.setCluster n c).nextId = s.nextId := rfl
@[simp] theorem setCluster_free : (s.setCluster n c).free = s.free := rfl
@[simp] theorem setCluster_pkgId : (s.setCluster n c).pkgId = s.pkgId := rfl
@[simp] theorem setCluster_mem : (s.setCluster n c).mem = s.mem := rfl
@[simp] theorem setCluster_l2 : (s.setCluster n c).l2 = s.l2 := rfl
@[simp] theorem setCluster_poisoned : (s.setCluster n c).poisoned = s.poisoned := rfl
@[simp] theorem setCluster_cores : (s.setCluster n c).cores = s.cores := rfl
@[simp] theorem setCluster_dies : (s.setCluster n c).dies = s.dies := rfl
@[simp] theorem setCluster_parts : (s.setCluster n c).parts = s.parts := rfl
@[simp] theorem setCluster_tlb : (s.setCluster n c).tlb = s.tlb := rfl
@[simp] theorem setCluster_flights : (s.setCluster n c).flights = s.flights := rfl
@[simp] theorem setCluster_links : (s.setCluster n c).links = s.links := rfl
@[simp] theorem setCluster_barriers : (s.setCluster n c).barriers = s.barriers := rfl
@[simp] theorem setCluster_barPart : (s.setCluster n c).barPart = s.barPart := rfl
@[simp] theorem setCluster_barTmo : (s.setCluster n c).barTmo = s.barTmo := rfl
@[simp] theorem setCluster_routes : (s.setCluster n c).routes = s.routes := rfl
@[simp] theorem setCluster_routePorts : (s.setCluster n c).routePorts = s.routePorts := rfl
@[simp] theorem setCluster_routeLinks : (s.setCluster n c).routeLinks = s.routeLinks := rfl
@[simp] theorem setCluster_dirty : (s.setCluster n c).dirty = s.dirty := rfl
@[simp] theorem setCluster_chunks : (s.setCluster n c).chunks = s.chunks := rfl
@[simp] theorem setCluster_unsaved : (s.setCluster n c).unsaved = s.unsaved := rfl
@[simp] theorem setCluster_released : (s.setCluster n c).released = s.released := rfl
@[simp] theorem setCluster_past : (s.setCluster n c).past = s.past := rfl
@[simp] theorem setCluster_running : (s.setCluster n c).running = s.running := rfl
@[simp] theorem setCluster_cancels : (s.setCluster n c).cancels = s.cancels := rfl
@[simp] theorem setCluster_orphans : (s.setCluster n c).orphans = s.orphans := rfl
@[simp] theorem setCluster_pairs : (s.setCluster n c).pairs = s.pairs := rfl
@[simp] theorem setCluster_aliases : (s.setCluster n c).aliases = s.aliases := rfl
@[simp] theorem setCluster_cwaits : (s.setCluster n c).cwaits = s.cwaits := rfl
@[simp] theorem setCluster_launches : (s.setCluster n c).launches = s.launches := rfl
@[simp] theorem setCluster_roots : (s.setCluster n c).roots = s.roots := rfl
@[simp] theorem setCluster_queues : (s.setCluster n c).queues = s.queues := rfl
@[simp] theorem setCluster_images : (s.setCluster n c).images = s.images := rfl
@[simp] theorem setCluster_toHost : (s.setCluster n c).toHost = s.toHost := rfl
@[simp] theorem setCluster_toFar : (s.setCluster n c).toFar = s.toFar := rfl
@[simp] theorem setCluster_toLinks : (s.setCluster n c).toLinks = s.toLinks := rfl
@[simp] theorem setCluster_booted : (s.setCluster n c).booted = s.booted := rfl
@[simp] theorem setCluster_kilnA : (s.setCluster n c).kilnA = s.kilnA := rfl
@[simp] theorem setCluster_kilnB : (s.setCluster n c).kilnB = s.kilnB := rfl
@[simp] theorem setCluster_activeB : (s.setCluster n c).activeB = s.activeB := rfl
@[simp] theorem setCluster_fuses : (s.setCluster n c).fuses = s.fuses := rfl
@[simp] theorem setCluster_refire : (s.setCluster n c).refire = s.refire := rfl
@[simp] theorem setCluster_nonce : (s.setCluster n c).nonce = s.nonce := rfl
@[simp] theorem setCluster_quoting : (s.setCluster n c).quoting = s.quoting := rfl
@[simp] theorem setCluster_quote : (s.setCluster n c).quote = s.quote := rfl
@[simp] theorem setCluster_deviceKey : (s.setCluster n c).deviceKey = s.deviceKey := rfl
@[simp] theorem setCluster_pwrCap : (s.setCluster n c).pwrCap = s.pwrCap := rfl
@[simp] theorem setCluster_duty : (s.setCluster n c).duty = s.duty := rfl
@[simp] theorem setCluster_deadPorts : (s.setCluster n c).deadPorts = s.deadPorts := rfl
@[simp] theorem setCluster_ports : (s.setCluster n c).ports = s.ports := rfl
@[simp] theorem setCluster_links2 : (s.setCluster n c).links2 = s.links2 := rfl
@[simp] theorem setCluster_recompute : (s.setCluster n c).recompute = s.recompute := rfl
@[simp] theorem setCluster_drains : (s.setCluster n c).drains = s.drains := rfl
@[simp] theorem setCluster_holders : (s.setCluster n c).holders = s.holders := rfl
end

/-! ### After a change of a die's record -/

section
variable (s : State) (n : Nat) (d : Die)
@[simp] theorem setDie_clock : (s.setDie n d).clock = s.clock := rfl
@[simp] theorem setDie_cur : (s.setDie n d).cur = s.cur := rfl
@[simp] theorem setDie_turn : (s.setDie n d).turn = s.turn := rfl
@[simp] theorem setDie_agenda : (s.setDie n d).agenda = s.agenda := rfl
@[simp] theorem setDie_nextId : (s.setDie n d).nextId = s.nextId := rfl
@[simp] theorem setDie_free : (s.setDie n d).free = s.free := rfl
@[simp] theorem setDie_pkgId : (s.setDie n d).pkgId = s.pkgId := rfl
@[simp] theorem setDie_mem : (s.setDie n d).mem = s.mem := rfl
@[simp] theorem setDie_l2 : (s.setDie n d).l2 = s.l2 := rfl
@[simp] theorem setDie_poisoned : (s.setDie n d).poisoned = s.poisoned := rfl
@[simp] theorem setDie_cores : (s.setDie n d).cores = s.cores := rfl
@[simp] theorem setDie_clusters : (s.setDie n d).clusters = s.clusters := rfl
@[simp] theorem setDie_parts : (s.setDie n d).parts = s.parts := rfl
@[simp] theorem setDie_tlb : (s.setDie n d).tlb = s.tlb := rfl
@[simp] theorem setDie_flights : (s.setDie n d).flights = s.flights := rfl
@[simp] theorem setDie_links : (s.setDie n d).links = s.links := rfl
@[simp] theorem setDie_barriers : (s.setDie n d).barriers = s.barriers := rfl
@[simp] theorem setDie_barPart : (s.setDie n d).barPart = s.barPart := rfl
@[simp] theorem setDie_barTmo : (s.setDie n d).barTmo = s.barTmo := rfl
@[simp] theorem setDie_routes : (s.setDie n d).routes = s.routes := rfl
@[simp] theorem setDie_routePorts : (s.setDie n d).routePorts = s.routePorts := rfl
@[simp] theorem setDie_routeLinks : (s.setDie n d).routeLinks = s.routeLinks := rfl
@[simp] theorem setDie_dirty : (s.setDie n d).dirty = s.dirty := rfl
@[simp] theorem setDie_chunks : (s.setDie n d).chunks = s.chunks := rfl
@[simp] theorem setDie_unsaved : (s.setDie n d).unsaved = s.unsaved := rfl
@[simp] theorem setDie_released : (s.setDie n d).released = s.released := rfl
@[simp] theorem setDie_past : (s.setDie n d).past = s.past := rfl
@[simp] theorem setDie_running : (s.setDie n d).running = s.running := rfl
@[simp] theorem setDie_cancels : (s.setDie n d).cancels = s.cancels := rfl
@[simp] theorem setDie_orphans : (s.setDie n d).orphans = s.orphans := rfl
@[simp] theorem setDie_pairs : (s.setDie n d).pairs = s.pairs := rfl
@[simp] theorem setDie_aliases : (s.setDie n d).aliases = s.aliases := rfl
@[simp] theorem setDie_cwaits : (s.setDie n d).cwaits = s.cwaits := rfl
@[simp] theorem setDie_launches : (s.setDie n d).launches = s.launches := rfl
@[simp] theorem setDie_roots : (s.setDie n d).roots = s.roots := rfl
@[simp] theorem setDie_queues : (s.setDie n d).queues = s.queues := rfl
@[simp] theorem setDie_images : (s.setDie n d).images = s.images := rfl
@[simp] theorem setDie_toHost : (s.setDie n d).toHost = s.toHost := rfl
@[simp] theorem setDie_toFar : (s.setDie n d).toFar = s.toFar := rfl
@[simp] theorem setDie_toLinks : (s.setDie n d).toLinks = s.toLinks := rfl
@[simp] theorem setDie_booted : (s.setDie n d).booted = s.booted := rfl
@[simp] theorem setDie_kilnA : (s.setDie n d).kilnA = s.kilnA := rfl
@[simp] theorem setDie_kilnB : (s.setDie n d).kilnB = s.kilnB := rfl
@[simp] theorem setDie_activeB : (s.setDie n d).activeB = s.activeB := rfl
@[simp] theorem setDie_fuses : (s.setDie n d).fuses = s.fuses := rfl
@[simp] theorem setDie_refire : (s.setDie n d).refire = s.refire := rfl
@[simp] theorem setDie_nonce : (s.setDie n d).nonce = s.nonce := rfl
@[simp] theorem setDie_quoting : (s.setDie n d).quoting = s.quoting := rfl
@[simp] theorem setDie_quote : (s.setDie n d).quote = s.quote := rfl
@[simp] theorem setDie_deviceKey : (s.setDie n d).deviceKey = s.deviceKey := rfl
@[simp] theorem setDie_pwrCap : (s.setDie n d).pwrCap = s.pwrCap := rfl
@[simp] theorem setDie_duty : (s.setDie n d).duty = s.duty := rfl
@[simp] theorem setDie_deadPorts : (s.setDie n d).deadPorts = s.deadPorts := rfl
@[simp] theorem setDie_ports : (s.setDie n d).ports = s.ports := rfl
@[simp] theorem setDie_links2 : (s.setDie n d).links2 = s.links2 := rfl
@[simp] theorem setDie_recompute : (s.setDie n d).recompute = s.recompute := rfl
@[simp] theorem setDie_drains : (s.setDie n d).drains = s.drains := rfl
@[simp] theorem setDie_holders : (s.setDie n d).holders = s.holders := rfl
end

/-! ### After a change of a partition entry -/

section
variable (s : State) (n : Nat) (p : Part)
@[simp] theorem setPart_clock : (s.setPart n p).clock = s.clock := rfl
@[simp] theorem setPart_cur : (s.setPart n p).cur = s.cur := rfl
@[simp] theorem setPart_turn : (s.setPart n p).turn = s.turn := rfl
@[simp] theorem setPart_agenda : (s.setPart n p).agenda = s.agenda := rfl
@[simp] theorem setPart_nextId : (s.setPart n p).nextId = s.nextId := rfl
@[simp] theorem setPart_free : (s.setPart n p).free = s.free := rfl
@[simp] theorem setPart_pkgId : (s.setPart n p).pkgId = s.pkgId := rfl
@[simp] theorem setPart_mem : (s.setPart n p).mem = s.mem := rfl
@[simp] theorem setPart_l2 : (s.setPart n p).l2 = s.l2 := rfl
@[simp] theorem setPart_poisoned : (s.setPart n p).poisoned = s.poisoned := rfl
@[simp] theorem setPart_cores : (s.setPart n p).cores = s.cores := rfl
@[simp] theorem setPart_clusters : (s.setPart n p).clusters = s.clusters := rfl
@[simp] theorem setPart_dies : (s.setPart n p).dies = s.dies := rfl
@[simp] theorem setPart_tlb : (s.setPart n p).tlb = s.tlb := rfl
@[simp] theorem setPart_flights : (s.setPart n p).flights = s.flights := rfl
@[simp] theorem setPart_links : (s.setPart n p).links = s.links := rfl
@[simp] theorem setPart_barriers : (s.setPart n p).barriers = s.barriers := rfl
@[simp] theorem setPart_barPart : (s.setPart n p).barPart = s.barPart := rfl
@[simp] theorem setPart_barTmo : (s.setPart n p).barTmo = s.barTmo := rfl
@[simp] theorem setPart_routes : (s.setPart n p).routes = s.routes := rfl
@[simp] theorem setPart_routePorts : (s.setPart n p).routePorts = s.routePorts := rfl
@[simp] theorem setPart_routeLinks : (s.setPart n p).routeLinks = s.routeLinks := rfl
@[simp] theorem setPart_dirty : (s.setPart n p).dirty = s.dirty := rfl
@[simp] theorem setPart_chunks : (s.setPart n p).chunks = s.chunks := rfl
@[simp] theorem setPart_unsaved : (s.setPart n p).unsaved = s.unsaved := rfl
@[simp] theorem setPart_released : (s.setPart n p).released = s.released := rfl
@[simp] theorem setPart_past : (s.setPart n p).past = s.past := rfl
@[simp] theorem setPart_running : (s.setPart n p).running = s.running := rfl
@[simp] theorem setPart_cancels : (s.setPart n p).cancels = s.cancels := rfl
@[simp] theorem setPart_orphans : (s.setPart n p).orphans = s.orphans := rfl
@[simp] theorem setPart_pairs : (s.setPart n p).pairs = s.pairs := rfl
@[simp] theorem setPart_aliases : (s.setPart n p).aliases = s.aliases := rfl
@[simp] theorem setPart_cwaits : (s.setPart n p).cwaits = s.cwaits := rfl
@[simp] theorem setPart_launches : (s.setPart n p).launches = s.launches := rfl
@[simp] theorem setPart_roots : (s.setPart n p).roots = s.roots := rfl
@[simp] theorem setPart_queues : (s.setPart n p).queues = s.queues := rfl
@[simp] theorem setPart_images : (s.setPart n p).images = s.images := rfl
@[simp] theorem setPart_toHost : (s.setPart n p).toHost = s.toHost := rfl
@[simp] theorem setPart_toFar : (s.setPart n p).toFar = s.toFar := rfl
@[simp] theorem setPart_toLinks : (s.setPart n p).toLinks = s.toLinks := rfl
@[simp] theorem setPart_booted : (s.setPart n p).booted = s.booted := rfl
@[simp] theorem setPart_kilnA : (s.setPart n p).kilnA = s.kilnA := rfl
@[simp] theorem setPart_kilnB : (s.setPart n p).kilnB = s.kilnB := rfl
@[simp] theorem setPart_activeB : (s.setPart n p).activeB = s.activeB := rfl
@[simp] theorem setPart_fuses : (s.setPart n p).fuses = s.fuses := rfl
@[simp] theorem setPart_refire : (s.setPart n p).refire = s.refire := rfl
@[simp] theorem setPart_nonce : (s.setPart n p).nonce = s.nonce := rfl
@[simp] theorem setPart_quoting : (s.setPart n p).quoting = s.quoting := rfl
@[simp] theorem setPart_quote : (s.setPart n p).quote = s.quote := rfl
@[simp] theorem setPart_deviceKey : (s.setPart n p).deviceKey = s.deviceKey := rfl
@[simp] theorem setPart_pwrCap : (s.setPart n p).pwrCap = s.pwrCap := rfl
@[simp] theorem setPart_duty : (s.setPart n p).duty = s.duty := rfl
@[simp] theorem setPart_deadPorts : (s.setPart n p).deadPorts = s.deadPorts := rfl
@[simp] theorem setPart_ports : (s.setPart n p).ports = s.ports := rfl
@[simp] theorem setPart_links2 : (s.setPart n p).links2 = s.links2 := rfl
@[simp] theorem setPart_recompute : (s.setPart n p).recompute = s.recompute := rfl
@[simp] theorem setPart_drains : (s.setPart n p).drains = s.drains := rfl
@[simp] theorem setPart_holders : (s.setPart n p).holders = s.holders := rfl
end

/-! ### After a flight added -/

section
variable (s : State) (f : Flight)
@[simp] theorem launchFlight_clock : (s.launchFlight f).clock = s.clock := rfl
@[simp] theorem launchFlight_cur : (s.launchFlight f).cur = s.cur := rfl
@[simp] theorem launchFlight_turn : (s.launchFlight f).turn = s.turn := rfl
@[simp] theorem launchFlight_agenda : (s.launchFlight f).agenda = s.agenda := rfl
@[simp] theorem launchFlight_free : (s.launchFlight f).free = s.free := rfl
@[simp] theorem launchFlight_pkgId : (s.launchFlight f).pkgId = s.pkgId := rfl
@[simp] theorem launchFlight_mem : (s.launchFlight f).mem = s.mem := rfl
@[simp] theorem launchFlight_l2 : (s.launchFlight f).l2 = s.l2 := rfl
@[simp] theorem launchFlight_poisoned : (s.launchFlight f).poisoned = s.poisoned := rfl
@[simp] theorem launchFlight_cores : (s.launchFlight f).cores = s.cores := rfl
@[simp] theorem launchFlight_clusters : (s.launchFlight f).clusters = s.clusters := rfl
@[simp] theorem launchFlight_dies : (s.launchFlight f).dies = s.dies := rfl
@[simp] theorem launchFlight_parts : (s.launchFlight f).parts = s.parts := rfl
@[simp] theorem launchFlight_tlb : (s.launchFlight f).tlb = s.tlb := rfl
@[simp] theorem launchFlight_links : (s.launchFlight f).links = s.links := rfl
@[simp] theorem launchFlight_barriers : (s.launchFlight f).barriers = s.barriers := rfl
@[simp] theorem launchFlight_barPart : (s.launchFlight f).barPart = s.barPart := rfl
@[simp] theorem launchFlight_barTmo : (s.launchFlight f).barTmo = s.barTmo := rfl
@[simp] theorem launchFlight_routes : (s.launchFlight f).routes = s.routes := rfl
@[simp] theorem launchFlight_routePorts : (s.launchFlight f).routePorts = s.routePorts := rfl
@[simp] theorem launchFlight_routeLinks : (s.launchFlight f).routeLinks = s.routeLinks := rfl
@[simp] theorem launchFlight_dirty : (s.launchFlight f).dirty = s.dirty := rfl
@[simp] theorem launchFlight_chunks : (s.launchFlight f).chunks = s.chunks := rfl
@[simp] theorem launchFlight_unsaved : (s.launchFlight f).unsaved = s.unsaved := rfl
@[simp] theorem launchFlight_released : (s.launchFlight f).released = s.released := rfl
@[simp] theorem launchFlight_past : (s.launchFlight f).past = s.past := rfl
@[simp] theorem launchFlight_running : (s.launchFlight f).running = s.running := rfl
@[simp] theorem launchFlight_cancels : (s.launchFlight f).cancels = s.cancels := rfl
@[simp] theorem launchFlight_orphans : (s.launchFlight f).orphans = s.orphans := rfl
@[simp] theorem launchFlight_pairs : (s.launchFlight f).pairs = s.pairs := rfl
@[simp] theorem launchFlight_aliases : (s.launchFlight f).aliases = s.aliases := rfl
@[simp] theorem launchFlight_cwaits : (s.launchFlight f).cwaits = s.cwaits := rfl
@[simp] theorem launchFlight_launches : (s.launchFlight f).launches = s.launches := rfl
@[simp] theorem launchFlight_roots : (s.launchFlight f).roots = s.roots := rfl
@[simp] theorem launchFlight_queues : (s.launchFlight f).queues = s.queues := rfl
@[simp] theorem launchFlight_images : (s.launchFlight f).images = s.images := rfl
@[simp] theorem launchFlight_toHost : (s.launchFlight f).toHost = s.toHost := rfl
@[simp] theorem launchFlight_toFar : (s.launchFlight f).toFar = s.toFar := rfl
@[simp] theorem launchFlight_toLinks : (s.launchFlight f).toLinks = s.toLinks := rfl
@[simp] theorem launchFlight_booted : (s.launchFlight f).booted = s.booted := rfl
@[simp] theorem launchFlight_kilnA : (s.launchFlight f).kilnA = s.kilnA := rfl
@[simp] theorem launchFlight_kilnB : (s.launchFlight f).kilnB = s.kilnB := rfl
@[simp] theorem launchFlight_activeB : (s.launchFlight f).activeB = s.activeB := rfl
@[simp] theorem launchFlight_fuses : (s.launchFlight f).fuses = s.fuses := rfl
@[simp] theorem launchFlight_refire : (s.launchFlight f).refire = s.refire := rfl
@[simp] theorem launchFlight_nonce : (s.launchFlight f).nonce = s.nonce := rfl
@[simp] theorem launchFlight_quoting : (s.launchFlight f).quoting = s.quoting := rfl
@[simp] theorem launchFlight_quote : (s.launchFlight f).quote = s.quote := rfl
@[simp] theorem launchFlight_deviceKey : (s.launchFlight f).deviceKey = s.deviceKey := rfl
@[simp] theorem launchFlight_pwrCap : (s.launchFlight f).pwrCap = s.pwrCap := rfl
@[simp] theorem launchFlight_duty : (s.launchFlight f).duty = s.duty := rfl
@[simp] theorem launchFlight_deadPorts : (s.launchFlight f).deadPorts = s.deadPorts := rfl
@[simp] theorem launchFlight_ports : (s.launchFlight f).ports = s.ports := rfl
@[simp] theorem launchFlight_links2 : (s.launchFlight f).links2 = s.links2 := rfl
@[simp] theorem launchFlight_recompute : (s.launchFlight f).recompute = s.recompute := rfl
@[simp] theorem launchFlight_drains : (s.launchFlight f).drains = s.drains := rfl
@[simp] theorem launchFlight_holders : (s.launchFlight f).holders = s.holders := rfl
end

/-! ### After a flight removed -/

section
variable (s : State) (id : Nat)
@[simp] theorem dropFlight_clock : (s.dropFlight id).clock = s.clock := rfl
@[simp] theorem dropFlight_cur : (s.dropFlight id).cur = s.cur := rfl
@[simp] theorem dropFlight_turn : (s.dropFlight id).turn = s.turn := rfl
@[simp] theorem dropFlight_agenda : (s.dropFlight id).agenda = s.agenda := rfl
@[simp] theorem dropFlight_nextId : (s.dropFlight id).nextId = s.nextId := rfl
@[simp] theorem dropFlight_free : (s.dropFlight id).free = s.free := rfl
@[simp] theorem dropFlight_pkgId : (s.dropFlight id).pkgId = s.pkgId := rfl
@[simp] theorem dropFlight_mem : (s.dropFlight id).mem = s.mem := rfl
@[simp] theorem dropFlight_l2 : (s.dropFlight id).l2 = s.l2 := rfl
@[simp] theorem dropFlight_poisoned : (s.dropFlight id).poisoned = s.poisoned := rfl
@[simp] theorem dropFlight_cores : (s.dropFlight id).cores = s.cores := rfl
@[simp] theorem dropFlight_clusters : (s.dropFlight id).clusters = s.clusters := rfl
@[simp] theorem dropFlight_dies : (s.dropFlight id).dies = s.dies := rfl
@[simp] theorem dropFlight_parts : (s.dropFlight id).parts = s.parts := rfl
@[simp] theorem dropFlight_tlb : (s.dropFlight id).tlb = s.tlb := rfl
@[simp] theorem dropFlight_links : (s.dropFlight id).links = s.links := rfl
@[simp] theorem dropFlight_barriers : (s.dropFlight id).barriers = s.barriers := rfl
@[simp] theorem dropFlight_barPart : (s.dropFlight id).barPart = s.barPart := rfl
@[simp] theorem dropFlight_barTmo : (s.dropFlight id).barTmo = s.barTmo := rfl
@[simp] theorem dropFlight_routes : (s.dropFlight id).routes = s.routes := rfl
@[simp] theorem dropFlight_routePorts : (s.dropFlight id).routePorts = s.routePorts := rfl
@[simp] theorem dropFlight_routeLinks : (s.dropFlight id).routeLinks = s.routeLinks := rfl
@[simp] theorem dropFlight_dirty : (s.dropFlight id).dirty = s.dirty := rfl
@[simp] theorem dropFlight_chunks : (s.dropFlight id).chunks = s.chunks := rfl
@[simp] theorem dropFlight_unsaved : (s.dropFlight id).unsaved = s.unsaved := rfl
@[simp] theorem dropFlight_released : (s.dropFlight id).released = s.released := rfl
@[simp] theorem dropFlight_past : (s.dropFlight id).past = s.past := rfl
@[simp] theorem dropFlight_running : (s.dropFlight id).running = s.running := rfl
@[simp] theorem dropFlight_cancels : (s.dropFlight id).cancels = s.cancels := rfl
@[simp] theorem dropFlight_orphans : (s.dropFlight id).orphans = s.orphans := rfl
@[simp] theorem dropFlight_pairs : (s.dropFlight id).pairs = s.pairs := rfl
@[simp] theorem dropFlight_aliases : (s.dropFlight id).aliases = s.aliases := rfl
@[simp] theorem dropFlight_cwaits : (s.dropFlight id).cwaits = s.cwaits := rfl
@[simp] theorem dropFlight_launches : (s.dropFlight id).launches = s.launches := rfl
@[simp] theorem dropFlight_roots : (s.dropFlight id).roots = s.roots := rfl
@[simp] theorem dropFlight_queues : (s.dropFlight id).queues = s.queues := rfl
@[simp] theorem dropFlight_images : (s.dropFlight id).images = s.images := rfl
@[simp] theorem dropFlight_toHost : (s.dropFlight id).toHost = s.toHost := rfl
@[simp] theorem dropFlight_toFar : (s.dropFlight id).toFar = s.toFar := rfl
@[simp] theorem dropFlight_toLinks : (s.dropFlight id).toLinks = s.toLinks := rfl
@[simp] theorem dropFlight_booted : (s.dropFlight id).booted = s.booted := rfl
@[simp] theorem dropFlight_kilnA : (s.dropFlight id).kilnA = s.kilnA := rfl
@[simp] theorem dropFlight_kilnB : (s.dropFlight id).kilnB = s.kilnB := rfl
@[simp] theorem dropFlight_activeB : (s.dropFlight id).activeB = s.activeB := rfl
@[simp] theorem dropFlight_fuses : (s.dropFlight id).fuses = s.fuses := rfl
@[simp] theorem dropFlight_refire : (s.dropFlight id).refire = s.refire := rfl
@[simp] theorem dropFlight_nonce : (s.dropFlight id).nonce = s.nonce := rfl
@[simp] theorem dropFlight_quoting : (s.dropFlight id).quoting = s.quoting := rfl
@[simp] theorem dropFlight_quote : (s.dropFlight id).quote = s.quote := rfl
@[simp] theorem dropFlight_deviceKey : (s.dropFlight id).deviceKey = s.deviceKey := rfl
@[simp] theorem dropFlight_pwrCap : (s.dropFlight id).pwrCap = s.pwrCap := rfl
@[simp] theorem dropFlight_duty : (s.dropFlight id).duty = s.duty := rfl
@[simp] theorem dropFlight_deadPorts : (s.dropFlight id).deadPorts = s.deadPorts := rfl
@[simp] theorem dropFlight_ports : (s.dropFlight id).ports = s.ports := rfl
@[simp] theorem dropFlight_links2 : (s.dropFlight id).links2 = s.links2 := rfl
@[simp] theorem dropFlight_recompute : (s.dropFlight id).recompute = s.recompute := rfl
@[simp] theorem dropFlight_drains : (s.dropFlight id).drains = s.drains := rfl
@[simp] theorem dropFlight_holders : (s.dropFlight id).holders = s.holders := rfl
end

/-! ### Records read back -/

@[simp] theorem wr_mem (s : State) (loc : Nat) (bs : List Byte) : (s.wr loc bs).mem = s.mem.write loc bs := rfl
@[simp] theorem wsSet_mem (s : State) (core ctx off n v : Nat) :
    (s.wsSet core ctx off n v).mem = s.mem.write (s.wsLoc core ctx off) (bytesOf n v) := rfl
@[simp] theorem launchFlight_flights (s : State) (f : Flight) : (s.launchFlight f).flights = s.flights ++ [(s.nextId, f)] := rfl
@[simp] theorem launchFlight_nextId (s : State) (f : Flight) : (s.launchFlight f).nextId = s.nextId + 1 := rfl
@[simp] theorem dropFlight_flights (s : State) (id : Nat) : (s.dropFlight id).flights = dropId id s.flights := rfl

@[simp] theorem core_setCore (s : State) (n : Nat) (c : CoreState) (k : Nat) :
    (s.setCore n c).core k = if k = n then c else s.core k := Tbl.get_set _ _ _ _ _
@[simp] theorem cluster_setCluster (s : State) (n : Nat) (c : Cluster) (k : Nat) :
    (s.setCluster n c).cluster k = if k = n then c else s.cluster k := Tbl.get_set _ _ _ _ _
@[simp] theorem die_setDie (s : State) (n : Nat) (d : Die) (k : Nat) :
    (s.setDie n d).die k = if k = n then d else s.die k := Tbl.get_set _ _ _ _ _
@[simp] theorem part_setPart (s : State) (n : Nat) (p : Part) (k : Nat) :
    (s.setPart n p).part k = if k = n then p else s.part k := Tbl.get_set _ _ _ _ _

/-- A context's record read back; another context keeps its own. -/
theorem ctxAt_setCtxAt (s : State) (core ctx : Nat) (c : Ctx) (core' ctx' : Nat) :
    (s.setCtxAt core ctx c).ctxAt core' ctx' = if core' = core ∧ ctx' = ctx then c else s.ctxAt core' ctx' := by
  unfold State.ctxAt State.setCtxAt
  rw [core_setCore]
  by_cases h : core' = core
  · by_cases g : ctx' = ctx
    · subst h g; simp
    · subst h
      simp only [if_true, true_and, g, if_false]
      exact Tbl.get_set_ne _ _ _ _ _ _ g
  · simp [h]

/-- The rest of a core's record is not changed by a change of a context's. -/
theorem core_setCtxAt (s : State) (core ctx : Nat) (c : Ctx) (k : Nat) :
    (s.setCtxAt core ctx c).core k =
      if k = core then { s.core core with ctxs := Tbl.set (Ctx.reset ctx) (s.core core).ctxs ctx c } else s.core k := by
  unfold State.setCtxAt; rw [core_setCore]

/-! ### Reads that a change of another record leaves alone -/

section
variable (s : State) (n : Nat) (c : Cluster)
@[simp] theorem core_setCluster (k : Nat) : (s.setCluster n c).core k = s.core k := rfl
@[simp] theorem ctxAt_setCluster (k x : Nat) : (s.setCluster n c).ctxAt k x = s.ctxAt k x := rfl
@[simp] theorem die_setCluster (k : Nat) : (s.setCluster n c).die k = s.die k := rfl
@[simp] theorem part_setCluster (k : Nat) : (s.setCluster n c).part k = s.part k := rfl
@[simp] theorem rd_setCluster (a m : Nat) : (s.setCluster n c).rd a m = s.rd a m := rfl
@[simp] theorem wsLoc_setCluster (k x o : Nat) : (s.setCluster n c).wsLoc k x o = s.wsLoc k x o := rfl
@[simp] theorem wsGet_setCluster (k x o m : Nat) : (s.setCluster n c).wsGet k x o m = s.wsGet k x o m := rfl
@[simp] theorem gN_setCluster (r : GReg) : (s.setCluster n c).gN r = s.gN r := rfl
@[simp] theorem mN_setCluster (r : MReg) : (s.setCluster n c).mN r = s.mN r := rfl
@[simp] theorem laneN_setCluster (r : VReg) (i : Nat) : (s.setCluster n c).laneN r i = s.laneN r i := rfl
@[simp] theorem cxAt_setCluster (k x o : Nat) : (s.setCluster n c).cxAt k x o = s.cxAt k x o := rfl
@[simp] theorem cx_setCluster (o : Nat) : (s.setCluster n c).cx o = s.cx o := rfl
@[simp] theorem pc_setCluster : (s.setCluster n c).pc = s.pc := rfl
@[simp] theorem partOf_setCluster (k : Nat) : (s.setCluster n c).partOf k = s.partOf k := rfl
end

section
variable (s : State) (n : Nat) (d : Die)
@[simp] theorem core_setDie (k : Nat) : (s.setDie n d).core k = s.core k := rfl
@[simp] theorem ctxAt_setDie (k x : Nat) : (s.setDie n d).ctxAt k x = s.ctxAt k x := rfl
@[simp] theorem cluster_setDie (k : Nat) : (s.setDie n d).cluster k = s.cluster k := rfl
@[simp] theorem part_setDie (k : Nat) : (s.setDie n d).part k = s.part k := rfl
@[simp] theorem rd_setDie (a m : Nat) : (s.setDie n d).rd a m = s.rd a m := rfl
@[simp] theorem wsLoc_setDie (k x o : Nat) : (s.setDie n d).wsLoc k x o = s.wsLoc k x o := rfl
@[simp] theorem wsGet_setDie (k x o m : Nat) : (s.setDie n d).wsGet k x o m = s.wsGet k x o m := rfl
@[simp] theorem gN_setDie (r : GReg) : (s.setDie n d).gN r = s.gN r := rfl
@[simp] theorem mN_setDie (r : MReg) : (s.setDie n d).mN r = s.mN r := rfl
@[simp] theorem laneN_setDie (r : VReg) (i : Nat) : (s.setDie n d).laneN r i = s.laneN r i := rfl
@[simp] theorem cxAt_setDie (k x o : Nat) : (s.setDie n d).cxAt k x o = s.cxAt k x o := rfl
@[simp] theorem cx_setDie (o : Nat) : (s.setDie n d).cx o = s.cx o := rfl
@[simp] theorem pc_setDie : (s.setDie n d).pc = s.pc := rfl
@[simp] theorem partOf_setDie (k : Nat) : (s.setDie n d).partOf k = s.partOf k := rfl
end

section
variable (s : State) (n : Nat) (p : Part)
@[simp] theorem core_setPart (k : Nat) : (s.setPart n p).core k = s.core k := rfl
@[simp] theorem ctxAt_setPart (k x : Nat) : (s.setPart n p).ctxAt k x = s.ctxAt k x := rfl
@[simp] theorem cluster_setPart (k : Nat) : (s.setPart n p).cluster k = s.cluster k := rfl
@[simp] theorem die_setPart (k : Nat) : (s.setPart n p).die k = s.die k := rfl
@[simp] theorem rd_setPart (a m : Nat) : (s.setPart n p).rd a m = s.rd a m := rfl
@[simp] theorem wsLoc_setPart (k x o : Nat) : (s.setPart n p).wsLoc k x o = s.wsLoc k x o := rfl
@[simp] theorem wsGet_setPart (k x o m : Nat) : (s.setPart n p).wsGet k x o m = s.wsGet k x o m := rfl
@[simp] theorem gN_setPart (r : GReg) : (s.setPart n p).gN r = s.gN r := rfl
@[simp] theorem mN_setPart (r : MReg) : (s.setPart n p).mN r = s.mN r := rfl
@[simp] theorem laneN_setPart (r : VReg) (i : Nat) : (s.setPart n p).laneN r i = s.laneN r i := rfl
@[simp] theorem cxAt_setPart (k x o : Nat) : (s.setPart n p).cxAt k x o = s.cxAt k x o := rfl
@[simp] theorem cx_setPart (o : Nat) : (s.setPart n p).cx o = s.cx o := rfl
@[simp] theorem pc_setPart : (s.setPart n p).pc = s.pc := rfl
end

section
variable (s : State) (f : Flight)
@[simp] theorem core_launchFlight (k : Nat) : (s.launchFlight f).core k = s.core k := rfl
@[simp] theorem ctxAt_launchFlight (k x : Nat) : (s.launchFlight f).ctxAt k x = s.ctxAt k x := rfl
@[simp] theorem cluster_launchFlight (k : Nat) : (s.launchFlight f).cluster k = s.cluster k := rfl
@[simp] theorem die_launchFlight (k : Nat) : (s.launchFlight f).die k = s.die k := rfl
@[simp] theorem part_launchFlight (k : Nat) : (s.launchFlight f).part k = s.part k := rfl
@[simp] theorem rd_launchFlight (a m : Nat) : (s.launchFlight f).rd a m = s.rd a m := rfl
@[simp] theorem wsLoc_launchFlight (k x o : Nat) : (s.launchFlight f).wsLoc k x o = s.wsLoc k x o := rfl
@[simp] theorem wsGet_launchFlight (k x o m : Nat) : (s.launchFlight f).wsGet k x o m = s.wsGet k x o m := rfl
@[simp] theorem gN_launchFlight (r : GReg) : (s.launchFlight f).gN r = s.gN r := rfl
@[simp] theorem mN_launchFlight (r : MReg) : (s.launchFlight f).mN r = s.mN r := rfl
@[simp] theorem laneN_launchFlight (r : VReg) (i : Nat) : (s.launchFlight f).laneN r i = s.laneN r i := rfl
@[simp] theorem cxAt_launchFlight (k x o : Nat) : (s.launchFlight f).cxAt k x o = s.cxAt k x o := rfl
@[simp] theorem cx_launchFlight (o : Nat) : (s.launchFlight f).cx o = s.cx o := rfl
@[simp] theorem pc_launchFlight : (s.launchFlight f).pc = s.pc := rfl
@[simp] theorem partOf_launchFlight (k : Nat) : (s.launchFlight f).partOf k = s.partOf k := rfl
end

section
variable (s : State) (id : Nat)
@[simp] theorem core_dropFlight (k : Nat) : (s.dropFlight id).core k = s.core k := rfl
@[simp] theorem ctxAt_dropFlight (k x : Nat) : (s.dropFlight id).ctxAt k x = s.ctxAt k x := rfl
@[simp] theorem cluster_dropFlight (k : Nat) : (s.dropFlight id).cluster k = s.cluster k := rfl
@[simp] theorem die_dropFlight (k : Nat) : (s.dropFlight id).die k = s.die k := rfl
@[simp] theorem part_dropFlight (k : Nat) : (s.dropFlight id).part k = s.part k := rfl
@[simp] theorem rd_dropFlight (a m : Nat) : (s.dropFlight id).rd a m = s.rd a m := rfl
@[simp] theorem wsLoc_dropFlight (k x o : Nat) : (s.dropFlight id).wsLoc k x o = s.wsLoc k x o := rfl
@[simp] theorem wsGet_dropFlight (k x o m : Nat) : (s.dropFlight id).wsGet k x o m = s.wsGet k x o m := rfl
@[simp] theorem gN_dropFlight (r : GReg) : (s.dropFlight id).gN r = s.gN r := rfl
@[simp] theorem mN_dropFlight (r : MReg) : (s.dropFlight id).mN r = s.mN r := rfl
@[simp] theorem laneN_dropFlight (r : VReg) (i : Nat) : (s.dropFlight id).laneN r i = s.laneN r i := rfl
@[simp] theorem cxAt_dropFlight (k x o : Nat) : (s.dropFlight id).cxAt k x o = s.cxAt k x o := rfl
@[simp] theorem cx_dropFlight (o : Nat) : (s.dropFlight id).cx o = s.cx o := rfl
@[simp] theorem pc_dropFlight : (s.dropFlight id).pc = s.pc := rfl
@[simp] theorem partOf_dropFlight (k : Nat) : (s.dropFlight id).partOf k = s.partOf k := rfl
end

section
variable (s : State) (loc : Nat) (bs : List Byte)
@[simp] theorem core_wr (k : Nat) : (s.wr loc bs).core k = s.core k := rfl
@[simp] theorem ctxAt_wr (k x : Nat) : (s.wr loc bs).ctxAt k x = s.ctxAt k x := rfl
@[simp] theorem cluster_wr (k : Nat) : (s.wr loc bs).cluster k = s.cluster k := rfl
@[simp] theorem die_wr (k : Nat) : (s.wr loc bs).die k = s.die k := rfl
@[simp] theorem part_wr (k : Nat) : (s.wr loc bs).part k = s.part k := rfl
@[simp] theorem partOf_wr (k : Nat) : (s.wr loc bs).partOf k = s.partOf k := rfl
end

section
variable (s : State) (core ctx off m v : Nat)
@[simp] theorem core_wsSet (k : Nat) : (s.wsSet core ctx off m v).core k = s.core k := rfl
@[simp] theorem ctxAt_wsSet (k x : Nat) : (s.wsSet core ctx off m v).ctxAt k x = s.ctxAt k x := rfl
@[simp] theorem cluster_wsSet (k : Nat) : (s.wsSet core ctx off m v).cluster k = s.cluster k := rfl
@[simp] theorem die_wsSet (k : Nat) : (s.wsSet core ctx off m v).die k = s.die k := rfl
@[simp] theorem part_wsSet (k : Nat) : (s.wsSet core ctx off m v).part k = s.part k := rfl
@[simp] theorem wsLoc_wsSet (k x o : Nat) : (s.wsSet core ctx off m v).wsLoc k x o = s.wsLoc k x o := rfl
@[simp] theorem partOf_wsSet (k : Nat) : (s.wsSet core ctx off m v).partOf k = s.partOf k := rfl
end

section
variable (s : State) (n : Nat) (c : CoreState)
@[simp] theorem cluster_setCore (k : Nat) : (s.setCore n c).cluster k = s.cluster k := rfl
@[simp] theorem die_setCore (k : Nat) : (s.setCore n c).die k = s.die k := rfl
@[simp] theorem part_setCore (k : Nat) : (s.setCore n c).part k = s.part k := rfl
@[simp] theorem rd_setCore (a m : Nat) : (s.setCore n c).rd a m = s.rd a m := rfl
@[simp] theorem partOf_setCore (k : Nat) : (s.setCore n c).partOf k = s.partOf k := rfl
end

end Sys2Proof.Machine
end

