-- ==== Sys2Proof/Laws/Vectors.lean ====
section
/-! SUPPORT. Laws/Vectors.lean: what the shared ways of completing a vector or mask instruction do (R97). -/
namespace Sys2Proof.Machine

/-- A byte of lists of four bytes each, put together. -/
theorem getD_flatten4 (L : List (List Byte)) (h : ∀ l ∈ L, l.length = 4) (i k : Nat) (hk : k < 4) :
    L.flatten.getD (4 * i + k) 0 = (L.getD i []).getD k 0 := by
  induction L generalizing i with
  | nil => simp
  | cons l L ih =>
    have hl := h l (List.mem_cons_self)
    rw [List.flatten_cons]
    cases i with
    | zero =>
      rw [List.getD_append _ _ _ _ (by omega)]
      simp
    | succ i =>
      rw [List.getD_append_right _ _ _ _ (by omega)]
      rw [show 4 * (i + 1) + k - l.length = 4 * i + k by omega, ih (fun x hx => h x (List.mem_cons_of_mem _ hx))]
      simp

theorem lanes_length (f : Nat → Nat) : (((List.range 16).map (fun i => bytesOf 4 (f i))).flatten).length = 64 := by
  simp [List.length_flatten, List.map_map, Function.comp_def]

/-- Sixteen lanes written side by side read back one by one. -/
theorem read_lanes (m : Memory) (loc : Nat) (f : Nat → Nat) (i : Nat) (hi : i < 16) :
    natOf ((m.write loc ((List.range 16).map (fun i => bytesOf 4 (f i))).flatten).read (loc + 4 * i) 4) = f i % 2 ^ 32 := by
  have hl := lanes_length f
  have h : (m.write loc ((List.range 16).map (fun i => bytesOf 4 (f i))).flatten).read (loc + 4 * i) 4 = bytesOf 4 (f i) := by
    rw [Memory.read_eq_map]
    refine List.ext_getElem (by simp) (fun k h1 h2 => ?_)
    simp only [List.getElem_map, List.getElem_range, Memory.get_write]
    rw [List.length_map, List.length_range] at h1
    rw [if_pos (by omega), show loc + 4 * i + k - loc = 4 * i + k by omega,
      getD_flatten4 _ (by simp) i k h1]
    simp [List.getD_eq_getElem?_getD, hi, List.getElem?_eq_getElem h2]
  rw [h, natOf_bytesOf]

theorem laneN_lt (s : State) (r : VReg) (i : Nat) : s.laneN r i < 2 ^ 32 := wsGet_lt s _ _ _ 4

theorem setV_bytesOnly (s : State) (d : VReg) (mask : Nat) (f : Nat → Nat) : BytesOnly [s.vRange d] s (s.setV d mask f) := by
  have h := BytesOnly.cacheWr s s.cur.core s.cur.ctx (0x200 + 64 * d.val)
    ((List.range 16).map (fun i => bytesOf 4 (if bitOf mask i then f i else s.laneN d i))).flatten
  rw [lanes_length] at h
  refine ⟨rfl, h.byte, fun w hw => (List.mem_filter.1 hw).1, fun w hw hd => List.mem_filter.2 ⟨hw, ?_⟩⟩
  have hd := hd _ (List.mem_singleton_self _)
  simp only [State.vRange] at hd
  have : ¬ (s.wsLoc s.cur.core s.cur.ctx (0x200 + 64 * d.val) ≤ w ∧ w < s.wsLoc s.cur.core s.cur.ctx (0x200 + 64 * d.val) + 64) := by
    omega
  rw [← Bool.decide_and, decide_eq_false this]; rfl

/-- The lanes of a register after those that a mask sets are replaced. -/
theorem laneN_setV (s : State) (d : VReg) (mask : Nat) (f : Nat → Nat) (i : Nat) (hi : i < 16) :
    (s.setV d mask f).laneN d i = if bitOf mask i then f i % 2 ^ 32 else s.laneN d i := by
  have h := read_lanes s.mem (s.wsLoc s.cur.core s.cur.ctx (0x200 + 64 * d.val))
    (fun i => if bitOf mask i then f i else s.laneN d i) i hi
  have hloc : s.wsLoc s.cur.core s.cur.ctx (0x200 + 64 * d.val + 4 * i) =
      s.wsLoc s.cur.core s.cur.ctx (0x200 + 64 * d.val) + 4 * i := by
    rw [wsLoc_eq s _ _ (0x200 + 64 * d.val + 4 * i), wsLoc_eq s _ _ (0x200 + 64 * d.val)]; omega
  rw [State.laneN, (setV_bytesOnly s d mask f).cur, State.wsGet, (setV_bytesOnly s d mask f).wsLoc, hloc]
  refine h.trans ?_
  split_ifs
  · rfl
  · exact Nat.mod_eq_of_lt (laneN_lt s d i)

/-- An instruction that replaces lanes of a vector register. -/
theorem setV_writesV (s : State) (d : VReg) (mask : Nat) (f : Nat → Nat) :
    WritesV s (.next (s.setV d mask f).advance) d mask f := by
  have hb := setV_bytesOnly s d mask f
  refine completes_of_apart hb (vRange_apart s d) (fun u hu i hi => ?_)
  rw [laneN_onRanges hb hu d i hi, laneN_setV s d mask f i hi]

/-- Sixteen bits put together, taken apart again. -/
theorem bitOf_sum16 (f : Nat → Bool) (i : Nat) (hi : i < 16) :
    bitOf ((List.range 16).foldl (fun acc i => acc + (f i).toNat * 2 ^ i) 0 % 2 ^ 16) i = f i := by
  have h (j : Nat) : (f j).toNat ≤ 1 := Bool.toNat_le _
  have key : (List.range 16).foldl (fun acc i => acc + (f i).toNat * 2 ^ i) 0 % 2 ^ 16 / 2 ^ i % 2 = (f i).toNat := by
    have h0 := h 0; have h1 := h 1; have h2 := h 2; have h3 := h 3; have h4 := h 4; have h5 := h 5; have h6 := h 6
    have h7 := h 7; have h8 := h 8; have h9 := h 9; have h10 := h 10; have h11 := h 11; have h12 := h 12
    have h13 := h 13; have h14 := h 14; have h15 := h 15
    simp only [show List.range 16 = [0, 1, 2, 3, 4, 5, 6, 7, 8, 9, 10, 11, 12, 13, 14, 15] from rfl, List.foldl]
    interval_cases i <;> norm_num <;> omega
  rw [bitOf, key]
  cases f i <;> rfl

/-- An instruction that writes a mask register bit by bit. -/
theorem doneM_writesM (s : State) (d : MReg) (f : Nat → Bool) : WritesM s (.next (s.doneM d f)) d f := by
  obtain ⟨t, h1, h2, h5, h3, h4⟩ := setMN_completes s d ((List.range 16).foldl (fun acc i => acc + (f i).toNat * 2 ^ i) 0)
  refine ⟨t, h1, h2, h5, h3, fun i hi => ?_⟩
  rw [h4]
  split_ifs
  · interval_cases i <;> rfl
  · exact bitOf_sum16 f i hi

end Sys2Proof.Machine
end

