-- ==== Sys2Proof/Tests/Slice0.lean ====
section
/-! SUPPORT. Tests/Slice0.lean: the words written out from the encoding tables decode to their instructions, ill-formed terms
and unassigned words are refused, worked results of the specification come out, and every statement with hypotheses has a
state and operands that meet them. -/
section
open Sys2Proof Sys2Proof.Machine
/- One thread at a time: theorems checked side by side take memory for a stack each. -/
set_option Elab.async false

/-! ### Words and the instructions they spell, from the tables of 02 to 20 (R35 to R46, R140) -/

/-- Each list of words decodes to its instruction, whose encoding it is, and the instruction is well formed. The last word is
one that no instruction reads. -/
noncomputable def readsAs (l : List (List Nat × Instr)) : Bool :=
  l.all fun p => decide ((decodeWords (p.1 ++ [0xFFFFFFFF])).toOption = some (p.2, p.1.length)) &&
    decide (encode p.2 = p.1) && p.2.wf

theorem test_decode_integer : readsAs [
  ([0x00B15981], .add 38 21 44),
  ([0x01B15981], .sub 38 21 44),
  ([0x02B15981], .and 38 21 44),
  ([0x03B15981], .or 38 21 44),
  ([0x04B15981], .xor 38 21 44),
  ([0x05B15981], .andn 38 21 44),
  ([0x06B15981], .shl 38 21 44),
  ([0x07B15981], .shr 38 21 44),
  ([0x08B15981], .sra 38 21 44),
  ([0x09B15981], .rol 38 21 44),
  ([0x0AB15981], .ror 38 21 44),
  ([0x0BB15981], .min 38 21 44),
  ([0x0CB15981], .max 38 21 44),
  ([0x0DB15981], .minu 38 21 44),
  ([0x0EB15981], .maxu 38 21 44),
  ([0x00B15982], .mul 38 21 44),
  ([0x01B15982], .mulh 38 21 44),
  ([0x02B15982], .mulhu 38 21 44),
  ([0x03B15982], .div 38 21 44),
  ([0x04B15982], .divu 38 21 44),
  ([0x05B15982], .rem 38 21 44),
  ([0x06B15982], .remu 38 21 44),
  ([0x00B15983], .cmpeq 38 21 44),
  ([0x01B15983], .cmpne 38 21 44),
  ([0x02B15983], .cmplt 38 21 44),
  ([0x03B15983], .cmpltu 38 21 44),
  ([0x04B15983], .cmple 38 21 44),
  ([0x05B15983], .cmpleu 38 21 44),
  ([0x06B15983], .cmovz 38 21 44),
  ([0x07B15983], .cmovnz 38 21 44),
  ([0x00015984], .clz 38 21),
  ([0x01015984], .ctz 38 21),
  ([0x02015984], .popc 38 21),
  ([0x03015984], .brev 38 21),
  ([0x04015984], .bswap 38 21),
  ([0x05015984], .sextb 38 21),
  ([0x06015984], .sexth 38 21),
  ([0x07015984], .sextw 38 21),
  ([0x08015984], .zextb 38 21),
  ([0x09015984], .zexth 38 21),
  ([0x0A015984], .zextw 38 21),
  ([0x0BB15984], .bext 38 21 44),
  ([0x0CB15984], .bins 38 21 44)] = true := by decide +kernel

theorem test_decode_immediate : readsAs [
  ([0xFF455985], .addi 38 21 { pfx := 0, val := 0xFFFFFFFFFFFFFFD1 }),
  ([0xFF415986], .andi 38 21 { pfx := 0, val := 0xFFFFFFFFFFFFFFD0 }),
  ([0xFF3D5987], .ori 38 21 { pfx := 0, val := 0xFFFFFFFFFFFFFFCF }),
  ([0xFF395988], .xori 38 21 { pfx := 0, val := 0xFFFFFFFFFFFFFFCE }),
  ([0xFF35598A], .cmpeqi 38 21 { pfx := 0, val := 0xFFFFFFFFFFFFFFCD }),
  ([0xFF31598B], .cmplti 38 21 { pfx := 0, val := 0xFFFFFFFFFFFFFFCC }),
  ([0xFF2D598C], .cmpltui 38 21 { pfx := 0, val := 0xFFFFFFFFFFFFFFCB }),
  ([0xFF28098D], .addpc 38 { pfx := 0, val := 0xFFFFFFFFFFFFFFCA }),
  ([0xFF25598E], .muli 38 21 { pfx := 0, val := 0xFFFFFFFFFFFFFFC9 }),
  ([0x00A55989], .shli 38 21 41),
  ([0x40A55989], .shri 38 21 41),
  ([0x80A55989], .srai 38 21 41),
  ([0xC0A55989], .rori 38 21 41)] = true := by decide +kernel

theorem test_decode_float : readsAs [
  ([0x00B15990], .fadd 38 21 44),
  ([0x01B15990], .fsub 38 21 44),
  ([0x02B15990], .fmul 38 21 44),
  ([0x03B15990], .fdiv 38 21 44),
  ([0x04B15990], .fmadd 38 21 44),
  ([0x05B15990], .fmsub 38 21 44),
  ([0x06B15990], .fmin 38 21 44),
  ([0x07B15990], .fmax 38 21 44),
  ([0x08015990], .fsqrt 38 21),
  ([0x09015990], .fabs 38 21),
  ([0x0A015990], .fneg 38 21),
  ([0x0BB15990], .fcopys 38 21 44),
  ([0x00B15991], .fcmpeq 38 21 44),
  ([0x01B15991], .fcmplt 38 21 44),
  ([0x02B15991], .fcmple 38 21 44),
  ([0x03B15991], .fcmpun 38 21 44),
  ([0x04015991], .fclass 38 21),
  ([0x00115992], .itof 38 21 .dynamic),
  ([0x01015992], .utof 38 21 (.named .rne)),
  ([0x02055992], .ftoi 38 21 (.named .rtz)),
  ([0x03095992], .ftou 38 21 (.named .rdn)),
  ([0x040D5992], .ftobf 38 21 (.named .rup)),
  ([0x05115992], .bftof 38 21 .dynamic),
  ([0x06015992], .ftoe4 38 21 (.named .rne)),
  ([0x07055992], .e4tof 38 21 (.named .rtz)),
  ([0x08295992], .ftoe5 38 21 (.named .rdn) true),
  ([0x090D5992], .e5tof 38 21 (.named .rup)),
  ([0x0A115992], .ftoe2 38 21 .dynamic),
  ([0x0B015992], .e2tof 38 21 (.named .rne))] = true := by decide +kernel

theorem test_decode_control : readsAs [
  ([0xFE9EC558], .beq 21 44 { pfx := 0, val := 0xFFFFFFFFFFFFFFA7 }),
  ([0xFE9AC559], .bne 21 44 { pfx := 0, val := 0xFFFFFFFFFFFFFFA6 }),
  ([0xFE96C55A], .blt 21 44 { pfx := 0, val := 0xFFFFFFFFFFFFFFA5 }),
  ([0xFE92C55B], .bge 21 44 { pfx := 0, val := 0xFFFFFFFFFFFFFFA4 }),
  ([0xFE8EC55C], .bltu 21 44 { pfx := 0, val := 0xFFFFFFFFFFFFFFA3 }),
  ([0xFE8AC55D], .bgeu 21 44 { pfx := 0, val := 0xFFFFFFFFFFFFFFA2 }),
  ([0xFFFA199E], .jal 38 { pfx := 0, val := 0xFFFFFFFFFFFFFFA1 }),
  ([0x0E81599F], .jalr 38 21 { pfx := 0, val := 0xFFFFFFFFFFFFFFA0 }),
  ([0x1E7C099F], .loopnz 38 { pfx := 0, val := 0xFFFFFFFFFFFFFF9F }),
  ([0x216D501F], .rep 21 5 11),
  ([0x316E971F], .repi 2652 5 11)] = true := by decide +kernel

theorem test_decode_memory : readsAs [
  ([0xE79559A0], .ldb 38 21 { pfx := 0, val := 0xFFFFFFFFFFFFFF9E } .order ⟨true, false⟩),
  ([0xE76959A1], .ldh 38 21 { pfx := 0, val := 0xFFFFFFFFFFFFFF9D } .stream ⟨false, true⟩),
  ([0xE70D59A2], .ldw 38 21 { pfx := 0, val := 0xFFFFFFFFFFFFFF9C } .plain ⟨true, true⟩),
  ([0xE6D159A3], .ldd 38 21 { pfx := 0, val := 0xFFFFFFFFFFFFFF9B } .order ⟨false, false⟩),
  ([0x7FE95023], .pref 21 { pfx := 0, val := 511 } true ⟨false, true⟩),
  ([0xE64959A4], .stb 38 21 { pfx := 0, val := 0xFFFFFFFFFFFFFF99 } .plain ⟨false, true⟩),
  ([0xE61D59A5], .sth 38 21 { pfx := 0, val := 0xFFFFFFFFFFFFFF98 } .order ⟨true, true⟩),
  ([0xE5E159A6], .stw 38 21 { pfx := 0, val := 0xFFFFFFFFFFFFFF97 } .stream ⟨false, false⟩),
  ([0xE58559A7], .std 38 21 { pfx := 0, val := 0xFFFFFFFFFFFFFF96 } .plain ⟨true, false⟩),
  ([0xA2B1506A], .stn 21 44 true true ⟨false, true⟩),
  ([0x70B159A8], .axchg 38 21 44 true true ⟨true, false⟩),
  ([0x81B159A8], .aadd 38 21 44 false false ⟨false, true⟩),
  ([0x92B159A8], .aand 38 21 44 true false ⟨false, true⟩),
  ([0xE3B159A8], .aor 38 21 44 false true ⟨true, true⟩),
  ([0xF4B159A8], .axor 38 21 44 true true ⟨true, true⟩),
  ([0x05B159A8], .amin 38 21 44 false false ⟨false, false⟩),
  ([0x16B159A8], .amax 38 21 44 true false ⟨false, false⟩),
  ([0x67B159A8], .aminu 38 21 44 false true ⟨true, false⟩),
  ([0x78B159A8], .amaxu 38 21 44 true true ⟨true, false⟩),
  ([0x89B159A8], .afadd 38 21 44 false false ⟨false, true⟩),
  ([0xA0B15029], .axchgPost 21 44 true ⟨false, true⟩),
  ([0xC1B15029], .aaddPost 21 44 false ⟨true, true⟩),
  ([0xE2B15029], .aandPost 21 44 true ⟨true, true⟩),
  ([0x03B15029], .aorPost 21 44 false ⟨false, false⟩),
  ([0x24B15029], .axorPost 21 44 true ⟨false, false⟩),
  ([0x45B15029], .aminPost 21 44 false ⟨true, false⟩),
  ([0x66B15029], .amaxPost 21 44 true ⟨true, false⟩),
  ([0x87B15029], .aminuPost 21 44 false ⟨false, true⟩),
  ([0xA8B15029], .amaxuPost 21 44 true ⟨false, true⟩),
  ([0xC9B15029], .afaddPost 21 44 false ⟨true, true⟩),
  ([0xF0B159AA], .cas 38 21 44 true true ⟨true, true⟩),
  ([0x01B159AA], .casp 38 21 44 false false ⟨false, false⟩)] = true := by decide +kernel

theorem test_decode_order : readsAs [
  ([0x045E07EC], .wait 1 2 30 0 31),
  ([0x0000016D], .fence .package),
  ([0x010159AD], .cwait 38 21),
  ([0x00F5502E], .bararm .package 13 21),
  ([0x01B409AE], .barrive .die 13 38),
  ([0x024D502E], .barwait .cluster 3 21),
  ([0x030C09AE], .barq .quad 3 38)] = true := by decide +kernel

theorem test_decode_vector_1 : readsAs [
  ([0x00ACA9B0], .vfadd 6 21 12 5),
  ([0x01ACA9B0], .vfsub 6 21 12 5),
  ([0x02ACA9B0], .vfmul 6 21 12 5),
  ([0x03ACA9B0], .vfdiv 6 21 12 5),
  ([0x04ACA9B0], .vfma 6 21 12 5),
  ([0x05ACA9B0], .vfms 6 21 12 5),
  ([0x06ACA9B0], .vfmin 6 21 12 5),
  ([0x07ACA9B0], .vfmax 6 21 12 5),
  ([0x08A0A9B0], .vfabs 6 21 5),
  ([0x09A0A9B0], .vfneg 6 21 5),
  ([0x0AA0A9B0], .vfsqrt 6 21 5),
  ([0x0BA0A9B0], .vfrcp 6 21 5),
  ([0x0CA0A9B0], .vfrsq 6 21 5),
  ([0x0DA0A9B0], .vfexp2 6 21 5),
  ([0x0EA0A9B0], .vflog2 6 21 5),
  ([0x10ACA9B0], .vbfma 6 21 12 5),
  ([0x00ACA9B1], .vadd 6 21 12 5),
  ([0x01ACA9B1], .vsub 6 21 12 5),
  ([0x02ACA9B1], .vmul 6 21 12 5),
  ([0x03ACA9B1], .vmulh 6 21 12 5),
  ([0x04ACA9B1], .vmin 6 21 12 5),
  ([0x05ACA9B1], .vmax 6 21 12 5),
  ([0x06ACA9B1], .vminu 6 21 12 5),
  ([0x07ACA9B1], .vmaxu 6 21 12 5),
  ([0x08ACA9B1], .vand 6 21 12 5),
  ([0x09ACA9B1], .vor 6 21 12 5),
  ([0x0AACA9B1], .vxor 6 21 12 5),
  ([0x0BACA9B1], .vshl 6 21 12 5),
  ([0x0CACA9B1], .vshr 6 21 12 5),
  ([0x0DACA9B1], .vsra 6 21 12 5),
  ([0x0EACA9B1], .vadds 6 21 12 5),
  ([0x0FACA9B1], .vsubs 6 21 12 5),
  ([0x00ACA9B2], .vfcmpeq 6 21 12 5),
  ([0x01ACA9B2], .vfcmplt 6 21 12 5),
  ([0x02ACA9B2], .vfcmple 6 21 12 5),
  ([0x03ACA9B2], .vcmpeq 6 21 12 5),
  ([0x04ACA9B2], .vcmplt 6 21 12 5),
  ([0x05ACA9B2], .vcmpltu 6 21 12 5),
  ([0x08ACA9B2], .vsel 6 21 12 5),
  ([0x090429B2], .mand 6 5 4),
  ([0x0A0429B2], .mor 6 5 4),
  ([0x0B0429B2], .mxor 6 5 4),
  ([0x0C0029B2], .mnot 6 5),
  ([0x00ACA9B3], .vperm 6 21 12 5),
  ([0x01ACA9B3], .vrotl 6 21 12 5),
  ([0x02ACA9B3], .vziplo 6 21 12 5),
  ([0x03ACA9B3], .vziphi 6 21 12 5),
  ([0x08A0A9B3], .vcvtif 6 21 5),
  ([0x09A0A9B3], .vcvtfi 6 21 5),
  ([0x0AACA9B3], .vcvtfbf 6 21 12 5),
  ([0x0BA0A9B3], .vcvtbff 6 21 5),
  ([0x0CA0A9B3], .vcvtfe4 6 21 5),
  ([0x0DA0A9B3], .vcvtfe5 6 21 5),
  ([0x0EACA9B3], .vcvtfb4 6 21 12 5),
  ([0x0FA0A9B3], .vcvte4f 6 21 5),
  ([0x10A0A9B3], .vcvte5f 6 21 5),
  ([0x11A0A9B3], .vcvtfe5Inf 6 21 5),
  ([0x00A0A9B4], .vredadd 6 21 5),
  ([0x01A0A9B4], .vredfadd 6 21 5),
  ([0x02A0A9B4], .vredfmax 6 21 5)] = true := by decide +kernel

theorem test_decode_vector_2 : readsAs [
  ([0x03A0A9B4], .vredfmin 6 21 5),
  ([0x04A0A9B4], .vscan 6 21 5),
  ([0x05A0A9B4], .vscanf 6 21 5),
  ([0x06A0A9B4], .vscanx 6 21 5),
  ([0x08ACA9B4], .vprune 6 21 12 5)] = true := by decide +kernel

theorem test_decode_vmove : readsAs [
  ([0xA00151B5], .vbcast 6 21 5),
  ([0x01B159B5], .vextr 38 21 44),
  ([0x02B151B5], .vinsr 6 21 44),
  ([0xA33151B5], .vgath 6 21 12 5),
  ([0xA43151B5], .vscat 6 21 12 5),
  ([0x050059B5], .mtog 38 5),
  ([0x060151B5], .gtom 6 21),
  ([0xCBD151B6], .vld 6 21 { pfx := 0, val := 0xFFFFFFFFFFFFFF2F } .order ⟨false, false⟩),
  ([0xCBA551B7], .vst 6 21 { pfx := 0, val := 0xFFFFFFFFFFFFFF2E } .stream ⟨true, false⟩)] = true := by decide +kernel

theorem test_decode_tasks : readsAs [
  ([0x72B159B8], .spawn 38 21 44 .any 2 false true),
  ([0x57B159B8], .spawnt 38 21 44 .die 2 true true),
  ([0x90B159B8], .callat 38 21 44 2),
  ([0x000159B9], .touch 38 21),
  ([0x010159B9], .ttouch 38 21),
  ([0x02B159B9], .resolve 38 21 44),
  ([0x03B159B9], .poison 38 21 44),
  ([0x040159B9], .cancel 38 21),
  ([0x050159B9], .cancelTree 38 21),
  ([0x060009B9], .fnew 38),
  ([0x07015039], .ffree 21),
  ([0x080159B9], .fstat 38 21),
  ([0x09000039], .chkc),
  ([0x0A000039], .yield),
  ([0x0B015039], .term 21),
  ([0x08B159BA], .send 38 21 44 8),
  ([0x1000003A], .hret),
  ([0x00B159BB], .launch 38 21 44),
  ([0x0101503B], .flood 21)] = true := by decide +kernel

theorem test_decode_system : readsAs [
  ([0x00B1503C], .setwp 21 44),
  ([0x01B159BC], .start 38 21 44),
  ([0x02B159BC], .stopc 38 21 44),
  ([0x0301503C], .trap 21),
  ([0x0400003C], .eret),
  ([0x050159BC], .ctrlr 38 21),
  ([0x06B1503C], .ctrlw 21 44),
  ([0x07B1503C], .bankmode 21 44),
  ([0x080159BC], .park 38 21)] = true := by decide +kernel

theorem test_decode_accumulate : readsAs [
  ([0x0031517D], .acc 21 12 5),
  ([0x0131517D], .accBf16 21 12 5),
  ([0x0231557D], .rmerge 21 12 5 2),
  ([0x0300007D], .flushresAll),
  ([0x03B1503D], .flushresRange 21 44),
  ([0x04B159BD], .hsift 38 21 44),
  ([0x05B159BD], .hmerge 38 21 44),
  ([0x06B1503D], .shelfput 21 44),
  ([0x0700007D], .shelfcloseAll),
  ([0x0701503D], .shelfcloseDie 21)] = true := by decide +kernel

theorem test_decode_tile : readsAs [
  ([0x007D603E, 0x00FE3081, 0x00000000, 0x00000000], .mfmt true .rup 13 6 1 2 35 63),
  ([0x03B1507E, 0x0000002A, 0x00000000, 0x00000000], .malloc 42 5 1 6 .ranked 3),
  ([0x0047207E, 0x00000000, 0x00000000, 0x00000000], .malloc 0 2 7 0 .isum 0),
  ([0x003150BE, 0x00000000, 0x00000000, 0x00000000], .mfree 5 1 6),
  ([0x136150FE, 0x00000000, 0x00000000, 0x00000061], .mzero 5 66 77 (.obj 33)),
  ([0x5A4B613E, 0x00F03881, 0x00000000, 0x000000A2], .mma 6 2 37 90 1 34 3 60 (.fut 34)),
  ([0x02D9C17E, 0x00F03881, 0x00000000, 0x00000061], .gmma 4 3 2 45 1 34 3 60 (.obj 33)),
  ([0xD36151BE, 0x00014C89, 0x00000000, 0x00000000], .mdrain 5 66 77 true (.hnd 20) 9 50 .none),
  ([0x336151BE, 0x00014C89, 0x00000000, 0x00000061], .mdrain 5 66 77 false (.fut 20) 9 50 (.obj 33)),
  ([0x136151FE, 0x00000C89, 0x00568203, 0x000000A2], .mquant 5 66 77 .mem (.fb4 8 40 21) 9 50 (.fut 34)),
  ([0x336151FE, 0x00007C89, 0x00000002, 0x00000000], .mquant 5 66 77 (.fut 7) .e5m2inf 9 50 .none),
  ([0x0000023E, 0x00000000, 0x00000000, 0x00000000], .msync),
  ([0x7361527E, 0x000C762C, 0x00000000, 0x00000061], .mrank 3 5 66 77 88 99 44 (.obj 33)),
  ([0x002152BE, 0x00000ADB, 0x00000000, 0x000000A2], .mthr 66 5 43 27 (.fut 34)),
  ([0x336152FE, 0x00000C89, 0x00000000, 0x00000061], .acct 5 66 77 true 9 50 (.obj 33)),
  ([0x0000043E, 0x00000037, 0x00000000, 0x000000A2], .tcopy 55 (.fut 34)),
  ([0x0000047E, 0x00F03881, 0x00007985, 0x00000061], .tgather 1 34 3 60 5 38 7 (.obj 33)),
  ([0x000004BE, 0x00F03881, 0x00007985, 0x00000061], .tscatter 1 34 3 60 5 38 7 (.obj 33)),
  ([0x000004FE, 0x00F03881, 0x00000000, 0x00000061], .tmcast 1 34 3 60 (.obj 33)),
  ([0x0000253E, 0x00003881, 0x00000000, 0x00000061], .tfill 2 1 34 3 (.obj 33))] = true := by decide +kernel

theorem test_decode_prefixed : readsAs [
  ([0x0123457F, 0x9E244245], .addi 9 4 { pfx := 1, val := 0x0000000123456789 }),
  ([0x8000003F, 0x00004245], .addi 9 4 { pfx := 1, val := 0xFFFFFF8000000000 }),
  ([0x3FB72EBF, 0x9876543F, 0xC8404245], .addi 9 4 { pfx := 2, val := 0xFEDCBA9876543210 }),
  ([0x7FFFFFFF, 0x0FFC70DF], .jalr 3 7 { pfx := 1, val := 0x00000007FFFFFFFF }),
  ([0x8000003F, 0x100000DF], .loopnz 3 { pfx := 1, val := 0xFFFFFFF800000000 }),
  ([0x8000003F, 0x00149199], .bne 6 9 { pfx := 1, val := 0xFFFFFF8000000005 }),
  ([0x8000003F, 0x0000915E], .jal 5 { pfx := 1, val := 0xFFFFE00000000009 }),
  ([0x1234567F, 0xE2683223], .ldd 8 3 { pfx := 1, val := 0x0000000123456789 } .stream ⟨false, true⟩),
  ([0x8000003F, 0x00543227], .std 8 3 { pfx := 1, val := 0xFFFFFFF800000001 } .order ⟨true, false⟩)] = true := by decide +kernel


/-! ### Terms that no instruction word spells, or that name agents the package has not (R2, R11, R37, R39, R44, R46) -/

/-- Each term fails its check. -/
def refusedTerms (l : List Instr) : Bool := l.all (fun i => !i.wf)

/-- R38, R39: an immediate wider than its format holds, and a second or third prefix. -/
theorem test_wf_immediates : refusedTerms [
  .addi 9 4 { pfx := 0, val := 8192 }, .addi 9 4 { pfx := 0, val := 0xFFFFFFFFFFFFDFFF },
  .addi 9 4 { pfx := 1, val := 0x8000000000 }, .addi 9 4 { pfx := 3, val := 0 },
  .jalr 9 4 { pfx := 0, val := 512 }, .loopnz 9 { pfx := 1, val := 0x800000000 }, .jalr 9 4 { pfx := 2, val := 0 },
  .ldb 9 4 { pfx := 0, val := 512 } .plain ⟨false, false⟩, .std 9 4 { pfx := 2, val := 0 } .plain ⟨false, false⟩,
  .beq 9 4 { pfx := 0, val := 8192 }, .bne 9 4 { pfx := 1, val := 0x8000000000 }, .blt 9 4 { pfx := 2, val := 0 },
  .jal 9 { pfx := 0, val := 524288 }, .jal 9 { pfx := 1, val := 0x200000000000 }, .jal 9 { pfx := 2, val := 0 }] = true := by
  decide +kernel

/-- R37, R44, R46, R149, R205: groups past g63, odd pairs, LDD to g0 without .ACQ, a barrier object that the level has not, KS of a
kind that is not RANKED, and a payload register of a SEND with no payload. -/
theorem test_wf_operands : refusedTerms [
  .spawn 9 12 61 .here 1 false false, .spawnt 9 12 57 .here 1 false false, .callat 9 12 60 1, .ttouch 63 4,
  .send 9 12 57 8, .send 9 12 4 0, .casp 5 10 6 false false ⟨false, false⟩, .casp 4 10 7 false false ⟨false, false⟩,
  .ldd 0 4 { pfx := 0, val := 0 } .plain ⟨false, false⟩, .bararm .quad 4 9, .barrive .cluster 4 9, .barwait .quad 15 9,
  .barq .cluster 7 9, .malloc 9 0 0 0 .sum 1] = true := by
  decide +kernel

/-- R2, R11, R293, R303, R307, R346: steps of agents that the package has not. -/
theorem test_wf_agents : refusedTerms [
  .packetNop 16 0, .write 0 64, .queuePoll 16 63, .graphEnd 4 0, .graphJoin 0 16, .launchWake 0 4096,
  .controlPortRead 2 0 .svc 0 8, .controlPortWrite 0 4 .svc 0 [], .controlPortFailure 2, .svcDoorbell 4 0, .svcRefire 4 0,
  .thermalStop 4, .timeSliceExpiry 16 0 0, .linkDead 144, .linkRetrained 144, .linkStateUpdate 144 0, .drainRoundEnd 1024,
  .clusterFence 512, .arrivalLogReplay 16, .accqWindow 512, .arbiterPick 512, .wedgeHoldExpiry 0 16,
  .wedgePriorityRelease 512 0, .commandStart 4096 .copy, .drainWake 4096, .shelfTimer 0 4, .sweeperRecord 4, .prefetchGrant 512,
  .prefetchDone 512 0, .dispatch 512, .workspaceCopyDone 512 0, .taskAging 512 0, .loadHintPublication 512 true,
  .activation 4096, .systemAtomic 4096, .systemNibbleStore 4096, .heldTaskEnd 0 12, .barrierCompletion 4096 0] = true := by
  decide +kernel

/-! ### Words that the decoder refuses (R36 to R46) -/

/-- The words are refused for this reason. -/
noncomputable def refusedWords (reason : DecErr → Bool) (l : List (List Nat)) : Bool :=
  l.all fun ws => match decodeWords ws with
    | .error e => reason e
    | .ok _ => false


/-- R40, R43, R44: unassigned codes, prefix misuse and groups past g63. -/
theorem test_decode_illegal : refusedWords (fun e => match e with
    | .illegal _ _ => true
    | _ => false) [
  [0x00000000], [0xFF000001], [0x0000002B], [0x0900003C], [0xFFFFFFFF, 0x0000003E, 0, 0, 0], [0x0000003F, 0x800C71C9],
  [0x0000003F, 0x0000003F, 0x0000003F, 0x00000005], [0x0000003F, 0x0000003F, 0x00000023], [0x09F4C278]] = true := by
  decide +kernel

/-- R10, R36, R45, R46, R140: reserved bits and reserved codes. -/
theorem test_decode_reserved : refusedWords (fun e => match e with
    | .reserved _ _ => true
    | _ => false) [
  [0x04186152], [0x00300023], [0x000001ED], [0x00D1006E], [0x0900427A], [0x00000026 + 0x300000],
  [0x0000043E, 0x40, 0, 0], [0x0000043E, 4, 1, 0], [0x0000043E, 4, 0, 0xC5], [0x0000043E, 4, 0, 5]] = true := by
  decide +kernel

/-- R46: the index of the offending word of a tile command. -/
theorem test_decode_tile_word : refusedWords (fun e => decide (e = .reserved 2 7)) [[0x0000043E, 4, 7, 0xC5]] = true := by
  decide +kernel

/-! ### One step each, with the results that the specification works out -/

/-- A state in which the instruction of context 3 of core 9 executes at 0x1000: core 9 supervises partition 0, which runs on
cluster 1, and g4 and g5 hold `x` and `y`. -/
def small (x y : Nat) : State :=
  let s : State := { State.reset with
    cur := { core := 9, ctx := 3, len := 1, last := false },
    parts := [(0, { Part.reset with status := .running, clusters := [1], supv := 9 })], nextId := 5 }
  (((s.setPC 0x1000).setGN 4 x).setGN 5 y).setStateAt 9 3 stREADY

/-- What holds in the next state of an instruction. -/
noncomputable def after (s : State) (i : Instr) (p : State → Bool) : Bool :=
  match exec i s with
  | .next t => p t
  | _ => false

/-- R82's worked examples of BEXT and BINS, the latter with the destination as prior value. -/
theorem test_bit_fields :
    (after (small 0xABCD 0x0804) (.bext 6 4 5) (fun t => t.gN 6 == 0xBC) &&
     after ((small 0x12 0x0804).setGN 6 0xFFFFFFFFFFFFFFFF) (.bins 6 4 5) (fun t => t.gN 6 == 0xFFFFFFFFFFFFF12F)) = true := by
  decide +kernel

/-- R79: quotients round toward zero and the remainder takes the dividend's sign; a divisor of zero traps with the PC in CX.AUX. -/
theorem test_division :
    (after (small (2 ^ 64 - 7) 2) (.div 6 4 5) (fun t => t.gN 6 == 2 ^ 64 - 3 && t.pc == 0x1004) &&
     after (small (2 ^ 64 - 7) 2) (.rem 6 4 5) (fun t => t.gN 6 == 2 ^ 64 - 1) &&
     after (small (2 ^ 63) (2 ^ 64 - 1)) (.div 6 4 5) (fun t => t.gN 6 == 2 ^ 63) &&
     after (small 5 0) (.divu 6 4 5) (fun t => t.stateAt 9 3 == stHELD || t.cx cxCAUSE == 0x042)) = true := by
  decide +kernel

/-- R78, R21: sums wrap, an arithmetic shift copies the sign, and a write of g0 is discarded. -/
theorem test_integer :
    (after (small (2 ^ 64 - 1) 3) (.add 6 4 5) (fun t => t.gN 6 == 2) &&
     after (small (2 ^ 63) 63) (.sra 4 4 5) (fun t => t.gN 4 == 2 ^ 64 - 1) &&
     after (small 1 65) (.rol 6 4 5) (fun t => t.gN 6 == 2) &&
     after (small 1 2) (.add 0 4 5) (fun t => t.gN 0 == 0 && t.pc == 0x1004)) = true := by
  decide +kernel

/-- R89's worked examples: 300.0 to E4M3, and 1.9e19 to an unsigned integer. -/
theorem test_conversions :
    (after (small 0x43960000 0) (.ftoe4 6 4 (.named .rne)) (fun t => t.gN 6 == 0x79 && t.status 18 14 == 1) &&
     after (small 0x5F83D6C9 0) (.ftou 6 4 (.named .rtz)) (fun t => t.gN 6 == 0xFFFFFFFFFFFFFFFF && t.status 18 14 == 16)) = true := by
  decide +kernel

/-- R66's table of narrowings, with overflow, underflow, inexact and invalid. -/
theorem test_narrowing :
    let is (f : FFmt) (sat : Bool) (m : RoundMode) (x c : Nat) (of uf nx nv : Bool) : Bool :=
      decide (f.narrow sat m (fp32.decode x) = (c, { of := of, uf := uf, nx := nx, nv := nv }))
    (is e4m3 true .rne 0x43960000 0x79 false false true false && is e4m3 true .rup 0x43960000 0x7A false false true false &&
     is e4m3 true .rne 0x43E60000 0x7E false false true false && is e4m3 true .rne 0x43EB0000 0x7E true false true false &&
     is e4m3 true .rup 0x43E08000 0x7E true false true false && is e5m2 true .rne 0x476A6000 0x7B false false true false &&
     is e5m2 false .rne 0x476A6000 0x7B false false true false && is e5m2 true .rne 0x47723000 0x7B true false true false &&
     is e5m2 false .rne 0x47723000 0x7C true false true false && is e4m3 true .rne 0x3A800000 0 false true true false &&
     is e4m3 true .rne 0xFF800000 0xFE true false true false && is e5m2 true .rne 0x7F800001 0x7E false false false true) = true := by
  decide +kernel

/-- R102's worked examples of the approximations. -/
theorem test_approximations :
    (decide (fExp2 0x40400000 = 0x41000000) && decide (fLog2 0x3F800000 = 0) && decide (fRcp 0x40400000 = 0x3EAAB000)) = true := by
  decide +kernel

/-- R107's worked example of VCVTFE4. -/
theorem test_vcvtfe4 :
    let s := ((List.range 16).foldl (fun (s : State) i => s.setLaneN 3 i 0) (small 0 0)).setLaneN 3 0 0x43960000
    after (s.setLaneN 3 1 0xFF800000) (.vcvtfe4 8 3 0)
      (fun t => t.laneN 8 0 == 0xFE79 && (List.range 15).all (fun i => t.laneN 8 (i + 1) == 0)) = true := by
  decide +kernel

/-- R31's worked example of renumbering. -/
theorem test_renumbering :
    (decide ((renameG 24 40).val = 32) && decide ((renameV 1 20).val = 21) && decide ((renameV 3 20).val = 23) &&
     decide ((renameV 12 20).val = 16)) = true := by
  decide +kernel

/-- R168's worked example of a handle, and R11's and R327's of a near address. -/
theorem test_handle :
    (decide (mkHandle 7 3365 5 0x12 3 = 0x807D250140048C00) &&
     decide (pmLoc (3 * 1024 + 36 * 8 + 5) 0x100 + 7 * 2 ^ 46 = 0x0801F48A00000100)) = true := by
  decide +kernel

/-- R299's worked example of a core set: share 300 runs on core 2,400. -/
theorem test_core_set :
    let l := coreSet 0x0000002010200000
    (decide (l.length = 512) && decide (l.getD 300 0 = 2400) && decide (l.getD 0 1 = 0)) = true := by
  decide +kernel

/-! ### States and operands that meet the hypotheses of the statements

Each theorem applies a statement to a concrete state and operands whose hypotheses it meets, clause by clause where a clause has
hypotheses of its own. -/

/-- The outcome is a next state. -/
def Goes (o : Host.Outcome State Fault Refusal) : Prop := ∃ t, o = .next t

theorem goes_of_eq {o : Host.Outcome State Fault Refusal} {t : State} (h : o = .next t) : Goes o := ⟨t, h⟩

theorem goes_of_completes {s base : State} {o : Host.Outcome State Fault Refusal} {r : List Range} {p : State → Prop}
    (h : CompletesOver s base o r p) : Goes o := h.imp fun _ h => h.1

theorem goes_of_jumps {s : State} {o : Host.Outcome State Fault Refusal} {n : Nat} {r : List Range} {p : State → Prop}
    (h : Jumps s o n r p) : Goes o := h.imp fun _ h => h.1

theorem goes_of_stalls {s base : State} {o : Host.Outcome State Fault Refusal} {k : Wait} (h : Stalls s base o k) : Goes o :=
  h.imp fun _ h => h.1

theorem goes_of_reaches {base : State} {o : Host.Outcome State Fault Refusal} {r : List Range} {p : State → Prop}
    (h : Reaches base o r p) : Goes o := h.imp fun _ h => h.1

theorem goes_of_ex {o : Host.Outcome State Fault Refusal} {p : State → Prop} (h : ∃ t, o = .next t ∧ p t) : Goes o :=
  h.imp fun _ h => h.1

def imm0 : Imm := { pfx := 0, val := 0 }
def noWait : WaitSel := ⟨false, false⟩
/-- An address of the context's own private memory. -/
def own (off : Nat) : Nat := 0x0900000000000000 + off

theorem witness_BranchResults (h : Obligations.BranchResults) :
    Goes (exec (.beq 4 5 imm0) (small 1 1)) ∧ Goes (exec (.beq 4 5 imm0) (small 1 2)) ∧
    Goes (exec (.jalr 6 4 imm0) (small 0x2000 0)) ∧ Goes (exec (.jalr 6 4 imm0) (small 0x2002 0)) :=
  ⟨goes_of_jumps ((h (small 1 1) 6 4 5 imm0).1.1 (by decide +kernel)),
   goes_of_completes ((h (small 1 2) 6 4 5 imm0).1.2 (by decide +kernel)),
   goes_of_jumps ((h (small 0x2000 0) 6 4 5 imm0).2.2.2.2.2.2.2.1.1 (by decide +kernel)),
   goes_of_eq ((h (small 0x2002 0) 6 4 5 imm0).2.2.2.2.2.2.2.1.2 (by decide +kernel))⟩

theorem witness_MultiplyDivideResults (h : Claims.MultiplyDivideResults) :
    Goes (exec (.div 6 4 5) (small 7 2)) ∧ Goes (exec (.div 6 4 5) (small 7 0)) :=
  ⟨goes_of_completes ((h (small 7 2) 6 4 5).2.2.2.1 (by decide +kernel)).1,
   goes_of_eq ((h (small 7 0) 6 4 5).2.2.2.2 (by decide +kernel) _ (by simp))⟩

theorem witness_FloatOrderRules (h : Claims.FloatOrderRules) :
    (fMinMax true 0x7FC00000 0x3F800000).1 = 0x3F800000 ∧ (fMinMax true 0x7FC00000 0x7FC00001).1 = 0x7FC00000 ∧
    (fMinMax true 0x80000000 0).1 = 0x80000000 :=
  ⟨(h 0x7FC00000 0x3F800000 (by decide) (by decide)).2.2.2.2.2.2.1 true (by decide) (by decide),
   (h 0x7FC00000 0x7FC00001 (by decide) (by decide)).2.2.2.2.2.1 true (by decide) (by decide),
   (h 0x80000000 0 (by decide) (by decide)).2.2.2.2.2.2.2.2.1 (by decide) (by decide)⟩

/-- A magnitude that E4M3 rounds and one that overflows it. -/
theorem witness_FloatRounding :
    (e4m3.round true .rne false 300 0 false).2.of = false ∧ (e4m3.round true .rne false 500 0 false).2.of = true := by
  decide +kernel

/-- The context of `small` with words fetched ahead. -/
def ahead (s : State) (l : List (Nat × Nat)) : State := s.setMyCtx { s.myCtx with ahead := l }

theorem witness_RepeatBegins (h : Claims.RepeatBegins) :
    Goes (exec (.rep 4 1 1) (small 3 0)) ∧ Goes (exec (.rep 4 1 1) (ahead (small 0 0) [(0x1004, 0x00B15981), (0x1008, 0x00B15981)])) :=
  ⟨goes_of_jumps ((h (small 3 0) 4 2 1 1).1.1 (by decide +kernel)),
   goes_of_jumps ((h (ahead (small 0 0) [(0x1004, 0x00B15981), (0x1008, 0x00B15981)]) 4 2 1 1).1.2 (by decide +kernel) 0x100C
    (by decide +kernel))⟩

/-- The last body instruction of a pass of a REP of `n` passes. -/
def lastOfPass (n : Nat) : State :=
  { (((small 1 2).setCx cxREPS 0x1000001).setCx cxREPN n).setCx cxREPB 0x1000 with cur := { core := 9, ctx := 3, len := 1, last := true } }

theorem witness_RepeatPasses : (∀ n ∈ [1, 2], (lastOfPass n).cur.last = true ∧ (lastOfPass n).cx cxREPS % 2 = 1) ∧
    (lastOfPass 2).cx cxREPS / 2 ^ 32 + 1 < (lastOfPass 2).cx cxREPN % 2 ^ 32 ∧
    (lastOfPass 1).cx cxREPN % 2 ^ 32 ≤ (lastOfPass 1).cx cxREPS / 2 ^ 32 + 1 := by decide +kernel

/-- Context 3 is READY and its last issue was context 3's. -/
theorem witness_IssueChoice : (small 0 0).stateAt 9 3 = stREADY ∧ (small 0 0).mayIssue 9 3 = true ∧ (small 0 0).stateAt 9 1 ≠ stREADY := by
  decide +kernel

/-- A step issues an ADD in context 3. -/
theorem witness_StepRunsDecoded (h : Obligations.StepRunsDecoded) :
    let s : State := { ahead (small 0 0) [(0x1000, 0x00B15981)] with agenda := [.issue 9] }
    ∃ o, step s = o :=
  ⟨_, (h { ahead (small 0 0) [(0x1000, 0x00B15981)] with agenda := [.issue 9] } 9 3 true [] [0x00B15981] (.add 38 21 44) 1 rfl (by decide)
    (by decide +kernel) (by decide) (by decide +kernel) (by decide +kernel)).1 (by decide +kernel) (by decide +kernel) (by decide +kernel)
    (by decide +kernel) (by decide +kernel)⟩

theorem witness_PrivilegeAndBodyTraps :
    privileged (.setwp 4 5) = true ∧ (small 0 0).cur.ctx ≠ 0 ∧ repForbidden (.rep 4 1 1) = true ∧ repForbidden (.add 6 4 5) = false := by
  decide +kernel

/-- The context with a trap routine at 0x2000 and its stack in its private memory. -/
def routined : State :=
  let s := (small 0 0).setMe { (small 0 0).me with trVec := 0x2000, trMask := 0xFF }
  s.setGN 2 (own 0x4040)

theorem witness_TrapHolds : (small 0 0).cur.ctx < 12 ∧ (small 0 0).cur.ctx ≠ 1 ∧ (small 0 0).myCtx.twin = false ∧
    2 ≤ (small 0 0).cur.ctx ∧ (small 0 0).me.trVec = 0 := by decide +kernel

theorem witness_TrapEntersRoutine : routined.cur.ctx ≠ 1 ∧ routined.myCtx.twin = false ∧ routined.me.trVec ≠ 0 ∧ routined.me.trVec < 2 ^ 60 ∧
    routined.me.trVec % 4 = 0 ∧ routed routined.me.trMask 0x042 = true ∧ (routined.gN 2 + (2 ^ 64 - 64)) % 2 ^ 64 = own 0x4000 ∧
    routined.inOwnProgram (own 0x4000) 0x4000 ∧ apartFrom (pmLoc 9 0x4000, 64) (routined.wsLoc 9 3 0, 0xC00) ∧
    routined.tainted (routined.wsLoc 9 3 16) 8 = false ∧ routined.tainted (routined.wsLoc 9 3 32) 24 = false := by decide +kernel

theorem witness_TrapEndsTask (h : Claims.TrapEndsTask) :
    ((small 0 0).takeTrap 0x106 0 0).pc = (small 0 0).pc ∧ ((small 0 0).takeTrap 0x1C0 0 0).pc = (small 0 0).pc :=
  have d := h (small 0 0)
  ⟨((d 0x106 0 0 (by decide) (by decide) (by decide) (by decide) (by decide) (by decide +kernel) (by decide +kernel)).1 rfl
     (by decide +kernel)).2.1,
   ((d 0x1C0 0 0 (by decide) (by decide) (by decide) (by decide) (by decide) (by decide +kernel) (by decide +kernel)).2.2 rfl
     (by decide +kernel)).2.1⟩

/-- An activation from inbox slot 2 with some of its sends and stores used up. -/
def activation (sends stores : Nat) : Activation :=
  { slot := 2, count := 0, sends := sends, stores := stores, buf := [], out := [], futs := [] }
def handler (x y sends stores : Nat) : State :=
  let s : State := { small x y with cur := { core := 9, ctx := 1, len := 1, last := false } }
  ((s.setMe { s.me with act := some (activation sends stores) }).setGN 4 x).setGN 5 y

theorem witness_HandlerRollsBack (h : Claims.HandlerRollsBack) : (((handler 0 0 0 0).takeTrap 0x042 0 0).core 9).act = none :=
  (h (handler 0 0 0 0) (activation 0 0) 0x042 0 0 (by decide) (by decide) (by decide) (by decide) (by decide) rfl (by decide +kernel) rfl
    (by decide +kernel)).1

theorem witness_TrapInstruction (h : Claims.TrapInstruction) : Goes (exec (.trap 4) (small 5 0)) ∧ Goes (exec (.trap 4) (handler 5 0 0 0)) :=
  ⟨goes_of_eq ((h (small 5 0) 4).1 (by decide)),
   goes_of_ex ((h (handler 5 0 0 0) 4).2 (activation 0 0) rfl (by decide +kernel) rfl (by decide +kernel))⟩

theorem witness_ReturnFromTrap (h : Claims.ReturnFromTrap) :
    Goes (exec .eret ((small 0 0).setGN 2 (own 0x4000))) ∧ Goes (exec .eret ((small 0 0).setGN 2 (own 0x4008))) :=
  ⟨goes_of_ex ((h ((small 0 0).setGN 2 (own 0x4000)) 0x4000 (by decide) (by decide)).2.2.2 (by decide) (by decide +kernel) (by decide +kernel)
     (by decide +kernel) (by decide +kernel)),
   goes_of_eq ((h ((small 0 0).setGN 2 (own 0x4008)) 0x4008 (by decide) (by decide)).1 (by right; left; decide +kernel))⟩

theorem witness_BlockScaleConversion (h : Claims.BlockScaleConversion) :
    Goes (exec (.vcvtfb4 2 3 4 0) ((small 0 0).setLaneN 4 0 0x3F80)) ∧ Goes (exec (.vcvtfb4 2 3 4 0) ((small 0 0).setLaneN 4 0 0x7FC0)) :=
  ⟨goes_of_completes ((h ((small 0 0).setLaneN 4 0 0x3F80) 2 3 4 0).2 (by decide +kernel)),
   goes_of_eq ((h ((small 0 0).setLaneN 4 0 0x7FC0) 2 3 4 0).1 (by decide +kernel))⟩

/-- Offset 0x2FFF8 is the last of a private memory's program area for eight bytes, and 0x40000 its end. -/
theorem witness_AddressChecks (h : Claims.AddressChecks) :
    (small 0 0).checkAddr .load (own 0x2FFF8) 8 8 = .ok (.unit 1 1 0x2FFF8) ∧ (small 0 0).checkAddr .load (own 0x30000) 8 8 = .error 0x088 ∧
    (small 0 0).checkAddr .load (own 0x40000) 8 8 = .error 0x083 ∧ (small 0 0).checkAddr .load (own 4) 8 8 = .error 0x081 ∧
    (small 0 0).checkAddr .load (10 * 2 ^ 56) 8 8 = .error 0x080 ∧ (small 0 0).checkAddr .load (8 * 2 ^ 56 + 10 * 2 ^ 33) 8 8 = .error 0x082 :=
  ⟨((h (small 0 0) .load (own 0x2FFF8) 8 8 (by decide)).2.2 (by decide) (by decide)).2.2.2.2.2.2.2.2.2.1 (by decide) (by decide),
   ((h (small 0 0) .load (own 0x30000) 8 8 (by decide)).2.2 (by decide) (by decide)).2.2.2.2.2.1 (by decide) (by decide) (by decide) (by decide),
   ((h (small 0 0) .load (own 0x40000) 8 8 (by decide)).2.2 (by decide) (by decide)).2.2.1 (by decide) (by decide),
   (h (small 0 0) .load (own 4) 8 8 (by decide)).2.1 (by decide) (by decide),
   (h (small 0 0) .load (10 * 2 ^ 56) 8 8 (by decide)).1 (by decide),
   ((h (small 0 0) .load (8 * 2 ^ 56 + 10 * 2 ^ 33) 8 8 (by decide)).2.2 (by decide) (by decide)).1 (by decide) (by decide)⟩

theorem witness_AccessFaults (h : Claims.AccessFaults) :
    Goes (exec (.ldd 6 4 imm0 .plain noWait) (small (own 4) 0)) ∧ Goes (exec (.aadd 6 4 5 false false noWait) (handler (own 0x2000) 0 0 0)) :=
  ⟨goes_of_eq ((h (small (own 4) 0) (.ldd 6 4 imm0 .plain noWait) .load (own 4) 8 8 0x081 false noWait (by decide +kernel) rfl
     (by unfold State.goesOn; decide +kernel)).1 (by decide +kernel) (by decide)),
   goes_of_eq ((h (handler (own 0x2000) 0 0 0) (.aadd 6 4 5 false false noWait) .atomic (own 0x2000) 8 8 0 false noWait (by decide +kernel) rfl
     (by unfold State.goesOn; decide +kernel)).2 rfl rfl)⟩

theorem witness_WaitsBeforeAccess (h : Claims.WaitsBeforeAccess) :
    Goes (exec (.ldd 6 4 imm0 .plain ⟨true, false⟩) ((small 0 0).setCnt .sn 1)) ∧
    Goes (exec (.std 6 4 imm0 .order noWait) ((small 0 0).setCnt .at_ 1)) :=
  ⟨goes_of_stalls ((h ((small 0 0).setCnt .sn 1) (.ldd 6 4 imm0 .plain ⟨true, false⟩) false ⟨true, false⟩ rfl).1
     (by unfold State.mustWait; decide +kernel)),
   goes_of_stalls ((h ((small 0 0).setCnt .at_ 1) (.std 6 4 imm0 .order noWait) true noWait rfl).1
     (by unfold State.mustWait; decide +kernel))⟩

/-- One logged fault of class SN, and none with FLOV. -/
def logged : State := ((small 0 0).setCx cxSTATUS ((small 0 0).cx cxSTATUS + 2 ^ 19)).wr ((small 0 0).wsLoc 9 3 cxLOG) (bytesOf 24 (0x081 * 2 ^ 128))
def overflown : State := (small 0 0).setCx cxSTATUS ((small 0 0).cx cxSTATUS + 2 ^ 24)

theorem witness_LoggedFaults (h : Claims.LoggedFaults) :
    (logged.raiseLogged (coversOf false ⟨true, false⟩)).isSome = true ∧ (overflown.raiseLogged (coversOf true noWait)).isSome = true ∧
    (small 0 0).raiseLogged (coversOf true noWait) = none := by
  obtain ⟨_, e, _⟩ := (h logged (coversOf false ⟨true, false⟩)).1 0 (by decide +kernel) (by decide +kernel) (by intro j hj; omega)
    (by decide +kernel)
  obtain ⟨_, e', _⟩ := (h overflown (coversOf true noWait)).2.1 (by decide +kernel) (by decide +kernel)
  exact ⟨by rw [e]; rfl, by rw [e']; rfl, (h (small 0 0) (coversOf true noWait)).2.2 (by decide +kernel) (by decide +kernel)⟩

/-- Eight and 64 bytes at 0x2000 of the context's own private memory. -/
theorem witness_LocalLoads (h : Claims.LocalLoads) :
    Goes (exec (.ldd 6 4 imm0 .plain noWait) (small (own 0x2000) 0)) ∧ Goes (exec (.vld 6 4 imm0 .plain noWait) (small (own 0x2000) 0)) :=
  have d := h (small (own 0x2000) 0) 6 4 6 imm0 .plain noWait 1 1 0x2000 (by unfold State.goesOn; decide +kernel)
  ⟨goes_of_completes ((d.2.2.2.1 (by decide)).2 (by decide +kernel)), goes_of_completes (d.2.2.2.2.2 (by decide +kernel))⟩

theorem witness_LocalStores (h : Claims.LocalStores) :
    Goes (exec (.std 6 4 imm0 .plain noWait) (small (own 0x2000) 0)) ∧ Goes (exec (.stn 4 5 true false noWait) (small (own 0x2000) 0)) :=
  have d := h (small (own 0x2000) 0) 6 4 5 6 imm0 .plain noWait true false 1 1 0x2000 (by decide)
  ⟨goes_of_completes (d.2.2.2.1 (by decide +kernel) (by unfold State.goesOn; decide +kernel)),
   goes_of_completes (d.2.2.2.2.2 (by decide +kernel) (by unfold State.goesOn; decide +kernel))⟩

/-- A global store, with room in SG and with none, and a posted atomic. -/
theorem witness_PostedOperations (h : Claims.PostedOperations) :
    Goes (exec (.std 6 4 imm0 .plain noWait) (small 0x2000 0)) ∧
    Goes (exec (.std 6 4 imm0 .plain noWait) ((small 0x2000 0).setCnt .sg 63)) ∧ Goes (exec (.aaddPost 4 5 false noWait) (small 0x2000 0)) :=
  have d := fun s : State => h s 6 4 5 6 imm0 .plain noWait true false .global
  ⟨goes_of_completes (((d (small 0x2000 0) (by decide)).2.2.2.1 (by decide +kernel) (by unfold State.goesOn; decide +kernel)).1 (by decide +kernel)),
   goes_of_stalls (((d ((small 0x2000 0).setCnt .sg 63) (by decide)).2.2.2.1 (by decide +kernel) (by unfold State.goesOn; decide +kernel)).2
     (by decide +kernel)),
   goes_of_completes (((d (small 0x2000 0) (by decide)).2.2.2.2.2.2.2.1 (by decide +kernel) (by unfold State.goesOn; decide +kernel)).1
     (by decide +kernel))⟩

theorem witness_BlockingRequests (h : Claims.BlockingRequests) :
    Goes (exec (.ldd 6 4 imm0 .plain noWait) (small 0x2000 0)) ∧ Goes (exec (.casp 6 4 8 true false noWait) (small 0x2000 0)) :=
  have d := h (small 0x2000 0) 6 4 8 6 imm0 .plain noWait true false .global
  ⟨goes_of_stalls ((d.2.2.2.1 (by decide) (by decide +kernel) (by decide +kernel) (by unfold State.goesOn; decide +kernel)).2 (by decide +kernel)),
   goes_of_stalls ((d.2.2.2.2.2.2.2.2.2.2.2.2.2.2.2.2 (by decide) (by decide +kernel) (by unfold State.goesOn; decide +kernel)).2
     (by decide +kernel))⟩

/-- Context 3 waits for the reply with number 7. -/
def awaiting (k : Kont) (a : Answer) : State :=
  let s := (small 0 0).setMyCtx { (small 0 0).myCtx with wait := .reply 7 k (small 0 0).cur }
  { s with flights := [(7, .reply (.ctx 9 3) a)] }

theorem witness_RepliesComplete (h : Claims.RepliesComplete) :
    Goes (exec (.replyArrival 7) (awaiting (.load 6 true) (.data 5))) ∧ Goes (exec (.replyArrival 7) (awaiting (.load 6 true) (.fault 0x090 0x2000 0))) :=
  ⟨goes_of_completes ((h (awaiting (.load 6 true) (.data 5)) 7 9 3 (.load 6 true) (small 0 0).cur (.data 5) rfl (by decide +kernel) rfl rfl
     (by decide)).1 6 true 5 rfl rfl),
   goes_of_eq ((h (awaiting (.load 6 true) (.fault 0x090 0x2000 0)) 7 9 3 (.load 6 true) (small 0 0).cur (.fault 0x090 0x2000 0) rfl
     (by decide +kernel) rfl rfl (by decide)).2.2.2.2 0x090 0x2000 0 (by decide +kernel) rfl (.inl ⟨6, true, rfl⟩))⟩

theorem witness_AgentOperations (h : Obligations.AgentOperations) :
    (MemOp.atomic .min 1).run (bytesOf 8 0) = (bytesOf 8 0, 0) :=
  ((h (bytesOf 8 0) 1 (by decide) (by decide)).2.2.2.2.2.1 (by decide)).1

theorem witness_PrefetchRule (h : Claims.PrefetchRule) : Goes (exec (.pref 4 imm0 false noWait) (small 0x2000 0)) :=
  goes_of_completes (h (small 0x2000 0) 4 imm0 false .plain noWait .global (by decide) (by unfold State.goesOn; decide +kernel)
    (by decide +kernel)).1

theorem eq_of_ok {e : Except Nat Dest} {p q : Dest} (h : e = .ok p) (h' : e = .ok q) : p = q := by cases h.symm.trans h'; rfl

/-- Lane 0 is the only active one, at the address in g4. -/
def oneLane (x : Nat) : State := (small x 0).setMN 2 1

theorem witness_GatherScatter (h : Claims.GatherScatter) :
    Goes (exec (.vgath 2 4 3 2) (oneLane (own 0x2000))) ∧ Goes (exec (.vgath 2 4 3 2) (oneLane (own 0x2001))) ∧
    Goes (exec (.vgath 2 4 3 2) (oneLane 0x2000)) ∧ Goes (exec (.vscat 2 4 3 2) (oneLane (own 0x2000))) ∧
    Goes (exec (.vscat 2 4 3 2) (oneLane 0x2000)) := by
  have lane (x : Nat) (h : (List.range 16).filter (fun i => (oneLane x).mN 2 / 2 ^ i % 2 == 1) = [0]) :
      ∀ i ∈ (List.range 16).filter (fun i => (oneLane x).mN 2 / 2 ^ i % 2 == 1), i = 0 := by
    rw [h]; simp
  have l1 := lane (own 0x2000) (by decide +kernel)
  have l2 := lane (own 0x2001) (by decide +kernel)
  have l3 := lane 0x2000 (by decide +kernel)
  obtain ⟨_, g1, _, p1⟩ := h (oneLane (own 0x2000)) 2 3 4 2
  obtain ⟨_, g2, _, _⟩ := h (oneLane (own 0x2001)) 2 3 4 2
  obtain ⟨_, _, g3, p3⟩ := h (oneLane 0x2000) 2 3 4 2
  refine ⟨goes_of_completes ((g1 (fun i hi => ?_) (by decide +kernel)).1 (by decide +kernel)),
    goes_of_eq ((g2 (fun i hi => ?_) (by decide +kernel)).2 0 0x081 (by decide +kernel) (by decide +kernel) (by decide +kernel)
      (by decide +kernel) (by decide +kernel)),
    goes_of_stalls (g3 (fun i hi => ?_) (by decide +kernel)),
    goes_of_completes (p1 (by decide) (fun i hi => ?_) (fun i hi => ?_) (fun i hi => ?_) (by decide +kernel) (by decide +kernel)),
    goes_of_completes (p3 (by decide) (fun i hi => ?_) (fun i hi => ?_) (fun i hi => ?_) (by decide +kernel) (by decide +kernel))⟩
  · cases l1 i hi
    refine ⟨by decide +kernel, fun _ cl u o hc => ?_⟩
    cases eq_of_ok (p := .unit 1 1 0x2000) (by decide +kernel) hc
    decide +kernel
  · cases l2 i hi
    exact ⟨by decide +kernel, fun _ cl u o hc => absurd ((by decide +kernel : _ = Except.error 0x081).symm.trans hc) (by simp)⟩
  · cases l3 i hi
    exact ⟨by decide +kernel, fun _ cl u o hc => absurd (eq_of_ok (p := .global) (by decide +kernel) hc) (by simp)⟩
  · cases l1 i hi
    exact ⟨.unit 1 1 0x2000, by decide +kernel⟩
  · cases l1 i hi
    refine ⟨by decide +kernel, fun _ cl u o hc => ?_⟩
    cases eq_of_ok (p := .unit 1 1 0x2000) (by decide +kernel) hc
    decide +kernel
  · cases l1 i (List.mem_filter.1 hi).1
    refine ⟨by decide +kernel, fun cl u o hc => ?_⟩
    cases eq_of_ok (p := .unit 1 1 0x2000) (by decide +kernel) hc
    decide +kernel
  · cases l3 i hi
    exact ⟨.global, by decide +kernel⟩
  · cases l3 i hi
    exact ⟨by decide +kernel, fun _ cl u o hc => absurd (eq_of_ok (p := .global) (by decide +kernel) hc) (by simp)⟩
  · cases l3 i (List.mem_filter.1 hi).1
    exact absurd (List.mem_filter.1 hi).2 (by decide +kernel)

theorem witness_WaitFenceCwait (h : Obligations.WaitFenceCwait) :
    Goes (exec (.wait 31 31 31 31 0) (small 0 0)) ∧ Goes (exec (.wait 31 31 31 31 0) ((small 0 0).setCnt .sn 1)) ∧
    Goes (exec (.fence .die) (small 0 0)) ∧ Goes (exec (.fence .die) ((small 0 0).setCnt .at_ 1)) ∧
    Goes (exec (.cwait 6 4) (small (own 0x2000) 0)) ∧ Goes (exec (.cwait 6 4) ((small (own 0x2000) 0).wr (pmLoc 9 0x2000) [1])) :=
  have d := fun s : State => h s 31 31 31 31 0 .die 6 4 1 1 0x2000
  ⟨goes_of_completes (((d (small 0 0)).2 (by decide)).2.2.1 (by decide +kernel) (.inr (by decide +kernel))),
   goes_of_stalls (((d ((small 0 0).setCnt .sn 1)).2 (by decide)).1 (by decide +kernel)),
   goes_of_completes (((d (small 0 0)).2 (by decide)).2.2.2.2.2.1 (by decide +kernel) (by decide +kernel) (.inl (by decide))),
   goes_of_stalls (((d ((small 0 0).setCnt .at_ 1)).2 (by decide)).2.2.2.1 (by decide +kernel)),
   goes_of_completes ((((d (small (own 0x2000) 0)).2 (by decide)).2.2.2.2.2.2.2.2 (.inr (by decide +kernel)) (by decide +kernel)
     (by decide +kernel) (by decide +kernel) (by decide +kernel) (by decide +kernel) (by decide +kernel)).1 (by decide +kernel)),
   goes_of_stalls ((((d ((small (own 0x2000) 0).wr (pmLoc 9 0x2000) [1])).2 (by decide)).2.2.2.2.2.2.2.2 (.inr (by decide +kernel))
     (by decide +kernel) (by decide +kernel) (by decide +kernel) (by decide +kernel) (by decide +kernel) (by decide +kernel)).2 (by decide +kernel)
     (by decide +kernel))⟩

/-- Cluster barrier object 2 as reset leaves it counts one arrival. -/
theorem witness_BarrierInstructions (h : Obligations.BarrierInstructions) :
    Goes (exec (.bararm .cluster 2 4) (small 0x10002 0)) ∧ Goes (exec (.bararm .cluster 2 4) (small 0 0)) ∧
    Goes (exec (.barrive .cluster 2 6) (small 0 0)) ∧ Goes (exec (.barwait .cluster 2 4) (small 5 0)) ∧
    Goes (exec (.barwait .cluster 2 4) (small 0 0)) ∧ Goes (exec (.bararm .package 2 4) (small 0x10002 0)) :=
  have d := fun s : State => h s .cluster 2 4 6
  have p := h (small 0x10002 0) .package 2 4 6 (by decide +kernel) (by decide)
  have a := d (small 0x10002 0) (by decide +kernel) (by decide)
  have b := d (small 0 0) (by decide +kernel) (by decide)
  have c := d (small 5 0) (by decide +kernel) (by decide)
  ⟨goes_of_completes (a.2.2.2.1 (by decide +kernel) (by decide +kernel) (by decide +kernel)),
   goes_of_eq (b.2.1 (by decide +kernel) (by decide +kernel)),
   goes_of_completes (b.2.2.2.2.2.2.2.1 (by decide +kernel) (by decide +kernel) (by decide +kernel)),
   goes_of_completes (c.2.2.2.2.2.2.2.2.1 (by decide +kernel) (by decide +kernel)),
   goes_of_stalls (b.2.2.2.2.2.2.2.2.2.2.1 (by decide +kernel) (by decide +kernel) (by decide +kernel)),
   goes_of_eq (p.1 (by decide +kernel)).1⟩

theorem goes_of_issues {s : State} {o : Host.Outcome State Fault Refusal} {op : CmdOp} {n : Nat} (h : Issues s o .none op n)
    (room : ¬ s.noRoom op) (count : s.cnt (cmdCnt op) < 63) : Goes o :=
  goes_of_completes (h.2.2 none rfl room count (by simp))

/-- Rows 0 to 127 of tile 0 are lent to the core as sums, those of tile 1 as ranked lists. -/
def lentTiles (x y : Nat) : State :=
  let s := small x y
  s.setCluster 1 { s.cluster 1 with groups := (List.range 16).map fun j =>
    (j, { holder := some 1, mine := true, kind := if j < 8 then 0 else 2, k := if j < 8 then 1 else 4, sat := false, nan := false }) }

theorem witness_MatrixCommands (h : Obligations.MatrixCommands) :
    Goes (exec (.mfmt true .rtz 1 1 4 4 4 4) (small 0 0)) ∧ Goes (exec (.malloc 6 0 0 1 .sum 0) (small 0 0)) ∧
    Goes (exec (.mzero 0 127 0 .none) (lentTiles 0x2000 64)) ∧ Goes (exec (.mzero 0 127 1 .none) (lentTiles 0 0)) ∧
    Goes (exec (.mma 0 0 0 3 4 5 4 5 .none) (lentTiles 0x2000 64)) ∧
    Goes (exec (.mdrain 0 127 0 false .mem 4 5 .none) (lentTiles 0x2000 64)) ∧
    Goes (exec (.mrank 0 1 0 3 0 7 4 .none) (lentTiles 9 0)) ∧ Goes (exec (.acct 0 0 3 false 4 5 .none) (lentTiles 0x2000 64)) := by
  have d (s : State) (row0 nr : Fin 128) (t ts : Fin 8) := h s t ts 0 1 0 0 0 0 row0 nr 0 7 0 0 0 true false .rtz .sum .e4m3 .mem 4 4 4 4 4 4 0 .none
  have m := h (small 0 0) 0 0 0 1 0 0 0 0 0 0 0 7 0 1 1 true false .rtz .sum .e4m3 .mem 6 4 4 4 4 4 0 .none (by decide) (by decide +kernel)
  have z := h (lentTiles 0x2000 64) 0 0 0 1 0 0 0 0 127 0 0 7 0 0 0 true false .rtz .sum .e4m3 .mem 4 4 5 5 5 4 0 .none (by decide)
    (by decide +kernel)
  have y := h (lentTiles 0 0) 0 0 0 1 0 0 0 0 127 1 0 7 0 0 0 true false .rtz .sum .e4m3 .mem 4 4 5 5 5 4 0 .none (by decide) (by decide +kernel)
  have w := h (lentTiles 0x2000 64) 0 0 0 1 0 0 0 0 0 3 0 7 0 0 0 true false .rtz .sum .e4m3 .mem 4 4 5 4 5 4 0 .none (by decide)
    (by decide +kernel)
  have r := h (lentTiles 9 0) 1 0 0 1 0 0 0 0 0 3 0 7 0 0 0 true false .rtz .sum .e4m3 .mem 4 4 5 4 5 4 0 .none (by decide) (by decide +kernel)
  have a := h (lentTiles 0x2000 64) 0 0 0 1 0 0 0 0 0 3 0 7 0 0 0 true false .rtz .sum .e4m3 .mem 4 4 5 5 5 4 0 .none (by decide) (by decide +kernel)
  refine ⟨goes_of_completes ((m.2.1 (by decide) (by decide) (by decide) (by decide) (fun e => absurd e (by decide)) (fun e => absurd e (by decide))).2
      (by decide +kernel)),
    goes_of_stalls ((m.2.2.2.1 (by decide)).1.2 (by decide +kernel)),
    goes_of_issues (z.2.2.2.2.2.2.2.1 (by decide) (by decide +kernel)) (by decide +kernel) (by decide +kernel),
    goes_of_eq (y.2.2.2.2.2.1 (by decide)).1,
    goes_of_issues (w.2.2.2.2.2.2.2.2.1 (by decide) (by decide +kernel) (by decide +kernel) (by decide +kernel) (by decide +kernel)) (by decide +kernel)
      (by decide +kernel),
    goes_of_issues (z.2.2.2.2.2.2.2.2.2.2.1 (by decide) (by decide +kernel) (fun e => absurd e (by decide)) (by decide +kernel)) (by decide +kernel)
      (by decide +kernel),
    goes_of_issues (r.2.2.2.2.2.2.2.2.2.2.2.2.2.1 (by decide) (by decide) (by decide +kernel) (by decide +kernel) (by decide +kernel) (by decide +kernel))
      (by decide +kernel) (by decide +kernel),
    goes_of_completes ((a.2.2.2.2.2.2.2.2.2.2.2.2.2.2.2 (by decide) (by decide +kernel) (by decide +kernel) (by decide +kernel) (by decide +kernel)
      (by decide +kernel) (by decide +kernel) (by decide +kernel)).2.2 none rfl (by decide +kernel) (by decide +kernel) (by simp))⟩

/-- A place outside the package for a fill, and a descriptor of zeros. -/
theorem witness_CopyCommands (h : Claims.CopyCommands) :
    Goes (exec (.tfill 0 4 5 5 .none) (small 0x2000 64)) ∧ Goes (exec (.tgather 4 4 4 5 5 5 5 .none) (small 0x2000 1)) ∧
    Goes (exec (.tcopy 4 .none) (small (own 0x2000) 0)) ∧ Goes (exec (.tcopy 4 .none) (small 0x2000 0)) ∧ Goes (exec .shelfcloseAll (small 0 0)) := by
  have d (s : State) := h s 4 5 4 5 5 5 5 0 .none 1 1 0x2000 []
  have g := h (small 0x2000 1) 4 4 4 5 5 5 5 0 .none 1 1 0x2000 [] (by decide) (by decide +kernel)
  have f := d (small 0x2000 64) (by decide) (by decide +kernel)
  have l := d (small (own 0x2000) 0) (by decide) (by decide +kernel)
  have r := d (small 0x2000 0) (by decide) (by decide +kernel)
  have e := d (small 0 0) (by decide) (by decide +kernel)
  exact ⟨goes_of_issues (f.2.2.1 (by decide +kernel)) (by decide +kernel) (by decide +kernel),
    goes_of_issues (g.1 (by decide +kernel) (by decide +kernel) (by decide +kernel)).1 (by decide +kernel) (by decide +kernel),
    goes_of_eq ((l.2.2.2.2.2.2.1 (by decide +kernel) (by decide +kernel)).2.2 (by decide +kernel) (by decide +kernel)),
    goes_of_stalls (r.2.2.2.2.2.2.2.1 .global (by decide +kernel) (by decide +kernel) (by decide +kernel)),
    goes_of_issues e.2.2.2.1 (by decide +kernel) (by decide +kernel)⟩

theorem witness_UnitGates (h : Claims.UnitGates) :
    Goes (exec .msync (handler 0 0 0 0)) ∧ Goes (exec .msync ((small 0 0).setMyCtx { (small 0 0).myCtx with twin := true })) :=
  ⟨goes_of_eq ((h (handler 0 0 0 0) .msync rfl).1 rfl),
   goes_of_eq ((h ((small 0 0).setMyCtx { (small 0 0).myCtx with twin := true }) .msync rfl).2 (by decide) (by decide +kernel))⟩

/-- The ordering conditions of a release outside the handler context. -/
theorem witness_SpawnRules (h : Claims.SpawnRules) :
    Goes (exec (.spawn 6 4 8 .here 1 false false) (small 0x2000 0)) ∧ Goes (exec (.callat 6 4 8 1) ((small 0x2000 0).setGN 12 10)) ∧
    Goes (exec (.callat 6 4 8 1) (small 0x2002 0)) ∧ Goes (exec (.callat 6 4 8 1) (handler 0 0 4 0)) := by
  have d (s : State) := h s 6 4 8 .here 1 false false 0 1 0xFF
  obtain ⟨_, _, _, a⟩ := d (small 0x2000 0)
  obtain ⟨_, _, _, b⟩ := d ((small 0x2000 0).setGN 12 10)
  obtain ⟨_, c, _, _⟩ := d (small 0x2002 0)
  obtain ⟨_, _, e, _⟩ := d (handler 0 0 4 0)
  exact ⟨goes_of_completes ((a ⟨by decide +kernel, by decide +kernel, fun e => absurd e (by decide)⟩ (by decide +kernel) (by decide +kernel)).2.1
      (by decide +kernel) ⟨rfl, rfl⟩ (by decide +kernel)).1,
    goes_of_completes ((b ⟨by decide +kernel, by decide +kernel, fun e => absurd e (by decide)⟩ (by decide +kernel) (by decide +kernel)).2.2.2.2.2.2.2.2.1
      (by decide +kernel) (by decide +kernel) (by decide +kernel) (by decide +kernel) (by decide +kernel)),
    goes_of_eq (c _ (by simp) ⟨by decide +kernel, by decide +kernel, fun e => absurd e (by decide)⟩ (by decide +kernel) (by decide +kernel)),
    goes_of_eq (e _ (by simp) (activation 4 0) rfl (by decide +kernel) (by decide))⟩

/-- Slot 0 of core 9's future table, whose handle is in g4. -/
def future (e : FutEntry) : State := (small (2 ^ 63 + 9 * 2 ^ 40) 5).setFut 9 0 e
def pending : FutEntry := { FutEntry.reset with state := 1 }
def resolved : FutEntry := { FutEntry.reset with state := 2, value := 7 }
def faulted : FutEntry := { FutEntry.reset with state := 3, cause := 0x42 }

theorem witness_FutureInstructions (h : Claims.FutureInstructions) :
    Goes (exec (.fnew 6) (small 0 0)) ∧ Goes (exec (.touch 6 4) (future resolved)) ∧ Goes (exec (.touch 6 4) (future pending)) ∧
    Goes (exec (.touch 6 4) (future faulted)) ∧ Goes (exec (.resolve 6 4 5) (future pending)) ∧ Goes (exec (.ffree 4) (future resolved)) ∧
    Goes (exec (.ffree 4) (future pending)) ∧ Goes (exec (.fstat 6 4) (small 5 0)) := by
  have d (s : State) (e : FutEntry) := h s 6 4 5 0 e
  obtain ⟨a, z, _, _, _⟩ := d (small 5 0) FutEntry.reset
  obtain ⟨f, _⟩ := d (small 0 0) FutEntry.reset
  obtain ⟨_, _, _, r, _⟩ := d (future resolved) resolved
  obtain ⟨_, _, _, p, _⟩ := d (future pending) pending
  obtain ⟨_, _, _, q, _⟩ := d (future faulted) faulted
  have r := r (by decide +kernel) (by decide +kernel) rfl
  have p := p (by decide +kernel) (by decide +kernel) rfl
  have q := q (by decide +kernel) (by decide +kernel) rfl
  exact ⟨goes_of_completes (f 0 (by decide +kernel) (by decide +kernel) (by omega) (by decide)),
    goes_of_completes (r.2.2.2.2.2.2.2.2.1 (by decide +kernel) rfl), goes_of_stalls (p.2.2.2.2.2.2.2.2.2.2.2.1 (by decide +kernel) rfl (by decide +kernel)),
    goes_of_eq (q.2.2.2.2.2.2.2.2.2.1 (by decide +kernel) rfl),
    goes_of_completes ((p.2.2.2.2.2.2.2.2.2.2.2.2.1 (by decide +kernel) (by decide +kernel)).1 rfl).1,
    goes_of_completes (r.2.2.2.2.2.2.2.2.2.2.2.2.2.2 (by decide) rfl), goes_of_eq (p.2.2.2.2.2.2.2.2.2.2.2.2.2.1 (.inl rfl)),
    goes_of_eq ((z (.inl (by decide +kernel))).1 _ (by simp))⟩

/-- A handle of core 10, on the executing core's cluster. -/
theorem witness_FutureRequests (h : Claims.FutureRequests) :
    Goes (exec (.cancel 6 4) (small (2 ^ 63 + 10 * 2 ^ 40) 0)) ∧ Goes (exec (.resolve 6 4 5) (small (2 ^ 63 + 10 * 2 ^ 40) 0)) :=
  have d := h (small (2 ^ 63 + 10 * 2 ^ 40) 0) 6 4 5 (by decide +kernel)
  ⟨goes_of_stalls d.1, goes_of_stalls ((d.2.2 (.inl (by decide +kernel))).2.2.2.1 (by decide +kernel)).1⟩

/-- Context 3 runs the task of record 0 of cluster 1, whose future is slot 0 of its own core. -/
def tasked (x : Nat) : State :=
  let s := (small x 0).setFut 9 0 pending
  let s := s.setMyCtx { s.myCtx with task := some (1, 0) }
  (s.setCx cxFUT (2 ^ 63 + 9 * 2 ^ 40)).setCluster 1 { s.cluster 1 with
    tasks := [(0, { Task.reset with used := true, stage := 3, core := 9, ctx := 3, handle := 2 ^ 63 + 9 * 2 ^ 40 })] }

theorem witness_TaskInstructions (h : Claims.TaskInstructions) :
    Goes (exec .chkc (small 0 0)) ∧ Goes (exec .yield (small 0 0)) ∧ Goes (exec .yield (tasked 0)) ∧ Goes (exec (.term 4) (small 0 0)) ∧
    Goes (exec (.term 4) (tasked 5)) ∧ Goes (exec (.term 4) (handler 0 0 0 0)) := by
  have d (s : State) := h s 4 1 0 0 pending
  obtain ⟨_, a, _, b, _, _, _, _, c, _⟩ := d (small 0 0)
  obtain ⟨_, _, _, _, _, _, y, _⟩ := d (tasked 0)
  obtain ⟨_, _, _, _, _, _, _, _, _, t, _⟩ := d (tasked 5)
  obtain ⟨_, _, _, _, _, _, _, x, _⟩ := d (handler 0 0 0 0)
  exact ⟨goes_of_completes (a (by decide +kernel)), goes_of_completes (b (by decide) (by decide +kernel)),
    goes_of_ex (y (by decide +kernel) (by decide +kernel) (by decide +kernel) (by decide +kernel) (by decide) (by decide)
      ((tasked 0).freeSlot 9 |>.getD 0) (by decide +kernel) (by decide +kernel) (by decide +kernel) (by decide +kernel) (by decide +kernel)),
    goes_of_ex (c (by decide) (by decide +kernel) (by decide +kernel) (by decide +kernel) (by decide +kernel) (by decide)),
    goes_of_ex (t (by decide +kernel) (by decide +kernel) (by decide) (by decide +kernel) (by decide +kernel) rfl rfl (by decide +kernel)),
    goes_of_eq (x (by decide))⟩

/-- Core 10 is the target. -/
theorem witness_SendMessages (h : Claims.SendMessages) :
    Goes (exec (.send 4 5 8 2) (small 10 0x1000)) ∧ Goes (exec (.send 4 5 8 2) ((small 10 0x1000).setCnt .sn 63)) ∧
    Goes (exec (.send 4 5 8 2) (handler 10 0x1000 3 0)) ∧ Goes (exec (.send 4 5 8 2) (handler 10 0x1000 4 0)) ∧
    Goes (exec (.send 4 5 8 2) (small (2 ^ 22) 0x1000)) := by
  have d (s : State) := h s 4 5 8 2
  obtain ⟨_, _, _, _, a⟩ := d (small 10 0x1000)
  obtain ⟨_, _, _, _, b⟩ := d ((small 10 0x1000).setCnt .sn 63)
  obtain ⟨_, _, _, _, c⟩ := d (handler 10 0x1000 3 0)
  obtain ⟨e, _⟩ := d (handler 10 0x1000 4 0)
  obtain ⟨_, f, _⟩ := d (small (2 ^ 22) 0x1000)
  exact ⟨goes_of_completes ((a (by decide +kernel) (by decide +kernel)).1 (by decide) (by decide +kernel)),
    goes_of_stalls ((b (by decide +kernel) (by decide +kernel)).2.1 (by decide) (by decide +kernel)),
    goes_of_completes ((c (by decide +kernel) (by decide +kernel)).2.2 (activation 3 0) rfl (by decide +kernel) (by decide)),
    goes_of_eq (e (activation 4 0) rfl (by decide +kernel) (by decide)),
    goes_of_eq (f (fun e => absurd e (by decide)) (.inl (by decide +kernel)))⟩

/-- The 32nd buffered store of an activation, and the 33rd. -/
theorem witness_HandlerCommit (h : Claims.HandlerCommit) :
    Goes (exec (.std 6 4 imm0 .plain noWait) (handler (own 0x2000) 0 0 31)) ∧ Goes (exec (.std 6 4 imm0 .plain noWait) (handler (own 0x2000) 0 0 32)) ∧
    Goes (exec .hret (handler 0 0 0 0)) ∧ Goes (exec .hret (small 0 0)) := by
  have d (n : Nat) := h (handler (own 0x2000) 0 0 n) (activation 0 n) 6 4 5 2 imm0 .plain noWait true false (.unit 1 1 0x2000) 0x2000
  have a := ((d 31).2.1 (by decide +kernel) rfl).2.2.2.1 (by unfold State.goesOn; decide +kernel) (by decide +kernel)
  have b := ((d 32).2.1 (by decide +kernel) rfl).2.2.2.1 (by unfold State.goesOn; decide +kernel) (by decide +kernel)
  have c := h (handler 0 0 0 0) (activation 0 0) 6 4 5 2 imm0 .plain noWait true false .global 0
  have e := h (small 0 0) (activation 0 0) 6 4 5 2 imm0 .plain noWait true false .global 0
  exact ⟨goes_of_completes (a.1 (by decide +kernel) (by decide)), goes_of_eq (b.2.1 (by decide +kernel) (by decide)),
    goes_of_ex (c.2.2 (by decide +kernel) rfl (by intro x hx; simp [activation] at hx)), goes_of_eq (e.1 (by decide))⟩

/-- A launch block of one share on core 8, joined on slot 0 of core 9. -/
def launchBlock : List Byte :=
  bytesOf 8 1 ++ bytesOf 8 0x4000 ++ bytesOf 8 0 ++ bytesOf 8 (8 + 2 ^ 12 + 2 ^ 25) ++ bytesOf 8 (2 ^ 63 + 9 * 2 ^ 40) ++ bytesOf 24 0

theorem witness_LaunchInstructions (h : Obligations.LaunchInstructions) :
    Goes (exec (.flood 4) (small (own 0x2000) 0)) ∧ Goes (exec (.flood 4) (small 0x2000 0)) ∧ Goes (exec (.flood 4) (small 0x2020 0)) ∧
    Goes (exec (.launch 6 4 5) (small 0x2000 64)) ∧ Goes (.next ((future pending).floodGo launchBlock)) ∧
    Goes (.next ((small 0 0).launchGo 6 0 launchBlock)) := by
  have d (s : State) (p : Dest) := h s 6 4 5 launchBlock p 0 pending
  obtain ⟨_, l, _⟩ := d (small (own 0x2000) 0) (.unit 1 1 0x2000)
  obtain ⟨_, r, _⟩ := d (small 0x2000 0) .global
  obtain ⟨m, _⟩ := d (small 0x2020 0) .global
  obtain ⟨_, q, _⟩ := d (small 0x2000 64) .global
  obtain ⟨_, _, _, _, _, f⟩ := d (future pending) .global
  obtain ⟨_, _, _, g, _⟩ := d (small 0 0) .global
  have l := l (by decide +kernel) (by decide +kernel) (by decide +kernel)
  have r := r (by decide +kernel) (by decide +kernel) (by decide +kernel)
  have q := q (by decide +kernel) (by decide +kernel) (by decide +kernel)
  exact ⟨goes_of_eq (l.2.2.2.2 1 1 0x2000 rfl (by decide +kernel) (by decide +kernel) (by decide +kernel)).2,
    goes_of_stalls (r.2.2.2.1 (by decide +kernel) (by decide +kernel)).2,
    goes_of_eq (m (by decide +kernel) (by decide +kernel)).2, goes_of_eq (q.1 (by decide +kernel)),
    goes_of_completes ((f (by decide +kernel) (by decide +kernel) (by decide +kernel) (by decide +kernel)).1 (by decide +kernel)),
    goes_of_stalls (g (.inl (by decide +kernel)))⟩

/-- The control context of core 9, with context 4 reserved for helpers. -/
def controlCtx (x y : Nat) : State :=
  let s : State := { small 0 0 with cur := { core := 9, ctx := 0, len := 1, last := false } }
  ((s.setCluster 1 { s.cluster 1 with resv := 2 ^ 4 }).setGN 4 x).setGN 5 y

theorem witness_ContextControl (h : Obligations.ContextControl) :
    Goes (exec (.setwp 4 5) (controlCtx 4 (0x30000 + 0xC00 * 13))) ∧ Goes (exec (.setwp 4 5) (controlCtx 4 0x30001)) ∧
    Goes (exec (.start 6 4 5) (controlCtx 4 0x2000)) ∧ Goes (exec (.start 6 4 5) (controlCtx 5 0x2000)) ∧ Goes (exec (.stopc 6 4 5) (controlCtx 4 0)) ∧
    Goes (exec (.stopc 6 4 5) (controlCtx 3 0)) ∧ Goes (exec (.park 6 4) (controlCtx 3 0)) ∧ Goes (exec (.park 6 4) (controlCtx 1 0)) ∧
    Goes (exec (.bankmode 4 5) (controlCtx 0 1)) ∧ Goes (exec (.bankmode 4 5) (controlCtx 8 1)) := by
  have d (x y : Nat) := h (controlCtx x y) 6 4 5 rfl
  obtain ⟨_, w, _⟩ := d 4 (0x30000 + 0xC00 * 13)
  obtain ⟨_, w', _⟩ := d 4 0x30001
  obtain ⟨_, _, _, s, _⟩ := d 4 0x2000
  obtain ⟨_, _, s', _⟩ := d 5 0x2000
  obtain ⟨_, _, _, _, _, _, c, _⟩ := d 4 0
  obtain ⟨_, _, _, _, _, _, p, _⟩ := d 3 0
  obtain ⟨_, _, _, _, _, p', _⟩ := d 1 0
  obtain ⟨_, _, _, _, _, _, _, _, _, _, _, _, b⟩ := d 0 1
  obtain ⟨_, _, _, _, _, _, _, b', _⟩ := d 8 1
  have p := p (by decide +kernel) (by decide +kernel)
  refine ⟨goes_of_completes (((w (by decide +kernel) (by decide +kernel)).2 ⟨13, by decide, by decide +kernel⟩ (by decide +kernel)
      (by decide +kernel)).1 (by decide +kernel)),
    goes_of_eq ((w' (by decide +kernel) (by decide +kernel)).1 (.inl ?_)),
    goes_of_completes ((s (by decide +kernel) (by decide +kernel) (by decide +kernel) (by decide +kernel)).2.2 (by decide +kernel) (by decide +kernel)
      (by decide +kernel)),
    goes_of_eq (s' (by decide +kernel) (by decide +kernel)),
    goes_of_completes ((c (by decide +kernel) (by decide +kernel)).1 (by decide +kernel) (by decide +kernel)),
    goes_of_completes (p.2.2.2.2.1 (by decide +kernel) (by decide +kernel) (by decide +kernel) (by decide +kernel) (by decide +kernel)
      (.inl (by decide +kernel)) (by decide +kernel)),
    goes_of_stalls ((p.2.2.2.2.2.2.2 (by decide +kernel) (by decide +kernel) (by decide +kernel) ?_).1 (by decide +kernel)),
    goes_of_eq (p' (by decide +kernel)),
    goes_of_completes (b (by decide +kernel) (by decide +kernel) (by decide +kernel) (by decide +kernel) (by decide +kernel)),
    goes_of_eq (b' (by decide +kernel))⟩
  · rintro ⟨k, _, hk⟩
    have : (controlCtx 4 0x30001).gN 5 = 0x30001 := by decide +kernel
    omega
  · rintro ⟨_, _, _, e⟩
    exact absurd ((by decide +kernel : _ = Wait.none).symm.trans e) (by simp)

theorem witness_ControlFields (h : Obligations.ControlFields) :
    Goes (exec (.ctrlr 6 4) (controlCtx 0x0101 0)) ∧ Goes (exec (.ctrlw 4 5) (controlCtx 0x0101 0x1000)) ∧
    Goes (exec (.ctrlr 6 4) (small (3 * 2 ^ 16 + 1) 0)) ∧ Goes (exec (.ctrlw 4 5) (small (3 * 2 ^ 16 + 1) 127)) ∧
    Goes (exec (.ctrlw 4 5) (small (3 * 2 ^ 16 + 1) 128)) ∧ Goes (exec (.ctrlr 6 4) (small 0x0101 0)) ∧ Goes (exec (.ctrlr 6 4) (small (2 ^ 20) 0)) := by
  have d (s : State) := h s 6 4 5
  obtain ⟨r, _⟩ := d (controlCtx 0x0101 0)
  obtain ⟨_, _, w, _⟩ := d (controlCtx 0x0101 0x1000)
  obtain ⟨_, o, _⟩ := d (small (3 * 2 ^ 16 + 1) 0)
  obtain ⟨_, _, _, v, _⟩ := d (small (3 * 2 ^ 16 + 1) 127)
  obtain ⟨_, _, _, x, _⟩ := d (small (3 * 2 ^ 16 + 1) 128)
  obtain ⟨_, _, _, _, _, p⟩ := d (small 0x0101 0)
  obtain ⟨_, _, _, _, q, _⟩ := d (small (2 ^ 20) 0)
  exact ⟨goes_of_completes ((r (by decide)).1 _
      (List.mem_append_left _ (List.mem_append_left _ (List.mem_append_left _ (List.mem_cons_self ..)))) (by decide +kernel)),
    goes_of_completes (((w (by decide)).1 _ (List.mem_cons_self ..) (by decide +kernel)).2 (by decide +kernel)),
    goes_of_completes ((o (by decide)).1 (by decide +kernel)),
    goes_of_completes ((v (by decide) (by decide +kernel)).2 (by decide +kernel)), goes_of_eq ((x (by decide) (by decide +kernel)).1 (by decide +kernel)),
    goes_of_eq ((p (by decide)).1 _ (List.mem_append_left _ (List.mem_cons_self ..)) (by decide +kernel)).1,
    goes_of_eq (q (.inl (by decide +kernel))).1⟩

theorem witness_AccumulateInstructions (h : Claims.AccumulateInstructions) :
    Goes (exec (.acc 4 3 1) (small 0x2000 0)) ∧ Goes (exec (.acc 4 3 1) ((small 0x2000 0).setCnt .at_ 63)) ∧ Goes (exec (.acc 4 3 1) (small 0x2020 0)) ∧
    Goes (exec (.rmerge 4 3 1 2) (small 0x2000 0)) := by
  have d (s : State) := h s 4 3 1 2
  obtain ⟨a, _, r⟩ := d (small 0x2000 0) (by decide +kernel)
  obtain ⟨b, _⟩ := d ((small 0x2000 0).setCnt .at_ 63) (by decide +kernel)
  obtain ⟨c, _⟩ := d (small 0x2020 0) (by decide +kernel)
  exact ⟨goes_of_completes ((a.2.2.2.2 (by decide +kernel) (by decide +kernel)).1 (by decide +kernel)),
    goes_of_stalls (b.2.2.2.1 (by decide +kernel) (by decide +kernel)), goes_of_eq (c.2.1 (by decide +kernel) (by decide +kernel)),
    goes_of_completes ((r.2.2.2.2 (by decide +kernel) (by decide +kernel)).1 (by decide +kernel))⟩

theorem witness_FlushInstructions (h : Claims.FlushInstructions) :
    Goes (exec .flushresAll (small 0 0)) ∧ Goes (exec .flushresAll ((small 0 0).setCnt .at_ 63)) :=
  ⟨goes_of_completes ((h (small 0 0) 4 5 (by decide) (by decide +kernel)).1.2 (by decide +kernel) (by decide +kernel) (by decide +kernel)),
   goes_of_stalls ((h ((small 0 0).setCnt .at_ 63) 4 5 (by decide) (by decide +kernel)).1.1 (by decide +kernel))⟩

/-- Heaps of four places at 0x2000 and at `off`, the first with one pair. -/
def heaps (off : Nat) : State :=
  (small (own 0x2000) (own off)).wr (pmLoc 9 off) (bytesOf 8 4) |>.wr (pmLoc 9 0x2000) (bytesOf 8 (4 + 2 ^ 8) ++ bytesOf 8 0x3F800000)

theorem witness_HeapInstructions (h : Claims.HeapInstructions) :
    Goes (exec (.hsift 6 4 5) (heaps 0x2028)) ∧ Goes (exec (.hmerge 6 4 5) (heaps 0x2028)) ∧ Goes (exec (.hmerge 6 4 5) (heaps 0x2020)) ∧
    Goes (exec (.hmerge 6 4 5) (heaps 0x2000)) ∧ Goes (exec (.hsift 6 4 5) (small (own 0x2000) 0)) := by
  have d (s : State) (o : Nat) := h s 6 4 5 0x2000 o
  obtain ⟨_, _, _, _, a, b⟩ := (d (heaps 0x2028) 0x2028).2 (by decide)
  obtain ⟨_, _, _, _, _, c⟩ := (d (heaps 0x2020) 0x2020).2 (by decide)
  obtain ⟨_, _, _, _, _, e⟩ := (d (heaps 0x2000) 0x2000).2 (by decide)
  obtain ⟨_, _, _, f, _⟩ := (d (small (own 0x2000) 0) 0x2000).2 (by decide)
  exact ⟨goes_of_completes (a (by decide +kernel) (by decide +kernel) (by decide +kernel)),
    goes_of_completes ((b (by decide +kernel) (by decide +kernel) (by decide +kernel) (by decide +kernel)).2.1 (by decide) (by decide +kernel)
      (by decide +kernel) (by decide +kernel)),
    goes_of_eq ((c (by decide +kernel) (by decide +kernel) (by decide +kernel) (by decide +kernel)).1 (by decide) (by decide +kernel)
      (by decide +kernel)),
    goes_of_completes ((e (by decide +kernel) (by decide +kernel) (by decide +kernel) (by decide +kernel)).2.2 rfl (by decide +kernel)),
    goes_of_eq (f (by decide +kernel) (by decide +kernel)).1⟩

theorem witness_HeapRules (h : Claims.HeapRules) :
    ({ cap := 4, nan := false, ents := [(0x3F800000, 7)] } : Heap).sift (0x7FC00000, 1) |>.1.cap = 4 :=
  (h { cap := 4, nan := false, ents := [(0x3F800000, 7)] } (0x7FC00000, 1) (by decide) (by decide) (by decide) (by decide +kernel)
    (by intro j h0 hj; simp at hj; omega)).1

theorem witness_HeapsComplete (h : Obligations.HeapsComplete) : Goes (exec (.hsift 6 4 5) (heaps 0x2028)) ∧ Goes (exec (.hmerge 6 4 5) (heaps 0x2028)) :=
  have d := h (heaps 0x2028) 6 4 5 0x2000 0x2028 { cap := 4, nan := false, ents := [(0x3F800000, 0)] } { cap := 4, nan := false, ents := [] }
    (by decide) (by decide +kernel) (by decide +kernel) (by decide +kernel)
  ⟨goes_of_eq d.1, goes_of_eq (d.2 (by decide +kernel) (by decide +kernel) (by decide +kernel) (by decide +kernel))⟩

theorem Tbl.get_cases {α : Type} (d : α) (l : Tbl α) (a : Nat) : Tbl.get d l a = d ∨ ∃ e ∈ l, Tbl.get d l a = e.2 := by
  induction l with
  | nil => exact .inl rfl
  | cons e t ih =>
    by_cases h : e.1 = a
    · exact .inr ⟨e, by simp, by simp [Tbl.get, h]⟩
    · simp only [Tbl.get, h, if_false]
      exact ih.imp id fun ⟨x, hx, hv⟩ => ⟨x, by simp [hx], hv⟩

/-- What holds of the wait of every context that the state lists, and of no wait, holds of every context's. -/
theorem wait_of_listed {p : Wait → Prop} {s : State} (none_ : p .none) (h : ∀ c ∈ s.cores, ∀ x ∈ c.2.ctxs, p x.2.wait) (core ctx : Nat) :
    p (s.ctxAt core ctx).wait := by
  unfold State.ctxAt
  obtain e | ⟨x, hx, e⟩ := Tbl.get_cases (Ctx.reset ctx) (s.core core).ctxs ctx
  · rw [e]; exact none_
  · rw [e]
    obtain e' | ⟨c, hc, e'⟩ := Tbl.get_cases CoreState.reset s.cores core
    · rw [State.core, e'] at hx; simp [CoreState.reset] at hx
    · rw [State.core, e'] at hx; exact h c hc x hx

theorem calm_of_listed {s : State} (h : ∀ c ∈ s.cores, ∀ x ∈ c.2.ctxs, x.2.wait = .none) (cl : Nat) : s.calm cl :=
  fun core ctx _ => wait_of_listed (p := fun w => w ≠ .retry ∧ ∀ n, w ≠ .bank n) ⟨by simp, by simp⟩
    (fun c hc x hx => by rw [h c hc x hx]; exact ⟨by simp, by simp⟩) core ctx

/-- One flight, with number 3. -/
def flying (s : State) (f : Flight) : State := { s with flights := [(3, f)] }
/-- A request of context 3 of core 9 for a global address. -/
def request (op : MemOp) (stage : Stage) : MemReq :=
  { part := 0, va := 0x10040, near := none, op := op, back := .ctx 9 3, seq := some (9, 0), stage := stage, refused := none, rel := false, again := false }
/-- The page at 0x10000 in the TLB of the home slice of 0x10040: writable, not executable, written before. -/
def pageEnt : TlbEnt :=
  { slice := (small 0 0).home 0 0x10040, part := 0, vbase := 0x10000, size := 0, pte := 0x1D3 + 2 ^ 14 * 16, pteLoc := 0x700000 }
def paged (s : State) : State := { s with tlb := [pageEnt] }

theorem witness_GlobalAccesses (h : Obligations.GlobalAccesses) :
    let load := request (.load 8) .travelling
    let fetch := request .fetch .travelling
    let walking := request (.load 8) .walking
    let atomic := request (.atomic .add 5) (.ready 0x40040 true ((small 0 0).home 0 0x10040))
    let walks : State := flying ((small 0 0).setDie ((small 0 0).home 0 0x10040 / 128) { Die.reset with walkQueue := [3] }) (.mem walking)
    Goes (exec (.homeSliceAccess 3) (flying (small 0 0) (.mem load))) ∧ Goes (exec (.homeSliceAccess 3) (flying (paged (small 0 0)) (.mem load))) ∧
    Goes (exec (.homeSliceAccess 3) (flying (paged (small 0 0)) (.mem fetch))) ∧ Goes (exec (.pageWalk 3) walks) ∧
    Goes (exec (.atomicAtAgent 3) (flying (paged (small 0 0)) (.mem atomic))) := by
  intro load fetch walking atomic walks
  obtain ⟨a, _⟩ := h (flying (small 0 0) (.mem load)) 3 load rfl rfl rfl rfl rfl
  obtain ⟨b, _⟩ := h (flying (paged (small 0 0)) (.mem load)) 3 load rfl rfl rfl rfl rfl
  obtain ⟨c, _⟩ := h (flying (paged (small 0 0)) (.mem fetch)) 3 fetch rfl rfl rfl rfl rfl
  obtain ⟨_, w, _⟩ := h walks 3 walking rfl rfl rfl rfl rfl
  obtain ⟨_, _, x⟩ := h (flying (paged (small 0 0)) (.mem atomic)) 3 atomic rfl rfl rfl rfl rfl
  have x := x 0x40040 true ((small 0 0).home 0 0x10040) .add 5 9 0 rfl rfl rfl
  have b := (b rfl (by decide) (by decide +kernel) (by decide)).2.2 pageEnt (by decide +kernel) (.inl (by decide))
  have c := (c rfl (by decide) (by decide +kernel) (by decide)).2.2 pageEnt (by decide +kernel) (.inl (by decide))
  exact ⟨goes_of_eq ((a rfl (by decide) (by decide +kernel) (by decide)).1 (by decide +kernel)),
    goes_of_eq (b.2.2.2.1 8 rfl (by decide +kernel)), goes_of_eq (c.2.1 rfl (by decide +kernel)),
    goes_of_eq ((w rfl [] (by decide +kernel)).1 0x090 1 (by decide +kernel) (by decide)),
    goes_of_ex (x.2.2 (by decide +kernel) (by decide +kernel) (by decide +kernel) pageEnt (by decide +kernel)
      (by decide +kernel))⟩

/-- A request of context 3 of core 9 for 0x2000 of core 9's private memory, and for the first word of a page. -/
def nearRequest (op : MemOp) (loc : Nat) : MemReq :=
  { part := 0, va := loc, near := some loc, op := op, back := .ctx 9 3, seq := none, stage := .travelling, refused := none, rel := false, again := false }

theorem witness_NearAccesses (h : Claims.NearAccesses) :
    let load := nearRequest (.load 8) (nearLoc 1 1 0x2000)
    let store := nearRequest (.store [1] false) (nearLoc 1 1 0x2000)
    let pop := nearRequest (.store (bytesOf 8 1) false) (nearLoc 1 8 0x7F020)
    let fifo : State := ((small 0 0).setCluster 1 { Cluster.reset with csMode := 2 }).wr (nearLoc 1 8 0x7F010) (bytesOf 8 1 ++ bytesOf 8 (2 * 2 ^ 16 + 1))
    Goes (exec (.nearArrival 3) (flying (small 0 0) (.mem load))) ∧ Goes (exec (.nearArrival 3) (flying (small 0 0) (.mem store))) ∧
    Goes (exec (.fifoPop 3) (flying fifo (.mem pop))) := by
  intro load store pop fifo
  have still (s : State) (e : ∀ c ∈ s.cores, ∀ x ∈ c.2.ctxs, x.2.wait = .none) (x y b : Nat) : (s.ctxAt x y).wait ≠ .bank b :=
    wait_of_listed (p := fun w => w ≠ .bank b) (by simp) (fun c hc x hx => by rw [e c hc x hx]; simp) x y
  obtain ⟨_, a, _⟩ := h (flying (small 0 0) (.mem load)) 3 1 1 0x2000 load rfl rfl rfl rfl rfl (by decide) (by decide) (by decide) rfl (by decide +kernel) rfl
    (by decide +kernel)
  obtain ⟨_, b, _⟩ := h (flying (small 0 0) (.mem store)) 3 1 1 0x2000 store rfl rfl rfl rfl rfl (by decide) (by decide) (by decide) rfl
    (by decide +kernel) rfl (by decide +kernel)
  obtain ⟨_, _, _, _, _, c⟩ := h (flying fifo (.mem pop)) 3 1 8 0x7F020 pop rfl rfl rfl rfl rfl (by decide) (by decide) (by decide) rfl (by decide +kernel) rfl
    (by decide +kernel)
  exact ⟨goes_of_eq ((a (by decide +kernel) (.inl (by decide)) (still _ (by decide +kernel))).2.1 8 rfl (by decide +kernel)),
    goes_of_ex ((b (by decide +kernel) (.inl (by decide)) (still _ (by decide +kernel))).2.2 [1] rfl (by simp)),
    goes_of_ex (((c 1 (bytesOf 8 1) (by decide +kernel) rfl (by decide) (by decide +kernel) (still _ (by decide +kernel)) rfl (by decide) (by decide +kernel)).1
      (by decide +kernel) (by decide +kernel) (by decide +kernel) (by decide +kernel)).1 (by decide +kernel))⟩

theorem witness_Acknowledgements (h : Claims.Acknowledgements) :
    Goes (exec (.acknowledgement 3) (flying ((small 0 0).setCnt .sn 1) (.ack (.count 9 3 .sn 0x1000 5) 0x2000 0x081))) :=
  goes_of_ex (h (flying ((small 0 0).setCnt .sn 1) (.ack (.count 9 3 .sn 0x1000 5) 0x2000 0x081)) 3 9 3 .sn 0x1000 5 0x2000 0x081 rfl (by decide)
    (by decide +kernel) (by decide) (by decide) (by decide) (by decide +kernel) rfl rfl (by decide +kernel))

/-- A message for core 9 without payload. -/
def message : Msg :=
  { part := 0, target := 9, hpc := 0x1000, word := 9, pay := [], back := .count 9 3 .sn 0x1000 5, refused := none, drain := none }

theorem witness_MessageEvents (h : Obligations.MessageEvents) :
    let held := (small 0 0).setCore 9 { (small 0 0).core 9 with inbox := [{ slot := 0, sys := .handler, part := 0, tries := 0 }] }
    let again : Msg := { message with refused := some 0 }
    Goes (exec (.messageArrival 3) (flying (small 0 0) (.msg message))) ∧
    Goes (exec (.messageRetry 3) { flying (small 0 0) (.msg again) with clock := 64 }) ∧ Goes (exec (.activation 9) held) := by
  intro held again
  obtain ⟨a, _⟩ := h (flying (small 0 0) (.msg message)) 3 9 message (by decide) (by decide) rfl rfl
  obtain ⟨_, b, _⟩ := h { flying (small 0 0) (.msg again) with clock := 64 } 3 9 again (by decide) (by decide) rfl rfl
  obtain ⟨_, _, c, _⟩ := h held 3 9 message (by decide) (by decide) rfl rfl
  exact ⟨goes_of_ex ((a (by decide +kernel) rfl).1 0 (by decide +kernel) (by decide +kernel) (by decide) (by decide +kernel) (by simp) (by decide) (by decide)
      (by decide) (by decide) (by decide)),
    goes_of_ex ((b (by decide +kernel) 0 rfl (by decide)).1 0 (by decide +kernel) (by decide +kernel) (by decide) (by decide +kernel) (by simp) (by decide)
      (by decide) (by decide) (by decide) (by decide)),
    goes_of_ex (c { slot := 0, sys := .handler, part := 0, tries := 0 } [] (by decide +kernel) (by decide +kernel) rfl (by decide))⟩

/-- A post of KIND 0 of context 3, and one without a source. -/
def post (source : Option (Nat × Nat)) : Post :=
  { pkg := 0, part := 0, w0 := 2 ^ 63 + 3 * 2 ^ 56 + 0x042 * 2 ^ 47 + 9, pc := 0x1000, addr := 0, aux := 0, source := source }

theorem witness_MailboxPosts (h : Claims.MailboxPosts) :
    let posting := (small 0 0).setMyCtx { (small 0 0).myCtx with wait := .posting }
    let full := posting.wr (pmLoc 9 0x3A800) (bytesOf 8 (2 ^ 63))
    Goes (exec (.mailboxPost 3) (flying (small 0 0) (.post (post none)))) ∧ Goes (exec (.mailboxPost 3) (flying posting (.post (post (some (9, 3)))))) ∧
    Goes (exec (.mailboxPost 3) (flying full (.post (post (some (9, 3)))))) := by
  intro posting full
  obtain ⟨a, _⟩ := h (flying (small 0 0) (.post (post none))) 3 (post none) rfl rfl (by decide +kernel) (by decide +kernel)
  obtain ⟨b, _⟩ := h (flying posting (.post (post (some (9, 3))))) 3 (post (some (9, 3))) rfl rfl (by decide +kernel) (by decide +kernel)
  obtain ⟨_, _, _, c⟩ := h (flying full (.post (post (some (9, 3))))) 3 (post (some (9, 3))) rfl rfl (by decide +kernel) (by decide +kernel)
  exact ⟨goes_of_reaches ((a (by decide +kernel) (by decide) (by decide) (by decide)).1 (by simp [post])),
    goes_of_reaches ((b (by decide +kernel) (by decide) (by decide) (by decide)).2 9 3 rfl (by decide +kernel) (by decide) (by decide) (by decide +kernel)),
    goes_of_reaches ((c (by decide +kernel) 9 3 rfl (by decide +kernel) (by decide +kernel) (by decide) (by decide)).1 (by decide +kernel) (by decide +kernel))⟩

/-- Context 3 is STALLED in BARWAIT on generation `gen` of cluster barrier object 2, which reset leaves at 0. -/
def barred (gen : Nat) : State :=
  ((small 0 0).setMyCtx { (small 0 0).myCtx with wait := .barrier (barKey .cluster 1 2) gen (small 0 0).cur }).setStateAt 9 3 2

/-- The same object, whose first arrival is 2,000 clocks old, with a timeout of 1,024. -/
def late (s : State) : State :=
  let s := (s.setCluster 1 { s.cluster 1 with barTmo := 1 }).setBarrier (barKey .cluster 1 2) { word := 2 ^ 16 + 2, start := some 0, timedOut := false }
  { s with clock := 2000 }

theorem witness_WaiterEvents (h : Claims.WaiterEvents) :
    let drained := (small 0 0).setCore 9 { (small 0 0).core 9 with inbox := [{ slot := 0, sys := .drain (2 ^ 63 + 9 * 2 ^ 40) 0, part := 0, tries := 0 }] }
    Goes (exec (.barrierCompletion 9 3) (barred 5)) ∧ Goes (exec (.barrierCompletion 9 3) (barred 0)) ∧
    Goes (exec (.barrierTimeout .cluster 1 2) (late (small 0 0))) ∧ Goes (exec (.drainWake 9) drained) := by
  intro drained
  obtain ⟨a, _⟩ := h (barred 5) 9 3 (barKey .cluster 1 2) 5 0 (small 0 0).cur .cluster 1 2 rfl rfl (by decide) (by decide)
  obtain ⟨b, _⟩ := h (barred 0) 9 3 (barKey .cluster 1 2) 0 0 (small 0 0).cur .cluster 1 2 rfl rfl (by decide) (by decide)
  obtain ⟨_, c, _⟩ := h (late (small 0 0)) 9 3 0 0 0 (small 0 0).cur .cluster 1 2 rfl rfl (by decide) (by decide)
  obtain ⟨_, _, d, _⟩ := h drained 9 3 0 0 0 (small 0 0).cur .cluster 1 2 rfl rfl (by decide) (by decide)
  exact ⟨goes_of_completes ((a (by decide +kernel) (by decide +kernel)).1 (by decide +kernel)),
    goes_of_eq ((b (by decide +kernel) (by decide +kernel)).2 (by decide +kernel)),
    goes_of_eq ((c 0 (by decide +kernel) (by decide +kernel) (by decide +kernel) (by decide +kernel)).1 (fun x y a =>
      wait_of_listed (p := fun w => w ≠ .barrier _ _ a) (by simp) (fun c hc x hx => by
        rw [(by decide +kernel : ∀ c ∈ (late (small 0 0)).cores, ∀ x ∈ c.2.ctxs, x.2.wait = .none) c hc x hx]; simp) x y)),
    goes_of_eq (d { slot := 0, sys := .drain (2 ^ 63 + 9 * 2 ^ 40) 0, part := 0, tries := 0 } [] (2 ^ 63 + 9 * 2 ^ 40) 0 (by decide +kernel) (by decide +kernel)
      rfl)⟩

/-- The record of a task without tiles for cluster 1. -/
def record : TaskRec :=
  { pc := 0x1000, pri := 1, handle := 2 ^ 63 + 9 * 2 ^ 40, twin := false, rst := false, args := [1, 2, 3, 4], tiles := [], elig := 0xFF, pair := none }

theorem witness_RecordArrival (h : Claims.RecordArrival) : Goes (exec (.taskRecordArrival 3) (flying (small 0 0) (.record 9 0 1 record))) :=
  goes_of_reaches (((h (flying (small 0 0) (.record 9 0 1 record)) 3 1 9 0 record rfl (by decide +kernel)).2.2.2 (by decide +kernel) (by decide +kernel) rfl).2.2
    rfl (by decide) (by decide +kernel) (by decide) (by decide) (by decide) (by decide) |>.1 (by decide) (by decide +kernel) (by decide +kernel))

/-- The task of record 0 of cluster 1, at a stage. -/
def scheduled (stage : Nat) : State :=
  let k : Task := { Task.reset with used := true, handle := 2 ^ 63 + 9 * 2 ^ 40, pri := 1, stage := stage, elig := 0xFF }
  { (small 0 0).setCluster 1 { (small 0 0).cluster 1 with tasks := [(0, k)], ready := [0] } with clock := 65536 }

theorem witness_SchedulerEvents (h : Claims.SchedulerEvents) :
    Goes (exec (.taskAging 1 0) (scheduled 2)) ∧ Goes (exec (.loadHintPublication 1 true) (scheduled 2)) ∧ Goes (exec (.dispatch 1) (scheduled 2)) := by
  obtain ⟨_, _, _, d, _, a, p⟩ := h (scheduled 2) 1 0 8 2
  exact ⟨goes_of_reaches ((a (by decide +kernel) (by decide +kernel) (by decide +kernel)).1 (by decide +kernel) (by decide +kernel)),
    goes_of_eq ((p true).2 (by decide +kernel)),
    goes_of_ex (((d (by decide +kernel)).2 [] [] 0 (by decide +kernel) (by decide +kernel) (by decide +kernel) (by decide +kernel) (by decide +kernel)
      (by decide +kernel) (by simp) (by decide +kernel) (by decide +kernel) (by decide +kernel)).1 (by decide +kernel) (by decide +kernel))⟩

/-- A request for slot 0 of core 9's table from context 3 of the same core. -/
def asking (e : FutEntry) (op : FutOp) : State :=
  flying (future e) (.fut { handle := 2 ^ 63 + 9 * 2 ^ 40, op := op, part := 0, back := .ctx 9 3, root := 0, src := 9 })

theorem witness_FutureAtHome (h : Obligations.FutureAtHome) :
    Goes (exec (.futureRequest 3) (asking resolved .ttouch)) ∧ Goes (exec (.futureRequest 3) (asking pending (.finish 2 7))) ∧
    Goes (exec (.futureRequest 3) (asking pending (.cancel false))) := by
  have d (e : FutEntry) (op : FutOp) := h (asking e op) 3 9 0 e { handle := 2 ^ 63 + 9 * 2 ^ 40, op := op, part := 0, back := .ctx 9 3, root := 0, src := 9 } 1
  obtain ⟨a, _⟩ := d resolved .ttouch (by decide +kernel) (by decide) (by decide) (by decide) (by decide) (by decide) (by decide) rfl (by decide +kernel)
    (by decide +kernel)
  obtain ⟨b, _⟩ := d pending (.finish 2 7) (by decide +kernel) (by decide) (by decide) (by decide) (by decide) (by decide) (by decide) rfl (by decide +kernel)
    (by decide +kernel)
  obtain ⟨c, _⟩ := d pending (.cancel false) (by decide +kernel) (by decide) (by decide) (by decide) (by decide) (by decide) (by decide) rfl
    (by decide +kernel) (by decide +kernel)
  have a := (a rfl (by decide) rfl).2.2.2 (by decide +kernel) (by decide +kernel) rfl
  have b := (b rfl (by decide) rfl).2.2.2 (by decide +kernel) (by decide +kernel) rfl
  have c := (c rfl (by decide) rfl).2.2.2 (by decide +kernel) (by decide +kernel) rfl
  exact ⟨goes_of_eq ((a.2.1 rfl).2.1 rfl), goes_of_eq (((b.2.2.2.1 2 7 rfl).1 rfl).1 rfl),
    goes_of_eq ((c.2.2.2.2.2.2 false rfl rfl).2.1 rfl rfl)⟩

/-- Context 3 of core 9 is STALLED in TOUCH on core 10's future; its token is 0x1F13 of cluster 1. -/
def touching : State :=
  ((small 0 0).setMyCtx { (small 0 0).myCtx with wait := .listed 6 (2 ^ 63 + 10 * 2 ^ 40) (small 0 0).cur }).setStateAt 9 3 2

theorem witness_WakeAndCancelEvents (h : Obligations.WakeAndCancelEvents) :
    Goes (exec (.futureWake 3) (flying touching (.wake (2 ^ 13 + 0x1F13) (2 ^ 63 + 10 * 2 ^ 40) 2 7))) ∧
    Goes (exec (.cancelRequest 3) (flying (small 0 0) (.cancelReq (2 ^ 63 + 10 * 2 ^ 40) 0 1 0 false))) ∧
    Goes (exec (.cancelRequest 3) (flying (scheduled 2) (.cancelReq (2 ^ 63 + 9 * 2 ^ 40) 0 1 0 false))) := by
  obtain ⟨a, _⟩ := h (flying touching (.wake (2 ^ 13 + 0x1F13) (2 ^ 63 + 10 * 2 ^ 40) 2 7)) 3 (2 ^ 13 + 0x1F13) (2 ^ 63 + 10 * 2 ^ 40) 2 7 1 0x1F13 9 3 false 0 0
    (by decide) (by decide) (by decide) (by decide)
  obtain ⟨_, b, _⟩ := h (flying (small 0 0) (.cancelReq (2 ^ 63 + 10 * 2 ^ 40) 0 1 0 false)) 3 0 (2 ^ 63 + 10 * 2 ^ 40) 2 7 1 0 9 3 false 0 0
    (by decide) (by decide) (by decide) (by decide)
  obtain ⟨_, c, _⟩ := h (flying (scheduled 2) (.cancelReq (2 ^ 63 + 9 * 2 ^ 40) 0 1 0 false)) 3 0 (2 ^ 63 + 9 * 2 ^ 40) 2 7 1 0 9 3 false 0 0
    (by decide) (by decide) (by decide) (by decide)
  have none_ (s : State) (f : Flight) (e : ∀ a b x (r : TaskRec), f ≠ .record a b x r) (h : Nat) :
      ∀ g ∈ (flying s f).flights, ∀ a b x (r : TaskRec), g.2 = .record a b x r → r.handle ≠ h := by
    intro g hg a b x r hr
    simp [flying] at hg
    subst hg
    exact absurd hr (e a b x r)
  exact ⟨goes_of_completes (((a rfl (by decide +kernel) (by decide)).2.2 (by decide +kernel) (by decide +kernel) rfl |>.2 6 (small 0 0).cur
      (.inr (by decide)) (by decide) (by decide +kernel) (by decide +kernel) rfl rfl).1 rfl (by decide)),
    goes_of_eq ((b rfl (none_ _ _ (by simp) _)).1 (by decide +kernel)),
    goes_of_ex (((c rfl (none_ _ _ (by simp) _)).2 (by decide +kernel) (by decide +kernel)).1 (.inr (by decide +kernel)))⟩

/-- An accumulate of FP32 lanes from context 3 to the line at 0x10040. -/
def accumulate (mask : Nat) : Accum :=
  { part := 0, va := 0x10040, kind := 0, ks := 0, data := List.replicate 64 0, mask := mask, back := .count 9 3 .at_ 0x1000 5, core := 9, ctx := 3, task := 0 }

theorem witness_AccumulateEvents (h : Obligations.AccumulateEvents) :
    Goes (exec (.accumulateArrival 3) (flying (paged (small 0 0)) (.accum (accumulate 1)))) ∧
    Goes (exec (.flushAccumulate 3) (flying (paged (small 0 0)) (.flush (accumulate 1)))) ∧
    Goes (exec (.refusalReturn 3) (flying ((small 0 0).setCnt .at_ 1) (.refusal (accumulate 1)))) := by
  obtain ⟨_, a, _⟩ := h (flying (paged (small 0 0)) (.accum (accumulate 1))) 3 0 (accumulate 1) pageEnt
  obtain ⟨_, _, b, _⟩ := h (flying (paged (small 0 0)) (.flush (accumulate 1))) 3 0 (accumulate 1) pageEnt
  obtain ⟨_, _, _, c⟩ := h (flying ((small 0 0).setCnt .at_ 1) (.refusal (accumulate 1))) 3 0 (accumulate 1) pageEnt
  exact ⟨goes_of_ex (((a rfl (by decide +kernel) rfl rfl (by decide +kernel) rfl).2.2 (by decide) (by decide)).2.2 (by decide +kernel) (by decide +kernel)
      (by decide +kernel)),
    goes_of_ex ((b rfl (by decide +kernel) (by decide +kernel) rfl).1 (by decide) (by decide +kernel)),
    goes_of_reaches (c 3 0x1000 5 rfl rfl (by decide +kernel) (by decide) (by decide) (by decide) (by decide) (by decide) (by decide) (by decide) (by decide) rfl rfl rfl
      (by decide +kernel) (by decide +kernel) (calm_of_listed (by decide +kernel) _) (by decide +kernel))⟩

/-- A command of context 3 of core 9, which has one and whose counters stand at one. -/
def command (op : CmdOp) : Cmd :=
  { id := 4, core := 9, ctx := 3, pc := 0x1000, part := 0, pri := 0, since := 0, cw := .none, bytes := 0, fmt := .reset, op := op, owner := .ctx, todo := [],
    failed := none, dmask := 0, wake := none, shelves := [], held := [] }
def commanded (op : CmdOp) : State := (small 0 0).setCore 9 { (small 0 0).core 9 with matQ := [command op], copyQ := [command op] }

theorem witness_MatrixUnitEvents (h : Claims.MatrixUnitEvents) :
    let e : WedgeEnt := { key := [1], members := [], opened := 0, hold := 256, urgent := some 224, released := none }
    let open_ : State := { (small 0 0).setCluster 1 { (small 0 0).cluster 1 with wedge := [e] } with clock := 256 }
    Goes (exec (.commandStart 9 .matrix) (commanded (.mfmt true 0 1 1 0 0 0 0))) ∧ Goes (exec (.commandStart 9 .matrix) (commanded (.mfree 0 1 2))) ∧
    Goes (exec (.commandStart 9 .matrix) (commanded (.mzero 0 127 0))) ∧ Goes (exec (.arbiterPick 1) (commanded (.mfree 0 0 0))) ∧
    Goes (exec (.wedgeHoldExpiry 1 0) open_) ∧ Goes (exec (.wedgePriorityRelease 1 0) open_) := by
  intro e open_
  have calm (op : CmdOp) : (commanded op).calm 1 := calm_of_listed (by
    intro c hc x hx
    simp only [commanded, State.setCore, Tbl.set] at hc
    have n : (small 0 0).cores = [] := by decide +kernel
    have k : ((small 0 0).core 9).ctxs = [] := by decide +kernel
    simp only [n, List.filter_nil, List.nil_append, List.append_nil] at hc
    split at hc
    · simp at hc
    · simp only [List.mem_singleton] at hc
      subst hc
      simp [k] at hx) 1
  have d (op : CmdOp) := (h (commanded op) 1 1 (command op) [] (by decide) (by decide) (calm op)).1
  obtain ⟨a, _⟩ := d (.mfmt true 0 1 1 0 0 0 0) (by decide +kernel) (by decide +kernel) rfl
  obtain ⟨_, _, b, _⟩ := d (.mfree 0 1 2) (by decide +kernel) (by decide +kernel) rfl
  obtain ⟨_, _, _, c, _⟩ := d (.mzero 0 127 0) (by decide +kernel) (by decide +kernel) rfl
  obtain ⟨_, _, _, _, _, p⟩ := d (.mfree 0 0 0) (by decide +kernel) (by decide +kernel) rfl
  have w := ((h open_ 1 1 (command (.mfree 0 0 0)) [] (by decide) (by decide) (calm_of_listed (by decide +kernel) 1)).2 0 e (by decide +kernel)).2 rfl
  exact ⟨goes_of_eq (a true 0 1 1 0 0 0 0 rfl), goes_of_ex (b 0 1 2 rfl),
    goes_of_ex (c 0 127 0 rfl (by decide) (by decide) (fun j => by
      show (Tbl.get RowGroup.reset ((commanded (.mzero 0 127 0)).cluster 1).groups j).k ≤ 64
      rw [(by decide +kernel : ((commanded (.mzero 0 127 0)).cluster 1).groups = [])]
      show RowGroup.reset.k ≤ 64; decide)),
    goes_of_eq ((p (by decide +kernel)).1 (by decide +kernel)), goes_of_eq (w.1 (by decide +kernel)), goes_of_eq ((w.2.2.2 224 rfl).1 (by decide +kernel))⟩

theorem witness_CommandEvents (h : Claims.CommandEvents) :
    let op : CmdOp := .tfill 0 0x2000 0 64
    let w : EngWrite := { cmd := 4, part := 0, va := nearLoc 1 8 0x2000, dest := 0, bytes := [1], bad := [], loose := [] }
    let put : State := { flying (small 0 0) (.engWrite w) with running := [(4, command op)] }
    let done : State := { (small 0 0).setCnt .cp 1 with running := [(4, command op)] }
    Goes (exec (.commandStart 9 .copy) ((small 0 0).setCore 9 { (small 0 0).core 9 with copyQ := [command op] })) ∧
    Goes (exec (.engineWriteAcknowledgement 3) put) ∧ Goes (exec (.commandCompletion 4) done) := by
  intro op w put done
  obtain ⟨a, _⟩ := h ((small 0 0).setCore 9 { (small 0 0).core 9 with copyQ := [command op] }) 4 3 9 (command op) [] w
  obtain ⟨_, b, _⟩ := h put 4 3 9 (command op) [] w
  obtain ⟨_, _, c⟩ := h done 4 3 9 (command op) [] w
  have ⟨x, y, e, _⟩ := ((a (by decide +kernel) (calm_of_listed (by decide +kernel) _)).2 (by decide +kernel)).1 0 0x2000 0 64 rfl
  exact ⟨goes_of_eq e,
    goes_of_ex ((b rfl rfl rfl rfl rfl (calm_of_listed (by decide +kernel) _) (by decide) (by decide) (by decide)).2.1 (by decide +kernel) (by decide +kernel)
      (by decide) rfl (by decide +kernel)),
    goes_of_reaches (((c rfl rfl rfl (calm_of_listed (by decide +kernel) _)).2.1 (by decide +kernel) rfl (by decide +kernel)).2.1 rfl rfl |>.1 rfl)⟩

theorem witness_ShelfEvents (h : Obligations.ShelfEvents) :
    let o : OpenShelf := { part := 0, rb := 2, first := 0, rows := [], dock := 1 }
    let x : Shelf := { seq := 0, src := 8, part := 0, ddie := 0, rb := 2, rows := [], dock := 1, crc := 5 }
    let timed (n : Nat) : State := { (small 0 0).setCluster 1 { (small 0 0).cluster 1 with shelves := [(2, o)] } with clock := n }
    Goes (exec (.shelfTimer 1 2) (timed 2001)) ∧ Goes (exec (.shelfTimer 1 2) (timed 2000)) ∧ Goes (exec (.shelfArrival 3) (flying (small 0 0) (.shelf x))) := by
  intro o x timed
  have ⟨a, _⟩ := h (timed 2001) 3 1 2 o x
  have ⟨b, _⟩ := h (timed 2000) 3 1 2 o x
  have ⟨_, _, c⟩ := h (flying (small 0 0) (.shelf x)) 3 1 2 o x
  have ⟨_, e, _⟩ := (a (by decide +kernel)).2 (by decide +kernel) (by decide +kernel)
  exact ⟨goes_of_eq e, goes_of_eq ((b (by decide +kernel)).1 (by decide +kernel)),
    goes_of_eq ((c rfl (by decide +kernel) rfl (by decide)).2.1 (by decide +kernel) (by decide +kernel))⟩

theorem witness_SweeperRule (h : Obligations.SweeperRule) :
    let s : State := { (small 0 0).setDie 0 { Die.reset with fsRate := 1, fsBase := 0x3000 } with clock := 1 }
    let t := (s.wr 0x3000 (bytesOf 8 (0x4000 + 1))).wr 0x4000 (bytesOf 8 0x43)
    Goes (exec (.sweeperRecord 0) (small 0 0)) ∧ Goes (exec (.sweeperRecord 0) s) ∧ Goes (exec (.sweeperRecord 0) t) := by
  intro s t
  exact ⟨goes_of_eq ((h (small 0 0) 0).1 (by decide +kernel)), goes_of_eq ((h s 0).2.1 (by decide +kernel) (by decide +kernel)),
    goes_of_reaches ((h t 0).2.2.1 (by decide +kernel) (by decide +kernel) (by decide +kernel))⟩

/-- Queue 0 of partition 0, a privileged queue of die 0 with eight slots and one packet, whose words these are. -/
def descriptor : List Byte := bytesOf 8 0x10400 ++ bytesOf 8 (2 ^ 35 + 2 ^ 34 + 8) ++ bytesOf 8 1 ++ bytesOf 8 0 ++ List.replicate 32 0
def packet (w0 w1 w2 w3 : Nat) : List Byte := bytesOf 8 w0 ++ bytesOf 8 w1 ++ bytesOf 8 w2 ++ bytesOf 8 w3 ++ List.replicate 32 0
/-- The page at 0x10000 maps to frame 0, past L2, in the TLBs of the slices that the descriptor and the packet live in. -/
def queued (w0 w1 w2 w3 : Nat) : State :=
  let s := small 0 0
  let t : State := { s with
    parts := [(0, { Part.reset with status := .running, clusters := [1], supv := 9, cqBase := 0x10000 }), (1, { Part.reset with status := .stopped, clusters := [5] })],
    tlb := [0x10000, 0x10400].map fun va => { slice := s.home 0 va, part := 0, vbase := 0x10000, size := 0, pte := 0x1F3, pteLoc := 0x700000 },
    queues := [(0, { QState.reset with write := 1 })] }
  (t.wr 0 descriptor).wr 0x400 (packet w0 w1 w2 w3)

theorem witness_QueuePackets (h : Claims.QueuePackets) :
    Goes (exec (.packetNop 0 0) (queued 0 0 0 0)) ∧ Goes (exec (.packetNop 0 0) (queued 0x200 0 0 0)) ∧ Goes (exec (.packetFence 0 0) (queued 0 0 0 0)) := by
  obtain ⟨a, b, _⟩ := h (queued 0 0 0 0) (queued 0 0 0 0) (queued 0 0 0 0) 0 0 descriptor (packet 0 0 0 0) (by decide +kernel) (by decide +kernel)
    (by decide +kernel) (by decide +kernel) (by decide +kernel) (by decide +kernel) (by decide +kernel) rfl rfl rfl rfl
  obtain ⟨c, _⟩ := h (queued 0x200 0 0 0) (queued 0x200 0 0 0) (queued 0x200 0 0 0) 0 0 descriptor (packet 0x200 0 0 0) (by decide +kernel) (by decide +kernel)
    (by decide +kernel) (by decide +kernel) (by decide +kernel) (by decide +kernel) (by decide +kernel) rfl rfl rfl rfl
  exact ⟨goes_of_eq ((b (by decide +kernel) (by decide +kernel)).1 (by decide +kernel)),
    goes_of_eq (((c (0x00, .packetNop 0 0) (by simp)).2 (by decide +kernel) (by decide +kernel)).1 (by decide +kernel)),
    goes_of_eq ((a (0x07, .packetFence 0 0) (by simp)).1 (.inl (by decide +kernel)))⟩

theorem witness_QueueAttention (h : Claims.QueueAttention) :
    Goes (exec (.svcDoorbell 0 0x400) (small 0 0)) ∧ Goes (exec (.svcDoorbell 0 0) (queued 0 0 0 0)) ∧ Goes (exec (.svcDoorbell 1 0) (queued 0 0 0 0)) := by
  obtain ⟨a, _⟩ := h (small 0 0) (small 0 0) 0 0 0 0x400 []
  obtain ⟨_, b⟩ := h (queued 0 0 0 0) (queued 0 0 0 0) 0 0 0 0 descriptor
  obtain ⟨_, c⟩ := h (queued 0 0 0 0) (queued 0 0 0 0) 0 0 1 0 descriptor
  obtain ⟨t, e, _⟩ := ((b (by decide +kernel) rfl).1 (by decide) (by decide) (by decide)).2 (by decide +kernel)
  exact ⟨goes_of_eq (a (by decide)), goes_of_eq e, goes_of_eq (((c (by decide +kernel) rfl).1 (by decide) (by decide) (by decide)).1 (by decide +kernel))⟩

theorem witness_PrivilegedPackets (h : Obligations.PrivilegedPackets) :
    Goes (exec (.barAssign 0 0) (queued 0x14 0 7 0)) ∧ Goes (exec (.ctxStart 0 0) (queued 0x16 0 0x1002 0)) := by
  obtain ⟨_, a, _⟩ := h (queued 0x14 0 7 0) (queued 0x14 0 7 0) 0 0 0x10400 (qdescOf descriptor) [0x14, 0, 7, 0, 0, 0, 0, 0] (by decide +kernel) (by decide +kernel)
    (by decide +kernel) (by decide +kernel)
  obtain ⟨_, _, _, b⟩ := h (queued 0x16 0 0x1002 0) (queued 0x16 0 0x1002 0) 0 0 0x10400 (qdescOf descriptor) [0x16, 0, 0x1002, 0, 0, 0, 0, 0] (by decide +kernel)
    (by decide +kernel) (by decide +kernel) (by decide +kernel)
  exact ⟨goes_of_eq ((a rfl).1 rfl), goes_of_eq ((b rfl).1 (fun m => absurd m.2.1 (by decide)))⟩

theorem witness_PartitionPackets (h : Claims.PartitionPackets) :
    Goes (exec (.partStop 0 0) (queued 0x11 1 0 0)) ∧ Goes (exec (.partStart 0 0) (queued 0x12 1 0 0)) ∧ Goes (exec (.partReset 0 0) (queued 0x13 1 0 0)) := by
  have d (w0 : Nat) := h (queued w0 1 0 0) (queued w0 1 0 0) 0 0 0x10400 (qdescOf descriptor) [w0, 1, 0, 0, 0, 0, 0, 0]
  obtain ⟨a, _⟩ := d 0x11 (by decide +kernel) (by decide +kernel) (by decide +kernel) (by decide +kernel)
  obtain ⟨_, b, _⟩ := d 0x12 (by decide +kernel) (by decide +kernel) (by decide +kernel) (by decide +kernel)
  obtain ⟨_, _, c⟩ := d 0x13 (by decide +kernel) (by decide +kernel) (by decide +kernel) (by decide +kernel)
  exact ⟨goes_of_eq ((a rfl).1 (by decide +kernel)), goes_of_eq ((b rfl).2.1 (by decide +kernel) (by decide +kernel) (by decide +kernel)),
    goes_of_eq ((c rfl).2.1 (by decide +kernel) (by decide +kernel))⟩

/-- Partition 1 runs on cluster 5, partition 2 is stopped. -/
def sliced : State :=
  { small 0 0 with parts := [(1, { Part.reset with status := .running, clusters := [5] }), (2, { Part.reset with status := .stopped, clusters := [5] })] }

theorem witness_TimeSlices (h : Claims.TimeSlices) : Goes (exec (.timeSliceExpiry 1 2 0) sliced) ∧ Goes (exec (.timeSliceExpiry 0 2 0) sliced) :=
  ⟨goes_of_eq (((h sliced 1 2 0).2.1 (by decide) (by decide) (by decide +kernel)).2.1 (.inl (by decide +kernel)) (by decide +kernel)).1,
   goes_of_eq ((h sliced 0 2 0).1 (.inl rfl))⟩

/-- Walker 0 of die 0 at the node at 0x10400, a node of zeros, END, when `mapped`. -/
def walker : Walker := { part := 0, q := 0, base := 0x10400, node := 0, join := 0, done := 0, failed := 0, st := .at_ }
def walking (s : State) : State := s.setDie 0 { s.die 0 with walkers := [(0, walker)] }

theorem witness_GraphNodes (h : Obligations.GraphNodes) :
    Goes (exec (.graphEnd 0 0) (walking (small 0 0))) ∧ Goes (exec (.graphEnd 0 0) (walking (queued 0 0 0 0))) := by
  obtain ⟨_, a⟩ := h (walking (small 0 0)) (walking (small 0 0)) 0 0 walker [] (by decide +kernel) (by decide)
  obtain ⟨_, b⟩ := h (walking (queued 0 0 0 0)) (walking (queued 0 0 0 0)) 0 0 walker (packet 0 0 0 0) (by decide +kernel) (by decide)
  have a := (a rfl (by decide +kernel) (by decide +kernel)).1 0x090
  have b := ((b rfl (by decide +kernel) (by decide +kernel)).2 (by decide +kernel) rfl rfl rfl).2
    ⟨by decide +kernel, by decide +kernel, by decide +kernel, by decide +kernel, by decide +kernel, by decide +kernel, by decide +kernel,
     fun e => absurd (by decide +kernel) e, fun e => absurd e (by decide +kernel)⟩
  exact ⟨goes_of_eq (a 1 (by decide +kernel)), goes_of_eq ((b.2.2.1 (by decide +kernel)).2 (by decide +kernel) (by decide +kernel) |>.1 rfl)⟩

/-- The root's future that the wake at core 9 makes. -/
def rooted : State × Nat :=
  match (flying (small 0 0) (.kwake { sender := 0, launch := 7, part := 0, pc := 0x1000, arg := 0, set := 8 + 2 * 2 ^ 12 + 2 ^ 25, left := [8] })).futNew 9 0
    (2 ^ 63 + 1 * 2 ^ 13) 0 true with
  | .ok x => x
  | .error _ => (small 0 0, 0)

theorem witness_LaunchEvents (h : Obligations.LaunchEvents) :
    let wake (part : Nat) : KWake := { sender := 0, launch := 7, part := part, pc := 0x1000, arg := 0, set := 8 + 2 * 2 ^ 12 + 2 ^ 25, left := [8, 9] }
    Goes (exec (.launchWake 3 9) (flying (small 0 0) (.kwake (wake 0)))) ∧ Goes (exec (.launchWake 3 9) (flying (small 0 0) (.kwake (wake 5)))) ∧
    Goes (exec (.launchWake 3 10) (flying (small 0 0) (.kwake (wake 0)))) ∧ Goes (exec (.rootReport 3) (flying (small 0 0) (.report 7 true))) := by
  intro wake
  have d (part core : Nat) := (h (flying (small 0 0) (.kwake (wake part))) 3 core).1 (wake part) [] [] rfl (by simp) (by simp)
  obtain ⟨_, _, _, a⟩ := d 0 9
  obtain ⟨_, b, _⟩ := d 5 9
  obtain ⟨c, _⟩ := d 0 10
  have e := (h (flying (small 0 0) (.report 7 true)) 3 9).2.2.1 7 true rfl rfl
  obtain ⟨_, a⟩ := a ⟨by decide, by simp⟩ (by decide +kernel) (by decide +kernel)
  exact ⟨goes_of_eq (a rooted.1 rooted.2 (by decide +kernel)), goes_of_eq (b ⟨by decide, by simp⟩ (.inr (by decide +kernel))),
    goes_of_eq (c (fun m => absurd m.1 (by decide))), goes_of_eq e⟩

theorem witness_ControlPorts (h : Obligations.ControlPorts) :
    let s : State := { small 0 0 with booted := true }
    Goes (exec (.controlPortRead 0 0 (.global 0) 0x2000 8) s) ∧ Goes (exec (.controlPortRead 0 0 (.global 5) 0x2000 8) s) ∧
    Goes (exec (.controlPortRead 0 0 .svc 0 8) s) ∧ Goes (exec (.controlPortRead 0 0 .svc 0 8) (small 0 0)) ∧ Goes (exec (.controlPortFailure 0) s) := by
  intro s
  obtain ⟨_, _, _, a, _, b, _, _, c⟩ := h s 0 0 0 0x2000 8 []
  obtain ⟨_, d, _⟩ := h s 0 0 5 0x2000 8 []
  obtain ⟨_, _, _, _, _, f, _⟩ := h s 0 0 0 0 8 []
  obtain ⟨e, _⟩ := h (small 0 0) 0 0 0 0 8 []
  have idle : s.flights = [] := by decide +kernel
  have quiet : ∀ f ∈ s.flights, ∀ p r, f.2.backOf.1 ≠ .host p 0 r := fun f m => by rw [idle] at m; cases m
  have ready : s.booted = true ∧ 0 < 2 ∧ 0 ∉ s.deadPorts := by decide +kernel
  obtain ⟨_, g, _⟩ := f ⟨ready.1, ready.2.1, ready.2.2, by decide, by decide, quiet⟩
  exact ⟨goes_of_eq ((a (by decide +kernel) (by decide)).1 ⟨ready.1, ready.2.1, ready.2.2, by decide, by decide, quiet⟩),
    goes_of_eq (((d (by decide +kernel) 8).1).1 ⟨ready.1, ready.2.1, ready.2.2, by decide, by decide, quiet⟩ rfl),
    goes_of_eq g, goes_of_eq ((e .svc).1 (fun m => absurd m.1 (by decide +kernel))), goes_of_eq (c (by decide) (by decide))⟩

/-- A package that refires an image since clock 0. -/
def refiring (n : Nat) : State :=
  { small 0 0 with
    booted := true, clock := n, refire := some { image := { svn := 1, commit := false, stateMin := 0, stateVer := 1, bytes := [] }, since := 0 },
    queues := [(0, { QState.reset with begun := true })] }

theorem witness_FirmwareEvents (h : Obligations.FirmwareEvents) :
    Goes (exec .powerGood (small 0 0)) ∧ Goes (exec (.svcRefire 0 0x1001) { small 0 0 with booted := true }) ∧
    Goes (exec .refireTakeover { refiring 0 with queues := [] }) ∧ Goes (exec .refireAbort (refiring 8000001)) ∧ Goes (exec .refireAbort (refiring 8000000)) ∧
    Goes (exec .kilnFailover (refiring 0)) := by
  obtain ⟨_, a, _⟩ := h (small 0 0) 0 0
  obtain ⟨_, _, _, b, _⟩ := h { small 0 0 with booted := true } 0 0x1001
  obtain ⟨_, _, _, _, _, _, c, _⟩ := h { refiring 0 with queues := [] } 0 0
  obtain ⟨_, _, _, _, _, _, d, _⟩ := h (refiring 8000001) 0 0
  obtain ⟨_, _, _, _, _, _, e, _⟩ := h (refiring 8000000) 0 0
  obtain ⟨_, _, _, _, _, _, _, _, f⟩ := h (refiring 0) 0 0
  have idle : ({ refiring 0 with queues := [] } : State).dies = [] := by decide +kernel
  have none_ : ∀ d ∈ ({ refiring 0 with queues := [] } : State).dies, False := by rw [idle]; simp
  exact ⟨goes_of_ex (a rfl), goes_of_eq (b rfl rfl (.inl (by decide))), goes_of_ex ((c _ rfl).2.1 ⟨by decide +kernel, fun d m => (none_ d m).elim, by decide +kernel⟩),
    goes_of_eq ((d _ rfl).2.2.2 (fun m => absurd (m.1 (0, { QState.reset with begun := true }) (List.mem_singleton.2 rfl)) (by decide)) (by decide +kernel) (by decide +kernel)), goes_of_eq ((e _ rfl).2.2.1 (.inr (.inr (by decide +kernel)))),
    goes_of_ex (f _ rfl rfl)⟩

theorem witness_PlatformLimits (h : Obligations.PlatformLimits) :
    Goes (exec (.svcAttest 47 [1]) { small 0 0 with booted := true }) ∧ Goes (exec .attestQuoteReady { small 0 0 with quoting := true }) ∧
    Goes (exec (.powerLimit 5000000) { small 0 0 with booted := true }) ∧
    Goes (exec (.thermalStop 0) ((small 0 0).setDie 0 { Die.reset with temp := 1681 })) := by
  obtain ⟨_, a, _⟩ := h { small 0 0 with booted := true } 47 5000000 0 [1]
  obtain ⟨_, _, _, _, b, _⟩ := h { small 0 0 with quoting := true } 0 0 0 []
  obtain ⟨_, _, _, _, _, _, c, _⟩ := h { small 0 0 with booted := true } 47 5000000 0 [1]
  obtain ⟨_, _, _, _, _, _, _, _, _, d⟩ := h ((small 0 0).setDie 0 { Die.reset with temp := 1681 }) 0 0 0 []
  obtain ⟨_, e, _⟩ := b rfl
  obtain ⟨_, _, f, _⟩ := c rfl (by decide)
  obtain ⟨_, g, _⟩ := (d 0 (by decide +kernel) (by decide +kernel) (by decide +kernel)).1 (by decide +kernel)
  exact ⟨goes_of_eq (a rfl (by decide) (by decide)), goes_of_eq e, goes_of_eq (f (by decide)), goes_of_eq g⟩

/-- Port 0 has gone 2,001 clocks without its lanes locked, and 2,000. -/
def unlocked (n : Nat) : State := { small 0 0 with booted := true, clock := n, ports := [(0, { Port.reset with unlocked := some 0 })] }

theorem witness_LinkEvents (h : Claims.LinkEvents) :
    Goes (exec (.linkDead 0) (unlocked 2001)) ∧ Goes (exec (.linkDead 0) (unlocked 2000)) ∧
    Goes (exec (.linkStateUpdate 0 (2 ^ 32 + 2 ^ 12)) (unlocked 0)) ∧ Goes (exec (.linkStateUpdate 0 (2 ^ 12)) (unlocked 0)) ∧
    Goes (exec (.drainRoundEnd 7) { small 0 0 with drains := [{ dest := 7, round := 1, ends := 0, left := [] }] }) := by
  obtain ⟨_, a, _⟩ := h (unlocked 2001) 0 0 0
  obtain ⟨b, _⟩ := h (unlocked 2000) 0 0 0
  obtain ⟨_, _, _, _, _, c, _⟩ := h (unlocked 0) 0 (2 ^ 32 + 2 ^ 12) 0
  obtain ⟨_, _, _, _, d, _⟩ := h (unlocked 0) 0 (2 ^ 12) 0
  obtain ⟨_, _, _, _, _, _, _, e⟩ := h { small 0 0 with drains := [{ dest := 7, round := 1, ends := 0, left := [] }] } 0 0 7
  refine ⟨goes_of_eq (a (by decide) rfl rfl (.inr ⟨0, rfl, by decide⟩)), goes_of_eq (b (.inr (.inr (.inr ?_)))), goes_of_eq (c (by decide +kernel)),
    goes_of_eq (d (by decide +kernel)), goes_of_eq ((e _ rfl).1 rfl)⟩
  rintro (k | ⟨x, e, l⟩)
  · exact absurd k (by decide +kernel)
  · cases (by rfl : (Tbl.get Port.reset (unlocked 2000).ports 0).unlocked = some 0).symm.trans e
    exact absurd l (by decide)

theorem witness_RouteRecomputation (h : Obligations.RouteRecomputation) :
    Goes (exec .routeRecomputation { small 0 0 with recompute := true }) ∧ Goes (exec .routeRecomputation (small 0 0)) :=
  ⟨goes_of_ex ((h { small 0 0 with recompute := true }).2 rfl rfl (by decide)), goes_of_eq ((h (small 0 0)).1 (.inl rfl))⟩

theorem witness_ClusterFence (h : Claims.ClusterFence) :
    Goes (exec (.clusterFence 511) { small 0 0 with booted := true }) ∧ Goes (exec (.clusterFence 512) { small 0 0 with booted := true }) :=
  ⟨goes_of_ex ((h { small 0 0 with booted := true } 511).2 (by decide) rfl (by decide +kernel)),
   goes_of_eq ((h { small 0 0 with booted := true } 512).1 (.inl (by decide)))⟩

theorem witness_DecodeOfEncode (h : Obligations.DecodeOfEncode) : decodeWords (encode (.add 9 4 5) ++ [7]) = .ok (.add 9 4 5, (encode (.add 9 4 5)).length) :=
  h (.add 9 4 5) [7] rfl rfl

theorem witness_EncodeOfDecode (h : Obligations.EncodeOfDecode) : encode (.add 9 4 5) = [0x00144241] :=
  (h [0x00144241] (.add 9 4 5) 1 (by decide) (by decide +kernel)).2.2.2.2

/-- The first step from reset with an ADD issued to the core of `small`, whose state has the form. -/
theorem witness_StepKeepsForm (h : Obligations.StepKeepsForm) :
    ∃ t, step { ahead (small 0 0) [(0x1000, 0x00B15981)] with agenda := [.issue 9] } = .next t ∧ t.Ok := by
  have k : (match step { ahead (small 0 0) [(0x1000, 0x00B15981)] with agenda := [.issue 9] } with | .next _ => true | _ => false) = true := by decide +kernel
  cases e : step { ahead (small 0 0) [(0x1000, 0x00B15981)] with agenda := [.issue 9] } with
  | next t => exact ⟨t, rfl, h _ t ⟨by decide +kernel, by decide +kernel⟩ e⟩
  | fault _ => rw [e] at k; cases k
  | refused _ => rw [e] at k; cases k

theorem witness_InvalidationCompletes (h : Obligations.InvalidationCompletes) : Goes (exec (.xlInv 3) (flying (paged (small 0 0)) (.xlInv 0x800 .device))) := by
  refine goes_of_ex ((h (flying (paged (small 0 0)) (.xlInv 0x800 .device)) 3 0x800 .device rfl rfl (.inr rfl)).2 ?_ (fun _ => by decide +kernel))
  rintro ⟨f, hf, r, pa, uc, slice, e, _⟩
  simp only [flying, List.mem_singleton] at hf
  subst hf
  cases e

/-- 3, which fp32 holds exactly, and 2^200, which it does not reach. -/
theorem witness_RoundingIsCorrect (h : Claims.RoundingIsCorrect) :
    ∃ c, c ≤ fp32.maxCode ∧ (fp32.round false .rne false 3 0 false).1 = fp32.signBit false + c := by
  obtain ⟨c, a, b, _⟩ := h fp32 (by simp) false false .rne 3 0 (by decide) (by decide +kernel)
  exact ⟨c, a, b⟩

theorem witness_OverflowRule (h : Claims.OverflowRule) : (fp32.round false .rne false 1 200 false).2.nx = true :=
  (h fp32 (by simp) false false .rne 1 200 (by decide) (by decide +kernel)).1

theorem witness_WideningIsExact (h : Claims.WideningIsExact) : widen (e4m3.decode 0x7F) = 0x7FC00000 := by
  have w := h.2 (e4m3, 8) (by simp) 0x7F (by decide)
  rwa [if_pos (by decide +kernel)] at w

end
end

/-! # Every step keeps the form of memory and of the L2 (O58)

The form (`State.Ok`) speaks of two fields: the page table of `Memory` and the dirty bytes of the L2. The model changes
the first by `Memory.write` and filters alone and the second by `overlay` and filters alone; that these keep the form
is proved beside them. What is left is that every function of the model that answers a state answers one that has the
form when the state it was given has it: one lemma per function, in the order of the model's files, whose proof follows
the function's own composition and branches. -/

namespace Sys2Proof.Machine

/-- What a step answers has the form, where it is a next state. -/
def NextOk : Host.Outcome State Fault Refusal → Prop
  | .next t => t.Ok
  | _ => True

/-- What an option holds, if anything, has a property. -/
def SomeOk {α : Type} (p : α → Prop) : Option α → Prop
  | some a => p a
  | none => True

/-- What a computation answers has a property, and so has what it fails with. -/
def ResultOk {ε α : Type} (q : ε → Prop) (p : α → Prop) : Except ε α → Prop
  | .ok a => p a
  | .error e => q e

/-- The state that a read leaves has the form, where it answers bytes. -/
def Got.Ok : Got → Prop
  | .got t _ _ => t.Ok
  | _ => True

/-- The state that reading operand rows leaves has the form, where it answers them. -/
def OpGot.Ok : OpGot → Prop
  | .got t _ => t.Ok
  | _ => True

/-- The state that looking at a queue's head leaves has the form. -/
def Head.Ok : Head → Prop
  | .bad t _ _ => t.Ok
  | .pkt t _ _ _ => t.Ok
  | .none => True

/-! ### Using and building the predicates -/

section
variable {s t : State}

theorem NextOk.next {o : Host.Outcome State Fault Refusal} (ok : NextOk o) (e : o = .next t) : t.Ok := by
  subst e; exact ok

theorem SomeOk.some {α : Type} {p : α → Prop} {o : Option α} {a : α} (ok : SomeOk p o) (e : o = .some a) : p a := by
  subst e; exact ok

theorem ResultOk.ok {ε α : Type} {q : ε → Prop} {p : α → Prop} {r : Except ε α} {a : α} (ok : ResultOk q p r)
    (e : r = .ok a) : p a := by
  subst e; exact ok

theorem ResultOk.error {ε α : Type} {q : ε → Prop} {p : α → Prop} {r : Except ε α} {a : ε} (ok : ResultOk q p r)
    (e : r = .error a) : q a := by
  subst e; exact ok

theorem ResultOk.pure {ε α : Type} {q : ε → Prop} {p : α → Prop} {a : α} (ha : p a) : ResultOk q p (.ok a) := ha

theorem ResultOk.ite {ε α : Type} {q : ε → Prop} {p : α → Prop} {c : Prop} [Decidable c] {r r' : Except ε α}
    (h : ResultOk q p r) (h' : ResultOk q p r') : ResultOk q p (if c then r else r') := by
  split
  · exact h
  · exact h'

theorem ResultOk.map {ε α β : Type} {q : ε → Prop} {p : α → Prop} {p' : β → Prop} {r : Except ε α} {f : α → β}
    (h : ResultOk q p r) (hf : ∀ a, p a → p' (f a)) : ResultOk q p' (r.map f) := by
  cases r with
  | ok a => exact hf a h
  | error e => exact h

theorem ResultOk.mapError {ε ε' α : Type} {q : ε → Prop} {p : α → Prop} {r : Except ε α} {f : ε → ε'}
    (h : ResultOk q p r) : ResultOk (fun _ => True) p (r.mapError f) := by
  cases r with
  | ok a => exact h
  | error e => trivial

theorem ResultOk.foldlM {ε α β : Type} {q : ε → Prop} {p : β → Prop} {f : β → α → Except ε β} {xs : List α}
    {b : β} (hb : p b)
    (hf : ∀ b, p b → ∀ x, ResultOk q p (f b x)) : ResultOk q p (xs.foldlM f b) := by
  induction xs generalizing b with
  | nil => exact hb
  | cons x xs ih =>
    rw [List.foldlM_cons]
    have h := hf b hb x
    cases hx : f b x with
    | ok a => exact ih (h.ok hx)
    | error e => exact h.error hx

theorem ResultOk.foldl {ε α β : Type} {q : ε → Prop} {p : β → Prop} {f : Except ε β → α → Except ε β} {xs : List α}
    {b : β} (hb : p b) (hf : ∀ r, ResultOk q p r → ∀ x, ResultOk q p (f r x)) : ResultOk q p (xs.foldl f (.ok b)) :=
  List.foldlRecOn xs f hb fun r hr x _ => hf r hr x

theorem SomeOk.bind {α β : Type} {p : α → Prop} {p' : β → Prop} {o : Option α} {f : α → Option β} (ho : SomeOk p o)
    (hf : ∀ a, p a → SomeOk p' (f a)) : SomeOk p' (o.bind f) := by
  cases o with
  | some a => exact hf a ho
  | none => trivial

theorem SomeOk.map {α β : Type} {p : β → Prop} {o : Option α} {f : α → β} (hf : ∀ a, p (f a)) :
    SomeOk p (o.map f) := by
  cases o with
  | some a => exact hf a
  | none => trivial

theorem SomeOk.getD {o : Option State} {s : State} (ho : SomeOk State.Ok o) (ok : s.Ok) : (o.getD s).Ok := by
  cases o with
  | some t => exact ho
  | none => exact ok

theorem Got.Ok.got {g : Got} {bs : List Byte} {bad : List Nat} (ok : g.Ok) (e : g = .got t bs bad) : t.Ok := by
  subst e; exact ok

theorem OpGot.Ok.got {g : OpGot} {vs : List OpVec} (ok : g.Ok) (e : g = .got t vs) : t.Ok := by
  subst e; exact ok

theorem Head.Ok.bad {g : Head} {a c : Nat} (ok : g.Ok) (e : g = .bad t a c) : t.Ok := by
  subst e; exact ok

theorem Head.Ok.pkt {g : Head} {a : Nat} {d : QDesc} {ws : List Nat} (ok : g.Ok) (e : g = .pkt t a d ws) : t.Ok := by
  subst e; exact ok

theorem State.Ok.fst {α : Type} {r : State × α} {x : α} (ok : r.1.Ok) (e : r = (t, x)) : t.Ok := by
  subst e; exact ok

/-- The form speaks of memory and the L2 alone: a change of any other field keeps it. -/
theorem State.Ok.same (ok : s.Ok) (hm : t.mem = s.mem) (hl : t.l2 = s.l2) : t.Ok :=
  ⟨hm ▸ ok.mem, hl ▸ ok.l2⟩

theorem State.Ok.ite {c : Prop} [Decidable c] (hs : s.Ok) (ht : t.Ok) : (if c then s else t).Ok := by
  split
  · exact hs
  · exact ht

theorem State.Ok.foldl {α : Type} {f : State → α → State} {xs : List α} (ok : s.Ok)
    (hf : ∀ t, t.Ok → ∀ x, (f t x).Ok) : (xs.foldl f s).Ok :=
  List.foldlRecOn xs f ok fun t ht x _ => hf t ht x

theorem State.Ok.snd {α : Type} {r : α × State} {x : α} (ok : r.2.Ok) (e : r = (x, t)) : t.Ok := by
  subst e; exact ok

theorem foldl_keeps {α β : Type} {p : β → Prop} {f : β → α → β} {xs : List α} {b : β} (hb : p b)
    (hf : ∀ b, p b → ∀ x, p (f b x)) : p (xs.foldl f b) :=
  List.foldlRecOn xs f hb fun b h x _ => hf b h x

theorem State.Ok.foldlFst {α β : Type} {f : State × β → α → State × β} {xs : List α} {r : State × β} (ok : r.1.Ok)
    (hf : ∀ r, r.1.Ok → ∀ x, (f r x).1.Ok) : (xs.foldl f r).1.Ok :=
  foldl_keeps (p := fun r : State × β => r.1.Ok) ok hf

/-! ### The functions that change memory or the L2 -/

theorem State.Ok.put (ok : s.Ok) {loc : Nat} {bs : List Byte} : (s.put loc bs).Ok :=
  ⟨Memory.wf_write loc bs ok.mem, ok.l2⟩
theorem State.Ok.gWr (ok : s.Ok) {part pa : Nat} {uc : Bool} {bs : List Byte} : (s.gWr part pa uc bs).Ok := by
  unfold State.gWr
  extract_lets t
  have ht : t.Ok := State.Ok.ite (ok.put.same rfl rfl) ⟨ok.mem, Memory.rising_overlay _ bs ok.l2⟩
  exact ht.same rfl rfl
theorem State.Ok.wr (ok : s.Ok) {loc : Nat} {bs : List Byte} : (s.wr loc bs).Ok := ok.put.same rfl rfl
theorem State.Ok.wrFree (ok : s.Ok) {loc n : Nat} : (s.wrFree loc n).Ok := ok.wr.same rfl rfl
theorem State.Ok.cacheWr (ok : s.Ok) {core ctx off : Nat} {bs : List Byte} : (s.cacheWr core ctx off bs).Ok :=
  ok.put.same rfl rfl
theorem State.Ok.writeBack (ok : s.Ok) {part pa : Nat} : (s.writeBack part pa).Ok :=
  ⟨Memory.wf_foldl_write _ _ _ ok.mem, risingKeys_filter _ _ ok.l2⟩
theorem State.Ok.wipe (ok : s.Ok) {cls : List Nat} : (s.wipe cls).Ok :=
  ⟨Memory.wf_filter _ ok.mem, ok.l2⟩
theorem State.Ok.scrub (ok : s.Ok) {part : Nat} : (s.scrub part).Ok :=
  ⟨ok.wipe.mem, risingKeys_filter _ _ ok.l2⟩
end

/-! ### One lemma per function of the model -/

section
variable {s : State}
variable {core part id cl ctx n v cause va q die rid addr off st h slot pc ea loc aux dest gen src port u bytes word
  code space p slice handle kind entry bank root fuel group align bBase rb len tok home : Nat}
variable {a d b gD : GReg} {c : Cmd} {bs : List Byte} {r : MemReq} {f : Flight} {rel tree : Bool} {k : Kont}
  {w : WaitSel} {op : MemOp}
variable {m : MReg} {lvl : Level} {x : Shelf} {cw : Completion} {clusters ws bad : List Nat} {e : FutEntry}
  {i : Instr} {obj : Fin 16}
variable {back : Back} {l : FutLoc} {seq : Option (Nat × Nat)} {lanes : List (Nat × Nat)} {bar : Nat → Option Nat}
  {row0 : Fin 128}
variable {row : Nat × List Byte × List Nat}

/-! ### Machine/Regs.lean -/

theorem State.Ok.setCore {c : CoreState} (ok : s.Ok) : (s.setCore n c).Ok := ok.same rfl rfl
theorem State.Ok.setCluster {c : Cluster} (ok : s.Ok) : (s.setCluster n c).Ok := ok.same rfl rfl
theorem State.Ok.setDie {d : Die} (ok : s.Ok) : (s.setDie n d).Ok := ok.same rfl rfl
theorem State.Ok.setPart {p : Part} (ok : s.Ok) : (s.setPart n p).Ok := ok.same rfl rfl
theorem State.Ok.setCtxAt {c : Ctx} (ok : s.Ok) : (s.setCtxAt core ctx c).Ok := ok.setCore
theorem State.Ok.setMe {c : CoreState} (ok : s.Ok) : (s.setMe c).Ok := ok.setCore
theorem State.Ok.setMyCtx {c : Ctx} (ok : s.Ok) : (s.setMyCtx c).Ok := ok.setCtxAt
theorem State.Ok.forget {mine : Nat → Bool} (ok : s.Ok) : (s.forget mine).Ok := ok.same rfl rfl
theorem State.Ok.poisonAt (ok : s.Ok) : (s.poisonAt loc bad).Ok := ok.same rfl rfl
theorem State.Ok.fillChunks (ok : s.Ok) : (s.fillChunks core ctx off n).Ok := ok.same rfl rfl
theorem State.Ok.saveChunks (ok : s.Ok) : (s.saveChunks core ctx).Ok := ok.same rfl rfl
theorem State.Ok.leaveChunks (ok : s.Ok) : (s.leaveChunks core ctx).Ok := ok.same rfl rfl
theorem State.Ok.wsSet (ok : s.Ok) : (s.wsSet core ctx off n v).Ok := ok.cacheWr
theorem State.Ok.setGAt {r : Nat} (ok : s.Ok) : (s.setGAt core ctx r v).Ok := .ite ok ok.wsSet
theorem State.Ok.setGN {r : GReg} (ok : s.Ok) : (s.setGN r v).Ok := ok.setGAt
theorem State.Ok.setG {r : GReg} {v : Word} (ok : s.Ok) : (s.setG r v).Ok := ok.setGAt
theorem State.Ok.setMN {r : MReg} (ok : s.Ok) : (s.setMN r v).Ok := .ite ok ok.wsSet
theorem State.Ok.setCxAt (ok : s.Ok) : (s.setCxAt core ctx off v).Ok := ok.wsSet
theorem State.Ok.setCx (ok : s.Ok) : (s.setCx off v).Ok := ok.setCxAt
theorem State.Ok.setPC (ok : s.Ok) : (s.setPC v).Ok := ok.setCx
theorem State.Ok.setStateAt (ok : s.Ok) : (s.setStateAt core ctx st).Ok := ok.setCxAt
theorem State.Ok.holdIn {offs : List Nat} (ok : s.Ok) : (s.holdIn core ctx st offs).Ok :=
  ok.foldl fun _ ht _ => .ite ht ht.setCxAt
theorem State.Ok.holdWords (ok : s.Ok) : (s.holdWords core ctx st).Ok := ok.holdIn
theorem State.Ok.setStatus {hi lo : Nat} (ok : s.Ok) : (s.setStatus hi lo v).Ok := ok.setCx
theorem State.Ok.setCntAt {c : Cnt} (ok : s.Ok) : (s.setCntAt core ctx c v).Ok := ok.setCxAt
theorem State.Ok.setCnt {c : Cnt} (ok : s.Ok) : (s.setCnt c v).Ok := ok.setCntAt
theorem State.Ok.launchFlight (ok : s.Ok) : (s.launchFlight f).Ok := ok.same rfl rfl
theorem State.Ok.dropFlight (ok : s.Ok) : (s.dropFlight id).Ok := ok.same rfl rfl

/-! ### Machine/Translate.lean -/

theorem State.Ok.markReleased (ok : s.Ok) : (s.markReleased loc n).Ok := ok.same rfl rfl

theorem State.Ok.gPut {pa : Nat} {uc : Bool} (ok : s.Ok) : (s.gPut part va pa uc bs).Ok := by
  unfold State.gPut
  extract_lets t
  have ht : t.Ok := ok.gWr
  exact .ite ht (ht.same rfl rfl)

theorem State.Ok.keepWalk (ok : s.Ok) : (s.keepWalk part va).Ok := ok.setDie
theorem State.Ok.setPteBit {bit : Nat} (ok : s.Ok) : (s.setPteBit loc bit).Ok := ok.wr

theorem State.Ok.fillTlb {l : Leaf} (ok : s.Ok) : (s.fillTlb slice part va l).Ok := by
  unfold State.fillTlb
  extract_lets t
  have ht : t.Ok := ok.setPteBit
  exact ht.same rfl rfl

theorem State.Ok.markDirty {e : TlbEnt} (ok : s.Ok) : (s.markDirty e).Ok := by
  unfold State.markDirty
  split
  · exact ok
  extract_lets t
  have ht : t.Ok := ok.setPteBit
  exact ht.same rfl rfl

theorem State.Ok.useTlb {e : TlbEnt} {a : Access} (ok : s.Ok) :
    ResultOk (fun _ => True) (·.1.Ok) (s.useTlb e va a) := by
  unfold State.useTlb
  split
  · trivial
  · exact State.Ok.ite ok.markDirty ok

theorem State.Ok.translate {a : Access} (ok : s.Ok) : ResultOk (fun _ => True) (·.1.Ok) (s.translate part va a) := by
  unfold State.translate
  split
  · trivial
  extract_lets
  split
  · exact ok.useTlb
  split
  · trivial
  · exact ok.keepWalk.fillTlb.useTlb

theorem State.Ok.agentFetch (ok : s.Ok) : ResultOk (fun _ => True) (·.1.Ok) (s.agentFetch part va n) := by
  unfold State.agentFetch
  split
  · trivial
  next e => exact ok.translate.ok e

theorem State.Ok.agentRead (ok : s.Ok) : ResultOk (fun _ => True) (·.1.Ok) (s.agentRead part va n) := by
  unfold State.agentRead
  split
  · trivial
  next e =>
    split
    · exact ok.agentFetch.ok e
    · trivial

theorem State.Ok.agentStore (ok : s.Ok) : ResultOk (fun _ => True) State.Ok (s.agentStore part va bs bad) := by
  unfold State.agentStore
  split
  · trivial
  next e => exact (ok.translate.ok e).gPut.poisonAt

theorem State.Ok.agentWrite (ok : s.Ok) : ResultOk (fun _ => True) State.Ok (s.agentWrite part va bs) := ok.agentStore

theorem State.Ok.agentReadAll (ok : s.Ok) : ResultOk (fun _ => True) (·.1.Ok) (s.agentReadAll part va n) := by
  unfold State.agentReadAll
  refine .foldl ok fun acc hacc a => ?_
  split
  · trivial
  have ht : State.Ok _ := hacc
  split
  · trivial
  next e =>
    have hu : State.Ok _ := ht.agentRead.ok e
    exact hu

theorem State.Ok.agentWriteAll (ok : s.Ok) : (s.agentWriteAll part va bs).1.Ok := by
  unfold State.agentWriteAll
  refine State.Ok.foldlFst ok fun _ hacc _ => ?_
  split
  · exact hacc
  split
  · exact hacc
  next e => exact hacc.agentWrite.ok e

theorem State.Ok.copyOut (ok : s.Ok) : (s.copyOut part loc va n).1.Ok := by
  unfold State.copyOut
  refine State.Ok.foldlFst ok fun _ hacc _ => ?_
  split
  · exact hacc
  extract_lets
  split
  · exact hacc
  next e => exact hacc.agentStore.ok e

theorem State.Ok.copyIn (ok : s.Ok) : (s.copyIn part va loc n).1.Ok := by
  unfold State.copyIn
  refine State.Ok.foldlFst ok fun _ hacc _ => ?_
  split
  · exact hacc
  split
  · exact hacc
  next e => exact (hacc.agentFetch.ok e).wr.poisonAt

/-! ### Machine/Futures.lean -/

theorem State.Ok.setFut (ok : s.Ok) : (s.setFut core slot e).Ok := ok.setCore

theorem State.Ok.spillRead (ok : s.Ok) : ResultOk (fun _ => True) (·.1.Ok) (s.spillRead core va) := by
  unfold State.spillRead
  split
  · trivial
  next e => exact ok.agentRead.ok e

theorem State.Ok.spillProbe {i : Nat} (ok : s.Ok) :
    ResultOk (fun _ => True) (·.1.Ok) (s.spillProbe core slot gen i fuel) := by
  induction fuel generalizing s i with
  | zero => exact ok
  | succ fuel ih =>
    unfold State.spillProbe
    extract_lets va
    split
    · trivial
    next e =>
      have ht : State.Ok _ := ok.spillRead.ok e
      split
      · exact ht
      split
      · exact ht
      · exact ih ht

theorem State.Ok.futFind (ok : s.Ok) : ResultOk (fun _ => True) (·.1.Ok) (s.futFind core slot gen) := by
  unfold State.futFind
  extract_lets e
  split
  · split
    · trivial
    · exact ok
  split
  · exact ok
  split
  · trivial
  next e => exact ok.spillProbe.ok e
  next e => exact ok.spillProbe.ok e

theorem State.Ok.futPut (ok : s.Ok) : ResultOk (fun _ => True) State.Ok (s.futPut core slot l e) := by
  unfold State.futPut
  split
  · exact ok.setFut
  extract_lets t
  have ht : t.Ok := ok.same rfl rfl
  split
  · trivial
  next e => exact ht.agentStore.ok e

theorem State.Ok.sendWakes (ok : s.Ok) : (s.sendWakes handle st v ws).Ok := ok.foldl fun _ ht _ => ht.launchFlight

theorem State.Ok.futFinish (ok : s.Ok) : ResultOk (fun _ => True) (·.1.Ok) (s.futFinish core slot gen st v) := by
  unfold State.futFinish
  split
  · trivial
  next e => exact ok.futFind.ok e
  next e =>
    split
    · extract_lets e'
      split
      · trivial
      next e' => exact ((ok.futFind.ok e).futPut.ok e').sendWakes
    · exact ok.futFind.ok e

theorem State.Ok.spillRoom {i : Nat} (ok : s.Ok) : ResultOk (fun _ => True) (·.1.Ok) (s.spillRoom core i fuel) := by
  induction fuel generalizing s i with
  | zero => exact ok
  | succ fuel ih =>
    unfold State.spillRoom
    extract_lets va
    split
    · trivial
    next e =>
      have ht : State.Ok _ := ok.spillRead.ok e
      split
      · exact ih ht
      · exact ht

theorem State.Ok.futSlot (ok : s.Ok) : ResultOk (fun _ => True) (·.1.Ok) (s.futSlot core) := by
  unfold State.futSlot
  extract_lets +onlyGivenNames c
  clear_value c
  split
  · exact ok
  split
  · trivial
  split
  · trivial
  extract_lets +onlyGivenNames e
  clear_value e
  split
  · trivial
  · trivial
  next e =>
    have ht : State.Ok _ := ok.spillRoom.ok e
    split
    · trivial
    next e' =>
      have hu : State.Ok _ := ht.futPut.ok e'
      extract_lets k _ u
      clear_value k
      have h : u.Ok := .ite hu.setCore hu
      exact h.setFut

theorem State.Ok.futNew {value parent : Nat} {tied : Bool} (ok : s.Ok) :
    ResultOk (fun _ => True) (·.1.Ok) (s.futNew core part value parent tied) := by
  unfold State.futNew
  split
  · trivial
  next e => exact (ok.futSlot.ok e).setFut

theorem State.Ok.futFree (ok : s.Ok) : ResultOk (fun _ => True) State.Ok (s.futFree core slot l e) := by
  unfold State.futFree
  split
  · exact ok.setFut
  extract_lets
  split
  · trivial
  next e => exact ok.setCore.agentWrite.ok e

theorem State.Ok.futUndo (ok : s.Ok) : (s.futUndo core slot gen).Ok := by
  unfold State.futUndo
  split
  next e =>
    split
    next e' => exact (ok.futFind.ok e).futFree.ok e'
    · exact ok.futFind.ok e
  next e => exact ok.futFind.ok e
  extract_lets
  split
  next e =>
    split
    next e' => exact ((ok.setFut.futFind.ok e).futFree.ok e').setFut
    · exact ok.setFut.futFind.ok e
  · exact ok.setFut

/-! ### Machine/Ops.lean -/

theorem State.Ok.advance (ok : s.Ok) : (s.advance).Ok := .ite (.ite ok.setCx.setPC ok.setCx.setPC) ok.setPC
theorem State.Ok.done {v : Word} (ok : s.Ok) : (s.done d v).Ok := ok.setG.advance
theorem State.Ok.stall {w : Wait} (ok : s.Ok) : (s.stall w).Ok := ok.setMyCtx.setStateAt
theorem State.Ok.readyAt (ok : s.Ok) : (s.readyAt core ctx).Ok := ok.setCtxAt.setStateAt

theorem State.Ok.wakeAt (ok : s.Ok) : (s.wakeAt core ctx).Ok := by
  unfold State.wakeAt
  split
  · split
    · exact ok.readyAt
    · exact ok.setStateAt
    · exact ok
  · exact ok

theorem State.Ok.wakeCore (ok : s.Ok) : (s.wakeCore core).Ok := ok.foldl fun _ ht _ => ht.wakeAt
theorem State.Ok.dropAheadAt (ok : s.Ok) : (s.dropAheadAt core ctx).Ok := ok.setCtxAt
theorem State.Ok.dropAhead (ok : s.Ok) : (s.dropAhead).Ok := ok.dropAheadAt
theorem State.Ok.acquire (ok : s.Ok) : (s.acquire).Ok := ok.dropAhead
theorem State.Ok.post {p : Post} (ok : s.Ok) : (s.post p).Ok := ok.launchFlight
theorem State.Ok.postFrom {source : Option (Nat × Nat)} (ok : s.Ok) :
    (s.postFrom kind core ctx cause pc addr aux source).Ok := ok.post
theorem State.Ok.postFault (ok : s.Ok) : (s.postFault core ctx).Ok := .ite ok.postFrom ok.postFrom
theorem State.Ok.holdAndPost (ok : s.Ok) : (s.holdAndPost core ctx).Ok := ok.setCtxAt.setStateAt.postFault
theorem State.Ok.holdFailed (ok : s.Ok) : (s.holdFailed core ctx cause addr aux).Ok :=
  .ite ok.postFrom ok.postFrom.setCtxAt

theorem State.Ok.holdPosted (ok : s.Ok) : (s.holdPosted core ctx cause addr aux).Ok := by
  unfold State.holdPosted
  extract_lets _ _ t'
  have ht' : t'.Ok := ok.setCtxAt.setCxAt.setCxAt.setCxAt
  exact .ite ht'.setStateAt ht'.setCtxAt.setStateAt

theorem State.Ok.endWith {e : Ending} (ok : s.Ok) : (s.endWith core ctx e).Ok := ok.setCtxAt.setStateAt
theorem State.Ok.consumed (ok : s.Ok) : (s.consumed).Ok :=
  .ite ok.holdAndPost (.ite ok.postFrom.endWith (.ite ok.endWith ok.endWith))
theorem State.Ok.setCause (ok : s.Ok) : (s.setCause cause addr aux).Ok := ok.setCx.setCx.setCx.dropAhead.setMyCtx

theorem State.Ok.enterRoutine {vec : Nat} (ok : s.Ok) : (s.enterRoutine vec).Ok := by
  unfold State.enterRoutine
  extract_lets +onlyGivenNames c x f
  clear_value f
  split
  · exact ok.setCause.consumed
  split
  · exact ok.holdAndPost
  split
  · exact ok.holdAndPost
  · exact ok.wr.poisonAt.setGAt.setGAt.setGAt.setGAt.setCx.setPC.readyAt

theorem State.Ok.endActivation {freeSlot : Bool} (ok : s.Ok) : (s.endActivation core freeSlot).Ok :=
  ok.setCore.setCtxAt.setStateAt
theorem State.Ok.nack (ok : s.Ok) : (s.nack core slot).Ok := ok.post

theorem State.Ok.rollback (ok : s.Ok) : (s.rollback cause pc addr).Ok := by
  unfold State.rollback
  extract_lets
  split
  · exact ok.setStateAt
  extract_lets t
  have ht : t.Ok := ok.foldl fun _ hu _ => hu.futUndo
  exact .ite (.ite ht.nack.endActivation ht.setCore.endActivation) ht.postFrom.endActivation

theorem State.Ok.dispose (ok : s.Ok) : (s.dispose cause pc).Ok := by
  unfold State.dispose
  extract_lets
  split
  · exact ok.rollback
  split
  · split
    · exact ok.endWith
    split
    · exact ok.endWith
    · exact ok.holdAndPost
  split
  · exact ok.consumed
  split
  · exact ok.holdAndPost
  split
  · split
    · exact ok.enterRoutine
    · exact ok.holdAndPost
  split
  · exact ok.enterRoutine
  split
  · exact ok.endWith
  · exact ok.holdAndPost

theorem State.Ok.takeTrap (ok : s.Ok) : (s.takeTrap cause addr aux).Ok := ok.setCause.dispose
theorem State.Ok.trap (ok : s.Ok) : NextOk (s.trap cause addr aux) := ok.takeTrap

theorem State.Ok.unitGate {k : Host.Outcome State Fault Refusal} (ok : s.Ok) (hk : NextOk k) :
    NextOk (s.unitGate k) := by
  unfold State.unitGate
  split
  · exact ok.trap
  split
  · exact ok.trap
  · exact hk

theorem State.Ok.softTrap (ok : s.Ok) : (s.softTrap v).Ok := ok.setPC.setCause.dispose

theorem State.Ok.trapReturn (ok : s.Ok) : (s.trapReturn).Ok := by
  unfold State.trapReturn
  extract_lets core ctx f
  split
  · exact ok.takeTrap
  extract_lets w reps
  split
  · exact ok.takeTrap
  split
  · exact ok.takeTrap
  · exact ok.setGAt.setGAt.setGAt.setCx.setCx.setCx.setGAt.setPC.dropAhead

theorem State.Ok.raiseLogged {covers : Nat → Bool} (ok : s.Ok) : SomeOk State.Ok (s.raiseLogged covers) := by
  unfold State.raiseLogged
  extract_lets
  split
  · exact ok.cacheWr.setStatus.takeTrap
  split
  · exact ok.setStatus.takeTrap
  · trivial

theorem State.Ok.logFault {cls : Nat} (ok : s.Ok) : (s.logFault core ctx pc addr cause cls).Ok :=
  .ite ok.setCxAt ok.cacheWr.setCxAt

/-! ### Machine/Flags.lean -/

theorem State.Ok.accrue {f : FFlags} (ok : s.Ok) : (s.accrue f).Ok := ok.setStatus
theorem State.Ok.doneF {r : Nat × FFlags} (ok : s.Ok) : (s.doneF d r).Ok := ok.setGN.accrue.advance

/-! ### Machine/Held.lean -/

theorem State.Ok.become (ok : s.Ok) : (s.become id f).Ok := ok.same rfl rfl

/-! ### Machine/Access.lean -/

theorem State.Ok.releaseWhere {p : WedgeEnt → Bool} (ok : s.Ok) : (s.releaseWhere cl p).Ok := .ite ok.setCluster ok
theorem State.Ok.msync (ok : s.Ok) : (s.msync).Ok := ok.releaseWhere
theorem State.Ok.waitAll (ok : s.Ok) : (s.waitAll).Ok := ok.msync.stall

theorem State.Ok.relGate {k : Host.Outcome State Fault Refusal} (ok : s.Ok) (hk : NextOk k) :
    NextOk (s.relGate k) := by
  unfold State.relGate
  split
  · exact ok.waitAll
  split
  next e => exact ok.raiseLogged.some e
  · exact hk

theorem State.Ok.wGate {k : Host.Outcome State Fault Refusal} (ok : s.Ok) (hk : NextOk k) : NextOk (s.wGate w k) := by
  unfold State.wGate
  split
  · exact hk
  split
  · exact ok.stall
  split
  next e => exact ok.raiseLogged.some e
  · exact hk

theorem State.Ok.orderGate {k : Host.Outcome State Fault Refusal} (ok : s.Ok) (hk : NextOk k) :
    NextOk (s.orderGate rel w k) := by
  unfold State.orderGate
  split
  · exact ok.relGate hk
  · exact ok.wGate hk

theorem State.Ok.nearWr (ok : s.Ok) : (s.nearWr cl u off bs).Ok := by
  unfold State.nearWr
  split
  · exact ok.wr
  · exact .ite ok.cacheWr ok.cacheWr.holdIn

theorem State.Ok.nearRun (ok : s.Ok) : (s.nearRun cl u off op).1.Ok := .ite ok ok.nearWr

theorem State.Ok.handlerView (ok : s.Ok) : (s.handlerView).Ok := by
  unfold State.handlerView
  split
  · exact .ite (ok.foldl fun _ ht _ => ht.nearRun) ok
  · exact ok

theorem State.Ok.takeSeq (ok : s.Ok) : (s.takeSeq).1.Ok := ok.setMe
theorem State.Ok.request {p : Dest} (ok : s.Ok) : (s.request p ea op rel seq k).Ok := ok.launchFlight.stall
theorem State.Ok.sendPosted {p : Dest} {c : Cnt} (ok : s.Ok) : (s.sendPosted p ea op rel c seq group).Ok :=
  ok.launchFlight

theorem State.Ok.counted {c : Cnt} {k : State → State} (ok : s.Ok) (hk : ∀ t, t.Ok → (k t).Ok) : (s.counted c k).Ok :=
  .ite ok.stall (hk _ ok.setCnt)

theorem State.Ok.posted {p : Dest} {c : Cnt} {seq : Bool} (ok : s.Ok) : (s.posted p ea op rel c seq).Ok := by
  unfold State.posted
  refine State.Ok.counted ok fun _ ht => ?_
  extract_lets u
  have hu : u.1.Ok := by
    unfold u
    split
    · exact ht.takeSeq
    · exact ht
  exact hu.sendPosted.advance

theorem State.Ok.bufferStores {bs : List BufStore} (ok : s.Ok) : (s.bufferStores bs n).Ok := by
  unfold State.bufferStores
  split
  · exact ok.advance
  · exact .ite ok.takeTrap ok.setMe.advance

theorem State.Ok.acquireIf {saw : Bool} (ok : s.Ok) : (s.acquireIf saw).Ok := .ite ok.acquire ok

theorem State.Ok.storeTo {k : Kind} (ok : s.Ok) : (s.storeTo k ea align op rel).Ok := by
  unfold State.storeTo
  split
  · exact ok.takeTrap
  split
  · split
    · exact ok.bufferStores
    · exact ok.takeTrap
  split
  · split
    · exact .ite ok.stall (.advance (.ite ok.nearRun.markReleased ok.nearRun))
    · exact ok
  · exact ok.posted

theorem State.Ok.loadFrom {fin : State → List Byte → State} (ok : s.Ok) (hfin : ∀ t, t.Ok → ∀ bs, (fin t bs).Ok) :
    (s.loadFrom ea n align k fin).Ok := by
  unfold State.loadFrom
  split
  · exact ok.takeTrap
  split
  · split
    · exact .ite ok.stall (.ite ok.takeTrap (hfin _ ok _).acquireIf)
    · exact ok
  · exact .ite ok.stall ok.request

/-! ### Machine/Vector.lean -/

theorem State.Ok.setV {d : VReg} {mask : Nat} {f : Nat → Nat} (ok : s.Ok) : (s.setV d mask f).Ok := by
  unfold State.setV
  extract_lets _ _ src
  have hsrc : src.Ok := ok.cacheWr
  exact hsrc.same rfl rfl

theorem State.Ok.doneV {d : VReg} {f : Nat → Nat} (ok : s.Ok) : (s.doneV d m f).Ok := ok.setV.advance
theorem State.Ok.doneAll {d : VReg} (ok : s.Ok) : (s.doneAll d v).Ok := ok.setV.advance
theorem State.Ok.doneM {d : MReg} {f : Nat → Bool} (ok : s.Ok) : (s.doneM d f).Ok := ok.setMN.advance

theorem State.Ok.execVcvtfb4 {d a b : VReg} (ok : s.Ok) : NextOk (execVcvtfb4 d a b m s) := by
  unfold Machine.execVcvtfb4
  extract_lets
  split
  · exact ok.trap
  · exact ok.doneV

/-! ### Machine/Memory.lean -/

theorem State.Ok.finishLoad {h : Hint} (ok : s.Ok) : (s.finishLoad d h bs).Ok := by
  unfold State.finishLoad
  extract_lets
  split
  · exact ok.setGN.advance.acquire
  · exact ok.setGN.advance

theorem State.Ok.loadScalar {size : Nat} {off : Imm} {h : Hint} (ok : s.Ok) :
    NextOk (s.loadScalar size d a off h w) :=
  ok.wGate (ok.loadFrom (fun _ ht _ => ht.finishLoad))

theorem State.Ok.storeScalar {size : Nat} {off : Imm} {h : Hint} (ok : s.Ok) :
    NextOk (s.storeScalar size d a off h w) :=
  ok.orderGate ok.storeTo

theorem State.Ok.prefetch {off : Imm} (ok : s.Ok) : NextOk (s.prefetch a off w) := by
  unfold State.prefetch
  extract_lets
  refine State.Ok.wGate ok ?_
  split
  · exact ok.trap
  · exact ok.launchFlight.advance
  · exact ok.advance

theorem State.Ok.execLdd {off : Imm} {h : Hint} (ok : s.Ok) : NextOk (execLdd d a off h w s) := by
  unfold Machine.execLdd
  split
  · exact ok.prefetch
  · exact ok.loadScalar

theorem State.Ok.finishVload {d : VReg} {acq : Bool} (ok : s.Ok) : (s.finishVload d acq bs).Ok :=
  .ite ok.setV.advance.acquire ok.setV.advance

theorem State.Ok.laneTrap {bad : Nat × Nat × Nat} (ok : s.Ok) : (s.laneTrap bad aux).Ok := ok.takeTrap

theorem State.Ok.gatherLanes (ok : s.Ok) : (s.gatherLanes lanes).1.Ok := by
  induction lanes with
  | nil => exact ok
  | cons x rest ih =>
    obtain ⟨i, ea⟩ := x
    unfold State.gatherLanes
    extract_lets r
    split
    · exact ih
    split
    · split
      · split
        · exact ih
        · exact .ite ih.setMyCtx ih
      · exact ih
    · exact ih.launchFlight

theorem State.Ok.acquireSeen (ok : s.Ok) : (s.acquireSeen).Ok := .ite ok.setMyCtx.acquire ok

theorem State.Ok.finishGather {d : VReg} {vals : List (Nat × Nat)} {bad : Option (Nat × Nat × Nat × Nat)}
    (ok : s.Ok) :
    (s.finishGather d vals bad).Ok := by
  unfold State.finishGather
  split
  · exact ok.laneTrap
  · exact ok.setV.advance

theorem State.Ok.execVgath {d b : VReg} (ok : s.Ok) : NextOk (execVgath d a b m s) := by
  unfold Machine.execVgath
  extract_lets
  split
  · exact ok.stall
  split
  · exact ok.gatherLanes.finishGather.acquireSeen
  · exact ok.gatherLanes.stall

theorem State.Ok.scatterLanes {vals : List Nat} (ok : s.Ok) : (s.scatterLanes vals group lanes).Ok := by
  induction lanes generalizing s with
  | nil => exact ok
  | cons x rest ih =>
    obtain ⟨i, ea⟩ := x
    unfold State.scatterLanes
    extract_lets op t
    refine ih ?_
    unfold t
    split
    · exact ok
    split
    · split
      · exact ok.nearRun
      · exact ok
    · exact ok.sendPosted

theorem State.Ok.execVscat {d b : VReg} (ok : s.Ok) : NextOk (execVscat d a b m s) := by
  unfold Machine.execVscat
  extract_lets _ _ _ t t'
  have ht : t.Ok := .ite ok.setCnt ok
  have ht' : t'.Ok := .ite ht.setCnt ht
  split
  · exact ok.laneTrap
  split
  · split
    · exact ok.bufferStores
    · exact ok.trap
  split
  · exact ok.stall
  · exact ht'.scatterLanes.advance

theorem State.Ok.withSeq (ok : s.Ok) : (s.withSeq ea).1.Ok := by
  unfold State.withSeq
  split
  · exact ok
  · exact ok.takeSeq

theorem State.Ok.atomicValue (ok : s.Ok) : (s.atomicValue ea align op rel k).Ok := by
  unfold State.atomicValue
  split
  · exact ok.takeTrap
  split
  · exact ok.takeTrap
  · exact .ite ok.stall ok.withSeq.request

theorem State.Ok.atomicPosted {op : AOp} (ok : s.Ok) : (s.atomicPosted op a b rel).Ok := by
  unfold State.atomicPosted
  extract_lets
  split
  · exact ok.takeTrap
  split
  · exact ok.takeTrap
  · exact ok.posted

theorem State.Ok.atomicRet {op : AOp} {acq : Bool} (ok : s.Ok) : NextOk (s.atomicRet op d a b acq rel w) :=
  ok.orderGate ok.atomicValue

/-! ### Machine/Order.lean -/

theorem State.Ok.execWait {at_ tl cp sg sn : Fin 32} (ok : s.Ok) : NextOk (execWait at_ tl cp sg sn s) := by
  unfold Machine.execWait
  split
  · exact ok.trap
  split
  · split
    · exact ok.advance
    split
    next e => exact ok.raiseLogged.some e
    · exact ok.advance
  · exact State.Ok.stall (.ite ok ok.msync)

theorem State.Ok.execFence {scope : Scope} (ok : s.Ok) : NextOk (execFence scope s) := by
  unfold Machine.execFence
  split
  · exact ok.trap
  split
  · exact ok.waitAll
  split
  next e => exact ok.raiseLogged.some e
  split
  · exact ok.stall
  · exact ok.advance.acquire

theorem State.Ok.setBarrier {key : Nat} {b : Barrier} (ok : s.Ok) : (s.setBarrier key b).Ok := ok.same rfl rfl

theorem State.Ok.execBararm (ok : s.Ok) : NextOk (execBararm lvl obj a s) := by
  unfold Machine.execBararm
  extract_lets
  split
  · exact ok.trap
  split
  · exact ok.trap
  split
  · exact ok.trap
  · exact ok.setBarrier.advance

theorem State.Ok.execBarrive (ok : s.Ok) : NextOk (execBarrive lvl obj d s) := by
  unfold Machine.execBarrive
  split
  · exact ok.waitAll
  split
  next e => exact ok.raiseLogged.some e
  extract_lets
  split
  · exact ok.trap
  split
  · exact ok.trap
  split
  · exact ok.trap
  · exact ok.setBarrier.done

theorem State.Ok.execBarwait (ok : s.Ok) : NextOk (execBarwait lvl obj a s) := by
  unfold Machine.execBarwait
  split
  · exact ok.trap
  split
  · exact ok.trap
  extract_lets
  split
  · exact ok.advance.acquire
  split
  · exact ok.trap
  · exact ok.stall

theorem State.Ok.execBarq (ok : s.Ok) : NextOk (execBarq lvl obj d s) := by
  unfold Machine.execBarq
  split
  · exact ok.trap
  · exact ok.done

/-! ### Machine/Accumulate.lean -/

theorem State.Ok.setSag {a : Accum} (ok : s.Ok) : (s.setSag core n a).Ok := ok.wr
theorem State.Ok.clearSag (ok : s.Ok) : (s.clearSag core n).Ok := ok.wr
theorem State.Ok.flushDropped {a : Accum} (ok : s.Ok) : (s.flushDropped a cause).Ok := ok.post

theorem State.Ok.sendFlush {by_ : Back} (ok : s.Ok) : (s.sendFlush core n by_).Ok := by
  unfold State.sendFlush
  split
  · exact ok
  · exact .ite ok.flushDropped.clearSag ok.clearSag.setCore.launchFlight

theorem State.Ok.flushSelected {sel : Accum → Bool} (ok : s.Ok) : (s.flushSelected core ctx pc sel).Ok := by
  unfold State.flushSelected
  extract_lets t
  have ht : t.Ok := by
    unfold t
    refine ok.foldl fun _ ht'' _ => ?_
    split
    · exact .ite ht''.sendFlush ht''
    · exact ht''
  exact .ite ht.setCntAt.launchFlight ht.setCntAt.setCore

theorem State.Ok.leaveGate (ok : s.Ok) : (s.leaveGate core ctx pc).1.Ok := by
  unfold State.leaveGate
  extract_lets
  split
  · exact .ite ok ok.setCtxAt
  split
  · exact ok
  · exact ok.flushSelected.setCtxAt

theorem State.Ok.undrain (ok : s.Ok) : (s.undrain).Ok := .ite ok.setMyCtx ok

theorem State.Ok.accumulate {ks : Nat} {b : VReg} (ok : s.Ok) : (s.accumulate kind ks a b m).Ok := by
  unfold State.accumulate
  extract_lets _ _ _ _ send
  have hsend : ∀ t, t.Ok → ∀ n, (send t n).Ok := fun _ ht _ => ht.setCnt.launchFlight.advance
  split
  · exact ok.takeTrap
  split
  · exact ok.stall
  split
  · exact hsend _ ok _
  split
  · exact .ite ok.takeTrap (hsend _ ok.clearSag _)
  · exact .ite (hsend _ ok.sendFlush _) (hsend _ ok _)

theorem State.Ok.flushres {sel : Accum → Bool} (ok : s.Ok) : NextOk (s.flushres sel) :=
  ok.unitGate (State.Ok.ite ok.stall ok.flushSelected.advance)

theorem State.Ok.execHsift (ok : s.Ok) : NextOk (execHsift d a b s) := by
  unfold Machine.execHsift
  split
  · exact ok.trap
  extract_lets
  split
  · exact ok.trap
  extract_lets
  split
  · exact ok.stall
  split
  · exact ok.trap
  · exact ok.wr.done

theorem State.Ok.execHmerge (ok : s.Ok) : NextOk (execHmerge d a b s) := by
  unfold Machine.execHmerge
  split
  · exact ok.trap
  split
  · exact ok.trap
  split
  · exact ok.trap
  split
  · exact ok.trap
  split
  · exact ok.stall
  split
  · exact ok.trap
  split
  · exact ok.trap
  · exact ok.wr.done

/-! ### Machine/Tasks.lean -/

theorem State.Ok.setTask {t : Task} (ok : s.Ok) : (s.setTask cl rid t).Ok := ok.setCluster

theorem State.Ok.recRead (ok : s.Ok) : ResultOk (fun _ => True) (·.1.Ok) (s.recRead cl rid off n) := by
  unfold State.recRead
  split
  · extract_lets
    split
    · trivial
    · exact ok
  split
  · trivial
  next e => exact ok.agentRead.ok e

theorem State.Ok.recWrite (ok : s.Ok) : ResultOk (fun _ => True) State.Ok (s.recWrite cl rid off bs part) := by
  unfold State.recWrite
  split
  · exact ok.wr
  split
  · trivial
  next e => exact ok.agentWrite.ok e

theorem State.Ok.sendFinish (ok : s.Ok) : (s.sendFinish core handle st v).Ok := ok.launchFlight

theorem State.Ok.freeTask (ok : s.Ok) : (s.freeTask cl rid).Ok := by
  unfold State.freeTask
  extract_lets _ t
  have ht : t.Ok := by
    unfold t
    split
    · exact ok.setCore
    · exact ok
  exact ht.setCluster

theorem State.Ok.failTask (ok : s.Ok) : (s.failTask cl rid cause).Ok := ok.sendFinish.freeTask
theorem State.Ok.postTask (ok : s.Ok) : (s.postTask core cause addr handle).Ok := ok.post
theorem State.Ok.failPosted (ok : s.Ok) : (s.failPosted cl rid core cause addr).Ok := ok.postTask.failTask

theorem State.Ok.putStage {k : Task} (ok : s.Ok) : (s.putStage cl rid k).Ok := by
  unfold State.putStage
  extract_lets
  split
  · exact ok.setTask.failPosted
  next e =>
    extract_lets
    split
    · exact (ok.setTask.recRead.ok e).failPosted
    next e' => exact (ok.setTask.recRead.ok e).recWrite.ok e'

theorem State.Ok.makeReady {k : Task} (ok : s.Ok) : (s.makeReady cl rid k).Ok := ok.setCluster.putStage

theorem State.Ok.evict {wp : Nat} (ok : s.Ok) : (s.evict core wp cl rid).Ok := by
  unfold State.evict
  extract_lets
  split
  · exact ok.copyOut.setCore.failPosted
  · exact ok.copyOut.setCore.setTask

theorem State.Ok.vacate (ok : s.Ok) : (s.vacate core ctx).Ok := ok.setCtxAt.setStateAt

theorem State.Ok.leaveSlot (ok : s.Ok) : (s.leaveSlot core ctx cl rid).Ok := by
  unfold State.leaveSlot
  extract_lets s' _ _ _ _ _ t'
  have hs' : s'.Ok := by
    unfold s'
    split
    · exact ok.evict
    · exact ok
  have ht' : t'.Ok := hs'.setCore.leaveChunks.setCtxAt.vacate
  exact ht'.setTask

theorem State.Ok.parkTask {how : Resume} {ready : Bool} (ok : s.Ok) : (s.parkTask core ctx how ready).Ok := by
  unfold State.parkTask
  split
  · exact ok
  · exact .ite ok.leaveSlot.makeReady ok.leaveSlot.putStage

theorem State.Ok.taskDone (ok : s.Ok) : (s.taskDone core ctx).Ok := by
  unfold State.taskDone
  extract_lets t
  have ht : t.Ok := by
    unfold t
    split
    · exact ok.freeTask
    · exact ok
  exact ht.vacate

theorem State.Ok.restartTask (ok : s.Ok) : (s.restartTask core ctx).Ok := by
  unfold State.restartTask
  split
  · exact ok.vacate
  · exact ok.vacate.makeReady

theorem State.Ok.takeRecord {r : TaskRec} (ok : s.Ok) : (s.takeRecord cl r).1.Ok := by
  unfold State.takeRecord
  split
  · exact ok.sendFinish
  split
  · exact ok.postTask.sendFinish
  next e =>
    have ht : State.Ok _ := ok.recWrite.ok e
    extract_lets k u
    split
    · exact ht.makeReady
    · exact ht.setTask.setCluster

theorem State.Ok.freeCx {lo hi : Nat} (ok : s.Ok) : (s.freeCx core ctx off lo hi).Ok := .setCxAt (ok.same rfl rfl)

theorem State.Ok.freeWs (ok : s.Ok) : (s.freeWs core ctx off n).Ok := by
  unfold State.freeWs
  extract_lets src
  have hsrc : src.Ok := ok.cacheWr
  exact hsrc.same rfl rfl

theorem State.Ok.freeRegs (ok : s.Ok) : (s.freeRegs core ctx).Ok :=
  ok.freeWs.freeWs.freeCx.freeCx.freeCx.freeCx.freeCx

theorem State.Ok.startWords {fut pri : Nat} (ok : s.Ok) : (s.startWords core ctx pc fut pri).Ok :=
  ok.setCxAt.setCxAt.setCxAt.setCxAt.setCxAt.setStateAt

theorem State.Ok.dispatchFresh {k : Task} (ok : s.Ok) : (s.dispatchFresh cl rid core ctx k).Ok := by
  unfold State.dispatchFresh
  split
  · exact ok.failPosted
  next e =>
    extract_lets
    split
    · exact (ok.recRead.ok e).failPosted
    next e' =>
      extract_lets t t'
      have ht : t.Ok := ((ok.recRead.ok e).recWrite.ok e').freeRegs.startWords
      have ht' : t'.Ok := ht.setGAt.foldl fun _ ht _ => ht.setGAt
      exact ht'.setCtxAt

theorem State.Ok.finishTouch {d : Nat} (ok : s.Ok) : (s.finishTouch d handle st v).Ok :=
  .ite ok.setGAt.advance.acquire (.ite ok.takeTrap ok.takeTrap)

theorem State.Ok.resumeTask {how : Resume} (ok : s.Ok) : (s.resumeTask core ctx how).Ok := by
  unfold State.resumeTask
  extract_lets at_
  have hat_ : ∀ x, (at_ x).Ok := fun _ => ok.same rfl rfl
  split
  · exact (hat_ _).finishTouch
  · exact (hat_ _).setGAt.advance.acquire
  · exact (hat_ _).takeTrap
  · exact ok

theorem State.Ok.takeBack {k : Task} (ok : s.Ok) : (s.takeBack cl rid core ctx k).Ok :=
  ok.holdWords.setCtxAt.setCxAt.setStateAt.setTask.resumeTask

theorem State.Ok.dispatchTo (ok : s.Ok) : (s.dispatchTo cl rid core ctx).Ok := by
  unfold State.dispatchTo
  extract_lets _ _ _ _ _ t'
  have ht' : t'.Ok := ok.setCluster.putStage.setCore
  split
  · exact ok.setCluster.putStage
  split
  · exact ok.setCluster.putStage.dispatchFresh
  · split
    · exact ht'.leaveChunks.setCtxAt.takeBack
    · exact .ite ok.setCluster.putStage.evict ok.setCluster.putStage.evict.setCtxAt.setStateAt
  · exact ok.setCluster.putStage.setCtxAt.setStateAt

theorem State.Ok.dispatch (ok : s.Ok) : (s.dispatch cl).Ok := by
  unfold State.dispatch
  extract_lets
  split
  · exact ok
  split
  · exact ok
  · exact ok.dispatchTo

theorem State.Ok.copyDone (ok : s.Ok) : (s.copyDone cl rid).Ok := by
  unfold State.copyDone
  extract_lets
  split
  · exact ok
  split
  · exact ok.copyIn.failPosted.vacate
  · exact ok.copyIn.takeBack

theorem State.Ok.ageTask (ok : s.Ok) : (s.ageTask cl rid).Ok := .ite ok.makeReady ok
theorem State.Ok.publishHint {wide : Bool} (ok : s.Ok) : (s.publishHint cl wide).Ok :=
  .ite (.ite ok ok.setCluster) (.ite ok ok.setCluster)
theorem State.Ok.publishDue (ok : s.Ok) : (s.publishDue).Ok :=
  ok.foldl fun _ ht _ => ht.foldl fun _ ht _ => ht.publishHint.publishHint

/-! ### Machine/FutOps.lean -/

theorem State.Ok.reportRoot (ok : s.Ok) : (s.reportRoot core slot gen st).Ok :=
  .ite ok (.launchFlight (ok.same rfl rfl))

theorem State.Ok.finishAt (ok : s.Ok) : ResultOk (fun _ => True) (·.1.Ok) (s.finishAt core slot gen st v) := by
  unfold State.finishAt
  split
  · trivial
  next e => exact (ok.futFinish.ok e).reportRoot
  next e => exact ok.futFinish.ok e

theorem State.Ok.putAnswer {a : Answer} (ok : s.Ok) : (s.putAnswer core slot l e a).1.Ok := by
  unfold State.putAnswer
  split
  · exact ok
  next e => exact ok.futPut.ok e

theorem State.Ok.futApply {op : FutOp} (ok : s.Ok) : (s.futApply h op).1.Ok := by
  unfold State.futApply
  extract_lets
  split
  · exact ok
  next e => split <;> exact ok.futFind.ok e
  next e =>
    split
    · split
      · split
        · exact ok.futFind.ok e
        · exact (ok.futFind.ok e).putAnswer
      · exact (ok.futFind.ok e).putAnswer
    · split
      · exact ok.futFind.ok e
      · exact (ok.futFind.ok e).putAnswer
    · split
      · exact ok.futFind.ok e
      next e' => exact (ok.futFind.ok e).finishAt.ok e'
    · split
      · exact ok.futFind.ok e
      split
      · exact ok.futFind.ok e
      next e' => exact (ok.futFind.ok e).futFree.ok e'
    · exact ok.futFind.ok e
    · exact ok.futFind.ok e
    · exact (ok.futFind.ok e).putAnswer
    split
    · exact (ok.futFind.ok e).same rfl rfl
    · exact ok.futFind.ok e

theorem State.Ok.takeAnswer {a : Answer} (ok : s.Ok) : (s.takeAnswer k a).Ok := by
  unfold State.takeAnswer
  extract_lets
  split
  · exact .ite ok.taskDone ok.takeTrap
  · exact ok.taskDone
  · exact .ite ok.setGAt.setGAt.advance ok.takeTrap
  · exact ok.takeTrap
  · exact ok.setGAt.advance
  · exact ok.launchFlight.advance
  · exact .ite ok.setGAt.setGAt.advance.acquire ok.setGAt.setGAt.advance
  · split
    · exact ok.undrain.setGAt.advance.acquire
    · exact .ite (.ite ok.leaveGate ok.leaveGate.waitAll) (.ite ok.parkTask ok.stall)
  · exact ok.advance

theorem State.Ok.futureOp {op : FutOp} (ok : s.Ok) : (s.futureOp h op k).Ok :=
  .ite ok.futApply.takeAnswer ok.launchFlight.stall

theorem State.Ok.endFuture (ok : s.Ok) : (s.endFuture st v).Ok := by
  unfold State.endFuture
  exact .ite ok.taskDone (.ite ok.takeTrap (.ite ok.futureOp ok.futureOp))

theorem State.Ok.uncount {c : Cnt} (ok : s.Ok) : (s.uncount core ctx c group).Ok := .ite ok ok.setCntAt.wakeCore
theorem State.Ok.setPair {x : Pair} (ok : s.Ok) : (s.setPair p x).Ok := ok.same rfl rfl

theorem State.Ok.clearPair (ok : s.Ok) : (s.clearPair p).Ok := by
  unfold State.clearPair
  split
  · exact ok
  refine ok.setPair.foldl fun _ ht _ => ?_
  split
  · split
    · exact ht.uncount
    · exact ht
  · split
    · exact ht.uncount
    · exact ht
  · exact ht

theorem State.Ok.endOther {o : Nat × Nat} {gone : Bool} (ok : s.Ok) : (s.endOther o gone).Ok := by
  unfold State.endOther
  extract_lets _ _ t
  have ht : t.Ok := .ite ok.vacate ok
  exact .ite ok (.ite ok.endWith (.ite ht.freeTask ht.makeReady))

theorem State.Ok.endMember (ok : s.Ok) : (s.endMember cause).Ok := by
  unfold State.endMember
  extract_lets
  split
  · exact ok.endFuture
  extract_lets
  split
  · exact ok.setPair.endOther.post.endFuture
  · exact .ite ok.setPair.endOther.endFuture ok.setPair.endOther.restartTask

theorem State.Ok.clearMine (ok : s.Ok) : (s.clearMine core ctx).Ok := by
  unfold State.clearMine
  split
  · exact ok.clearPair
  · exact ok

theorem State.Ok.cancelOther (ok : s.Ok) : (s.cancelOther core ctx).Ok := by
  unfold State.cancelOther
  split
  · exact ok.endOther
  · exact ok

theorem State.Ok.finishEnding {e : Ending} (ok : s.Ok) : (s.finishEnding e).Ok := by
  unfold State.finishEnding
  extract_lets _ _ s'
  have hs' : s'.Ok := by
    unfold s'
    split
    · exact ok.clearMine
    · exact ok.clearMine
    · exact ok.clearMine
    · exact ok
  split
  · exact hs'.leaveGate.msync.stall
  split
  · exact ok.clearMine.leaveGate.setCtxAt.cancelOther.endFuture
  · refine State.Ok.endFuture ?_
    split
    · exact ok.clearMine.leaveGate.setCtxAt.cancelOther.post
    · exact ok.clearMine.leaveGate.setCtxAt.cancelOther
  · exact ok.leaveGate.setCtxAt.restartTask
  · exact ok.leaveGate.setCtxAt.taskDone
  · exact ok.clearMine.leaveGate.setCtxAt.endMember

/-! ### Machine/FutureFam.lean -/

theorem State.Ok.sendOut {fut : Option (Nat × Nat)} (ok : s.Ok) : (s.sendOut f fut).Ok := by
  unfold State.sendOut
  split
  · split
    · exact ok.setMe
    · exact ok.launchFlight
  · exact ok.launchFlight

theorem State.Ok.spawnTo {pri : Nat} {twin rst : Bool} {tiles : List Nat} {pkg elig : Nat} (ok : s.Ok) :
    (s.spawnTo d a b pri twin rst tiles pkg cl elig).Ok := by
  unfold State.spawnTo
  extract_lets
  split
  · exact ok.takeTrap
  split
  · exact ok.takeTrap
  next e => exact .ite (ok.futNew.ok e).launchFlight.stall (ok.futNew.ok e).sendOut.setGN.advance

theorem State.Ok.spawnGate {k : Host.Outcome State Fault Refusal} (ok : s.Ok) (hk : NextOk k) :
    NextOk (s.spawnGate a k) := by
  unfold State.spawnGate
  split
  · exact ok.trap
  refine State.Ok.relGate ok ?_
  split
  · exact ok.trap
  split
  · exact ok.trap
  · exact hk

theorem State.Ok.execCallat {pri : Fin 4} (ok : s.Ok) : NextOk (execCallat d a b pri s) := by
  unfold Machine.execCallat
  extract_lets
  refine State.Ok.spawnGate ok ?_
  split
  · exact ok.trap
  split
  · split
    · exact ok.trap
    · exact ok.spawnTo
  split
  · exact ok.trap
  split
  · exact ok.trap
  · exact ok.spawnTo

theorem State.Ok.handleGate {k : Host.Outcome State Fault Refusal} (ok : s.Ok) (hk : NextOk k) :
    NextOk (s.handleGate h k) := by
  unfold State.handleGate
  split
  · exact ok.trap
  split
  · exact ok.trap
  · exact hk

theorem State.Ok.execTouch (ok : s.Ok) : NextOk (execTouch d a s) := by
  unfold Machine.execTouch
  extract_lets
  split
  · exact ok.trap
  split
  · exact ok.trap
  split
  · exact ok.trap
  split
  · exact ok.trap
  split
  · exact ok.trap
  · exact ok.futureOp

theorem State.Ok.execTtouch (ok : s.Ok) : NextOk (execTtouch d a s) := by
  unfold Machine.execTtouch
  extract_lets
  split
  · exact ok.setGN.setGN.advance
  · exact ok.futureOp

theorem State.Ok.sendCancel (ok : s.Ok) : (s.sendCancel d h tree).Ok := ok.launchFlight.stall

theorem State.Ok.execFnew (ok : s.Ok) : NextOk (execFnew d s) := by
  unfold Machine.execFnew
  split
  · exact ok.trap
  next e =>
    extract_lets _ t
    have ht : t.Ok := by
      unfold t
      split
      · exact .ite (ok.futNew.ok e).setMe (ok.futNew.ok e)
      · exact ok.futNew.ok e
    exact ht.setGN.advance

theorem State.Ok.execChkc (ok : s.Ok) : NextOk (execChkc s) := by
  unfold Machine.execChkc
  split
  · exact ok.trap
  · exact ok.advance

theorem State.Ok.yieldTask (ok : s.Ok) : (s.yieldTask).Ok := .ite ok.leaveGate.advance.parkTask ok.leaveGate.waitAll

theorem State.Ok.execYield (ok : s.Ok) : NextOk (execYield s) := by
  unfold Machine.execYield
  split
  · exact ok.trap
  split
  · exact ok.advance
  split
  · exact ok.trap
  · exact ok.yieldTask

theorem State.Ok.execTerm (ok : s.Ok) : NextOk (execTerm a s) := by
  unfold Machine.execTerm
  split
  · exact ok.trap
  extract_lets
  split
  · exact ok.leaveGate.waitAll
  split
  next e => exact ok.leaveGate.raiseLogged.some e
  · exact ok.leaveGate.endFuture

theorem State.Ok.execSend {n : Fin 9} (ok : s.Ok) : NextOk (execSend d a b n s) := by
  unfold Machine.execSend
  extract_lets
  split
  · exact ok.trap
  split
  · exact ok.trap
  split
  · exact ok.trap
  split
  · split
    · exact ok.trap
    split
    · exact ok.trap
    split
    · exact ok.sendOut.advance
    · exact ok.counted (fun _ hu => hu.launchFlight.advance)
  split
  · exact ok.trap
  split
  · exact ok.trap
  split
  · exact ok.sendOut.advance
  · exact ok.counted (fun _ hu => hu.launchFlight.advance)

theorem State.Ok.execHret (ok : s.Ok) : NextOk (execHret s) := by
  unfold Machine.execHret
  split
  · exact ok.trap
  split
  · exact ok.endActivation
  split
  · exact ok.stall
  extract_lets t _ _ t''
  have ht : t.Ok := ok.foldl fun _ ht _ => ht.nearRun
  have ht'' : t''.Ok := ht.setMe.foldl fun _ ht _ => ht.launchFlight
  exact ht''.endActivation

theorem State.Ok.execCwait (ok : s.Ok) : NextOk (execCwait d a s) := by
  unfold Machine.execCwait
  split
  · exact ok.trap
  split
  · exact ok.trap
  extract_lets +onlyGivenNames ea
  split
  · exact ok.trap
  split
  · exact ok.trap
  split
  · exact ok.trap
  split
  · exact ok.trap
  split
  · exact ok.undrain.setGN.advance.acquire
  split
  · exact State.Ok.stall (ok.same rfl rfl)
  extract_lets r _ t
  have hr : r.1.Ok := ok.leaveGate
  clear_value r
  split
  · exact hr.waitAll
  · exact State.Ok.parkTask (hr.same rfl rfl)

/-! ### Machine/Engine.lean -/

theorem State.Ok.engineLine (ok : s.Ok) : (s.engineLine id part va n bar).Ok := by
  unfold State.engineLine
  split
  · trivial
  split
  · trivial
  split
  · exact ok
  split
  · trivial
  split
  · trivial
  next e => exact ok.agentFetch.ok e

theorem State.Ok.engineRead (ok : s.Ok) : (s.engineRead id part va n bar).Ok := by
  unfold State.engineRead
  refine foldl_keeps (p := Got.Ok) ok fun _ hacc _ => ?_
  split
  · have hu : State.Ok _ := hacc
    split
    next e => exact hu.engineLine.got e
    · exact hu.engineLine
  · exact hacc

theorem State.Ok.engineSrcs {srcs : List Src} (ok : s.Ok) : (s.engineSrcs id part srcs bar).Ok := by
  unfold State.engineSrcs
  refine foldl_keeps (p := Got.Ok) ok fun _ hacc _ => ?_
  split
  · have hu : State.Ok _ := hacc
    split
    · exact hu
    split
    next e => exact hu.engineRead.got e
    · exact hu.engineRead
  · exact hacc

theorem State.Ok.setCmd (ok : s.Ok) : (s.setCmd c).Ok := ok.same rfl rfl
theorem State.Ok.wakeCluster (ok : s.Ok) : (s.wakeCluster cl).Ok := ok.foldl fun _ ht _ => ht.wakeCore

theorem State.Ok.releaseHeld (ok : s.Ok) : (s.releaseHeld id).Ok := by
  unfold State.releaseHeld
  split
  · exact ok
  extract_lets
  split
  · exact ok
  refine ok.setCmd.foldl fun _ ht _ => ?_
  split
  · exact ht.wakeCluster
  · exact ht

theorem State.Ok.rewrite (ok : s.Ok) : (s.rewrite loc v).Ok := ok.wr.poisonAt
theorem State.Ok.objAdd {cmds : Nat} (ok : s.Ok) : (s.objAdd loc bytes cmds).Ok := ok.rewrite
theorem State.Ok.objFail {dmask : Nat} (ok : s.Ok) : (s.objFail loc cause dmask).Ok := ok.rewrite

theorem State.Ok.cwTake {cmds : Nat} (ok : s.Ok) : (s.cwTake c bytes cmds).Ok := by
  unfold State.cwTake
  split
  · split
    · exact ok.objAdd
    · exact ok
  · exact ok

theorem State.Ok.cmdFail {lost : Nat} (ok : s.Ok) : (s.cmdFail id dest cause addr lost).Ok := by
  unfold State.cmdFail
  split
  · exact ok
  extract_lets
  refine State.Ok.releaseHeld ?_
  split
  · split
    · exact ok.setCmd.cwTake.objFail
    · exact ok.setCmd.cwTake
  · exact ok.setCmd.cwTake

theorem State.Ok.engineMove (ok : s.Ok) : (s.engineMove id).Ok := by
  unfold State.engineMove
  split
  · exact ok
  split
  · exact ok
  split
  · exact .ite ok ok.setCmd
  split
  · exact ok
  · exact ok.cmdFail
  next e => exact .ite ok.cmdFail ((ok.engineSrcs.got e).setCmd.foldl fun _ hu _ => hu.launchFlight)

theorem State.Ok.enginePut {w : EngWrite} (ok : s.Ok) :
    ResultOk (fun _ => True) State.Ok (s.enginePut core ctx w) := by
  unfold State.enginePut
  extract_lets _ drawn
  have hdrawn : ∀ t, t.Ok → (drawn t).Ok := fun _ ht => State.Ok.ite ht (ht.same rfl rfl)
  split
  · trivial
  split
  · exact hdrawn _ ok.nearWr.poisonAt
  split
  · trivial
  next e => exact hdrawn _ (ok.translate.ok e).gPut.poisonAt

theorem State.Ok.engineWriteDone (ok : s.Ok) : (s.engineWriteDone id).Ok := by
  unfold State.engineWriteDone
  split
  · split
    · exact ok.dropFlight
    split
    · exact ok
    split
    · exact ok.dropFlight.cmdFail
    next e => exact (ok.enginePut.ok e).dropFlight.cwTake.releaseHeld
  · exact ok

theorem State.Ok.holdFor (ok : s.Ok) : (s.holdFor c cause addr).Ok := ok.holdFailed
theorem State.Ok.finishFuture (ok : s.Ok) : (s.finishFuture core part h st v).Ok := .ite ok.sendFinish ok

theorem State.Ok.drainFailed (ok : s.Ok) : (s.drainFailed c cause).Ok := by
  unfold State.drainFailed
  split
  · exact ok.finishFuture
  · exact ok.finishFuture
  · exact ok

theorem State.Ok.bumpErrs (ok : s.Ok) : (s.bumpErrs part q).Ok := by
  unfold State.bumpErrs
  extract_lets
  split
  · exact ok
  next e =>
    split
    · exact ok.agentRead.ok e
    next e' => exact (ok.agentRead.ok e).agentWrite.ok e'

theorem State.Ok.reportCmd (ok : s.Ok) : (s.reportCmd c).Ok := by
  unfold State.reportCmd
  extract_lets t _ t''
  have ht : t.Ok := ok.same rfl rfl
  have ht'' : t''.Ok := by
    unfold t''
    split
    · split
      · exact ht.cwTake.finishFuture
      · exact ht.cwTake
    extract_lets _ t''''
    have ht'''' : t''''.Ok := by
      unfold t''''
      split
      · exact ht.cwTake.drainFailed.finishFuture
      · exact ht.cwTake.drainFailed
    exact .ite ht''''.holdFor ht''''
  split
  · exact ht''.setCntAt.wakeCluster
  · exact .wakeCluster (.ite ht.bumpErrs ht)
  · exact ht

theorem State.Ok.cmdComplete (ok : s.Ok) : (s.cmdComplete id).Ok := by
  unfold State.cmdComplete
  split
  · exact ok
  split
  · exact ok
  split
  · exact ok.setCmd.launchFlight
  · exact ok.reportCmd

theorem State.Ok.pushCmd (ok : s.Ok) : (s.pushCmd c).Ok := .ite (.setMe (ok.same rfl rfl)) (.setMe (ok.same rfl rfl))

theorem State.Ok.enqueue {cw : CWord} {op : CmdOp} {k : Nat → State → State} (ok : s.Ok)
    (hk : ∀ n t, t.Ok → (k n t).Ok) :
    (s.enqueue cw op bytes k).Ok := by
  unfold State.enqueue
  split
  · exact ok.takeTrap
  split
  · exact ok.stall
  extract_lets _ t'
  have ht' : t'.Ok := by
    unfold t'
    split
    · exact ok.setCnt.objAdd
    · exact ok.setCnt
  exact hk _ _ ht'.pushCmd

theorem State.Ok.issueCmd {cw : CWord} {op : CmdOp} (ok : s.Ok) : (s.issueCmd cw op bytes).Ok :=
  ok.enqueue (fun _ _ ht => ht.advance)

theorem State.Ok.tileCmd {checks : List (Option (Nat × Nat))} {op : CmdOp} (ok : s.Ok) :
    NextOk (s.tileCmd checks cw op bytes) := by
  unfold State.tileCmd
  refine State.Ok.unitGate ok ?_
  split
  · exact ok.trap
  · exact ok.issueCmd

theorem State.Ok.popMat (ok : s.Ok) : (s.popMat core).Ok := ok.setCore.wakeCore
theorem State.Ok.popCopy (ok : s.Ok) : (s.popCopy core).Ok := ok.setCore.wakeCore
theorem State.Ok.runCmd (ok : s.Ok) : (s.runCmd c).Ok := ok.same rfl rfl
theorem State.Ok.runFailed (ok : s.Ok) : (s.runFailed c cause addr).Ok := ok.runCmd.cmdFail

/-! ### Machine/Matrix.lean -/

theorem State.Ok.setGroup {g : RowGroup} (ok : s.Ok) : (s.setGroup cl n g).Ok := ok.setCluster

theorem State.Ok.pushPlain {op : CmdOp} {k : Nat → State → State} (ok : s.Ok) (hk : ∀ n t, t.Ok → (k n t).Ok) :
    (s.pushPlain op k).Ok :=
  .ite ok.stall (hk _ _ ok.pushCmd)

theorem State.Ok.execMfmt {accm : Bool} {rc : RoundMode} {bf af : Fin 16} {gAS gAB gBS gBB : GReg} (ok : s.Ok) :
    NextOk (execMfmt accm rc bf af gAS gAB gBS gBB s) := by
  unfold Machine.execMfmt
  extract_lets
  refine State.Ok.unitGate ok ?_
  split
  · exact ok.trap
  · exact ok.pushPlain (fun _ _ ht => ht.advance)

theorem State.Ok.execMalloc {t g0 ng : Fin 8} {kind : GroupKind} {ks : Fin 4} (ok : s.Ok) :
    NextOk (execMalloc d t g0 ng kind ks s) := by
  unfold Machine.execMalloc
  refine State.Ok.unitGate ok ?_
  split
  · exact ok.trap
  · exact ok.pushPlain (fun _ _ hu => hu.stall)

theorem State.Ok.execMfree {t g0 ng : Fin 8} (ok : s.Ok) : NextOk (execMfree t g0 ng s) := by
  unfold Machine.execMfree
  extract_lets
  refine State.Ok.unitGate ok ?_
  split
  · exact ok.trap
  split
  · exact ok.trap
  · exact ok.pushPlain (fun _ _ hu => State.Ok.advance (hu.foldl fun _ hv _ => hv.setGroup))

theorem State.Ok.execMquant {t : Fin 8} {nr : Fin 128} {dst : DrainDst} {qf : QuantFmt} {gSD : GReg} (ok : s.Ok) :
    NextOk (execMquant t row0 nr dst qf gD gSD cw s) := by
  unfold Machine.execMquant
  extract_lets
  split <;> exact ok.tileCmd

theorem State.Ok.execMthr {t : Fin 8} {gF : GReg} {d : VReg} (ok : s.Ok) : NextOk (execMthr row0 t gF d cw s) := by
  unfold Machine.execMthr
  extract_lets
  refine State.Ok.unitGate ok ?_
  split
  · exact ok.trap
  · exact ok.enqueue (fun _ _ hu => hu.stall)

theorem State.Ok.execAcct {t : Fin 8} {nr : Fin 128} {df : Bool} {gSD : GReg} (ok : s.Ok) :
    NextOk (execAcct t row0 nr df gD gSD cw s) := by
  unfold Machine.execAcct
  extract_lets
  refine State.Ok.unitGate ok ?_
  split
  · exact ok.trap
  · exact State.Ok.ite ok.stall (ok.enqueue (fun _ _ hu => hu.setCnt.advance))

theorem State.Ok.releaseRows {rs : List (Nat × Nat)} (ok : s.Ok) : (s.releaseRows core rs).Ok := ok.releaseWhere
theorem State.Ok.releaseDue (ok : s.Ok) : (s.releaseDue cl).Ok := ok.releaseWhere

theorem State.Ok.reachWedge (ok : s.Ok) : (s.reachWedge core c).Ok := by
  unfold State.reachWedge
  extract_lets _ _ _ _ _ _ _ _ s'' w'
  have hs'' : s''.Ok := ok.releaseDue.releaseWhere
  split
  · exact ok.releaseDue.setCluster.releaseWhere.popMat
  split
  · exact hs''.setCluster.popMat
  split
  · exact hs''
  clear_value w'
  split
  · exact hs''.releaseWhere
  · exact hs''

theorem State.Ok.execWedgeHoldExpiry (ok : s.Ok) : NextOk (execWedgeHoldExpiry cl entry s) := by
  unfold Machine.execWedgeHoldExpiry
  split
  · exact State.Ok.ite ok.releaseWhere ok
  · exact ok

theorem State.Ok.execWedgePriorityRelease (ok : s.Ok) : NextOk (execWedgePriorityRelease cl entry s) := by
  unfold Machine.execWedgePriorityRelease
  split
  · change State.Ok _
    split
    · exact .ite ok.releaseWhere ok
    · exact ok
  · exact ok

theorem State.Ok.mallocAt {t g0 ng k : Nat} (ok : s.Ok) : (s.mallocAt core t g0 ng kind k).1.Ok := by
  unfold State.mallocAt
  extract_lets
  split
  · exact ok
  · exact ok.foldl fun _ hu _ => hu.setGroup.wrFree

theorem State.Ok.zeroRows {t row0 nr : Nat} (ok : s.Ok) : (s.zeroRows cl t row0 nr).Ok :=
  .foldl (ok.foldl fun _ hu _ => hu.wr) fun _ hv _ => .ite hv.setGroup hv

theorem State.Ok.startMatrix (ok : s.Ok) : (s.startMatrix core).Ok := by
  unfold State.startMatrix
  extract_lets
  split
  · exact ok
  split
  · exact ok
  extract_lets
  split
  · exact ok.releaseRows.setCore.popMat
  split
  · exact ok.releaseRows
  split
  · extract_lets r _ u
    have hr : r.1.Ok := ok.releaseRows.mallocAt
    have hu : u.Ok := hr.same rfl rfl
    exact hu.popMat
  · exact .ite ok.releaseRows (.popMat (ok.releaseRows.foldl fun _ hu _ => hu.setGroup))
  · exact ok.releaseRows.zeroRows.runCmd.popMat
  · exact .ite ok.releaseRows.reachWedge ok.releaseRows

theorem State.Ok.fetchTile (ok : s.Ok) : (s.fetchTile core ctx part va n).Ok := by
  unfold State.fetchTile
  split
  next e =>
    split
    · exact ok.engineRead.got e
    · trivial
  · exact ok.engineRead

theorem State.Ok.opVec {f i sBase : Nat} (ok : s.Ok) : (s.opVec core ctx part f va i sBase bBase).Ok := by
  unfold State.opVec
  split
  · trivial
  · trivial
  next e =>
    split
    · exact ok.fetchTile.got e
    split
    · exact ok.fetchTile.got e
    extract_lets
    split
    · trivial
    · trivial
    next e' =>
      split
      · trivial
      split
      · trivial
      · trivial
      next e'' =>
        split
        · trivial
        · exact ((ok.fetchTile.got e).fetchTile.got e').fetchTile.got e''

theorem State.Ok.opBands {f i0 : Nat} (ok : s.Ok) : (s.opBands core ctx part f bBase i0 n).Ok := by
  unfold State.opBands
  split
  · exact ok
  refine foldl_keeps (p := OpGot.Ok) ok fun _ hacc _ => ?_
  split
  · have ht : State.Ok _ := hacc
    extract_lets
    split
    · trivial
    · trivial
    next e =>
      split
      · trivial
      · exact ht.fetchTile.got e
  · exact hacc

theorem State.Ok.opVecs {f base stride sBase i0 : Nat} (ok : s.Ok) :
    (s.opVecs core ctx part f base stride sBase bBase i0 n).Ok := by
  unfold State.opVecs
  refine foldl_keeps (p := OpGot.Ok) ok.opBands fun _ hacc _ => ?_
  split
  · have ht : State.Ok _ := hacc
    split
    next e => exact ht.opVec.got e
    · exact ht.opVec
  · exact hacc

theorem State.Ok.macRow {t lin : Nat} {accm : Bool} {a : OpVec} {bs : List OpVec} (ok : s.Ok) :
    (s.macRow cl t lin accm a bs).Ok :=
  ok.wr.foldl fun _ hv _ => .ite hv.setGroup hv

theorem State.Ok.runMember {b : List OpVec} (ok : s.Ok) : SomeOk State.Ok (s.runMember cl c b) := by
  unfold State.runMember
  split
  · extract_lets
    split
    · trivial
    · exact ok.runFailed
    next e =>
      split
      · exact (ok.opVecs.got e).runFailed
      · exact State.Ok.runCmd ((ok.opVecs.got e).foldl fun _ hv _ => hv.macRow)
  · exact ok

theorem State.Ok.runMma {ms : List Cmd} (ok : s.Ok) : SomeOk State.Ok (s.runMma cl ms) := by
  unfold State.runMma
  split
  · exact ok
  split
  · split
    · trivial
    · exact ok.foldl fun _ ht _ => ht.runFailed
    next e =>
      exact foldl_keeps (p := SomeOk State.Ok) (ok.opVecs.got e) fun _ hacc _ => hacc.bind fun _ hu => hu.runMember
  · exact ok

theorem State.Ok.gmmaRead {a sa sb w : Nat} {bands : List (Nat × Nat)} (ok : s.Ok) :
    ResultOk (fun _ => True) (·.1.Ok) (s.gmmaRead c a sa sb w q bands) := by
  induction bands generalizing s q with
  | nil => exact ok
  | cons x rest ih =>
    obtain ⟨b, n⟩ := x
    unfold State.gmmaRead
    split
    · exact ih ok
    extract_lets b'
    split
    · trivial
    split
    · trivial
    split
    · trivial
    · trivial
    next e =>
      split
      · trivial
      · trivial
      next e' =>
        split
        · trivial
        next e'' =>
          have hu : State.Ok _ := (ih ((ok.opVecs.got e).opVecs.got e')).ok e''
          exact hu

theorem State.Ok.runGmma (ok : s.Ok) : SomeOk State.Ok (s.runGmma cl c) := by
  unfold State.runGmma
  split
  · extract_lets
    split
    · trivial
    · exact ok.runFailed
    next e =>
      extract_lets
      split
      · exact ok.runFailed
      split
      · exact ok.runFailed
      split
      · exact ok.runFailed
      split
      · trivial
      · exact ok.runFailed
      next e' =>
        split
        · exact ok.runFailed
        · exact State.Ok.runCmd (((ok.engineRead.got e).gmmaRead.ok e').foldl fun _ hv _ => hv.foldl fun _ hv _ =>
          hv.macRow)
  · exact ok

theorem State.Ok.runDrain (ok : s.Ok) : (s.runDrain cl c).Ok := by
  unfold State.runDrain
  extract_lets
  split
  · exact .ite ok.runFailed ok.runCmd
  · exact .ite (.ite ok.runFailed ok.runCmd) (.ite ok.runFailed ok.runCmd)
  · exact ok

theorem State.Ok.runRank (ok : s.Ok) : (s.runRank cl c).Ok := by
  unfold State.runRank
  split
  · exact .ite ok.runFailed (.runCmd (ok.foldl fun _ hu _ => .ite hu.wr.setGroup hu.wr))
  · exact ok

theorem State.Ok.runThr (ok : s.Ok) : (s.runThr cl c).Ok := by
  unfold State.runThr
  split
  · exact .ite (.runFailed (ok.same rfl rfl)) (.runCmd (ok.same rfl rfl))
  · exact ok

theorem State.Ok.dropTl (ok : s.Ok) : (s.dropTl c).Ok := ok.setCntAt.wakeCore

theorem State.Ok.runAcct (ok : s.Ok) : (s.runAcct cl c).Ok := by
  unfold State.runAcct
  split
  · extract_lets
    split
    · exact ok.runFailed.cmdComplete.dropTl
    · exact ok.dropTl.runCmd.foldl fun _ hu _ => hu.foldl fun _ hu _ => hu.launchFlight
  · exact ok

theorem State.Ok.runHead (ok : s.Ok) : SomeOk State.Ok (s.runHead cl c) := by
  unfold State.runHead
  split
  · exact ok.runMma
  · exact ok.runGmma
  · exact ok.runDrain
  · exact ok.runDrain
  · exact ok.runRank
  · exact ok.runThr
  · exact ok.runAcct
  · trivial

theorem State.Ok.arbiterChoice (ok : s.Ok) : SomeOk (·.1.Ok) (s.arbiterChoice cl) := by
  unfold State.arbiterChoice
  extract_lets
  split
  · trivial
  · exact .map fun _ => ok.setCluster

theorem State.Ok.arbiterPick (ok : s.Ok) : (s.arbiterPick cl).Ok := by
  unfold State.arbiterPick
  extract_lets u
  have hu : u.Ok := ok.releaseDue
  split
  · exact hu
  next e =>
    have ht : State.Ok _ := hu.arbiterChoice.some e
    split
    · split
      · exact ht.setCluster.runMma.getD hu
      · exact hu
    extract_lets core
    split
    · exact ht.popMat.runHead.getD hu
    · exact hu

/-! ### Machine/Copies.lean -/

theorem State.Ok.tcopyGo {cw : CWord} (ok : s.Ok) : (s.tcopyGo ea cw bs).Ok := by
  unfold State.tcopyGo
  extract_lets
  split
  · exact ok.takeTrap
  · exact ok.issueCmd

theorem State.Ok.indexed {gather : Bool} {gS gI gN gRB gSS gDS : GReg} (ok : s.Ok) :
    NextOk (s.indexed gather gS gD gI gN gRB gSS gDS cw) :=
  ok.tileCmd

theorem State.Ok.startIndexed {idx : Nat} {plan : List Nat → List Chunk} (ok : s.Ok) :
    SomeOk State.Ok (s.startIndexed c idx n plan) := by
  unfold State.startIndexed
  split
  · trivial
  · exact ok.runFailed
  next e =>
    split
    · exact ok.runFailed
    · exact (ok.engineRead.got e).runCmd

theorem State.Ok.launchCopy (ok : s.Ok) : SomeOk State.Ok (s.launchCopy c) := by
  unfold State.launchCopy
  split
  · exact ok.runCmd
  · exact ok.startIndexed
  · exact ok.startIndexed
  · exact ok.runCmd
  · exact ok.runCmd
  · exact ok.runCmd
  · trivial

/-! ### Machine/Shelf.lean -/

theorem State.Ok.closeShelf (ok : s.Ok) : (s.closeShelf cl die).Ok := by
  unfold State.closeShelf
  extract_lets
  split
  · exact ok
  · exact ok.setCluster.launchFlight

theorem State.Ok.closeOther (ok : s.Ok) : (s.closeOther cl die rb).Ok := by
  unfold State.closeOther
  split
  · exact .ite ok ok.closeShelf
  · exact ok

theorem State.Ok.appendRow {dock : Nat} (ok : s.Ok) : (s.appendRow cl die part rb dock row).Ok :=
  .ite ok.setCluster.closeShelf ok.setCluster

theorem State.Ok.putRow {token : Nat} (ok : s.Ok) : SomeOk State.Ok (s.putRow c ea token die rb) := by
  unfold State.putRow
  extract_lets
  split
  · trivial
  · exact ok.runFailed
  next e =>
    split
    · exact ok.runFailed
    next e' => exact ((ok.engineRead.got e).agentRead.ok e').appendRow.runCmd

theorem State.Ok.closeDies {dies : List Nat} (ok : s.Ok) : (s.closeDies c dies).Ok := by
  unfold State.closeDies
  extract_lets _ r
  have hr : r.1.Ok := by
    unfold r
    refine State.Ok.foldlFst ok fun _ hacc _ => ?_
    split
    · exact hacc.closeShelf
    · exact hacc
  exact hr.runCmd

theorem State.Ok.startCopy (ok : s.Ok) : (s.startCopy core).Ok := by
  unfold State.startCopy
  split
  · exact ok
  split
  · exact ok
  split
  · exact ok.closeOther.popCopy.putRow.getD ok.closeOther
  · exact ok.popCopy.closeDies
  · exact ok.popCopy.launchCopy.getD ok

theorem State.Ok.execCommandStart {eng : Engine} (ok : s.Ok) : NextOk (execCommandStart core eng s) := by
  unfold Machine.execCommandStart
  change State.Ok _
  split
  · exact ok.startMatrix
  · exact ok.startCopy

theorem State.Ok.shelfputGo {token : Nat} (ok : s.Ok) : (s.shelfputGo ea token va bs).Ok := by
  unfold State.shelfputGo
  split
  · exact ok.takeTrap
  split
  · exact ok.takeTrap
  · exact ok.issueCmd

theorem State.Ok.execShelfput (ok : s.Ok) : NextOk (execShelfput a b s) := by
  unfold Machine.execShelfput
  extract_lets
  refine State.Ok.unitGate ok ?_
  split
  · exact ok.trap
  split
  · exact ok.stall
  · exact ok.request

theorem State.Ok.execShelfTimer (ok : s.Ok) : NextOk (execShelfTimer cl die s) := by
  unfold Machine.execShelfTimer
  split
  · exact State.Ok.ite ok.closeShelf ok
  · exact ok

theorem State.Ok.fifoPush (ok : s.Ok) : (s.fifoPush cl bank n).Ok := ok.wr.wr
theorem State.Ok.fifoPop (ok : s.Ok) : (s.fifoPop cl bank n).Ok := ok.wr.wr
theorem State.Ok.dockPost (ok : s.Ok) : (s.dockPost x cause pc addr entry).Ok := ok.post

theorem State.Ok.ringRow {e : Expert} (ok : s.Ok) : ResultOk State.Ok (·.1.Ok) (s.ringRow x e row) := by
  unfold State.ringRow
  split
  · exact ok.dockPost
  next e =>
    have ht : State.Ok _ := ok.agentRead.ok e
    extract_lets w nent tail at_ r u
    have hr : r.1.Ok := by
      refine State.Ok.foldlFst ht fun acc hacc a => ?_
      split
      · exact hacc
      extract_lets o n
      split
      · exact hacc
      next e' => exact (State.Ok.agentStore hacc).ok e'
    have hu : u.Ok := by
      unfold u
      split
      · exact ht
      next e' => exact ht.agentWrite.ok e'
    clear_value r
    split
    · split
      · exact hr.dockPost
      split
      · exact hr.dockPost
      next e' => exact hr.agentWrite.ok e'
    · exact hu.dockPost

theorem State.Ok.unpackRow (ok : s.Ok) : (s.unpackRow x row).Ok := by
  unfold State.unpackRow
  extract_lets va
  split
  · exact ok.dockPost
  next e =>
    have ht : State.Ok _ := ok.agentRead.ok e
    split
    · exact ht.dockPost
    split
    · exact ht.dockPost
    split
    · exact ht.dockPost
    split
    · exact ht.dockPost
    split
    · exact ht.dockPost
    extract_lets _ _ placed
    have hplaced : ResultOk State.Ok (·.1.Ok) placed := by
      unfold placed
      split
      · exact ht.wr.poisonAt.fifoPush
      · exact ht.ringRow
    clear_value placed
    split
    · exact hplaced
    · exact State.Ok.launchFlight hplaced

theorem State.Ok.shelfDone (ok : s.Ok) : (s.shelfDone id).Ok := ok.same rfl rfl

theorem State.Ok.unpackRows (ok : s.Ok) : (s.unpackRows x).1.Ok := by
  unfold State.unpackRows
  refine State.Ok.foldlFst ok fun _ hacc _ => ?_
  split
  · exact hacc
  · exact hacc.unpackRow

theorem State.Ok.unpackOn (ok : s.Ok) : (s.unpackOn id x).Ok :=
  .ite ok (.ite ok.unpackRows.dropFlight.shelfDone ok.unpackRows.become)

theorem State.Ok.dockShelf (ok : s.Ok) : (s.dockShelf id).Ok := by
  unfold State.dockShelf
  split
  · split
    · exact ok
    extract_lets
    split
    · exact ok.dropFlight.shelfDone.dockPost
    · exact .ite ok.dropFlight.shelfDone.dockPost (.unpackOn (ok.same rfl rfl))
  · exact ok.unpackOn
  · exact ok

/-! ### Machine/Arrive.lean -/

theorem State.Ok.answer {a : Answer} (ok : s.Ok) : (s.answer id back va a).Ok := by
  unfold State.answer
  extract_lets _ t
  have ht : t.Ok := by
    unfold t
    split
    · exact ok.become
    · exact ok.same rfl rfl
  exact ht.same rfl rfl

theorem State.Ok.refuse (ok : s.Ok) : (s.refuse id r cause aux).Ok := ok.answer

theorem State.Ok.record {a : Agent} (ok : s.Ok) : (s.record a seq v).Ok := by
  unfold State.record
  split
  · exact ok
  extract_lets
  split
  · exact ok.setCore
  · exact ok.setCluster
  · exact ok.setCluster

theorem State.Ok.onceAt {a : Agent} {run : State → Except (Nat × Nat) (State × Nat)} (ok : s.Ok)
    (hrun : ∀ t, t.Ok → ResultOk (fun _ => True) (·.1.Ok) (run t)) :
    (s.onceAt a id r run).Ok := by
  unfold State.onceAt
  extract_lets check
  clear_value check
  split
  · exact ok.answer
  · exact ok.refuse
  split
  · exact ok.refuse
  next e => exact ((hrun _ ok).ok e).record.answer

theorem State.Ok.noteRelease {t : State} (ht : t.Ok) : (s.noteRelease id r loc t).Ok := by
  unfold State.noteRelease
  extract_lets _ t'
  have ht' : t'.Ok := .ite ht.markReleased ht
  split
  · refine ht'.foldl fun _ ht'' _ => ?_
    split
    · exact ht''.setCtxAt
    · exact ht''
  · exact ht'

theorem State.Ok.performGlobal {pa : Nat} {uc : Bool} (ok : s.Ok) :
    ResultOk (fun _ => True) (·.1.Ok) (s.performGlobal id r pa uc) := by
  unfold State.performGlobal
  split
  · split
    · trivial
    extract_lets _ t
    have ht : t.Ok := .ite ok ok.gPut
    change State.Ok _
    dsimp only
    refine State.Ok.noteRelease ?_
    split
    · exact ht.poisonAt
    · exact ht
  split
  · trivial
  extract_lets _ t
  have ht : t.Ok := .ite ok ok.gPut
  change State.Ok _
  dsimp only
  refine State.Ok.noteRelease ?_
  split
  · exact ht.poisonAt
  · exact ht

theorem State.Ok.longLoad (ok : s.Ok) : (s.longLoad id n r).Ok := by
  unfold State.longLoad
  split
  · exact ok
  split
  · exact ok.answer
  next e => exact (ok.agentReadAll.ok e).answer

theorem State.Ok.toWalker (ok : s.Ok) : (s.toWalker id slice r).Ok := ok.become.setDie

theorem State.Ok.withTlb {e : TlbEnt} (ok : s.Ok) : (s.withTlb id slice r e).Ok := by
  unfold State.withTlb
  split
  · exact .ite ok.dropFlight ok.refuse
  split
  · exact ok.become
  extract_lets t
  have ht : t.Ok := .ite ok.markDirty ok
  split
  · exact ht.refuse
  next e => exact (ht.performGlobal.ok e).answer

theorem State.Ok.homeAccess (ok : s.Ok) : (s.homeAccess id).Ok := by
  unfold State.homeAccess
  split
  · split
    · exact ok
    split
    · split
      · exact ok.longLoad
      extract_lets
      split
      · exact ok.withTlb
      · exact ok.toWalker
    extract_lets
    split
    · exact ok.withTlb
    · exact ok.toWalker
  · exact ok

theorem State.Ok.pageWalk (ok : s.Ok) : (s.pageWalk id).Ok := by
  unfold State.pageWalk
  split
  · extract_lets
    split
    · exact ok
    split
    · exact .ite ok.setDie.dropFlight ok.setDie.refuse
    · exact ok.setDie.keepWalk.fillTlb.become
  · exact ok

theorem State.Ok.dirtyFor (ok : s.Ok) : ResultOk (fun _ => True) State.Ok (s.dirtyFor slice part va) := by
  unfold State.dirtyFor
  split
  · exact ok.markDirty
  split
  · exact ok.setPteBit
  · trivial

theorem State.Ok.atomicAtSlice (ok : s.Ok) : (s.atomicAtSlice id).Ok := by
  unfold State.atomicAtSlice
  split
  · split
    · split
      · exact ok
      refine ok.onceAt fun t ht => ?_
      extract_lets writes
      split
      · trivial
      next e => exact ((ResultOk.ite ht.dirtyFor (.pure ht)).ok e).performGlobal.mapError
    · exact ok
  · exact ok

theorem State.Ok.noteRefusal (ok : s.Ok) : (s.noteRefusal core src).Ok := .ite ok ok.setCore

theorem State.Ok.inboxPut {sys : SysOp} {hpc seq : Nat} {pay : List Nat} (ok : s.Ok) :
    (s.inboxPut core src sys part hpc word seq pay).Ok :=
  ok.setCore.wr

theorem State.Ok.inboxAccess (ok : s.Ok) : (s.inboxAccess id r core).Ok :=
  .ite ok.become.noteRefusal ok.become.inboxPut

theorem State.Ok.plainAt (ok : s.Ok) : (s.plainAt id r cl u off).Ok := by
  unfold State.plainAt
  split
  · exact ok
  split
  · exact ok.refuse
  extract_lets _ t
  have ht : t.Ok := by
    unfold t
    split
    · exact ok.nearRun.poisonAt
    · exact ok.nearRun
  exact ht.noteRelease.answer

theorem State.Ok.fifoLoose (ok : s.Ok) : (s.fifoLoose cl bank).Ok := .ite (ok.foldl fun _ ht _ => ht.wrFree) ok

theorem State.Ok.fifoAt (ok : s.Ok) : (s.fifoAt id r cl off).Ok := by
  unfold State.fifoAt
  extract_lets
  split
  · exact .ite ok.fifoPop.answer ok.refuse
  · exact .ite ok.answer (.ite ok.fifoPush.fifoLoose.answer ok.refuse)
  split
  · exact ok.plainAt
  · exact .ite ok.refuse ok.plainAt
  · exact ok.refuse

theorem State.Ok.storeAt (ok : s.Ok) : (s.storeAt id r cl off).Ok := by
  unfold State.storeAt
  split
  · exact ok.refuse
  split
  · exact ok
  split
  · exact ok.refuse
  split
  · exact ok.fifoAt
  split
  · exact .ite ok (ok.onceAt (fun _ ht => ht.nearRun))
  · exact ok.refuse
  · exact ok.refuse
  · exact ok.plainAt

theorem State.Ok.accAt (ok : s.Ok) : (s.accAt id r cl off).Ok := by
  unfold State.accAt
  extract_lets
  split
  · exact ok.refuse
  split
  · exact ok.releaseWhere
  split
  · exact .ite (.ite ok.refuse ok.answer) ok.plainAt
  · exact .ite ok.refuse ok.plainAt
  · exact ok.refuse

theorem State.Ok.nearAt (ok : s.Ok) : (s.nearAt id r cl u off).Ok :=
  .ite ok.accAt (.ite ok.storeAt (.ite ok.inboxAccess ok.plainAt))

theorem State.Ok.appendLog (ok : s.Ok) : (s.appendLog id part f).Ok := by
  unfold State.appendLog
  extract_lets
  split
  split
  · exact ok.answer
  split
  next e => exact (ok.agentWriteAll.fst e).answer
  next e =>
    extract_lets _ t src
    have ht : ∀ x, (t x).Ok := fun _ => (ok.agentWriteAll.fst e).setPart
    have hsrc : src.Ok := ht _
    exact .ite (ht _).dropFlight (.answer (hsrc.same rfl rfl))

theorem State.Ok.guarded {k : State} (ok : s.Ok) (hk : k.Ok) : (s.guarded id cl part f k).Ok := by
  unfold State.guarded
  split
  split
  · exact ok.answer
  split
  · exact hk
  · exact ok.appendLog
  · exact ok.answer

theorem State.Ok.nearArrive (ok : s.Ok) : (s.nearArrive id).Ok := by
  unfold State.nearArrive
  split
  · exact ok.guarded (State.Ok.ite ok ok.nearAt)
  · exact ok

theorem State.Ok.fifoArrive {place : Nat} (ok : s.Ok) : (s.fifoArrive id place).Ok := by
  unfold State.fifoArrive
  split
  · exact .ite ok.storeAt ok
  · exact ok

theorem State.Ok.takeAck (ok : s.Ok) : (s.takeAck id back va cause).Ok := by
  unfold State.takeAck
  extract_lets
  split
  · exact .uncount (.ite ok.dropFlight ok.dropFlight.logFault)
  · split
    · split
      · exact ok.dropFlight.cwTake
      · exact ok.dropFlight
    · exact ok.dropFlight.cmdFail
  · exact ok.dropFlight

theorem State.Ok.holdRoute (ok : s.Ok) : (s.holdRoute dest).Ok := .ite ok (ok.same rfl rfl)

theorem State.Ok.portAccept (ok : s.Ok) : (s.portAccept id dest f back).Ok := by
  unfold State.portAccept
  split
  · exact .ite ok ok.become.setCtxAt.uncount
  · exact ok

theorem State.Ok.acknowledge (ok : s.Ok) : (s.acknowledge id).Ok := by
  unfold State.acknowledge
  split
  · exact ok.takeAck
  · split
    · exact ok.portAccept
    · exact ok
  · exact ok

/-! ### Machine/Fetch.lean -/

theorem State.Ok.noteBody {before : List Nat} (ok : s.Ok) : (s.noteBody before len).Ok := ok.setMyCtx
theorem State.Ok.requestFetch (ok : s.Ok) : (s.requestFetch va).Ok := ok.launchFlight.stall

/-! ### Machine/Control.lean -/

theorem State.Ok.branch {c : Bool} {imm : Imm} (ok : s.Ok) : (s.branch c imm).Ok := .ite ok.setPC ok.advance

theorem State.Ok.repeatBody {stride : Nat} (ok : s.Ok) : (s.repeatBody n stride len).Ok := by
  unfold State.repeatBody
  split
  · split
    · exact ok.setPC
    · exact ok.takeTrap
    · exact ok.requestFetch
  · exact ok.setCx.setCx.setCx.setPC

theorem State.Ok.execJalr {imm : Imm} (ok : s.Ok) : NextOk (execJalr d a imm s) := by
  unfold Machine.execJalr
  extract_lets
  split
  · exact ok.trap
  · exact ok.setPC.setGN

/-! ### Machine/Messages.lean -/

theorem State.Ok.inboxMsg {m : Msg} (ok : s.Ok) : (s.inboxMsg id m).Ok :=
  .ite ok.inboxPut.answer ok.become.noteRefusal

theorem State.Ok.msgArrive {again : Bool} (ok : s.Ok) : (s.msgArrive id again).Ok := by
  unfold State.msgArrive
  split
  · exact .ite ok (ok.guarded ok.inboxMsg)
  · exact ok

theorem State.Ok.freeInbox (ok : s.Ok) : (s.freeInbox core slot).Ok := ok.setCore

theorem State.Ok.activate (ok : s.Ok) : (s.activate core).Ok := by
  unfold State.activate
  split
  · exact ok
  split
  · exact ok
  extract_lets _ _ t'
  have ht' : t'.Ok := ok.freeRegs.startWords.setGAt.foldl fun _ ht _ => ht.setGAt
  exact ht'.poisonAt.setCtxAt.setCore

theorem State.Ok.systemAccess {nibble : Bool} (ok : s.Ok) : (s.systemAccess core nibble).Ok := by
  unfold State.systemAccess
  split
  · extract_lets
    split
    · exact ok
    split
    refine State.Ok.freeInbox ?_
    refine State.Ok.onceAt ok fun _ ht => ?_
    split
    · trivial
    · exact ht.nearRun.noteRelease
  · exact ok

theorem State.Ok.drainWakeAt (ok : s.Ok) : (s.drainWakeAt core).Ok := by
  unfold State.drainWakeAt
  split
  · exact ok.finishFuture.freeInbox
  · exact ok

theorem State.Ok.nowHeld (ok : s.Ok) : (s.nowHeld core ctx).Ok := .ite ok.setCtxAt.setStateAt ok

theorem State.Ok.endSource {p : Post} (ok : s.Ok) : (s.endSource p).Ok := by
  unfold State.endSource
  split
  · exact ok
  · exact .ite ok (.ite (.ite ok.endWith ok) (.ite ok.endWith (.ite ok.nowHeld ok)))

theorem State.Ok.mailPost {p : Post} (ok : s.Ok) : (s.mailPost p).Ok := by
  unfold State.mailPost
  extract_lets _ _ _ _ _ _ t''
  have ht'' : t''.Ok := by
    unfold t''
    split
    · exact ok.wr.setCore.nowHeld
    · exact ok.wr.setCore
  exact .ite ok.setCore.endSource (.ite ht'' ht''.sendFinish)

theorem State.Ok.mailArrive (ok : s.Ok) : (s.mailArrive id).Ok := by
  unfold State.mailArrive
  split
  · exact .ite ok ok.dropFlight.mailPost
  · exact ok

theorem State.Ok.heldEnd (ok : s.Ok) : (s.heldEnd core ctx).Ok := by
  unfold State.heldEnd
  split
  · split
    · exact ok
    extract_lets t
    have ht : t.Ok := by
      unfold t
      split
      · exact ok.clearPair.endOther
      · exact ok
    exact ht.endWith
  · exact ok

theorem State.Ok.barrierDone (ok : s.Ok) : (s.barrierDone core ctx).Ok := by
  unfold State.barrierDone
  split
  · split
    · exact ok
    extract_lets src
    have hsrc : src.Ok := ok.readyAt
    exact .acquire (.advance (hsrc.same rfl rfl))
  · exact ok

theorem State.Ok.timeOutAt {key : Nat} (ok : s.Ok) : (s.timeOutAt key gen word core ctx).Ok := by
  unfold State.timeOutAt
  split
  · split
    · extract_lets src
      have hsrc : src.Ok := ok.readyAt
      exact .takeTrap (hsrc.same rfl rfl)
    · exact ok
  · exact ok

theorem State.Ok.barrierTimeout {unit obj : Nat} (ok : s.Ok) : (s.barrierTimeout lvl unit obj).Ok := by
  unfold State.barrierTimeout
  extract_lets
  split
  · exact ok
  · exact .ite ok (ok.setBarrier.foldl fun _ hu _ => hu.foldl fun _ hu _ => hu.timeOutAt)

/-! ### Machine/FutEvents.lean -/

theorem State.Ok.answerCancel {a : Answer} (ok : s.Ok) : (s.answerCancel root back a).Ok := .answer (ok.same rfl rfl)

theorem State.Ok.cancelFail {b : Bad} (ok : s.Ok) : (s.cancelFail root b).Ok := by
  unfold State.cancelFail
  split
  · exact ok.answerCancel
  · exact ok

theorem State.Ok.settleCancels (ok : s.Ok) : (s.settleCancels).Ok := by
  unfold State.settleCancels
  refine ok.foldl fun _ ht _ => ?_
  split
  · exact .ite ht ht.answerCancel
  · exact ht

theorem State.Ok.cancelCode (ok : s.Ok) : (s.cancelCode root code).Ok := ok.same rfl rfl
theorem State.Ok.cancelWalk {q : FutReq} {b : Bad} (ok : s.Ok) : (s.cancelWalk id q b).Ok :=
  .ite ok.cancelFail ok.answer.settleCancels

theorem State.Ok.cancelHome {q : FutReq} (ok : s.Ok) : (s.cancelHome id q tree).Ok := by
  unfold State.cancelHome
  extract_lets
  split
  · exact ok.cancelWalk
  next e => exact (ok.futFind.ok e).answer.settleCancels
  next e =>
    split
    · exact (ok.futFind.ok e).answer.settleCancels
    split
    · exact .launchFlight (.ite ((ok.futFind.ok e).same rfl rfl) (ok.futFind.ok e).dropFlight)
    split
    · exact ok.cancelWalk
    next e' =>
      split
      · exact ok.cancelWalk
      next e'' => exact (((ok.futFind.ok e).futPut.ok e').finishAt.ok e'').answer.settleCancels

theorem State.Ok.cancelTry (ok : s.Ok) : ResultOk (fun _ => True) (·.1.Ok) (s.cancelTry h code tree) := by
  unfold State.cancelTry
  extract_lets core
  split
  · trivial
  next e => exact ok.futFind.ok e
  next e =>
    have ht : State.Ok _ := ok.futFind.ok e
    split
    · exact ht
    split
    · trivial
    next e' =>
      have hu : State.Ok _ := (ResultOk.ite ht.futPut (.pure ht)).ok e'
      split
      · exact hu
      split
      · trivial
      next e'' => exact hu.finishAt.ok e''

theorem State.Ok.cancelApply {place : Nat} (ok : s.Ok) : (s.cancelApply id h place code root tree).Ok := by
  unfold State.cancelApply
  split
  · exact ok.cancelFail
  next e =>
    extract_lets t
    have ht : t.Ok := .ite (ok.dropFlight.cancelTry.ok e).launchFlight (ok.dropFlight.cancelTry.ok e)
    exact ht.cancelCode.settleCancels

theorem State.Ok.futAt {q : FutReq} (ok : s.Ok) : (s.futAt id q).Ok := by
  unfold State.futAt
  split
  · exact ok.cancelHome
  · exact ok.futApply.answer

theorem State.Ok.futureRequest (ok : s.Ok) : (s.futureRequest id).Ok := by
  unfold State.futureRequest
  split
  · exact .ite ok (ok.guarded ok.futAt)
  · exact .ite ok ok.cancelApply
  · exact ok

theorem State.Ok.unlist (ok : s.Ok) : ResultOk (fun _ => True) State.Ok (s.unlist h tok) := by
  unfold State.unlist
  split
  · exact ok.launchFlight
  split
  · trivial
  next e => exact ok.futFind.ok e
  next e => exact (ok.futFind.ok e).futPut

theorem State.Ok.cancelSaved {k : Task} (ok : s.Ok) : (s.cancelSaved cl rid k).Ok := by
  unfold State.cancelSaved
  split
  · exact ok.wr
  · extract_lets va
    split
    · exact ok.failPosted
    next e =>
      have ht : State.Ok _ := ok.agentRead.ok e
      split
      · exact ht.failPosted
      next e' => exact ht.agentWrite.ok e'
  · exact ok

theorem State.Ok.unpark (ok : s.Ok) : ResultOk (fun _ => True) State.Ok (s.unpark cl rid) := by
  unfold State.unpark
  extract_lets k t
  have ht : ResultOk (fun _ => True) State.Ok t := by
    unfold t
    split
    · exact ok.unlist
    · exact State.Ok.same ok rfl rfl
    · exact ok
  exact ht.map fun _ hu => hu.makeReady

theorem State.Ok.abortPrefetch (ok : s.Ok) : (s.abortPrefetch cl rid).Ok := by
  unfold State.abortPrefetch
  extract_lets _ t
  have ht : t.Ok := by
    unfold t
    refine ok.foldl fun _ ht' _ => ?_
    split
    · split
      · split
        · exact ht'.wrFree.dropFlight
        · exact ht'.dropFlight
      · exact ht'
    · exact ht'
  exact .wakeCluster (ht.same rfl rfl)

theorem State.Ok.cancelTask (ok : s.Ok) : ResultOk (fun _ => True) (·.1.Ok) (s.cancelTask cl rid) := by
  unfold State.cancelTask
  extract_lets k t
  have ht : t.Ok := ok.cancelSaved
  split
  · exact ok.freeTask
  split
  · exact ok.abortPrefetch.freeTask
  split
  · exact State.Ok.ite ok.cancelSaved ok.setCxAt
  split
  · exact ht.unpark.map fun _ hu => hu
  · exact ht

theorem State.Ok.cancelMembers (ok : s.Ok) : ResultOk (fun _ => True) (·.1.Ok) (s.cancelMembers cl rid) :=
  .foldlM ok fun _ hr _ => (State.Ok.cancelTask hr).map fun _ h => h

theorem State.Ok.cancelAtCluster (ok : s.Ok) : (s.cancelAtCluster id).Ok := by
  unfold State.cancelAtCluster
  split
  · extract_lets
    split
    · exact ok
    split
    · exact ok.become
    split
    · exact ok
    split
    · exact ok.cancelFail
    next e => exact (ok.cancelMembers.ok e).become
  · exact ok

theorem State.Ok.treeCancel (ok : s.Ok) : (s.treeCancel id).Ok := by
  unfold State.treeCancel
  split
  · split
    · exact ok
    split
    · exact ok.cancelFail
    · exact .settleCancels (ok.dropFlight.foldl fun _ ht _ => ht.launchFlight)
  · exact ok

theorem State.Ok.undeliverable (ok : s.Ok) : (s.undeliverable tok h).Ok := ok.post

theorem State.Ok.wakeCtx (ok : s.Ok) : (s.wakeCtx id core ctx h st v).Ok := by
  unfold State.wakeCtx
  split
  · exact ok
  split
  · split
    · extract_lets src
      have hsrc : src.Ok := ok.dropFlight.readyAt
      exact .finishTouch (hsrc.same rfl rfl)
    · exact ok.dropFlight
  · exact ok.dropFlight

theorem State.Ok.wakeTask (ok : s.Ok) : (s.wakeTask cl rid h st v).Ok := by
  unfold State.wakeTask
  extract_lets
  split
  · exact .ite ok.makeReady ok
  · exact ok

theorem State.Ok.wakeDeliver (ok : s.Ok) : (s.wakeDeliver id tok h st v).Ok := by
  unfold State.wakeDeliver
  extract_lets _ _ _ other
  split
  · exact .undeliverable (ok.same rfl rfl)
  split
  · exact ok.wakeCtx
  split
  · exact ok.wakeCtx
  split
  · exact ok
  clear_value other
  split
  · exact ok.dropFlight.wakeTask.wakeTask
  · exact ok.dropFlight.wakeTask

theorem State.Ok.futureWake (ok : s.Ok) : (s.futureWake id).Ok := by
  unfold State.futureWake
  split
  · extract_lets
    split
    · exact .ite ok.dropFlight.undeliverable ok
    split
    · exact ok
    split
    · exact ok.dropFlight.undeliverable
    split
    · exact ok.wakeDeliver
    · exact ok.appendLog
    · exact ok.dropFlight.undeliverable
  · exact ok

theorem State.Ok.takeTwin {r : TaskRec} (ok : s.Ok) : SomeOk State.Ok (s.takeTwin home cl r) := by
  unfold State.takeTwin
  split
  · trivial
  extract_lets p q
  have hq : q.1.Ok := ok.takeRecord
  clear_value q
  split
  · exact hq
  extract_lets x t
  exact State.Ok.launchFlight (hq.same rfl rfl)

theorem State.Ok.admitRecord {r : TaskRec} (ok : s.Ok) : (s.admitRecord home cl r).Ok := by
  unfold State.admitRecord
  split
  · extract_lets q
    have hq : q.1.Ok := ok.takeRecord
    split
    · exact hq.setPair
    · exact hq.endOther
    · exact hq
  split
  · split
    next e => exact ok.takeTwin.some e
    · exact ok.sendFinish
  · exact ok.takeRecord

theorem State.Ok.recordArrive (ok : s.Ok) : (s.recordArrive id).Ok := by
  unfold State.recordArrive
  split
  · split
    · exact ok
    split
    · exact ok.dropFlight.sendFinish
    split
    · exact ok.dropFlight.admitRecord
    · exact ok
    · exact ok.dropFlight.sendFinish
  · exact ok

theorem State.Ok.readTiles {trefs : List Nat} (ok : s.Ok) :
    ResultOk (fun _ => True) (·.1.Ok) (s.readTiles cl part trefs) := by
  unfold State.readTiles
  refine .foldl ok fun acc hacc t => ?_
  split
  · trivial
  have hu : State.Ok _ := hacc
  split
  · exact hu
  split
  · trivial
  split
  · trivial
  next e =>
    split
    · trivial
    · exact hu.agentRead.ok e

theorem State.Ok.failPrefetch (ok : s.Ok) : (s.failPrefetch cl rid cause).Ok := ok.failTask

theorem State.Ok.prefetchGrant (ok : s.Ok) : (s.prefetchGrant cl).Ok := by
  unfold State.prefetchGrant
  split
  · exact ok
  split
  · exact ok
  extract_lets
  split
  · exact ok.failPosted
  next e =>
    split
    · exact (ok.recRead.ok e).failPrefetch
    next e' =>
      extract_lets _ _ t
      have ht : t.Ok := ((ok.recRead.ok e).readTiles.ok e').same rfl rfl
      split
      · exact ((ok.recRead.ok e).readTiles.ok e').failPrefetch
      split
      · exact ((ok.recRead.ok e).readTiles.ok e').failPrefetch
      split
      · exact ok
      · exact ht.setCluster.runCmd.putStage

theorem State.Ok.prefetchDone (ok : s.Ok) : (s.prefetchDone cl rid).Ok := by
  unfold State.prefetchDone
  split
  · exact ok
  split
  · exact ok
  extract_lets t
  have ht : t.Ok := .wakeCluster (ok.same rfl rfl)
  split
  · exact ht.failPrefetch
  · exact ht.makeReady

theorem State.Ok.diverge {x : Pair} (ok : s.Ok) : (s.diverge p x).Ok := .ite ok.clearPair.endWith ok.clearPair

theorem State.Ok.twinCompare (ok : s.Ok) : (s.twinCompare p).Ok := by
  unfold State.twinCompare
  split
  · exact ok
  split
  · exact .ite (.wakeCore (.wakeCore (ok.same rfl rfl))) ok.diverge
  · exact ok

theorem State.Ok.redeliver (ok : s.Ok) : (s.redeliver id f).Ok := by
  unfold State.redeliver
  split
  · exact ok.nearAt
  · exact ok.inboxMsg
  · exact ok.futAt
  · exact ok.wakeDeliver
  · exact ok.dropFlight

theorem State.Ok.replayLog (ok : s.Ok) : (s.replayLog part).Ok := by
  unfold State.replayLog
  extract_lets
  split
  · exact ok
  split
  · exact ok.setPart
  · exact .ite ok (.setPart (.redeliver (ok.same rfl rfl)))

/-! ### Machine/Slices.lean -/

theorem State.Ok.accRoll (ok : s.Ok) : (s.accRoll cl).Ok := .ite ok ok.setCluster

theorem State.Ok.accApply {a : Accum} (ok : s.Ok) : ResultOk (fun _ => True) State.Ok (s.accApply a) := by
  unfold State.accApply
  split
  · trivial
  next e =>
    split
    · trivial
    · exact (ok.translate.ok e).gPut

theorem State.Ok.accBar {a : Accum} (ok : s.Ok) : (s.accBar a).1.Ok := by
  unfold State.accBar
  split
  · exact ok
  split
  · exact ok
  · exact ok.keepWalk.fillTlb

theorem State.Ok.accArrive (ok : s.Ok) : (s.accArrive id).Ok := by
  unfold State.accArrive
  split
  · split
    · exact ok
    split
    next e => exact (ok.accBar.fst e).answer
    next e =>
      split
      · exact (ok.accBar.fst e).answer
      extract_lets _ s'
      have hs' : s'.Ok := (ok.accBar.fst e).accRoll
      split
      · exact hs'.become
      split
      · exact hs'.answer
      next e' => exact (hs'.accApply.ok e').setCluster.answer
  · exact ok

theorem State.Ok.flushOver (ok : s.Ok) : (s.flushOver core id).Ok := ok.setCore.foldl fun _ ht _ => ht.launchFlight

theorem State.Ok.flushArrive (ok : s.Ok) : (s.flushArrive id).Ok := by
  unfold State.flushArrive
  split
  · split
    · exact ok
    extract_lets
    split
    · exact ok.dropFlight.accBar.flushDropped.flushOver
    next e => exact (ok.dropFlight.accBar.accApply.ok e).accRoll.setCluster.flushOver
  · exact ok

theorem State.Ok.installRefused {a : Accum} (ok : s.Ok) : (s.installRefused a).Ok := by
  unfold State.installRefused
  extract_lets
  split
  · exact ok.setSag
  · exact .ite ok.setSag ok.sendFlush.setSag

theorem State.Ok.refusalReturn (ok : s.Ok) : (s.refusalReturn id).Ok := by
  unfold State.refusalReturn
  split
  · exact ok.installRefused.takeAck
  · exact ok

/-! ### Machine/System.lean -/

theorem State.Ok.execStart (ok : s.Ok) : NextOk (execStart d a b s) := by
  unfold Machine.execStart
  extract_lets
  refine State.Ok.relGate ok ?_
  split
  · exact ok.trap
  split
  · exact ok.trap
  split
  · exact ok.startWords.setCtxAt.done
  · exact ok.done

theorem State.Ok.copyPm {dst : Nat} (ok : s.Ok) : (s.copyPm core src dst n).Ok := ok.wr.poisonAt

theorem State.Ok.setWp {wp : Nat} (ok : s.Ok) : (s.setWp n wp).Ok := by
  unfold State.setWp
  extract_lets
  split
  · exact ok.advance.copyPm.leaveChunks.setCtxAt
  · exact ok.leaveChunks.setCtxAt.setStateAt.holdWords.advance

theorem State.Ok.execSetwp (ok : s.Ok) : NextOk (execSetwp a b s) := by
  unfold Machine.execSetwp
  extract_lets
  split
  · exact ok.trap
  split
  · exact ok.trap
  · exact ok.setWp

theorem State.Ok.holdStopped (ok : s.Ok) : (s.holdStopped core ctx).Ok := ok.setCtxAt.setStateAt

theorem State.Ok.interrupt (ok : s.Ok) : ResultOk (fun _ => True) (SomeOk State.Ok) (s.interrupt core ctx) := by
  unfold State.interrupt
  split
  · exact ok
  · exact ok
  · exact ok
  · exact ok.unlist.map fun _ ht => ht
  · exact State.Ok.same ok rfl rfl
  · trivial

theorem State.Ok.execStopc (ok : s.Ok) : NextOk (execStopc d a b s) := by
  unfold Machine.execStopc
  extract_lets n core c st
  split
  · exact ok.trap
  split
  · split
    · exact ok.setCtxAt.setStateAt.done
    · exact ok.done
  split
  · exact ok.done
  split
  · exact ok.done
  split
  · exact ok.trap
  next e =>
    have ht : State.Ok _ := (ResultOk.ite (.pure trivial) ok.interrupt).ok e
    exact ht.holdStopped.done
  · exact ok.setCtxAt.stall

theorem State.Ok.askPark (ok : s.Ok) : (s.askPark core ctx).Ok := by
  unfold State.askPark
  extract_lets
  split
  · exact ok.setCtxAt.readyAt
  · exact ok.setCtxAt

theorem State.Ok.execPark (ok : s.Ok) : NextOk (execPark d a s) := by
  unfold Machine.execPark
  extract_lets _ _ _ _ _ t'
  have ht' : t'.Ok := by
    unfold t'
    split
    · exact ok.askPark.askPark
    · exact ok.askPark
  split
  · exact ok.trap
  split
  · exact ok.done
  · exact ht'.stall

theorem State.Ok.switchBank {mode entsz : Nat} (ok : s.Ok) : (s.switchBank cl bank mode entsz).Ok :=
  .ite ok.setCluster (.ite ok.setCluster.wrFree.wr ok.setCluster.wrFree)

theorem State.Ok.execBankmode (ok : s.Ok) : NextOk (execBankmode a b s) := by
  unfold Machine.execBankmode
  extract_lets _ _ _ _ _ _ go
  have hgo : ∀ t, t.Ok → NextOk (go t) := fun _ ht => ht.setMyCtx.advance
  split
  · exact ok.trap
  split
  · exact hgo _ ok
  split
  · exact ok.trap
  split
  · exact ok.stall
  · exact hgo _ ok.switchBank

theorem State.Ok.setPort {p : Port} (ok : s.Ok) : (s.setPort n p).Ok := ok.same rfl rfl

theorem State.Ok.fieldSet (ok : s.Ok) : (s.fieldSet core ctx n v).Ok := by
  unfold State.fieldSet
  extract_lets c cl t k die d
  have ht : t.Ok := .ite ok.accRoll ok
  split
  case h_1 => exact ht.setCxAt
  case h_35 =>
    split
    · split
      · exact ht
      extract_lets src
      have hsrc : src.Ok := ht.holdRoute
      exact hsrc.same rfl rfl
    · exact .ite ht.setPort (.ite ht.setPort ht)
  all_goals exact ht.same rfl rfl

theorem State.Ok.execCtrlr (ok : s.Ok) : NextOk (execCtrlr d a s) := by
  unfold Machine.execCtrlr
  split
  · exact ok.trap
  · exact ok.done

theorem State.Ok.execCtrlw (ok : s.Ok) : NextOk (execCtrlw a b s) := by
  unfold Machine.execCtrlw
  extract_lets
  split
  · exact ok.trap
  extract_lets
  split
  · exact ok.trap
  split
  · exact ok.trap
  split
  · exact ok.trap
  split
  · exact ok.trap
  split
  · exact ok.trap
  split
  · exact ok.launchFlight.stall
  · exact ok.fieldSet.advance

theorem State.Ok.xlInvalidate (ok : s.Ok) : (s.xlInvalidate id).Ok := by
  unfold State.xlInvalidate
  split
  · extract_lets _ _ _ t t' t''
    have ht : t.Ok := ok.same rfl rfl
    have ht' : t'.Ok := ht.foldl fun _ ht _ => ht.setDie
    have ht'' : t''.Ok := .ite (ht'.foldl fun _ ht _ => ht.writeBack) ht'
    exact .ite ok ht''.answer
  · exact ok

theorem State.Ok.sweep (ok : s.Ok) : (s.sweep die).Ok := by
  unfold State.sweep
  extract_lets _ _ _ _ _ u u' _ t
  have hu : u.Ok := ok.wr
  have hu' : u'.Ok := ok.wr
  have ht : t.Ok := .ite (.ite (hu.same rfl rfl) (.ite hu'.setDie ok)) ok
  exact .ite ok ht.setDie

/-! ### Machine/Queues.lean -/

theorem State.Ok.setQ {x : QState} (ok : s.Ok) : (s.setQ part q x).Ok := ok.same rfl rfl

theorem State.Ok.readQ (ok : s.Ok) : ResultOk (fun _ => True) (·.1.Ok) (s.readQ part q) := by
  unfold State.readQ
  split
  · trivial
  next e => exact ok.agentRead.ok e

theorem State.Ok.head (ok : s.Ok) : (s.head part q).Ok := by
  unfold State.head
  split
  · split
    · exact ok
    · trivial
  next e =>
    extract_lets
    split
    · trivial
    split
    · exact ok.readQ.ok e
    next e' => exact (ok.readQ.ok e).agentRead.ok e'

theorem State.Ok.served (ok : s.Ok) : (s.served die part q).Ok := ok.setDie

theorem State.Ok.putQ (ok : s.Ok) : (s.putQ part q off bs).Ok := by
  unfold State.putQ
  split
  · exact ok
  next e => exact ok.agentWrite.ok e

theorem State.Ok.stopQueue {step fpkt faddr : Nat} (ok : s.Ok) : (s.stopQueue part q cause step fpkt faddr).Ok := by
  unfold State.stopQueue
  extract_lets t _ t'
  have ht : t.Ok := ok.putQ
  have ht' : t'.Ok := ht.setQ
  exact ht'.same rfl rfl

theorem State.Ok.finishPacket {d : QDesc} (ok : s.Ok) : (s.finishPacket part q d).Ok := ok.putQ.setQ

theorem State.Ok.packet {opc : Nat} {k : State → Nat → QDesc → List Nat → State} (ok : s.Ok)
    (hk : ∀ t, t.Ok → ∀ a q ws, (k t a q ws).Ok) :
    (s.packet part q opc k).Ok := by
  unfold State.packet
  split
  next e =>
    split
    · exact ok
    extract_lets t
    have ht : t.Ok := (ok.head.pkt e).served
    split
    · exact ht.stopQueue
    · exact hk _ ht _ _ _
  · exact ok

theorem State.Ok.stopPoisoned (ok : s.Ok) : (s.stopPoisoned part q).Ok := ok.stopQueue

theorem State.Ok.reread (ok : s.Ok) : (s.reread part q).Ok := by
  unfold State.reread
  split
  · exact .ite ok.stopPoisoned ok
  next e => exact .ite (.setQ (.ite (ok.readQ.ok e).putQ (ok.readQ.ok e))) (ok.readQ.ok e).setQ

theorem State.Ok.stopUnread (ok : s.Ok) : (s.stopUnread part q).Ok := by
  unfold State.stopUnread
  split
  next e => exact .ite (ok.head.bad e).stopPoisoned (ok.head.bad e).stopQueue
  next e => exact .ite (ok.head.pkt e).served.stopQueue ok
  · exact ok

theorem State.Ok.doorbell {value : Nat} (ok : s.Ok) : (s.doorbell die value).Ok := by
  unfold State.doorbell
  extract_lets
  split
  · exact ok
  split
  · exact ok.reread
  · exact .ite ok.reread ok

/-! ### Machine/Launches.lean -/

theorem State.Ok.sendWake {sender : Nat} {l : Launch} {arg set : Nat} (ok : s.Ok) :
    (s.sendWake sender l pc arg set).Ok :=
  .launchFlight (ok.same rfl rfl)

theorem State.Ok.execWrite (ok : s.Ok) : NextOk (execWrite part q s) := by
  unfold Machine.execWrite
  change State.Ok _
  refine State.Ok.packet ok fun _ ht _ _ _ => ?_
  split
  next e => exact (ht.agentWriteAll.fst e).stopQueue
  next e => exact (ht.agentWriteAll.fst e).finishPacket

theorem State.Ok.signalled {d : QDesc} {a : Answer} (ok : s.Ok) : (s.signalled part q addr d a).Ok := by
  unfold State.signalled
  split
  · exact ok.finishPacket
  · exact ok.stopQueue

theorem State.Ok.signalStep {d : QDesc} (ok : s.Ok) : (s.signalStep part q addr d h v).Ok := by
  unfold State.signalStep
  split
  · exact ok.signalled
  · exact .ite ok.setQ.launchFlight ok.futApply.signalled

theorem State.Ok.packetAnswer {a : Answer} (ok : s.Ok) : (s.packetAnswer id part q a).Ok := by
  unfold State.packetAnswer
  split
  · exact ok
  split
  · exact ok.setQ
  next e => exact (ok.readQ.ok e).signalled

theorem State.Ok.execWriteSignal (ok : s.Ok) : NextOk (execWriteSignal part q s) := by
  unfold Machine.execWriteSignal
  change State.Ok _
  refine State.Ok.packet ok fun _ ht _ _ _ => ?_
  split
  next e => exact (ht.agentWriteAll.fst e).stopQueue
  next e => exact (ht.agentWriteAll.fst e).signalStep

theorem State.Ok.waitTest {d : QDesc} (ok : s.Ok) : (s.waitTest part q addr d ws).Ok := by
  unfold State.waitTest
  split
  · exact ok.stopQueue
  next e => exact .ite (ok.agentRead.ok e).finishPacket (ok.agentRead.ok e).setQ

theorem State.Ok.execWaitValueRetest (ok : s.Ok) : NextOk (execWaitValueRetest part q s) := by
  unfold Machine.execWaitValueRetest
  change State.Ok _
  split
  next e => exact .ite ok (ok.head.pkt e).waitTest
  · exact ok

theorem State.Ok.execCopy (ok : s.Ok) : NextOk (execCopy part q s) :=
  ok.packet (fun _ ht _ _ _ => State.Ok.finishPacket (.runCmd (ht.same rfl rfl)))

theorem State.Ok.takeRoot {w : KWake} (ok : s.Ok) : (s.takeRoot core w).Ok := by
  unfold State.takeRoot
  extract_lets
  split
  · exact ok.launchFlight
  split
  · exact ok.launchFlight
  next e => exact .launchFlight ((ok.futNew.ok e).same rfl rfl)

theorem State.Ok.launchWake (ok : s.Ok) : (s.launchWake id core).Ok := by
  unfold State.launchWake
  split
  · exact .ite ok (.takeRoot (.ite ok.dropFlight ok.become))
  · exact ok

theorem State.Ok.servicePost (ok : s.Ok) : (s.servicePost part src cause pc addr).Ok := ok.post

theorem State.Ok.doneStore {done : Nat} {queue : Option Nat} (ok : s.Ok) :
    (s.doneStore part done word src queue).Ok := by
  unfold State.doneStore
  split
  · exact ok
  split
  next e => exact ok.agentWrite.ok e
  extract_lets
  split
  · exact ok.servicePost.bumpErrs
  · exact ok.servicePost

theorem State.Ok.joinStep {l : Launch} (ok : s.Ok) : (s.joinStep id l src st v).Ok :=
  .ite ok (.launchFlight (ok.same rfl rfl))
theorem State.Ok.walkJoin {w : Walker} (ok : s.Ok) : (s.walkJoin die w st v).Ok := .joinStep (ok.same rfl rfl)
theorem State.Ok.setWalker {w : Walker} (ok : s.Ok) : (s.setWalker die n w).Ok := ok.setDie

theorem State.Ok.launchDone {l : Launch} (ok : s.Ok) : (s.launchDone id l).Ok := by
  unfold State.launchDone
  split
  · split
    · exact ok.setWalker
    · exact ok
  split
  · exact ok.doneStore.joinStep
  extract_lets
  split
  next e => exact ok.doneStore.finishAt.ok e
  · exact ok.doneStore

theorem State.Ok.rootReport (ok : s.Ok) : (s.rootReport id).Ok := by
  unfold State.rootReport
  split
  · split
    · exact ok.dropFlight
    · exact .ite ok (.ite (ok.same rfl rfl) (.ite ok (.launchDone (ok.same rfl rfl))))
  · exact ok

theorem State.Ok.nodeAt {w : Walker} (ok : s.Ok) : ResultOk (fun _ => True) (·.1.Ok) (s.nodeAt w) := by
  unfold State.nodeAt
  split
  · trivial
  next e =>
    split
    · trivial
    · exact ok.agentRead.ok e

theorem State.Ok.walkNode {typ : Nat} {k : State → Walker → List Nat → State} (ok : s.Ok)
    (hk : ∀ t, t.Ok → ∀ w ws, (k t w ws).Ok) :
    (s.walkNode die n typ k).Ok := by
  unfold State.walkNode
  split
  · exact ok
  split
  · exact ok
  split
  next e => exact .ite (hk _ (ok.nodeAt.ok e) _ _) ok
  · exact ok

theorem State.Ok.walkTo {w : Walker} {node : Nat} (ok : s.Ok) : (s.walkTo die n w node).Ok := ok.setWalker
theorem State.Ok.walkStop {w : Walker} (ok : s.Ok) : (s.walkStop die n w cause).Ok := ok.setWalker
theorem State.Ok.freeWalk (ok : s.Ok) : (s.freeWalk die n).Ok := ok.setDie

theorem State.Ok.walkFailed {w : Walker} (ok : s.Ok) : (s.walkFailed die n w cause).Ok :=
  ok.doneStore.walkJoin.servicePost.bumpErrs.freeWalk

theorem State.Ok.graphEnd (ok : s.Ok) : (s.graphEnd die n).Ok := by
  unfold State.graphEnd
  split
  · exact ok
  extract_lets
  split
  · exact ok
  · exact .ite ok ok.walkFailed
  split
  · exact ok
  split
  · exact ok.walkStop
  next e => exact .ite ok (ok.nodeAt.ok e).doneStore.walkJoin.freeWalk

theorem State.Ok.execGraphKernel {walker : Nat} (ok : s.Ok) : NextOk (execGraphKernel die walker s) :=
  ok.walkNode (fun _ ht _ _ => State.Ok.ite ht.sendWake.setWalker ht.sendWake.walkTo)

theorem State.Ok.nodeTest {w : Walker} {cmp m : Nat} (ok : s.Ok) : (s.nodeTest die n w ws va cmp v m).Ok := by
  unfold State.nodeTest
  split
  · exact ok
  split
  · exact ok.walkStop
  next e => exact (ok.agentReadAll.ok e).walkTo

theorem State.Ok.execGraphLoop {walker : Nat} (ok : s.Ok) : NextOk (execGraphLoop die walker s) := by
  unfold Machine.execGraphLoop
  change State.Ok _
  refine State.Ok.walkNode ok fun _ ht _ _ => ?_
  split
  · exact ht.nodeTest
  extract_lets
  split
  · exact ht.walkStop
  next e => exact (ht.agentWrite.ok e).walkTo

theorem State.Ok.launchGo {d queue : Nat} (ok : s.Ok) : (s.launchGo d queue bs).Ok :=
  .ite ok.takeTrap ok.launchFlight.stall

theorem State.Ok.floodGo (ok : s.Ok) : (s.floodGo bs).Ok := by
  unfold State.floodGo
  extract_lets
  split
  · exact ok.takeTrap
  split
  · exact ok.takeTrap
  split
  · exact ok.takeTrap
  · exact .futureOp (ok.same rfl rfl)

theorem State.Ok.blockGate {k : Host.Outcome State Fault Refusal} (ok : s.Ok) (hk : NextOk k) :
    NextOk (s.blockGate ea k) := by
  unfold State.blockGate
  split
  · exact ok.trap
  split
  · split
    · exact hk
    · exact ok.trap
  · exact hk

theorem State.Ok.execLaunch (ok : s.Ok) : NextOk (execLaunch d a b s) := by
  unfold Machine.execLaunch
  extract_lets
  refine State.Ok.unitGate ok ?_
  refine State.Ok.relGate ok ?_
  refine State.Ok.blockGate ok ?_
  split
  · exact ok.trap
  split
  · split <;> exact ok.trap
  next e =>
    split
    · exact (ok.readQ.ok e).trap
    · exact (ok.readQ.ok e).loadFrom (fun _ hu _ => hu.launchGo)

theorem State.Ok.execFlood (ok : s.Ok) : NextOk (execFlood a s) :=
  ok.unitGate (ok.relGate (ok.blockGate (ok.loadFrom (fun _ hu _ => hu.floodGo))))

theorem State.Ok.appendBlock (ok : s.Ok) : (s.appendBlock id).Ok := by
  unfold State.appendBlock
  split
  · extract_lets
    split
    · exact ok.answer
    next e =>
      extract_lets
      split
      · exact ok
      split
      · exact (ok.agentRead.ok e).answer
      split
      · exact (ok.agentRead.ok e).answer
      next e' => exact ((ok.agentRead.ok e).agentWrite.ok e').putQ.reread.answer
  · exact ok

/-! ### Machine/Reply.lean -/

theorem State.Ok.takeFetch {a : Answer} (ok : s.Ok) : (s.takeFetch va a).Ok := by
  unfold State.takeFetch
  extract_lets
  split <;> exact ok.setMyCtx

theorem State.Ok.takeLane {d : Nat} {vals : List (Nat × Nat)} {bad : Option (Nat × Nat × Nat × Nat)} {at_ : Cur}
    {a : Answer} (ok : s.Ok) :
    (s.takeLane id d lanes vals bad at_ a).Ok := by
  unfold State.takeLane
  extract_lets _ lanes'
  clear_value lanes'
  split
  · exact ok.finishGather
  · exact ok.stall

theorem State.Ok.takeThresholds {d f : Nat} {a : Answer} (ok : s.Ok) : (s.takeThresholds d f a).Ok := by
  unfold State.takeThresholds
  split
  · exact ok.setV.setGAt.advance
  · exact ok.advance

theorem State.Ok.takeData (ok : s.Ok) : (s.takeData k v).Ok := by
  unfold State.takeData
  extract_lets _ _ acquired
  have hacquired : ∀ x t, t.Ok → (acquired x t).Ok := fun _ _ ht => State.Ok.ite ht.acquire ht
  split
  · exact hacquired _ _ ok.setGAt.advance
  · exact ok.finishVload
  · exact hacquired _ _ (State.Ok.advance (.ite ok.setGAt.setGAt ok.setGAt))
  · exact ok.tcopyGo
  · exact ok.launchGo
  · exact ok.floodGo
  · exact ok.shelfputGo
  · exact ok.takeAnswer

theorem State.Ok.takeTouch {a : Answer} (ok : s.Ok) : (s.takeTouch k a).Ok := by
  unfold State.takeTouch
  extract_lets me
  clear_value me
  split
  · split
    · split
      next e => exact ok.takeAnswer.unpark.ok e
      · exact ok.takeTrap
    · exact ok.takeAnswer
  · exact ok.takeAnswer

theorem State.Ok.takeSpawned {d : Nat} {a : Answer} (ok : s.Ok) : (s.takeSpawned d h a).Ok := by
  unfold State.takeSpawned
  extract_lets
  split
  · exact ok.setGAt.advance
  · exact ok.futUndo.takeTrap

theorem State.Ok.resumeReply {at_ : Cur} {a : Answer} (ok : s.Ok) : (s.resumeReply id k at_ a).Ok := by
  unfold State.resumeReply
  split
  · exact ok.takeFetch
  · exact ok.takeLane
  · exact ok.takeThresholds
  · exact ok.takeTouch
  · exact ok.takeAnswer
  · exact ok.takeAnswer
  · exact ok.takeSpawned
  split
  · exact ok.takeData
  · exact ok.takeTrap

theorem State.Ok.acquireAt (ok : s.Ok) : (s.acquireAt core ctx).Ok := .ite ok.setCtxAt ok

theorem State.Ok.replyArrive (ok : s.Ok) : (s.replyArrive id).Ok := by
  unfold State.replyArrive
  split
  · extract_lets t src
    have ht : t.Ok := ok.dropFlight
    have hsrc : src.Ok := ht.readyAt
    split
    · exact .ite (.acquireAt (.resumeReply (hsrc.same rfl rfl))) ht
    · exact ht
  · exact ok.dropFlight.packetAnswer
  · exact ok.same rfl rfl
  · exact ok.dropFlight
  · exact ok

/-! ### Machine/Partitions.lean -/

theorem State.Ok.badOperand (ok : s.Ok) : (s.badOperand part q addr).Ok := ok.stopQueue
theorem State.Ok.beginPacket (ok : s.Ok) : (s.beginPacket part q).Ok := ok.setQ

theorem State.Ok.finishPriv {d : QDesc} {target : Nat} (ok : s.Ok) : (s.finishPriv part q d target).Ok := by
  unfold State.finishPriv
  extract_lets t
  have ht : t.Ok := ok.finishPacket
  exact ht.same rfl rfl

theorem State.Ok.execCtrlWrite (ok : s.Ok) : NextOk (execCtrlWrite part q s) := by
  unfold Machine.execCtrlWrite
  exact ok.packet (fun _ ht _ _ _ => State.Ok.ite ht.badOperand
    (.ite ht.fieldSet.finishPriv (.ite ht.launchFlight.beginPacket (.ite ht ht.finishPriv))))

theorem State.Ok.execBarAssign (ok : s.Ok) : NextOk (execBarAssign part q s) :=
  ok.packet (fun _ ht _ _ _ => State.Ok.finishPriv (.ite (ht.same rfl rfl) ht.setDie))

theorem State.Ok.execQueueConfig (ok : s.Ok) : NextOk (execQueueConfig part q s) := by
  unfold Machine.execQueueConfig
  change State.Ok _
  refine State.Ok.packet ok fun _ ht _ _ _ => ?_
  extract_lets
  split
  · exact ht.badOperand
  split
  · exact ht.stopQueue
  next e => exact (ht.agentWrite.ok e).setQ.finishPriv

theorem State.Ok.startControl (ok : s.Ok) : (s.startControl core pc v).Ok := ok.setCtxAt.freeRegs.startWords.setGAt

theorem State.Ok.execCtxStart (ok : s.Ok) : NextOk (execCtxStart part q s) :=
  ok.packet (fun _ ht _ _ _ => State.Ok.ite ht.badOperand ht.startControl.finishPriv)

theorem State.Ok.pushStop (ok : s.Ok) : (s.pushStop part).Ok := by
  unfold State.pushStop
  extract_lets _ _ t'
  have ht' : t'.Ok := ok.setPart.foldl fun _ ht _ => ht.releaseWhere
  refine ht'.foldl fun _ ht'' _ => ?_
  split
  · exact ht''
  split
  next e => exact ((ht''.interrupt.ok e).some rfl).setCtxAt.readyAt
  · exact ht''

theorem State.Ok.closeShelves (ok : s.Ok) : (s.closeShelves part).Ok :=
  ok.foldl fun _ ht _ => ht.foldl fun _ ht _ => .ite ht.closeShelf ht
theorem State.Ok.cleanDirty (ok : s.Ok) : (s.cleanDirty clusters).Ok := ok.same rfl rfl

theorem State.Ok.storeAll (ok : s.Ok) : (s.storeAll part va bs bad).1.Ok := by
  unfold State.storeAll
  refine State.Ok.foldlFst ok fun _ hacc _ => ?_
  split
  · exact hacc
  extract_lets
  split
  · exact hacc
  next e => exact hacc.agentStore.ok e

theorem State.Ok.saveCaches (ok : s.Ok) : (s.saveCaches clusters).Ok := ok.foldl fun _ ht _ => ht.saveChunks

theorem State.Ok.saveLayer {glaze : Bool} (ok : s.Ok) : (s.saveLayer space part va glaze).1.Ok := by
  unfold State.saveLayer
  extract_lets
  split
  · exact ok
  extract_lets
  split
  next e => exact ok.saveCaches.storeAll.fst e
  next e => exact .setPart (.cleanDirty ((ok.saveCaches.storeAll.fst e).same rfl rfl))

theorem State.Ok.setStatus' {st : PartStatus} (ok : s.Ok) : (s.setStatus' part st).Ok := ok.setPart

theorem State.Ok.execPartStop (ok : s.Ok) : NextOk (execPartStop part q s) := by
  unfold Machine.execPartStop
  change State.Ok _
  refine State.Ok.packet ok fun _ ht _ _ _ => ?_
  extract_lets
  split
  · exact ht.badOperand
  split
  · exact ht.pushStop.beginPacket
  split
  · exact ht.closeShelves.setStatus'.finishPriv
  split
  next e => exact (ht.closeShelves.saveLayer.fst e).stopQueue
  next e => exact (ht.closeShelves.saveLayer.fst e).setStatus'.finishPriv

theorem State.Ok.fetchAll (ok : s.Ok) : ResultOk (fun _ => True) (·.1.Ok) (s.fetchAll space va n) := by
  unfold State.fetchAll
  refine .foldl ok fun acc hacc a => ?_
  split
  · trivial
  have ht : State.Ok _ := hacc
  split
  · trivial
  next e =>
    have hu : State.Ok _ := ht.agentFetch.ok e
    exact hu

theorem State.Ok.readLayer (ok : s.Ok) : ResultOk (fun _ => True) (·.1.Ok) (s.readLayer space part va) := by
  unfold State.readLayer
  split
  · trivial
  next e =>
    extract_lets
    split
    · trivial
    next e' =>
      split
      · trivial
      split
      · trivial
      split
      · exact (ok.agentReadAll.ok e).fetchAll.ok e'
      · trivial

theorem State.Ok.chain (ok : s.Ok) : ResultOk (fun _ => True) (·.1.Ok) (s.chain space part fuel va) := by
  induction fuel generalizing s va with
  | zero => trivial
  | succ fuel ih =>
    unfold State.chain
    split
    · trivial
    next e =>
      have ht : State.Ok _ := ok.readLayer.ok e
      split
      · trivial
      split
      · exact ht
      split
      · trivial
      next e' =>
        have hu : State.Ok _ := (ih ht).ok e'
        exact hu

theorem State.Ok.applyContent {im : Image} (ok : s.Ok) : (s.applyContent part kind u im).Ok := by
  unfold State.applyContent
  extract_lets flying cores t others u
  have ht : t.Ok := ok.foldl fun _ hu _ => hu.setCore
  have hu : u.Ok := ht.setCluster
  split
  · exact ht
  split
  · exact ht.same rfl rfl
  split
  · exact ⟨Memory.wf_foldl_write _ _ _ hu.mem, hu.l2⟩
  split
  · exact hu.same rfl rfl
  · exact hu.foldl fun _ h _ => h.setBarrier

theorem State.Ok.applySection {x : Section} (ok : s.Ok) : (s.applySection part x).Ok := by
  unfold State.applySection
  split
  · exact ok.wr.poisonAt
  split
  · exact ok.wr.poisonAt
  split
  · exact ok.applyContent
  · exact ok

theorem State.Ok.applyLayer {xs : List Section} (ok : s.Ok) : (s.applyLayer part clusters xs).Ok :=
  .foldl (ok.same rfl rfl) fun _ ht _ => ht.applySection

theorem State.Ok.fresh (ok : s.Ok) : (s.fresh clusters).Ok :=
  .foldl (ok.wipe.foldl fun _ ht _ => ht.setCore) fun _ ht _ => ht.setCluster

theorem State.Ok.restoreFrom (ok : s.Ok) : ResultOk (fun _ => True) State.Ok (s.restoreFrom space part va) := by
  unfold State.restoreFrom
  split
  · trivial
  split
  · trivial
  next e => exact State.Ok.setPart (.cleanDirty ((ok.chain.ok e).fresh.foldl fun _ ht _ => ht.applyLayer))

theorem State.Ok.startPart (ok : s.Ok) : (s.startPart part).Ok := ok.setPart

theorem State.Ok.execPartStart (ok : s.Ok) : NextOk (execPartStart part q s) := by
  unfold Machine.execPartStart
  change State.Ok _
  refine State.Ok.packet ok fun _ ht _ _ _ => ?_
  extract_lets
  split
  · exact .ite ht ht.finishPriv
  split
  · exact ht.badOperand
  split
  · exact ht.startPart.finishPriv
  split
  · exact ht.stopQueue
  next e =>
    extract_lets u
    have hu : u.Ok := (ht.restoreFrom.ok e).startPart
    exact .ite hu.beginPacket hu.finishPriv

theorem State.Ok.oweDropped (ok : s.Ok) : (s.oweDropped part id f).Ok := by
  unfold State.oweDropped
  extract_lets f'
  clear_value f'
  split
  · exact ok.undeliverable
  · exact .ite ok ok.sendFinish
  · exact .ite ok (.answer (ok.same rfl rfl))

theorem State.Ok.oweCancels {gone : List (Nat × Flight)} (ok : s.Ok) : (s.oweCancels part gone).Ok :=
  ok.foldl fun _ ht _ => .ite ht ht.answerCancel

theorem State.Ok.dropTagged (ok : s.Ok) : (s.dropTagged part).Ok := by
  unfold State.dropTagged
  extract_lets _ _ _ _ t t'
  have ht : t.Ok := ok.same rfl rfl
  have ht' : t'.Ok := ht.foldl fun _ ht _ => ht.setDie
  exact .oweCancels (ht'.setPart.foldl fun _ ht _ => ht.oweDropped)

theorem State.Ok.dropWork (ok : s.Ok) : (s.dropWork part).Ok := by
  unfold State.dropWork
  extract_lets t u v w
  have ht : t.Ok := by
    refine ok.foldl fun _ h _ => ?_
    split
    · exact h.bumpErrs
    · exact h
  clear_value t
  have hu : u.Ok := ht.foldl fun _ h _ => (h.foldl fun _ h' _ => h'.bumpErrs).setDie
  clear_value u
  have hv : v.Ok := by
    refine hu.foldl fun _ h _ => ?_
    split
    · exact .ite h.bumpErrs h
    · exact h
  clear_value v
  have hw : w.Ok := by
    refine hv.foldl fun _ h _ => ?_
    split
    · split
      next e =>
        have h' : State.Ok _ := h.readQ.ok e
        exact h'.stopQueue
      · exact h.stopQueue
    · exact h
  clear_value w
  exact hw.same rfl rfl

theorem State.Ok.oweAway {view : State} (ok : s.Ok) : (s.oweAway view clusters).Ok := by
  unfold State.oweAway
  extract_lets t t'
  have ht : t.Ok := ok.foldl fun _ ht _ => ht.foldl fun _ ht _ => ht.sendWakes
  have ht' : t'.Ok := ht.foldl fun _ ht _ => ht.foldl fun _ ht _ => .ite ht.sendFinish ht
  exact ht'.same rfl rfl

theorem State.Ok.freeFutures (ok : s.Ok) : (s.freeFutures core).Ok := by
  unfold State.freeFutures
  extract_lets _ t t'
  have ht : t.Ok := ok.foldl fun _ ht _ => .ite ht ht.setFut
  have ht' : t'.Ok := by
    unfold t'
    refine ht.foldl fun _ ht'' _ => ?_
    split
    next e' =>
      split
      · split
        next e'' => exact (ht''.spillRead.ok e').agentWrite.ok e''
        · exact ht''.spillRead.ok e'
      · exact ht''.spillRead.ok e'
    · exact ht''
  exact ht'.setCore

theorem State.Ok.clearAgents (ok : s.Ok) : (s.clearAgents part).Ok := by
  unfold State.clearAgents
  extract_lets _ t t'
  have ht : t.Ok := ok.foldl fun _ ht _ => ht.setCore
  have ht' : t'.Ok := ht.foldl fun _ ht _ => ht.setCluster
  exact ht'.same rfl rfl

theorem State.Ok.haltPart (ok : s.Ok) : (s.haltPart part).Ok := by
  unfold State.haltPart
  extract_lets _ t
  have ht : t.Ok := by
    unfold t
    refine ok.foldl fun _ ht' _ => ?_
    split
    · exact ht'.foldl fun _ hu _ => hu.futUndo
    · exact ht'
  exact ht.foldl fun _ ht _ => ht.releaseWhere

theorem State.Ok.resetPart (ok : s.Ok) : (s.resetPart part).Ok := by
  unfold State.resetPart
  extract_lets _ _ t t'
  have ht : t.Ok := ok.haltPart.dropTagged.dropWork.oweAway
  have ht' : t'.Ok := ht.scrub.foldl fun _ ht _ => ht.freeFutures
  exact ht'.clearAgents.setPart

theorem State.Ok.resetSwapped (ok : s.Ok) : (s.resetSwapped part).Ok := by
  unfold State.resetSwapped
  extract_lets _ t
  have ht : t.Ok := by
    unfold t
    split
    · exact ok.oweAway
    · exact ok
  exact ht.setPart.fresh

theorem State.Ok.execPartReset (ok : s.Ok) : NextOk (execPartReset part q s) := by
  unfold Machine.execPartReset
  exact ok.packet (fun _ ht _ _ _ => State.Ok.ite ht.badOperand
    (.ite ht.resetPart.finishPriv (.beginPacket (.setPart (.ite ht.resetSwapped ht)))))

theorem State.Ok.sliceExpiry {old new image : Nat} (ok : s.Ok) : (s.sliceExpiry old new image).Ok := by
  unfold State.sliceExpiry
  extract_lets
  split
  · exact ok
  split
  · split
    · exact ok
    split
    · exact ok.pushStop
    split
    · exact ok
    next e => exact (ok.closeShelves.saveLayer.fst e).setStatus'
  split
  · split
    · exact ok.startPart
    · split
      next e => exact (ok.restoreFrom.ok e).startPart
      · exact ok
    · exact ok
  · exact ok

/-! ### Machine/Platform.lean -/

theorem State.Ok.setKilns {active standby : Option FwImage} (ok : s.Ok) : (s.setKilns active standby).Ok :=
  .ite (ok.same rfl rfl) (ok.same rfl rfl)

theorem State.Ok.noticeAt {detail : Nat} (ok : s.Ok) : (s.noticeAt port code cause detail).Ok := ok.same rfl rfl
theorem State.Ok.notice {detail : Nat} (ok : s.Ok) : (s.notice code cause detail).Ok := ok.noticeAt

theorem State.Ok.startRefire (ok : s.Ok) : (s.startRefire v).Ok := by
  unfold State.startRefire
  split
  · exact ok
  split
  · exact ok.notice
  split
  · exact ok.notice
  next e =>
    split
    · exact (ok.agentReadAll.ok e).notice
    next e' =>
      split
      · exact ((ok.agentReadAll.ok e).agentReadAll.ok e').notice.notice
      extract_lets
      split
      · exact ((ok.agentReadAll.ok e).agentReadAll.ok e').notice
      · exact ((ok.agentReadAll.ok e).agentReadAll.ok e').same rfl rfl

theorem State.Ok.writeNonce (ok : s.Ok) : (s.writeNonce off bs).Ok :=
  .ite ok (.ite (ok.same rfl rfl) (ok.same rfl rfl))

theorem State.Ok.svcWrite (ok : s.Ok) : (s.svcWrite die off bs).Ok := by
  unfold State.svcWrite
  extract_lets t t'
  have ht : t.Ok := by
    unfold t
    split
    · exact ok.doorbell
    · exact ok
  have ht' : t'.Ok := by
    unfold t'
    split
    · exact ht.startRefire
    · exact ht
  exact .ite ht'.writeNonce ht'

theorem State.Ok.respond {m : HostMsg} (ok : s.Ok) : (s.respond m).Ok := ok.same rfl rfl

theorem State.Ok.hostRequest {near : Bool} {reply : Nat} (ok : s.Ok) :
    (s.hostRequest port die part addr n near op reply).Ok := by
  unfold State.hostRequest
  extract_lets go
  have hgo : ∀ x, (go x).Ok := fun _ => ok.launchFlight
  split
  · exact ok.respond
  split
  · split
    · exact ok.respond
    · exact hgo _
  · exact .ite ok.respond (hgo _)

theorem State.Ok.execControlPortRead {tgt : PortTarget} (ok : s.Ok) :
    NextOk (execControlPortRead port die tgt addr len s) := by
  unfold Machine.execControlPortRead
  change State.Ok _
  split
  · exact ok
  split
  · exact ok.hostRequest
  · exact ok.hostRequest
  · exact ok.respond

theorem State.Ok.execControlPortWrite {tgt : PortTarget} {data : List Byte} (ok : s.Ok) :
    NextOk (execControlPortWrite port die tgt addr data s) := by
  unfold Machine.execControlPortWrite
  change State.Ok _
  split
  · exact ok
  split
  · exact ok.hostRequest
  · exact ok.hostRequest
  · exact ok.svcWrite.respond

theorem State.Ok.blowFuses (ok : s.Ok) : (s.blowFuses).Ok := by
  unfold State.blowFuses
  split
  · exact ok
  split
  · exact ok
  extract_lets t
  have ht : t.Ok := ok.same rfl rfl
  split
  · exact ht
  split
  · exact ht
  · split <;> exact ht.notice.setKilns

theorem State.Ok.bootPart (ok : s.Ok) : (s.bootPart).Ok := by
  unfold State.bootPart
  extract_lets _ _ t
  have ht : t.Ok := ok.setPart.foldl fun _ ht _ => ht.wr
  split
  · exact ht
  next e =>
    split
    · exact ht.readQ.ok e
    next e' => exact ((ht.readQ.ok e).agentRead.ok e').putQ

theorem State.Ok.bootRoutes (ok : s.Ok) : (s.bootRoutes).Ok := by
  unfold State.bootRoutes
  exact ok.same rfl rfl

theorem State.Ok.bringUp (ok : s.Ok) : (s.bringUp).Ok := by
  unfold State.bringUp
  extract_lets t t'
  have ht : t.Ok := .bootRoutes (ok.same rfl rfl)
  have ht' : t'.Ok := ht.bootPart.blowFuses
  exact .notice (ht'.same rfl rfl)

theorem State.Ok.powerGood (ok : s.Ok) : (s.powerGood).Ok := by
  unfold State.powerGood
  split
  · exact ok
  extract_lets u a b none_ told t
  have hu : u.Ok := ok.same rfl rfl
  have htold : ∀ v r, v.Ok → (told v r).Ok := by
    intro v r hv
    simp only [told]
    split
    · exact .ite hv.noticeAt.noticeAt hv.notice
    · exact hv
  have ht : t.Ok := htold _ _ (htold _ _ hu)
  clear_value t a b
  split
  · exact .bringUp (.setKilns (ht.same rfl rfl))
  · exact .bringUp (.setKilns (ht.same rfl rfl))
  · exact .bringUp (.notice (.setKilns (ht.same rfl rfl)))
  · exact ht

theorem State.Ok.takeover (ok : s.Ok) : (s.takeover).Ok := by
  unfold State.takeover
  split
  · exact ok
  · exact .ite ok (.notice (.blowFuses (.setKilns (ok.same rfl rfl))))

theorem State.Ok.execRefireAbort (ok : s.Ok) : NextOk (execRefireAbort s) := by
  unfold Machine.execRefireAbort
  change State.Ok _
  split
  · exact ok
  · exact .ite ok (.notice (ok.same rfl rfl))

theorem State.Ok.execKilnFailover (ok : s.Ok) : NextOk (execKilnFailover s) := by
  unfold Machine.execKilnFailover
  change State.Ok _
  split
  · exact .notice (.blowFuses (.setKilns (ok.same rfl rfl)))
  · exact ok

theorem State.Ok.thermalStop (ok : s.Ok) : (s.thermalStop die).Ok := by
  unfold State.thermalStop
  extract_lets _ _ t
  have ht : t.Ok := ok.foldl fun _ ht _ => .ite ht (.ite ht.closeShelves.setStatus' ht.pushStop)
  exact .ite ok (.ite ht.setDie ht.setDie.notice)

theorem State.Ok.execPowerLimit {milliwatts : Nat} (ok : s.Ok) : NextOk (execPowerLimit milliwatts s) := by
  unfold Machine.execPowerLimit
  change State.Ok _
  split
  · exact ok
  split
  · exact .ite (.notice (ok.same rfl rfl)) (ok.same rfl rfl)
  · exact .ite ok (.notice (ok.same rfl rfl))

/-! ### Machine/Links.lean -/

theorem State.Ok.flood {but : Option Nat} (ok : s.Ok) : (s.flood word but).Ok := ok.same rfl rfl
theorem State.Ok.ownUpdate {dead : Bool} (ok : s.Ok) : (s.ownUpdate n dead).Ok := .flood (ok.same rfl rfl)
theorem State.Ok.noteReplay (ok : s.Ok) : (s.noteReplay n).Ok := .ite ok ok.setPort
theorem State.Ok.noteLock {held : Bool} (ok : s.Ok) : (s.noteLock n held).Ok := .ite ok ok.setPort
theorem State.Ok.linkUpdate (ok : s.Ok) : (s.linkUpdate port word).Ok := .ite ok (.flood (ok.same rfl rfl))

theorem State.Ok.settleSent (ok : s.Ok) : (s.settleSent id f cause).Ok := by
  unfold State.settleSent
  extract_lets
  split
  · exact .wakeCore (.setCtxAt (.ite ok.dropFlight ok.dropFlight.logFault))
  · exact ok.dropFlight

theorem State.Ok.failRecord {r : TaskRec} (ok : s.Ok) : (s.failRecord id home r cause).Ok := by
  unfold State.failRecord
  split
  · exact ok.become
  · exact ok.dropFlight.sendFinish

theorem State.Ok.failFlight (ok : s.Ok) : (s.failFlight id f).Ok := by
  unfold State.failFlight
  extract_lets
  split
  · exact ok.settleSent
  · exact ok.dropFlight.undeliverable
  · exact ok.failRecord
  · exact ok.answer
  · split
    · exact ok.dropFlight.cancelFail
    · exact ok.answer
  · exact ok.dropFlight.cancelFail
  · exact .ite ok.dropFlight.cancelFail ok.dropFlight
  · exact ok.dropFlight.cancelFail
  · exact ok.answer
  · exact ok.answer
  · exact ok.answer
  · exact ok.dropFlight.flushDropped.flushOver
  · exact ok.dropFlight.cmdFail
  · exact ok.dropFlight.shelfDone.dockPost
  · exact ok.dropFlight.foldl fun _ ht _ => ht.launchFlight
  · exact ok.become
  · exact ok.answer
  · exact ok.dropFlight

theorem State.Ok.settle (ok : s.Ok) : (s.settle id f).Ok := by
  unfold State.settle
  split
  · exact .ite ok.become ok.failFlight
  · exact ok.failFlight

theorem State.Ok.lostListed (ok : s.Ok) : (s.lostListed dest core ctx).Ok := by
  unfold State.lostListed
  split
  · split
    · extract_lets src
      have hsrc : src.Ok := ok.readyAt
      exact .takeTrap (hsrc.same rfl rfl)
    · exact ok
  · exact ok

theorem State.Ok.lostParked {k : Task} (ok : s.Ok) : (s.lostParked dest cl rid k).Ok := by
  unfold State.lostParked
  split
  · exact .ite ok.makeReady ok
  · exact ok

theorem State.Ok.narrow (ok : s.Ok) : (s.narrow dest).Ok := by
  unfold State.narrow
  extract_lets _ t t'
  have ht : t.Ok := by
    unfold t
    refine ok.foldl fun _ ht'' _ => ?_
    split
    · exact ht''
    split
    · exact .ite ht'' ht''.dropFlight.undeliverable
    · exact .ite ht''.failFlight ht''
  have ht' : t'.Ok := ht.foldl fun _ ht _ => ht.foldl fun _ ht _ => ht.lostParked
  exact .ite ht (ht'.foldl fun _ ht _ => ht.foldl fun _ ht _ => ht.lostListed)

theorem State.Ok.reroute {ports links : List Nat} (ok : s.Ok) : (s.reroute dest entry ports links).Ok :=
  .ite ok (.narrow (ok.same rfl rfl))

theorem State.Ok.recomputeRoutes (ok : s.Ok) : (s.recomputeRoutes).Ok := by
  unfold State.recomputeRoutes
  split
  · exact ok
  extract_lets
  refine State.Ok.foldl (ok.same rfl rfl) fun _ ht _ => ?_
  split <;> exact ht.reroute

theorem State.Ok.drainRound (ok : s.Ok) : (s.drainRound dest).Ok := by
  unfold State.drainRound
  split
  · exact ok
  extract_lets _ gone
  have hgone : gone.Ok := ok.same rfl rfl
  split
  · exact hgone
  split
  · exact ok
  split
  · exact hgone.same rfl rfl
  refine hgone.foldl fun _ ht _ => ?_
  split
  · exact ht.settle
  · exact ht

theorem State.Ok.loseLines (ok : s.Ok) : (s.loseLines cl).Ok := by
  unfold State.loseLines
  refine ok.foldl fun t ht _ => ?_
  exact .poisonAt ⟨ht.mem, risingKeys_filter _ _ ht.l2⟩

theorem State.Ok.resetHolder (ok : s.Ok) : (s.resetHolder part).Ok := .resetPart (.ite ok.resetSwapped ok)

theorem State.Ok.fence (ok : s.Ok) : (s.fence cl).Ok := by
  unfold State.fence
  split
  · exact ok
  extract_lets _ _ _ t''
  have ht'' : t''.Ok := ok.loseLines.setCluster.foldl fun _ ht _ => ht.resetHolder
  exact ht''.same rfl rfl

theorem State.Ok.lose (ok : s.Ok) : (s.lose id).Ok := by
  unfold State.lose
  split
  · exact .ite ok ok.settle
  · exact .ite ok.become ok
  · exact ok

theorem State.Ok.loseAnswer {t : State} (ok : t.Ok) : (t.loseAnswer s id).Ok := by
  unfold State.loseAnswer
  split
  · exact ok
  · exact .ite ok.become ok
  · exact .ite ok.become ok
  · exact ok

/-! ### Machine/Scalar.lean -/

theorem State.Ok.divTrap (ok : s.Ok) : (s.divTrap).Ok := ok.takeTrap

theorem State.Ok.execDiv (ok : s.Ok) : NextOk (execDiv d a b s) := by
  unfold Machine.execDiv
  split
  · exact ok.divTrap
  · exact ok.done

theorem State.Ok.execDivu (ok : s.Ok) : NextOk (execDivu d a b s) := by
  unfold Machine.execDivu
  split
  · exact ok.divTrap
  · exact ok.done

theorem State.Ok.execRem (ok : s.Ok) : NextOk (execRem d a b s) := by
  unfold Machine.execRem
  split
  · exact ok.divTrap
  · exact ok.done

theorem State.Ok.execRemu (ok : s.Ok) : NextOk (execRemu d a b s) := by
  unfold Machine.execRemu
  split
  · exact ok.divTrap
  · exact ok.done

/-! ### Machine/Dispatch.lean -/

theorem State.Ok.exec (ok : s.Ok) : NextOk (exec i s) := by
  cases i with
  | add | sub | and | or | xor | andn | shl | shr | sra | rol | ror | min | max | minu | maxu | mul | mulh | mulhu
  | cmpeq | cmpne | cmplt | cmpltu | cmple | cmpleu | cmovz | cmovnz | clz | ctz | popc | brev | bswap | sextb
  | sexth | sextw | zextb | zexth | zextw | bext | bins | addi | andi | ori | xori | cmpeqi | cmplti | cmpltui
  | addpc | muli | shli | shri | srai | rori | vextr | mtog =>
    exact ok.done
  | div => exact ok.execDiv
  | divu => exact ok.execDivu
  | rem => exact ok.execRem
  | remu => exact ok.execRemu
  | fadd | fsub | fmul | fdiv | fmadd | fmsub | fmin | fmax | fsqrt | fabs | fneg | fcopys | fcmpeq | fcmplt
  | fcmple | fcmpun | fclass | itof | utof | ftoi | ftou | ftobf | bftof | ftoe4 | e4tof | ftoe5 | e5tof | ftoe2
  | e2tof =>
    exact ok.doneF
  | beq | bne | blt | bge | bltu | bgeu => exact ok.branch
  | jal => exact ok.setPC.setGN
  | jalr => exact ok.execJalr
  | loopnz => exact State.Ok.ite ok.setG.setPC ok.setG.setPC
  | rep | repi => exact ok.repeatBody
  | ldb | ldh | ldw => exact ok.loadScalar
  | ldd => exact ok.execLdd
  | pref => exact ok.prefetch
  | stb | sth | stw | std => exact ok.storeScalar
  | stn | vst => exact ok.orderGate ok.storeTo
  | axchg | aadd | aand | aor | axor | amin | amax | aminu | amaxu | afadd => exact ok.atomicRet
  | axchgPost | aaddPost | aandPost | aorPost | axorPost | aminPost | amaxPost | aminuPost | amaxuPost | afaddPost =>
    exact ok.orderGate ok.atomicPosted
  | cas | casp => exact ok.orderGate ok.atomicValue
  | wait => exact ok.execWait
  | fence => exact ok.execFence
  | cwait => exact ok.execCwait
  | bararm => exact ok.execBararm
  | barrive => exact ok.execBarrive
  | barwait => exact ok.execBarwait
  | barq => exact ok.execBarq
  | vfadd | vfsub | vfmul | vfdiv | vfma | vfms | vfmin | vfmax | vfabs | vfneg | vfsqrt | vfrcp | vfrsq | vfexp2
  | vflog2 | vbfma | vadd | vsub | vmul | vmulh | vmin | vmax | vminu | vmaxu | vand | vor | vxor | vshl | vshr
  | vsra | vadds | vsubs | vperm | vrotl | vziplo | vziphi | vcvtif | vcvtfi | vcvtfbf | vcvtbff | vcvtfe4
  | vcvtfe5 | vcvte4f | vcvte5f | vcvtfe5Inf | vscan | vscanf | vscanx | vbcast =>
    exact ok.doneV
  | vfcmpeq | vfcmplt | vfcmple | vcmpeq | vcmplt | vcmpltu | vprune => exact ok.doneM
  | vsel | vinsr => exact ok.setV.advance
  | mand | mor | mxor | mnot | gtom => exact ok.setMN.advance
  | vcvtfb4 => exact ok.execVcvtfb4
  | vredadd | vredfadd | vredfmax | vredfmin => exact ok.doneAll
  | vgath => exact ok.execVgath
  | vscat => exact ok.execVscat
  | vld => exact ok.wGate (ok.loadFrom (fun _ ht _ => ht.finishVload))
  | spawn | spawnt => exact ok.spawnGate ok.spawnTo
  | callat => exact ok.execCallat
  | touch => exact ok.execTouch
  | ttouch => exact ok.execTtouch
  | resolve | poison => exact ok.relGate (ok.handleGate ok.futureOp)
  | cancel | cancelTree => exact ok.handleGate ok.sendCancel
  | fnew => exact ok.execFnew
  | ffree | fstat => exact ok.handleGate ok.futureOp
  | chkc => exact ok.execChkc
  | yield => exact ok.execYield
  | term => exact ok.execTerm
  | send => exact ok.execSend
  | hret => exact ok.execHret
  | launch => exact ok.execLaunch
  | flood => exact ok.execFlood
  | setwp => exact ok.execSetwp
  | start => exact ok.execStart
  | stopc => exact ok.execStopc
  | trap => exact ok.softTrap
  | eret => exact ok.trapReturn
  | ctrlr => exact ok.execCtrlr
  | ctrlw => exact ok.execCtrlw
  | bankmode => exact ok.execBankmode
  | park => exact ok.execPark
  | acc | accBf16 | rmerge => exact ok.unitGate ok.accumulate
  | flushresAll | flushresRange => exact ok.flushres
  | hsift => exact ok.execHsift
  | hmerge => exact ok.execHmerge
  | shelfput => exact ok.execShelfput
  | shelfcloseAll | shelfcloseDie => exact ok.unitGate ok.issueCmd
  | mfmt => exact ok.execMfmt
  | malloc => exact ok.execMalloc
  | mfree => exact ok.execMfree
  | mzero | mma | gmma | mdrain | mrank | tmcast | tfill => exact ok.tileCmd
  | mquant => exact ok.execMquant
  | msync => exact ok.unitGate ok.msync.advance
  | mthr => exact ok.execMthr
  | acct => exact ok.execAcct
  | tcopy => exact ok.unitGate (ok.loadFrom (fun _ ht _ => ht.tcopyGo))
  | tgather | tscatter => exact ok.indexed
  | packetNop | packetFence => exact ok.packet (fun _ ht _ _ _ => ht.finishPacket)
  | launchKernel => exact ok.packet (fun _ ht _ _ _ => ht.sendWake.finishPacket)
  | launchGraph => exact ok.packet (fun _ ht _ _ _ => ht.setDie.finishPacket)
  | write => exact ok.execWrite
  | writeSignal => exact ok.execWriteSignal
  | waitValue => exact ok.packet (fun _ ht _ _ _ => ht.waitTest)
  | waitValueRetest => exact ok.execWaitValueRetest
  | copy => exact ok.execCopy
  | ctrlWrite => exact ok.execCtrlWrite
  | partStop => exact ok.execPartStop
  | partStart => exact ok.execPartStart
  | partReset => exact ok.execPartReset
  | barAssign => exact ok.execBarAssign
  | queueConfig => exact ok.execQueueConfig
  | ctxStart => exact ok.execCtxStart
  | queuePoll => exact ok.reread.stopUnread
  | graphEnd => exact ok.graphEnd
  | graphKernel => exact ok.execGraphKernel
  | graphCond => exact ok.walkNode (fun _ ht _ _ => ht.nodeTest)
  | graphLoop => exact ok.execGraphLoop
  | graphJoin => exact ok.walkNode (fun _ ht _ _ => State.Ok.ite ht ht.walkTo)
  | launchAppend => exact ok.appendBlock
  | launchWake => exact ok.launchWake
  | rootReport => exact ok.rootReport
  | controlPortRead => exact ok.execControlPortRead
  | controlPortWrite => exact ok.execControlPortWrite
  | controlPortFailure => exact State.Ok.ite ok (ok.same rfl rfl)
  | svcDoorbell => exact ok.doorbell
  | svcRefire => exact ok.startRefire
  | refireTakeover => exact ok.takeover
  | refireAbort => exact ok.execRefireAbort
  | svcAttest => exact ok.writeNonce
  | attestQuoteReady => exact State.Ok.ite (ok.same rfl rfl) ok
  | xlInv => exact ok.xlInvalidate
  | fifoPop | fifoPush => exact ok.fifoArrive
  | powerGood => exact ok.powerGood
  | kilnFailover => exact ok.execKilnFailover
  | thermalStop => exact ok.thermalStop
  | powerLimit => exact ok.execPowerLimit
  | timeSliceExpiry => exact ok.sliceExpiry
  | linkDead => exact State.Ok.ite ok ok.ownUpdate
  | linkRetrained => exact State.Ok.ite ok.ownUpdate ok
  | linkStateUpdate => exact ok.linkUpdate
  | routeRecomputation => exact ok.recomputeRoutes
  | drainRoundEnd => exact ok.drainRound
  | clusterFence => exact ok.fence
  | nearArrival => exact ok.nearArrive
  | arrivalLogReplay => exact ok.replayLog
  | homeSliceAccess => exact ok.homeAccess
  | pageWalk => exact ok.pageWalk
  | atomicAtAgent => exact ok.atomicAtSlice
  | replyArrival => exact ok.replyArrive
  | acknowledgement => exact ok.acknowledge
  | accumulateArrival => exact ok.accArrive
  | flushAccumulate => exact ok.flushArrive
  | refusalReturn => exact ok.refusalReturn
  | accqWindow => exact ok.accRoll
  | arbiterPick => exact ok.arbiterPick
  | wedgeHoldExpiry => exact ok.execWedgeHoldExpiry
  | wedgePriorityRelease => exact ok.execWedgePriorityRelease
  | commandStart => exact ok.execCommandStart
  | commandCompletion => exact ok.cmdComplete
  | engineWriteAcknowledgement => exact ok.engineWriteDone
  | drainWake => exact ok.drainWakeAt
  | shelfTimer => exact ok.execShelfTimer
  | shelfArrival => exact ok.dockShelf
  | sweeperRecord => exact ok.sweep
  | taskRecordArrival => exact ok.recordArrive
  | prefetchGrant => exact ok.prefetchGrant
  | prefetchDone => exact ok.prefetchDone
  | dispatch => exact ok.dispatch
  | workspaceCopyDone => exact ok.copyDone
  | taskAging => exact ok.ageTask
  | loadHintPublication => exact ok.publishHint
  | cancelRequest => exact ok.cancelAtCluster
  | treeCancel => exact ok.treeCancel
  | futureRequest => exact ok.futureRequest
  | futureWake => exact ok.futureWake
  | messageArrival | messageRetry => exact ok.msgArrive
  | activation => exact ok.activate
  | systemAtomic | systemNibbleStore => exact ok.systemAccess
  | barrierTimeout => exact ok.barrierTimeout
  | mailboxPost => exact ok.mailArrive
  | heldTaskEnd => exact ok.heldEnd
  | twinCompare => exact ok.twinCompare
  | barrierCompletion => exact ok.barrierDone

/-! ### Machine/Issue.lean -/

theorem State.Ok.noteIssue {cyc : Bool} (ok : s.Ok) : (s.noteIssue core ctx cyc).Ok := .ite ok.setCore ok.setCore

theorem State.Ok.decodeTrap {e : DecErr} (ok : s.Ok) : (decodeTrap s e).Ok := by
  unfold Machine.decodeTrap
  split <;> exact ok.takeTrap

theorem State.Ok.inBody {w : Nat} (ok : s.Ok) : ResultOk State.Ok (fun _ => True) (s.inBody i w) := by
  unfold State.inBody
  extract_lets
  split
  · exact ok.takeTrap
  split
  · trivial
  · exact ok.takeTrap

theorem State.Ok.fillFor (ok : s.Ok) : (s.fillFor i).Ok := by
  unfold State.fillFor
  extract_lets fill t t'
  have hfill : ∀ t, t.Ok → ∀ x y, (fill t x y).Ok := fun _ ht _ _ => ht.fillChunks
  have ht : t.Ok := (hfill _ ok _ _).foldl fun _ ht _ => hfill _ ht _ _
  have ht' : t'.Ok := ht.foldl fun _ ht _ => hfill _ ht _ _
  exact ht'.foldl fun _ ht _ => hfill _ ht _ _

theorem State.Ok.checked {w : Nat} (ok : s.Ok) : ResultOk State.Ok (·.2.Ok) (s.checked i w) := by
  unfold State.checked
  split
  · exact ok.takeTrap
  split
  · exact ok.takeTrap
  split
  · exact ok.takeTrap
  · exact ok.fillFor

theorem State.Ok.passOver (ok : s.Ok) : (s.passOver).Ok := .ite ok.setCx.setPC ok.setCx

theorem State.Ok.decodeAt {place : Place} (ok : s.Ok) : ResultOk State.Ok (·.2.Ok) (s.decodeAt place ws) := by
  unfold State.decodeAt
  extract_lets
  split
  · split
    · exact ok.decodeTrap
    extract_lets _ t
    have ht : t.Ok := ok.same rfl rfl
    split
    next e => exact ht.inBody.error e
    · exact ht.checked
  split
  · exact ok.decodeTrap
  · exact State.Ok.checked (ok.same rfl rfl)

theorem State.Ok.decodeHere (ok : s.Ok) : ResultOk State.Ok (·.2.Ok) (s.decodeHere) := by
  unfold State.decodeHere
  split
  · exact ok.passOver
  · exact ok.requestFetch
  split
  · exact ok.takeTrap
  · exact ok.requestFetch
  · exact State.Ok.decodeAt (ok.same rfl rfl)

theorem State.Ok.ready (ok : s.Ok) : ResultOk State.Ok (·.2.Ok) (s.ready core ctx) := by
  unfold State.ready
  extract_lets t
  have ht : t.Ok := ok.same rfl rfl
  split
  · exact ht.takeTrap
  split
  · split
    · exact ht.setMyCtx.takeTrap
    · exact ht.decodeHere
  · exact ht.decodeHere

theorem State.Ok.boundary (ok : s.Ok) : (s.boundary core ctx).Ok := by
  unfold State.boundary
  extract_lets _ _ t
  have ht : t.Ok := ok.same rfl rfl
  split
  · exact ok
  split
  · exact ht.finishEnding
  split
  · exact ok
  split
  · exact ok.holdPosted
  · exact .ite ok.holdStopped (.ite (.ite ht.leaveGate.parkTask ht.leaveGate.waitAll) ok)

theorem State.Ok.countHandler (ok : s.Ok) : (s.countHandler).Ok := by
  unfold State.countHandler
  split
  · exact .ite ok.setMe ok
  · exact ok

theorem State.Ok.pruneAhead (ok : s.Ok) : (s.pruneAhead).Ok := .ite ok ok.setMyCtx

theorem State.Ok.toComparator {t : State} (ok : s.Ok) (ht : t.Ok) : (s.toComparator t).Ok := by
  unfold State.toComparator
  extract_lets _ _ _ u
  have hu : u.Ok := ok.same rfl rfl
  split
  · exact ok
  · exact .ite ok (.ite ht.stall hu.setPair)

/-! ### Machine/Moves.lean -/

theorem State.Ok.fetchAhead (ok : s.Ok) : (s.fetchAhead core ctx).Ok := by
  unfold State.fetchAhead
  extract_lets
  split
  · exact .ite ok ok.setCtxAt
  · exact ok

theorem State.Ok.countUe (ok : s.Ok) : (s.countUe die).Ok := ok.setDie
theorem State.Ok.strike (ok : s.Ok) : (s.strike loc).Ok := .ite ok.countUe.poisonAt (.ite ok.countUe.poisonAt ok)
theorem State.Ok.strikeFut (ok : s.Ok) : (s.strikeFut core slot).Ok := .ite ok ok.countUe.setFut

theorem State.Ok.takeFar (ok : s.Ok) : (s.takeFar f).Ok := by
  unfold State.takeFar
  split
  · exact ok.launchFlight
  · exact ok.launchFlight
  · exact .launchFlight (ok.same rfl rfl)
  · exact ok.launchFlight

theorem State.Ok.arriveFrom {spid : Nat} (ok : s.Ok) : (s.arriveFrom spid port f).Ok :=
  .ite ok (.ite ok.takeFar (ok.same rfl rfl))

theorem State.Ok.answeredBy (ok : s.Ok) : (s.answeredBy id cause aux v rel).Ok := by
  unfold State.answeredBy
  split
  · exact ok
  split
  · exact ok
  extract_lets
  split
  · exact ok
  split
  · exact ok.settleSent
  · extract_lets t
    have ht : t.Ok := by
      unfold t
      split
      · exact .ite ok.setCtxAt ok
      · exact ok
    exact ht.answer
  · exact ok.answer
  · exact ok.answer
  · split
    · exact ok.failRecord
    split
    · exact ok.become
    · exact ok.dropFlight
  · exact .ite ok.dropFlight.cancelFail ok.become
  · exact .ite ok.dropFlight.cancelFail ok.dropFlight.settleCancels
  · exact .ite ok.dropFlight.undeliverable ok.dropFlight
  · exact ok.dropFlight

theorem State.Ok.takeClusters {new : List Nat} (ok : s.Ok) : (s.takeClusters new).Ok := by
  unfold State.takeClusters
  extract_lets t
  have ht : t.Ok := ok.fresh
  exact ht.same rfl rfl

theorem State.Ok.giveEntry {p : Part} (ok : s.Ok) : (s.giveEntry n p).Ok := .ite ok ok.takeClusters.setPart
theorem State.Ok.wait (ok : s.Ok) : (s.wait n).Ok := .publishDue (ok.same rfl rfl)

theorem State.Ok.quietMove {m : Move} (ok : s.Ok) : (s.quietMove m).Ok := by
  unfold State.quietMove
  split
  · exact ok.wait
  · exact ok.fetchAhead
  · exact ok.same rfl rfl
  · exact ok.setDie
  · exact ok.strike
  · exact ok.strikeFut
  · exact ok.engineMove
  · exact ok.writeBack
  · exact ok.arriveFrom
  · exact ok.answeredBy
  · exact ok.giveEntry
  · exact ok.setDie
  · exact ok.lose
  · exact ok.noteReplay
  · exact ok.noteLock
  · exact ok
  · exact ok

theorem State.Ok.wakeWait {w : Nat × Bool × Nat × Nat} (ok : s.Ok) : (s.wakeWait v w).Ok := by
  unfold State.wakeWait
  split
  extract_lets t _ src'
  have ht : t.Ok := ok.same rfl rfl
  have hsrc' : src'.Ok := ht.readyAt
  split
  · split
    · exact ht.makeReady
    · exact ht
  split
  · exact .acquire (.advance (.setGAt (hsrc'.same rfl rfl)))
  · exact ht

theorem State.Ok.settleObject {w : Nat × Bool × Nat × Nat} (ok : s.Ok) : (s.settleObject w).Ok :=
  .ite ok (ok.foldl fun _ ht _ => ht.wakeWait)

theorem State.Ok.settleTarget (ok : s.Ok) : (s.settleTarget core).Ok := by
  unfold State.settleTarget
  split
  · extract_lets _ _ t src' done
    have ht : t.Ok := ok.setCtxAt
    have hsrc' : src'.Ok := ht.readyAt
    have hdone : ∀ x, (done x).Ok := fun _ => State.Ok.advance (.setGAt (hsrc'.same rfl rfl))
    exact .ite (hdone _) (.ite (hdone _) ok)
  · exact ok

theorem State.Ok.settleWaits (ok : s.Ok) : (s.settleWaits).Ok := by
  unfold State.settleWaits
  extract_lets t t'
  have ht : t.Ok := ok.foldl fun _ ht _ => ht.settleObject
  have ht' : t'.Ok := ht.foldl fun _ ht _ => ht.foldl fun _ ht _ => ht.boundary
  exact ht'.foldl fun _ ht _ => ht.settleTarget

/-! ### Machine/Turn.lean -/

theorem State.Ok.attempt (ok : s.Ok) : NextOk (attempt core ctx s) := by
  unfold Machine.attempt
  split
  next e => exact ok.ready.error e
  next e =>
    split
    next e' => exact ((ok.ready.ok e).exec.next e').countHandler.pruneAhead.toComparator (ok.ready.ok e)
    · trivial
    · trivial

theorem State.Ok.probeAt (ok : s.Ok) : (s.probeAt core ctx).Ok := by
  unfold State.probeAt
  split
  next e => exact .ite (ok.attempt.next e) ok
  · exact ok

theorem State.Ok.probe (ok : s.Ok) : (s.probe core).Ok := .ite ok (ok.foldl fun _ ht _ => ht.probeAt)

theorem State.Ok.issueOf {cyc : Bool} (ok : s.Ok) : NextOk (s.issueOf core ctx cyc) := by
  unfold State.issueOf
  split
  next e =>
    split
    · exact ok.attempt
    · exact ok.noteIssue.attempt.next e
  · exact ok.noteIssue.attempt

theorem State.Ok.stepIssue (ok : s.Ok) : NextOk (stepIssue core s) := by
  unfold Machine.stepIssue
  split
  · exact ok.probe
  · exact ok.probe.issueOf

theorem State.Ok.stepMove {m : Move} (ok : s.Ok) : NextOk (stepMove m s) := by
  unfold Machine.stepMove
  split
  · split
    · exact ok.stepIssue
    · trivial
  · split
    · exact ok.exec
    · exact ok
  · split
    · split
      next e => exact (ok.exec.next e).loseAnswer
      · exact ok.exec
    · exact ok
  · exact ok.quietMove

/-! ### Machine/Step.lean -/

theorem State.Ok.step (ok : s.Ok) : NextOk (step s) := by
  unfold Machine.step
  split
  next t e =>
    have ht : t.Ok := by
      split at e
      · refine (State.Ok.stepMove ?_).next e
        exact ok.same rfl rfl
      · exact ok.wait.stepMove.next e
    exact ht.settleWaits
  · trivial
  · trivial

end

/-- Settles O58: a step is composed of functions that each keep the form. -/
theorem stepKeepsForm : Obligations.StepKeepsForm := fun _ _ ok e => ok.step.next e
end Sys2Proof.Machine

/-! # REP and REPI: set-up, passes and renumbering (O7) -/

namespace Sys2Proof.Machine

/-! ### Renumbering (R31, R96) -/

section
variable {j k : Nat}

theorem renameG_val (k : Nat) (r : GReg) : (renameG k r).val = if r.val < 32 then r.val else 32 + (r.val - 32 + k) % 32 := by
  have := r.isLt
  unfold renameG windowG
  by_cases h : k = 0 ∨ r.val < 32
  · rw [if_pos h]
    split_ifs <;> omega
  · rw [if_neg h, if_neg (fun hlow => h (.inr hlow)), Fin.val_ofNat]
    omega

theorem renameV_val (k : Nat) (r : VReg) : (renameV k r).val = if r.val < 16 then r.val else 16 + (r.val - 16 + k) % 16 := by
  unfold renameV
  split_ifs with h <;> simp only [Fin.val_ofNat]
  omega

/-- Shifts add up: the window comes round by its own length. -/
theorem renameG_renameG (j k : Nat) (r : GReg) : renameG j (renameG k r) = renameG (k + j) r := by
  refine Fin.ext ?_
  simp only [renameG_val]
  split_ifs <;> omega

theorem renameV_renameV (j k : Nat) (r : VReg) : renameV j (renameV k r) = renameV (k + j) r := by
  refine Fin.ext ?_
  simp only [renameV_val]
  split_ifs <;> omega

theorem renameG_window (k : Nat) (r : GReg) : renameG (32 * k) r = r := by
  refine Fin.ext ?_
  have := r.isLt
  rw [renameG_val]
  split_ifs <;> omega

theorem renameV_window (k : Nat) (r : VReg) : renameV (32 * k) r = r := by
  refine Fin.ext ?_
  have := r.isLt
  rw [renameV_val]
  split_ifs <;> omega

theorem renameC_renameC (j k : Nat) (c : Completion) : renameC j (renameC k c) = renameC (k + j) c := by
  cases c <;> simp only [renameC, renameG_renameG]
theorem renameD_renameD (j k : Nat) (c : DrainDst) : renameD j (renameD k c) = renameD (k + j) c := by
  cases c <;> simp only [renameD, renameG_renameG]
theorem renameQ_renameQ (j k : Nat) (c : QuantFmt) : renameQ j (renameQ k c) = renameQ (k + j) c := by
  cases c <;> simp only [renameQ, renameG_renameG]

theorem renameC_window (k : Nat) (c : Completion) : renameC (32 * k) c = c := by
  cases c <;> simp only [renameC, renameG_window]
theorem renameD_window (k : Nat) (c : DrainDst) : renameD (32 * k) c = c := by
  cases c <;> simp only [renameD, renameG_window]
theorem renameQ_window (k : Nat) (c : QuantFmt) : renameQ (32 * k) c = c := by
  cases c <;> simp only [renameQ, renameG_window]

/-- An instruction is renumbered operand by operand, so its shifts add up as its operands' do. -/
theorem renameInstr_renameInstr (j k : Nat) (i : Instr) : renameInstr j (renameInstr k i) = renameInstr (k + j) i := by
  cases i <;>
    simp only [renameInstr, renameG_renameG, renameV_renameV, renameC_renameC, renameD_renameD, renameQ_renameQ]

theorem renameInstr_window (k : Nat) (i : Instr) : renameInstr (32 * k) i = i := by
  cases i <;> simp only [renameInstr, renameG_window, renameV_window, renameC_window, renameD_window, renameQ_window]

end

theorem renumberingRule : Claims.RenumberingRule :=
  ⟨renameG_val, renameV_val, renameInstr_window 0, renameInstr_renameInstr, renameInstr_window⟩

/-! ### How a repetition begins (R94, R95) -/

theorem nextPC_aligned (s : State) : s.nextPC % 2 ^ 64 / 4 * 4 = s.nextPC % 2 ^ 64 := by
  simp only [State.nextPC, State.pc]
  omega

/-- One more context word written: no byte outside the ranges and it changes. -/
theorem BytesOnly.setCx {rs : List Range} {s t : State} (h : BytesOnly rs s t) (off v : Nat) :
    BytesOnly (rs ++ [s.cxRange off]) s (t.setCx off v) := by
  have hw := setCx_bytesOnly t off v
  rw [State.cxRange, h.cur, h.wsLoc] at hw
  exact h.trans hw

/-- REP and REPI with a count other than zero. -/
theorem repeatBody_begins (s : State) {n stride len : Nat} (hn : n ≠ 0) (hn' : n < 2 ^ 64) (hs : stride < 8) (hl : len < 16) :
    Jumps s (.next (s.repeatBody n stride len)) (s.nextPC % 2 ^ 64) [s.cxRange cxREPN, s.cxRange cxREPB, s.cxRange cxREPS] (fun t =>
      t.cx cxREPN = n ∧ t.cx cxREPB = s.nextPC % 2 ^ 64 ∧ t.cx cxREPS = stride * 2 ^ 24 + len * 2 ^ 20 + 1) := by
  have hbody : s.repeatBody n stride len = (((s.setCx cxREPN n).setCx cxREPB s.nextPC).setCx cxREPS
      (stride * 2 ^ 24 + len * 2 ^ 20 + 1)).setPC s.nextPC := if_neg hn
  have hframe : BytesOnly ([] ++ [s.cxRange cxREPN] ++ [s.cxRange cxREPB] ++ [s.cxRange cxREPS] ++ [s.cxRange cxPC]) s
      (s.repeatBody n stride len) := by
    rw [hbody]
    exact ((((BytesOnly.refl [] s).setCx _ _).setCx _ _).setCx _ _).setCx _ _
  refine ⟨_, rfl, ?_, hframe.mono ?_, ?_, ?_, ?_⟩
  · rw [hbody, pc_setPC, nextPC_aligned]
  · intro r hr
    simp only [List.nil_append, List.cons_append, List.mem_cons, List.not_mem_nil, or_false] at hr ⊢
    rcases hr with h | h | h | h <;> simp only [h, true_or, or_true]
  all_goals rw [hbody, State.setPC, cx_setCx_ne _ _ _ _ (.inr (by decide))]
  · rw [cx_setCx_ne _ _ _ _ (by decide), cx_setCx_ne _ _ _ _ (by decide), cx_setCx, Nat.mod_eq_of_lt hn']
  · rw [cx_setCx_ne _ _ _ _ (by decide), cx_setCx]
  · rw [cx_setCx, Nat.mod_eq_of_lt (by omega)]

/-- With a count of zero CX.PC goes past the body and nothing else changes. -/
theorem repeatBody_zero (s : State) {stride len e : Nat} (h : s.skipInstrs s.cur.core s.cur.ctx s.nextPC (len + 1) = .ok [e]) :
    Jumps s (.next (s.repeatBody 0 stride len)) (e % 2 ^ 64 / 4 * 4) [] (fun _ => True) := by
  have hbody : s.repeatBody 0 stride len = s.setPC e := by rw [State.repeatBody, if_pos rfl, h]; rfl
  rw [hbody]
  exact ⟨_, rfl, pc_setPC s e, setPC_bytesOnly s e, trivial⟩

theorem repeatBegins : Claims.RepeatBegins := by
  intro s a count stride len begins
  have both (n : Nat) (hn : n < 2 ^ 64) (i : Instr) (hi : exec i s = .next (s.repeatBody n stride.val len.val)) :
      begins i n := by
    refine ⟨fun h0 => hi ▸ repeatBody_begins s h0 hn stride.isLt len.isLt, ?_⟩
    rintro rfl e he
    exact hi ▸ repeatBody_zero s he
  exact ⟨both _ (by omega) _ rfl, both _ (by omega) _ rfl⟩

/-! ### How a pass ends (R95) -/

theorem repeatPasses : Claims.RepeatPasses := by
  intro s d a b hlast hactive
  obtain ⟨t, hnext, hpc, hreps, -⟩ := done_writesG s d (s.g a + s.g b)
  have hends : s.passEnds = true := by simp [State.passEnds, bitOf, hlast, hactive]
  have hreplt := cx_lt s cxREPS
  have hbits : bits (s.cx cxREPS) 63 32 = s.cx cxREPS / 2 ^ 32 := by simp only [bits]; omega
  have hfollows : s.passFollows = true ↔ s.cx cxREPS / 2 ^ 32 + 1 < s.cx cxREPN % 2 ^ 32 := by
    rw [State.passFollows, decide_eq_true_iff, hbits]
    simp [bits]
  refine ⟨t, hnext, fun hmore => ?_, fun hdone => ?_⟩
  · rw [hpc, hreps, State.pcAfter, State.repsAfter, hends, hfollows.2 hmore, Nat.mod_eq_of_lt (cx_lt s cxREPB)]
    exact ⟨rfl, rfl⟩
  · have hno : s.passFollows = false := Bool.eq_false_iff.2 fun h => absurd (hfollows.1 h) (by omega)
    rw [hpc, hreps, State.pcAfter, State.repsAfter, hends, hno]
    exact ⟨nextPC_aligned s, rfl⟩

/-- Settles O7: the set-up by the words that `State.repeatBody` writes, the end of a pass by what completing an instruction
does, and the renumbering by the arithmetic of the two windows. -/
theorem repeatRules : Obligations.RepeatRules := ⟨repeatBegins, repeatPasses, renumberingRule⟩

end Sys2Proof.Machine

/-! # The choice of the context that issues, and the checks before an instruction (O8) -/

namespace Sys2Proof.Machine

section
variable {s : State} {core c : Nat}

theorem isReady_iff : s.isReady core c = true ↔ s.stateAt core c = stREADY ∧ s.mayIssue core c = true := by
  simp [State.isReady]

/-- The contexts of step 2 of R18 are all but the handler context, whichever issued last. -/
theorem mem_cyclicFrom {last : Nat} : c ∈ cyclicFrom last ↔ c < 12 ∧ c ≠ 1 := by
  simp only [cyclicFrom, List.mem_filter, List.mem_map, List.mem_range, bne_iff_ne]
  refine and_congr_left fun _ => ⟨?_, fun hc => ⟨(c + 12 - (last + 1) % 12) % 12, by omega, by omega⟩⟩
  rintro ⟨k, -, rfl⟩
  omega

/-- The first context of the cyclic order with a property: it is the one at some distance, and none at a shorter distance has it. -/
theorem find?_cyclicFrom_eq_some {last : Nat} {p : Nat → Bool} :
    (cyclicFrom last).find? p = some c ↔ c ≠ 1 ∧ ∃ k, k < 12 ∧ c = (last + 1 + k) % 12 ∧ p c = true ∧
      ∀ j, j < k → (last + 1 + j) % 12 ≠ 1 → p ((last + 1 + j) % 12) = false := by
  simp only [cyclicFrom, List.find?_filter, List.find?_map, Option.map_eq_some_iff, List.find?_range_eq_some, List.mem_range,
    Function.comp_apply, bne_iff_ne, Bool.decide_and, Bool.and_eq_true, decide_eq_true_eq, Bool.not_eq_true',
    Bool.and_eq_false_iff, decide_eq_false_iff_not, Bool.not_eq_true]
  constructor
  · rintro ⟨k, ⟨⟨hne, hp⟩, hk, hj⟩, rfl⟩
    exact ⟨hne, k, hk, rfl, hp, fun j hlt h1 => (hj j hlt).resolve_left (not_not_intro h1)⟩
  · rintro ⟨hne, k, hk, rfl, hp, hj⟩
    exact ⟨k, ⟨⟨hne, hp⟩, hk, fun j hlt => or_iff_not_imp_left.2 fun h1 => hj j hlt (not_not.1 h1)⟩, rfl⟩

/-- The context that step 2 of R18 would choose. -/
def State.nextInTurn (s : State) (core : Nat) : Option Nat := (cyclicFrom (s.core core).lastIssued).find? (s.isReady core)

theorem nextInTurn_eq_none : s.nextInTurn core = none ↔ ¬ ∃ c, c < 12 ∧ c ≠ 1 ∧ s.isReady core c = true := by
  simp only [State.nextInTurn, List.find?_eq_none, mem_cyclicFrom]
  constructor
  · rintro h ⟨c, hc, h1, hr⟩
    exact h c ⟨hc, h1⟩ hr
  · exact fun h c hc hr => h ⟨c, hc.1, hc.2, hr⟩

/-- R18 in terms of the handler's readiness, its run and the context next in turn. -/
theorem pick_eq : s.pick core =
    if s.isReady core 1 = true ∧ ((s.core core).handlerRun < 64 ∨ s.nextInTurn core = none) then some (1, false)
    else (s.nextInTurn core).map (fun c => (c, true)) := by
  dsimp only [State.pick]
  rw [show (cyclicFrom (s.core core).lastIssued).find? (s.isReady core) = s.nextInTurn core from rfl]
  cases hn : s.nextInTurn core with
  | none => cases s.isReady core 1 <;> simp
  | some c => cases s.isReady core 1 <;> by_cases hrun : 64 ≤ (s.core core).handlerRun <;> simp [hrun]

theorem pick_eq_none : s.pick core = none ↔ s.isReady core 1 = false ∧ s.nextInTurn core = none := by
  rw [pick_eq]
  split_ifs with h
  · simp [h.1]
  · cases hn : s.nextInTurn core with
    | none => simpa [hn] using h
    | some c => simp

theorem pick_eq_handler : s.pick core = some (1, false) ↔
    s.isReady core 1 = true ∧ ((s.core core).handlerRun < 64 ∨ s.nextInTurn core = none) := by
  rw [pick_eq]
  split_ifs with h
  · exact iff_of_true rfl h
  · exact iff_of_false (by simp) h

theorem pick_eq_inTurn : s.pick core = some (c, true) ↔
    (s.isReady core 1 = false ∨ 64 ≤ (s.core core).handlerRun) ∧ s.nextInTurn core = some c := by
  rw [pick_eq]
  split_ifs with h
  · refine iff_of_false (by simp) ?_
    rintro ⟨hready, hnext⟩
    rcases h with ⟨h1, hrun | hnone⟩
    · rcases hready with h0 | h0
      · simp [h1] at h0
      · omega
    · simp [hnone] at hnext
  · have hany (hnext : s.nextInTurn core = some c) : s.isReady core 1 = false ∨ 64 ≤ (s.core core).handlerRun := by
      by_contra hno
      push Not at hno
      exact h ⟨by simpa using hno.1, .inl hno.2⟩
    cases hn : s.nextInTurn core with
    | none => simp
    | some d => simpa using fun e => hany (hn.trans (congrArg some e))

/-- With at most one READY context there is nothing to find out (R18). -/
theorem probe_of_one (h : ∀ c d, c < 12 → d < 12 → s.isReady core c = true → s.isReady core d = true → c = d) :
    s.probe core = s := by
  refine if_pos ?_
  have hnodup : (s.readies core).Nodup := List.nodup_range.filter _
  have hmem (c : Nat) : c ∈ s.readies core ↔ c < 12 ∧ s.isReady core c = true := by simp [State.readies]
  match hl : s.readies core with
  | [] => simp
  | [_] => simp
  | c :: d :: rest =>
    have hc := (hmem c).1 (by simp [hl])
    have hd := (hmem d).1 (by simp [hl])
    rw [hl] at hnodup
    exact absurd (h c d hc.1 hd.1 hc.2 hd.2) (by rintro rfl; simp at hnodup)

end

theorem issueChoice : Claims.IssueChoice := by
  intro s core ready other last
  have hother : ¬ other ↔ s.nextInTurn core = none := by
    simp only [nextInTurn_eq_none, isReady_iff]
    exact Iff.rfl
  have hready (c : Nat) : ready c ↔ s.isReady core c = true := isReady_iff.symm
  refine ⟨?_, ?_, fun c => ?_, fun h => probe_of_one fun c d hc hd h1 h2 => h c d hc hd ((hready c).2 h1) ((hready d).2 h2)⟩
  · rw [pick_eq_none, hother, hready, Bool.not_eq_true]
  · rw [pick_eq_handler, hother, hready]
  · rw [pick_eq_inTurn, State.nextInTurn, find?_cyclicFrom_eq_some]
    simp only [hready, Bool.not_eq_true]
    exact Iff.rfl

theorem privileged_iff (i : Instr) : privileged i = true ↔ (∃ a b, i = .setwp a b) ∨ (∃ d a b, i = .start d a b) ∨
    (∃ d a b, i = .stopc d a b) ∨ (∃ d a, i = .park d a) ∨ (∃ a b, i = .bankmode a b) := by
  constructor
  · intro h
    unfold privileged at h
    split at h
    · exact .inl ⟨_, _, rfl⟩
    · exact .inr (.inl ⟨_, _, _, rfl⟩)
    · exact .inr (.inr (.inl ⟨_, _, _, rfl⟩))
    · exact .inr (.inr (.inr (.inr ⟨_, _, rfl⟩)))
    · exact .inr (.inr (.inr (.inl ⟨_, _, rfl⟩)))
    · cases h
  · rintro (⟨a, b, rfl⟩ | ⟨d, a, b, rfl⟩ | ⟨d, a, b, rfl⟩ | ⟨d, a, rfl⟩ | ⟨a, b, rfl⟩) <;> rfl

theorem isStart_iff (i : Instr) : isStart i = true ↔ ∃ d a b, i = .start d a b := by
  constructor
  · intro h
    unfold isStart at h
    split at h
    · exact ⟨_, _, _, rfl⟩
    · cases h
  · rintro ⟨d, a, b, rfl⟩
    rfl

theorem privilegeAndBodyTraps : Claims.PrivilegeAndBodyTraps := by
  intro s i w
  refine ⟨privileged_iff, fun hp hctx htwin => ?_, fun d a b htwin => ?_, fun hf => ?_, fun hf => ?_⟩
  · have hstart : ¬ (isStart i = true ∧ s.myCtx.twin = true) := by
      rintro ⟨hs, ht⟩
      obtain ⟨d, a, b, hi⟩ := (isStart_iff i).1 hs
      simp [htwin d a b hi] at ht
    rw [State.checked, if_neg hstart, if_pos ⟨hp, hctx⟩]
    rfl
  · rw [State.checked, if_pos ⟨rfl, htwin⟩]
    rfl
  · rw [State.inBody, if_pos hf]
    rfl
  · rw [State.inBody, if_neg (by simp [hf])]
    rfl

/-- Settles O8: the choice of R18 goes by the first READY context of the cyclic order, and the checks are the branches of
`State.checked` and `State.inBody`. -/
theorem issueRules : Obligations.IssueRules := ⟨issueChoice, privilegeAndBodyTraps⟩

end Sys2Proof.Machine

/-! # Requests that leave a core (O18) -/

namespace Sys2Proof.Machine

/-! ### States with the same workspaces

What the instructions of this part change beside registers (a flight added, the core's sequence, what the core holds of a context) leaves
every register and context word where it was and as it was. -/

/-- Two states execute the same context and hold the same bytes, with every workspace in the same place. -/
structure SameWorkspaces (s t : State) : Prop where
  cur : t.cur = s.cur
  mem : t.mem = s.mem
  wp : ∀ core ctx, (t.ctxAt core ctx).wp = (s.ctxAt core ctx).wp

section
variable {s t u : State} (h : SameWorkspaces s t)

theorem SameWorkspaces.refl (s : State) : SameWorkspaces s s := ⟨rfl, rfl, fun _ _ => rfl⟩

include h

theorem SameWorkspaces.trans (g : SameWorkspaces t u) : SameWorkspaces s u :=
  ⟨g.cur.trans h.cur, g.mem.trans h.mem, fun core ctx => (g.wp core ctx).trans (h.wp core ctx)⟩

theorem SameWorkspaces.wsLoc (core ctx off : Nat) : t.wsLoc core ctx off = s.wsLoc core ctx off := by
  rw [State.wsLoc, h.wp]
  rfl
theorem SameWorkspaces.wsGet (core ctx off n : Nat) : t.wsGet core ctx off n = s.wsGet core ctx off n := by
  rw [State.wsGet, h.wsLoc, State.rd, h.mem]
  rfl
theorem SameWorkspaces.gAt (core ctx r : Nat) : t.gAt core ctx r = s.gAt core ctx r := by
  rw [State.gAt, h.wsGet]
  rfl
theorem SameWorkspaces.gN (r : GReg) : t.gN r = s.gN r := by
  rw [State.gN, h.gAt, h.cur]
  rfl
theorem SameWorkspaces.laneN (r : VReg) (i : Nat) : t.laneN r i = s.laneN r i := by
  rw [State.laneN, h.wsGet, h.cur]
  rfl
theorem SameWorkspaces.cxAt (core ctx off : Nat) : t.cxAt core ctx off = s.cxAt core ctx off := h.wsGet core ctx off 8
theorem SameWorkspaces.cx (off : Nat) : t.cx off = s.cx off := by
  rw [State.cx, h.cxAt, h.cur]
  rfl
theorem SameWorkspaces.cxRange (off : Nat) : t.cxRange off = s.cxRange off := by
  rw [State.cxRange, h.wsLoc, h.cur]
  rfl
theorem SameWorkspaces.pc : t.pc = s.pc := by
  rw [State.pc, h.cx]
  rfl
theorem SameWorkspaces.passEnds : t.passEnds = s.passEnds := by
  rw [State.passEnds, h.cx, h.cur]
  rfl
theorem SameWorkspaces.passFollows : t.passFollows = s.passFollows := by
  rw [State.passFollows, h.cx, h.cx]
  rfl
theorem SameWorkspaces.pcAfter : t.pcAfter = s.pcAfter := by
  rw [State.pcAfter, h.passEnds, h.passFollows, h.cx, State.nextPC, h.pc, h.cur]
  rfl
theorem SameWorkspaces.repsAfter : t.repsAfter = s.repsAfter := by
  rw [State.repsAfter, h.passEnds, h.passFollows, h.cx]
  rfl
theorem SameWorkspaces.onRanges : t.onRanges = s.onRanges := by
  rw [State.onRanges, h.passEnds, h.cxRange, h.cxRange]
  rfl

/-- What completes over a state completes over one with the same workspaces. -/
theorem SameWorkspaces.completesOver {rs : List Range} {p : State → Prop} {w : State} (hw : BytesOnly rs t w) (hr : t.apart rs)
    (hp : ∀ v, BytesOnly t.onRanges w v → p v) : CompletesOver s t (.next w.advance) rs p :=
  completesOver_of_apart h.pcAfter h.repsAfter h.onRanges hw hr hp

/-- A context put to wait over a state with the same workspaces. -/
theorem SameWorkspaces.stalls (k : Wait) : Stalls s t (.next (t.stall k)) k := by
  have hwait : SameWorkspaces t (t.setMyCtx { t.myCtx with wait := k }) := ⟨rfl, rfl, fun core ctx => by
    rw [State.setMyCtx, ctxAt_setCtxAt]
    split_ifs with hc
    · rw [hc.1, hc.2]; rfl
    · rfl⟩
  have hall := h.trans hwait
  have hst : (t.stall k).cx cxSTATUS = setBits (setBits (s.cx cxSTATUS) 3 0 stSTALLED) 7 4 s.cur.ctx % 2 ^ 64 := by
    have hset := cx_setCx (t.setMyCtx { t.myCtx with wait := k }) cxSTATUS
      (setBits (setBits (s.cx cxSTATUS) 3 0 stSTALLED) 7 4 s.cur.ctx)
    rw [← hall.cx cxSTATUS, ← h.cur] at hset ⊢
    exact hset
  have hlt := cx_lt s cxSTATUS
  refine ⟨_, rfl, ?_, ?_, ?_⟩
  · rw [← hall.cxRange]
    exact setCx_bytesOnly _ cxSTATUS _
  · rw [hst]
    simp only [bits, setBits, stSTALLED]
    omega
  · rw [hst]
    simp only [setBits, stSTALLED]
    omega

end

theorem sameWorkspaces_launchFlight (s : State) (f : Flight) : SameWorkspaces s (s.launchFlight f) := ⟨rfl, rfl, fun _ _ => rfl⟩

theorem sameWorkspaces_seqTaken (s : State) (leaves : Bool) : SameWorkspaces s (s.seqTaken leaves) := by
  cases leaves with
  | false => exact .refl s
  | true =>
    refine ⟨rfl, rfl, fun core ctx => ?_⟩
    simp only [State.seqTaken, if_true, State.ctxAt, State.setMe, core_setCore]
    split_ifs with hc
    · rw [hc]; rfl
    · rfl

theorem sameWorkspaces_request (s : State) (leaves : Bool) (f : Flight) :
    SameWorkspaces s ((s.seqTaken leaves).launchFlight f) :=
  (sameWorkspaces_seqTaken s leaves).trans (sameWorkspaces_launchFlight _ f)

/-! ### Changes of bytes beside changes of other records -/

theorem BytesOnly.launchFlight {rs : List Range} {s t : State} (h : BytesOnly rs s t) (f : Flight) :
    BytesOnly rs (s.launchFlight f) (t.launchFlight f) :=
  ⟨by conv_lhs => rw [h.rest]
      rfl, h.byte, h.healed, h.kept⟩

theorem BytesOnly.seqTaken {rs : List Range} {s t : State} (h : BytesOnly rs s t) (leaves : Bool) :
    BytesOnly rs (s.seqTaken leaves) (t.seqTaken leaves) := by
  cases leaves with
  | false => exact h
  | true =>
    exact ⟨by conv_lhs => rw [h.rest]
              rfl, h.byte, h.healed, h.kept⟩

/-! ### The waits before an access (R120, R121, R128, R132) -/

theorem wGate_of_goesOn {s : State} {w : WaitSel} (h : s.goesOn false w) (k : Host.Outcome State Fault Refusal) :
    s.wGate w k = k := by
  obtain ⟨hwait, hlog⟩ := h
  unfold State.wGate
  by_cases hnone : (!w.sn && !w.sg) = true
  · rw [if_pos hnone]
  · have hcounts : ¬ ((w.sn && s.cnt .sn != 0) || (w.sg && s.cnt .sg != 0)) = true := by
      simpa [State.mustWait] using hwait
    have hraise : s.raiseLogged (fun c => (w.sn && c == 0) || (w.sg && c == 1)) = none :=
      hlog.resolve_right fun ⟨_, hsn, hsg⟩ => hnone (by simp [hsn, hsg])
    rw [if_neg hnone, if_neg hcounts, hraise]

theorem orderGate_of_goesOn {s : State} {rel : Bool} {w : WaitSel} (h : s.goesOn rel w) (k : Host.Outcome State Fault Refusal) :
    s.orderGate rel w k = k := by
  cases rel with
  | false => exact wGate_of_goesOn h k
  | true =>
    obtain ⟨hwait, hlog⟩ := h
    have hquiet : s.quietAt s.cur.core s.cur.ctx = true := by simpa [State.mustWait] using hwait
    have hraise : s.raiseLogged (fun c => decide (c ≤ 2)) = none := hlog.resolve_right (by simp)
    rw [State.orderGate, if_pos rfl, State.relGate, hquiet, hraise]
    rfl

/-! ### Posted operations (R28, R29, R120, R124, R126, R129) -/

theorem setBits_count (c : Cnt) {v : Nat} (hv : v < 2 ^ 64) (h : bits v (c.lo + 5) c.lo < 63) :
    setBits v (c.lo + 5) c.lo (bits v (c.lo + 5) c.lo + 1) % 2 ^ 64 = v + 2 ^ c.lo := by
  cases c <;> simp only [Cnt.lo, bits, setBits] at h ⊢ <;> omega

/-- A counter that is not full counts one more, in its own bits of CX.CNT (R28). -/
theorem cx_setCnt (s : State) (c : Cnt) (h : s.cnt c < 63) : (s.setCnt c (s.cnt c + 1)).cx cxCNT = s.cx cxCNT + 2 ^ c.lo :=
  (cx_setCx s cxCNT _).trans (setBits_count c (cx_lt s cxCNT) h)

/-- The answer `o` of an operation that is sent and counted, and waits while its counter is full. -/
def State.Sends (s : State) (o : Host.Outcome State Fault Refusal) (p : Dest) (rel : Bool) (c : Cnt) (ea : Nat) (op : MemOp)
    (leaves : Bool) : Prop :=
  (s.cnt c < 63 → CompletesOver s ((s.seqTaken leaves).launchFlight
      (s.reqFor p ea op (.count s.cur.core s.cur.ctx c s.pc s.nextId) (s.seqPair leaves) rel))
    o [s.cxRange cxCNT] (fun t => t.cx cxCNT = s.cx cxCNT + 2 ^ c.lo)) ∧
  (s.cnt c = 63 → Stalls s s o .retry)

/-- A posted operation counts, takes its sequence, leaves, and completes. -/
theorem posted_eq (s : State) (p : Dest) (ea : Nat) (op : MemOp) (rel : Bool) (c : Cnt) (leaves : Bool) (h : s.cnt c < 63) :
    s.posted p ea op rel c leaves = (((s.setCnt c (s.cnt c + 1)).seqTaken leaves).launchFlight
      (s.reqFor p ea op (.count s.cur.core s.cur.ctx c s.pc s.nextId) (s.seqPair leaves) rel)).advance := by
  have hpc : ((s.setCnt c (s.cnt c + 1)).seqTaken leaves).pc = s.pc := by
    rw [(sameWorkspaces_seqTaken _ leaves).pc]
    exact congrArg (· / 4 * 4) (cx_setCx_ne s cxCNT _ cxPC (.inl (by decide)))
  rw [State.posted, State.counted, if_neg (by omega), ← hpc]
  cases leaves <;> rfl

theorem posted_sends (s : State) (p : Dest) (ea : Nat) (op : MemOp) (rel : Bool) (c : Cnt) (leaves : Bool) :
    s.Sends (.next (s.posted p ea op rel c leaves)) p rel c ea op leaves := by
  refine ⟨fun hroom => ?_, fun hfull => ?_⟩
  · have hcount : BytesOnly [s.cxRange cxCNT] s (s.setCnt c (s.cnt c + 1)) := setCx_bytesOnly s cxCNT _
    have hsent := (hcount.seqTaken leaves).launchFlight
      (s.reqFor p ea op (.count s.cur.core s.cur.ctx c s.pc s.nextId) (s.seqPair leaves) rel)
    have hbase := sameWorkspaces_request s leaves
      (s.reqFor p ea op (.count s.cur.core s.cur.ctx c s.pc s.nextId) (s.seqPair leaves) rel)
    rw [posted_eq s p ea op rel c leaves hroom]
    refine hbase.completesOver hsent ?_ fun v hv => ?_
    · rw [← hbase.cxRange]
      exact cxRange_apart _ cxCNT (.inl (by decide))
    · rw [cx_onRanges hsent hv cxCNT (.inr (.inl (by decide))), (sameWorkspaces_request _ leaves _).cx, cx_setCnt s c hroom]
  · rw [State.posted, State.counted, if_pos (by omega)]
    exact (SameWorkspaces.refl s).stalls .retry

theorem dest_cnt (p : Dest) : p.cnt = sendsTo p := by cases p <;> rfl

/-- A store or nibble store whose target is not local. -/
theorem storeTo_sends {s : State} {k : Kind} {ea align : Nat} {op : MemOp} {rel : Bool} {p : Dest} (hctx : s.cur.ctx ≠ 1)
    (hp : s.checkAddr k ea op.size align = .ok p) (hl : s.isLocal k p = false) :
    s.Sends (.next (s.storeTo k ea align op rel)) p rel (sendsTo p) ea op (decide (k = .nibble)) := by
  have hpost : s.storeTo k ea align op rel = s.posted p ea op rel p.cnt (decide (k = .nibble)) := by
    simp only [State.storeTo, hp, hctx, hl, if_false, Bool.false_eq_true]
  rw [hpost, dest_cnt]
  exact posted_sends s p ea op rel (sendsTo p) _

theorem ea_eq_memEa (s : State) (a : GReg) (off : Imm) (size : Nat) : s.ea a off size = s.memEa a off size := by
  simp [State.ea, State.memEa, State.g, BitVec.toNat_add, BitVec.toNat_mul]

theorem storeScalar_sends {s : State} {size : Nat} {d a : GReg} {off : Imm} {h : Hint} {w : WaitSel} {p : Dest}
    (hctx : s.cur.ctx ≠ 1) (hp : s.checkAddr .store (s.memEa a off size) size size = .ok p ∧ s.isLocal .store p = false)
    (hg : s.goesOn (h == .order) w) :
    s.Sends (s.storeScalar size d a off h w) p (h == .order) (sendsTo p) (s.memEa a off size)
      (.store (bytesOf size (s.gN d)) false) false := by
  rw [State.storeScalar, orderGate_of_goesOn hg, ea_eq_memEa]
  exact storeTo_sends hctx (by rw [MemOp.size, bytesOf_length]; exact hp.1) hp.2

theorem vst_sends {s : State} {v : VReg} {a : GReg} {off : Imm} {h : Hint} {w : WaitSel} {p : Dest} (hctx : s.cur.ctx ≠ 1)
    (hp : s.checkAddr .store (s.memEa a off 64) 64 64 = .ok p ∧ s.isLocal .store p = false) (hg : s.goesOn (h == .order) w) :
    s.Sends (execVst v a off h w s) p (h == .order) (sendsTo p) (s.memEa a off 64)
      (.store ((List.range 16).flatMap (fun i => bytesOf 4 (s.laneN v i))) false) false := by
  rw [execVst, orderGate_of_goesOn hg, ea_eq_memEa, List.flatMap_def]
  exact storeTo_sends hctx (by rw [MemOp.size, State.vecBytes, lanes_length]; exact hp.1) hp.2

theorem stn_sends {s : State} {a b : GReg} {hi rel : Bool} {w : WaitSel} {p : Dest} (hctx : s.cur.ctx ≠ 1)
    (hp : s.checkAddr .nibble (s.gN a) 1 1 = .ok p ∧ s.isLocal .nibble p = false) (hg : s.goesOn rel w) :
    s.Sends (execStn a b hi rel w s) p rel (sendsTo p) (s.gN a) (.nibble hi (s.gN b % 16)) true := by
  rw [execStn, orderGate_of_goesOn hg]
  exact storeTo_sends hctx hp.1 hp.2

theorem atomicPosted_sends {s : State} {op : AOp} {n : Nat} {a b : GReg} {rel : Bool} {w : WaitSel} {p : Dest} (hn : op.width = n)
    (hctx : s.cur.ctx ≠ 1) (hp : s.checkAddr .atomic (s.gN a) n n = .ok p) (hg : s.goesOn rel w) :
    s.Sends (s.orderGate rel w (.next (s.atomicPosted op a b rel))) p rel .at_ (s.gN a) (.atomic op (s.gN b))
      (s.ownOff (s.gN a)).isNone := by
  subst hn
  rw [orderGate_of_goesOn hg, State.atomicPosted]
  simp only [hp, hctx, if_false]
  exact posted_sends s p (s.gN a) _ rel .at_ _

theorem postedOperations : Claims.PostedOperations := by
  intro s d a b v off h w hi rel p hctx sends remote stores atomics
  exact ⟨storeScalar_sends hctx, storeScalar_sends hctx, storeScalar_sends hctx, storeScalar_sends hctx, vst_sends hctx,
    stn_sends hctx, atomicPosted_sends rfl hctx, atomicPosted_sends rfl hctx, atomicPosted_sends rfl hctx,
    atomicPosted_sends rfl hctx, atomicPosted_sends rfl hctx, atomicPosted_sends rfl hctx, atomicPosted_sends rfl hctx,
    atomicPosted_sends rfl hctx, atomicPosted_sends rfl hctx, atomicPosted_sends rfl hctx⟩

/-! ### Blocking requests (R112, R119, R126, R127) -/

/-- The answer `o` of an instruction that sends a request and waits for its reply, or first for what is outstanding to its target. -/
def State.Asks (s : State) (o : Host.Outcome State Fault Refusal) (p : Dest) (rel : Bool) (ea : Nat) (op : MemOp) (leaves : Bool)
    (k : Kont) : Prop :=
  (s.pendingTo ea = true → Stalls s s o .retry) ∧
  (s.pendingTo ea = false → Stalls s ((s.seqTaken leaves).launchFlight
    (s.reqFor p ea op (.ctx s.cur.core s.cur.ctx) (s.seqPair leaves) rel)) o (.reply s.nextId k s.cur))

theorem request_eq (s : State) (p : Dest) (ea : Nat) (op : MemOp) (rel leaves : Bool) (k : Kont) :
    (s.seqTaken leaves).request p ea op rel (s.seqPair leaves) k = ((s.seqTaken leaves).launchFlight
      (s.reqFor p ea op (.ctx s.cur.core s.cur.ctx) (s.seqPair leaves) rel)).stall (.reply s.nextId k s.cur) := by
  cases leaves <;> rfl

theorem request_asks (s : State) (p : Dest) (ea : Nat) (op : MemOp) (rel leaves : Bool) (k : Kont) :
    s.Asks (.next (if s.pendingTo ea then s.stall .retry else (s.seqTaken leaves).request p ea op rel (s.seqPair leaves) k))
      p rel ea op leaves k := by
  refine ⟨fun hpending => ?_, fun hclear => ?_⟩
  · rw [if_pos hpending]
    exact (SameWorkspaces.refl s).stalls .retry
  · rw [hclear, if_neg Bool.false_ne_true, request_eq]
    exact (sameWorkspaces_request s leaves _).stalls _

theorem loadFrom_asks {s : State} {ea n : Nat} {k : Kont} {fin : State → List Byte → State} {p : Dest}
    (hp : s.checkAddr .load ea n n = .ok p) (hl : s.isLocal .load p = false) :
    s.Asks (.next (s.loadFrom ea n n k fin)) p false ea (.load n) false k := by
  simp only [State.loadFrom, hp, hl, if_false, Bool.false_eq_true]
  exact request_asks s p ea (.load n) false false k

theorem loadScalar_asks {s : State} {size : Nat} {d a : GReg} {off : Imm} {h : Hint} {w : WaitSel} {p : Dest}
    (hp : s.checkAddr .load (s.memEa a off size) size size = .ok p) (hl : s.isLocal .load p = false) (hg : s.goesOn false w) :
    s.Asks (s.loadScalar size d a off h w) p false (s.memEa a off size) (.load size) false (.load d.val (h == .order)) := by
  rw [State.loadScalar, wGate_of_goesOn hg, ea_eq_memEa]
  exact loadFrom_asks hp hl

theorem vld_asks {s : State} {v : VReg} {a : GReg} {off : Imm} {h : Hint} {w : WaitSel} {p : Dest}
    (hp : s.checkAddr .load (s.memEa a off 64) 64 64 = .ok p) (hl : s.isLocal .load p = false) (hg : s.goesOn false w) :
    s.Asks (execVld v a off h w s) p false (s.memEa a off 64) (.load 64) false (.vload v.val (h == .order)) := by
  rw [execVld, wGate_of_goesOn hg, ea_eq_memEa]
  exact loadFrom_asks hp hl

theorem withSeq_eq (s : State) (ea : Nat) :
    s.withSeq ea = (s.seqTaken (s.ownOff ea).isNone, s.seqPair (s.ownOff ea).isNone) := by
  unfold State.withSeq
  cases s.ownOff ea <;> rfl

theorem atomicValue_asks {s : State} {ea n : Nat} {op : MemOp} {rel : Bool} {w : WaitSel} {k : Kont} {p : Dest}
    (hn : op.size = n) (hctx : s.cur.ctx ≠ 1) (hp : s.checkAddr .atomic ea n n = .ok p) (hg : s.goesOn rel w) :
    s.Asks (s.orderGate rel w (.next (s.atomicValue ea n op rel k))) p rel ea op (s.ownOff ea).isNone k := by
  subst hn
  rw [orderGate_of_goesOn hg, State.atomicValue, withSeq_eq]
  simp only [hp, hctx, if_false]
  exact request_asks s p ea op rel _ k

theorem blockingRequests : Claims.BlockingRequests := by
  intro s d a b v off h w acq rel p asks loads atomics old pair
  have ldd (hd : d ≠ 0 ∨ h = .order) : loads (.ldd d a off h w) (s.memEa a off 8) 8 (.load d.val (h == .order)) := by
    have hload : exec (.ldd d a off h w) s = s.loadScalar 8 d a off h w :=
      if_neg fun hno => hd.elim (fun h0 => h0 hno.1) (fun h1 => hno.2 h1)
    intro hp hl hg
    rw [hload]
    exact loadScalar_asks hp hl hg
  have casp : atomics (.casp d a b acq rel w) 16 (.cas 16 (pair d) (pair b)) (.cas d.val 16 acq) := by
    intro hctx hp hg
    simp only [pair, Nat.mul_comm (2 ^ 64)]
    exact atomicValue_asks rfl hctx hp hg
  exact ⟨loadScalar_asks, loadScalar_asks, loadScalar_asks, ldd, vld_asks,
    atomicValue_asks rfl, atomicValue_asks rfl, atomicValue_asks rfl, atomicValue_asks rfl, atomicValue_asks rfl,
    atomicValue_asks rfl, atomicValue_asks rfl, atomicValue_asks rfl, atomicValue_asks rfl, atomicValue_asks rfl,
    atomicValue_asks rfl, casp⟩

end Sys2Proof.Machine

/-! # The replies that come back (O18) -/

namespace Sys2Proof.Machine

/-! ### A trap keeps what a context has seen of releases (R229) -/

/-- Of no context is it newly known, or forgotten, that the value it waits for was written by a release. -/
structure SameAcq (s t : State) : Prop where
  acq : ∀ core ctx, (t.ctxAt core ctx).acq = (s.ctxAt core ctx).acq

section
variable {s t u : State} {core ctx slot gen va : Nat} (h : SameAcq s t)

theorem SameAcq.refl (s : State) : SameAcq s s := ⟨fun _ _ => rfl⟩

include h

theorem SameAcq.cores (hc : u.cores = t.cores) : SameAcq s u :=
  ⟨fun core ctx => by rw [State.ctxAt, State.core, hc]; exact h.acq core ctx⟩

theorem SameAcq.ite {c : Prop} [Decidable c] (g : SameAcq s u) : SameAcq s (if c then t else u) := by
  split
  · exact h
  · exact g

theorem SameAcq.setCore {c : CoreState} (hc : c.ctxs = (t.core core).ctxs := by rfl) : SameAcq s (t.setCore core c) :=
  ⟨fun k x => by
    rw [← h.acq, State.ctxAt, core_setCore]
    split_ifs with hk
    · rw [hc, hk]; rfl
    · rfl⟩

theorem SameAcq.setCtxAt {c : Ctx} (hc : c.acq = (t.ctxAt core ctx).acq := by rfl) :
    SameAcq s (t.setCtxAt core ctx c) :=
  ⟨fun k x => by
    rw [← h.acq, ctxAt_setCtxAt]
    split_ifs with hk
    · rw [hc, hk.1, hk.2]
    · rfl⟩

theorem SameAcq.setCx {off v : Nat} : SameAcq s (t.setCx off v) := h.cores rfl
theorem SameAcq.setPC {v : Nat} : SameAcq s (t.setPC v) := h.setCx
theorem SameAcq.setStateAt {st : Nat} : SameAcq s (t.setStateAt core ctx st) := h.cores rfl
theorem SameAcq.setGAt {r v : Nat} : SameAcq s (t.setGAt core ctx r v) := h.ite (h.cores rfl)
theorem SameAcq.wr {loc : Nat} {bs : List Byte} : SameAcq s (t.wr loc bs) := h.cores rfl
theorem SameAcq.poisonAt {loc : Nat} {bad : List Nat} : SameAcq s (t.poisonAt loc bad) := h.cores rfl
theorem SameAcq.postFrom {kind cause pc addr aux : Nat} {source : Option (Nat × Nat)} :
    SameAcq s (t.postFrom kind core ctx cause pc addr aux source) := h.cores rfl
theorem SameAcq.nack : SameAcq s (t.nack core slot) := h.cores rfl
theorem SameAcq.setFut {e : FutEntry} : SameAcq s (t.setFut core slot e) := h.setCore

omit h

/-! What an agent reads or writes in memory changes no core. -/

theorem markDirty_cores (s : State) (e : TlbEnt) : (s.markDirty e).cores = s.cores := by
  unfold State.markDirty
  split <;> rfl

theorem useTlb_cores {e : TlbEnt} {a : Access} : ResultOk (fun _ => True) (fun r => r.1.cores = s.cores) (s.useTlb e va a) := by
  unfold State.useTlb
  split
  · trivial
  · change State.cores (if a = .write then s.markDirty e else s) = s.cores
    split
    · exact markDirty_cores s e
    · rfl

theorem translate_cores {part : Nat} {a : Access} :
    ResultOk (fun _ => True) (fun r => r.1.cores = s.cores) (s.translate part va a) := by
  unfold State.translate
  split
  · trivial
  extract_lets slice
  split
  · exact useTlb_cores
  split
  · trivial
  · exact useTlb_cores

theorem gPut_cores (s : State) (part va pa : Nat) (uc : Bool) (bs : List Byte) : (s.gPut part va pa uc bs).cores = s.cores := by
  have hwr : (s.gWr part pa uc bs).cores = s.cores := by cases uc <;> rfl
  unfold State.gPut
  extract_lets t k
  split
  · exact hwr
  · exact hwr

include h

theorem SameAcq.spillRead : ResultOk (fun _ => True) (fun r => SameAcq s r.1) (t.spillRead core va) := by
  unfold State.spillRead State.agentRead State.agentFetch
  cases hread : t.translate (t.partOf core) va .read with
  | error e => trivial
  | ok r =>
    simp only
    split_ifs
    · exact h.cores (translate_cores.ok hread)
    · trivial

theorem SameAcq.spillProbe {i fuel : Nat} : ResultOk (fun _ => True) (fun r => SameAcq s r.1) (t.spillProbe core slot gen i fuel) := by
  induction fuel generalizing t i with
  | zero => exact h
  | succ fuel ih =>
    unfold State.spillProbe
    extract_lets va
    split
    · trivial
    next hread =>
      have hu := h.spillRead.ok hread
      split
      · exact hu
      split
      · exact hu
      · exact ih hu

theorem SameAcq.futFind : ResultOk (fun _ => True) (fun r => SameAcq s r.1) (t.futFind core slot gen) := by
  unfold State.futFind
  extract_lets e
  split
  · split
    · trivial
    · exact h
  split
  · exact h
  split
  · trivial
  next hprobe => exact h.spillProbe.ok hprobe
  next hprobe => exact h.spillProbe.ok hprobe

theorem SameAcq.agentWrite {part : Nat} {bs : List Byte} : ResultOk (fun _ => True) (SameAcq s) (t.agentWrite part va bs) := by
  unfold State.agentWrite State.agentStore
  split
  · trivial
  next hpage => exact ((h.cores (translate_cores.ok hpage)).cores (gPut_cores ..)).poisonAt

theorem SameAcq.futFree {l : FutLoc} {e : FutEntry} : ResultOk (fun _ => True) (SameAcq s) (t.futFree core slot l e) := by
  unfold State.futFree
  split
  · exact h.setFut
  extract_lets w c u
  have hu : SameAcq s u := h.setCore
  split
  · trivial
  next hwrite => exact hu.agentWrite.ok hwrite

theorem SameAcq.futUndo : SameAcq s (t.futUndo core slot gen) := by
  unfold State.futUndo
  split
  next hfind =>
    have hu := h.futFind.ok hfind
    split
    next hfree => exact hu.futFree.ok hfree
    · exact hu
  next hfind => exact h.futFind.ok hfind
  extract_lets e u
  have hu : SameAcq s u := h.setFut
  split
  next hfind =>
    have hv := hu.futFind.ok hfind
    split
    next hfree => exact (hv.futFree.ok hfree).setFut
    · exact hv
  · exact hu

/-! The ways in which a trap goes on (R358). -/

theorem SameAcq.postFault : SameAcq s (t.postFault core ctx) := h.postFrom.ite h.postFrom

theorem SameAcq.holdAndPost : SameAcq s (t.holdAndPost core ctx) := h.setCtxAt.setStateAt.postFault

theorem SameAcq.endWith {e : Ending} : SameAcq s (t.endWith core ctx e) := h.setCtxAt.setStateAt

theorem SameAcq.consumed : SameAcq s t.consumed :=
  h.holdAndPost.ite (h.postFrom.endWith.ite (h.endWith.ite h.endWith))

theorem SameAcq.dropAheadAt : SameAcq s (t.dropAheadAt core ctx) := h.setCtxAt

theorem SameAcq.setCause {cause addr aux : Nat} : SameAcq s (t.setCause cause addr aux) := by
  unfold State.setCause
  extract_lets u
  have hu : SameAcq s u := h.setCx.setCx.setCx.dropAheadAt
  exact hu.setCtxAt

theorem SameAcq.readyAt : SameAcq s (t.readyAt core ctx) := h.setCtxAt.setStateAt

theorem SameAcq.enterRoutine {vec : Nat} : SameAcq s (t.enterRoutine vec) := by
  unfold State.enterRoutine
  extract_lets +onlyGivenNames c x f
  clear_value f
  split
  · exact h.setCause.consumed
  split
  · exact h.holdAndPost
  split
  · exact h.holdAndPost
  · exact h.wr.poisonAt.setGAt.setGAt.setGAt.setGAt.setCx.setPC.readyAt

theorem SameAcq.endActivation {freeSlot : Bool} : SameAcq s (t.endActivation core freeSlot) := by
  unfold State.endActivation
  extract_lets c inbox u
  have hu : SameAcq s u := h.setCore
  exact hu.setCtxAt.setStateAt

theorem SameAcq.rollback {cause pc addr : Nat} : SameAcq s (t.rollback cause pc addr) := by
  unfold State.rollback
  extract_lets core
  split
  · exact h.setStateAt
  extract_lets u c v
  have hu : SameAcq s u := foldl_keeps h fun _ hv _ => hv.futUndo
  have hv : SameAcq s v := hu.setCore
  split
  · exact hu.nack.endActivation.ite hv.endActivation
  · exact hu.postFrom.endActivation

theorem SameAcq.dispose {cause pc : Nat} : SameAcq s (t.dispose cause pc) := by
  unfold State.dispose
  extract_lets core ctx c
  refine h.rollback.ite (SameAcq.ite ?twin (h.consumed.ite (h.holdAndPost.ite (SameAcq.ite ?control (h.enterRoutine.ite
    (h.endWith.ite h.holdAndPost))))))
  case twin => exact h.endWith.ite (h.endWith.ite h.holdAndPost)
  case control => exact h.enterRoutine.ite h.holdAndPost

theorem SameAcq.takeTrap {cause addr aux : Nat} : SameAcq s (t.takeTrap cause addr aux) := h.setCause.dispose

end

/-! ### Registers below the context words -/

/-- Every range lies in the workspace below its context words: in general, vector or mask registers (R20). -/
def State.inRegisters (s : State) (rs : List Range) : Prop := ∀ r ∈ rs, ∃ off n, s.inWs r off n ∧ off + n ≤ cxPC

section
variable {s t : State} {rs qs : List Range}

theorem gRange_inRegisters (s : State) (d : GReg) : s.inRegisters (s.gRange d) := fun x hx =>
  ⟨_, _, gRange_inWs s d x hx, by have := d.isLt; unfold cxPC; omega⟩
theorem vRange_inRegisters (s : State) (d : VReg) : s.inRegisters [s.vRange d] := fun x hx =>
  ⟨_, _, by rw [List.mem_singleton] at hx; subst hx; exact vRange_inWs s d, by have := d.isLt; unfold cxPC; omega⟩
theorem State.inRegisters.append (h : s.inRegisters rs) (g : s.inRegisters qs) : s.inRegisters (rs ++ qs) := fun x hx =>
  (List.mem_append.1 hx).elim (h x) (g x)

theorem State.inRegisters.apart (h : s.inRegisters rs) : s.apart rs := fun x hx =>
  have ⟨off, n, hin, hlow⟩ := h x hx
  ⟨off, n, hin, .inl hlow⟩

/-- A change of registers leaves every context word. -/
theorem BytesOnly.cx_of_inRegisters (h : BytesOnly rs s t) (hr : s.inRegisters rs) {off : Nat} (ho : cxPC ≤ off) : t.cx off = s.cx off := by
  refine h.cx off fun x hx => ?_
  obtain ⟨o, n, rfl, hlow⟩ := hr x hx
  rw [wsLoc_eq s _ _ off]
  omega

theorem BytesOnly.inRegisters (h : BytesOnly rs s t) (hr : s.inRegisters qs) : t.inRegisters qs := fun x hx => by
  obtain ⟨off, n, hin, hlow⟩ := hr x hx
  refine ⟨off, n, ?_, hlow⟩
  rw [State.inWs, h.cur, h.wsLoc]
  exact hin

theorem BytesOnly.gRange (h : BytesOnly rs s t) (d : GReg) : t.gRange d = s.gRange d := by
  rw [State.gRange, h.cur, h.wsLoc]
  rfl
theorem BytesOnly.vRange (h : BytesOnly rs s t) (d : VReg) : t.vRange d = s.vRange d := by
  rw [State.vRange, h.cur, h.wsLoc]
  rfl

/-- Another general register is not changed. -/
theorem gN_setGN_ne (s : State) (d e : GReg) (v : Nat) (h : e ≠ d) : (s.setGN d v).gN e = s.gN e := by
  refine (setGN_bytesOnly s d v).gN e fun x hx y hy => ?_
  obtain rfl := gRange_inWs s d x hx
  obtain rfl := gRange_inWs s e y hy
  have hne : e.val ≠ d.val := Fin.val_ne_of_ne h
  simp only
  omega

end

/-! ### What the core holds of a context -/

/-- The entries of a table that a set at another key leaves. -/
theorem Tbl.filter_set {α : Type} [DecidableEq α] (dflt : α) (t : Tbl α) (k : Nat) (v : α) {q : Nat × α → Bool}
    (hq : ∀ e, q e = true → e.1 ≠ k) : (Tbl.set dflt t k v).filter q =
      (t.filter (fun e => decide (e.1 < k))).filter q ++ (t.filter (fun e => decide (k < e.1))).filter q := by
  have hk : (if v = dflt then [] else [(k, v)]).filter q = [] := by
    rw [List.filter_eq_nil_iff]
    intro e he hqe
    split_ifs at he
    · simp at he
    · rw [List.mem_singleton] at he
      exact hq e hqe (he ▸ rfl)
  rw [Tbl.set, List.filter_append, List.filter_append, hk, List.append_nil]

theorem Tbl.set_set {α : Type} [DecidableEq α] (dflt : α) (t : Tbl α) (k : Nat) (v w : α) :
    Tbl.set dflt (Tbl.set dflt t k v) k w = Tbl.set dflt t k w := by
  have hnone (q r : Nat × α → Bool) (hqr : ∀ e, r e = true → ¬ q e = true) : (t.filter r).filter q = [] :=
    List.filter_eq_nil_iff.2 fun e he => hqr e (List.mem_filter.1 he).2
  have hself (q : Nat × α → Bool) : (t.filter q).filter q = t.filter q :=
    List.filter_eq_self.2 fun e he => (List.mem_filter.1 he).2
  have hlow : (Tbl.set dflt t k v).filter (fun e => decide (e.1 < k)) = t.filter (fun e => decide (e.1 < k)) := by
    rw [Tbl.filter_set dflt t k v fun e he => (of_decide_eq_true he).ne, hself, hnone, List.append_nil]
    simpa using fun a _ h => h.le
  have hhigh : (Tbl.set dflt t k v).filter (fun e => decide (k < e.1)) = t.filter (fun e => decide (k < e.1)) := by
    rw [Tbl.filter_set dflt t k v fun e he => (of_decide_eq_true he).ne', hself, hnone, List.nil_append]
    simpa using fun a _ h => h.le
  rw [Tbl.set.eq_1 dflt (Tbl.set dflt t k v), hlow, hhigh]
  rfl

theorem setCtxAt_setCtxAt (s : State) (core ctx : Nat) (c d : Ctx) :
    (s.setCtxAt core ctx c).setCtxAt core ctx d = s.setCtxAt core ctx d := by
  have hcore : (s.setCtxAt core ctx c).core core =
      { s.core core with ctxs := Tbl.set (Ctx.reset ctx) (s.core core).ctxs ctx c } := by
    rw [core_setCtxAt, if_pos rfl]
  unfold State.setCtxAt at hcore ⊢
  rw [hcore, Tbl.set_set]
  exact congrArg (fun cores => { s with cores := cores }) (Tbl.set_set _ _ _ _ _)

/-- What is left of a context that has acquired: nothing fetched ahead, and no value that it waits for (R34, R229). -/
def State.afterAcquire (s : State) : State := s.setMyCtx { s.myCtx with ahead := [], acq := false }

theorem sameWorkspaces_afterAcquire (s : State) : SameWorkspaces s s.afterAcquire :=
  ⟨rfl, rfl, fun core ctx => by
    rw [State.afterAcquire, State.setMyCtx, ctxAt_setCtxAt]
    split_ifs with hc
    · rw [hc.1, hc.2]; rfl
    · rfl⟩

theorem BytesOnly.afterAcquire {rs : List Range} {s t : State} (h : BytesOnly rs s t) :
    BytesOnly rs s.afterAcquire t.afterAcquire :=
  ⟨by conv_lhs => rw [h.rest]
      rfl, h.byte, h.healed, h.kept⟩

/-- A context that awaits no reply acquires when what it waited for was written by a release. -/
theorem acquireAt_of_wait_none {s : State} (hwait : s.myCtx.wait = .none) :
    s.acquireAt s.cur.core s.cur.ctx = if s.myCtx.acq = true then s.afterAcquire else s := by
  have hwaits : (!(match s.myCtx.wait with
    | .reply _ _ _ => true
    | _ => false)) = true := by rw [hwait]; rfl
  exact if_congr (and_iff_left hwaits) rfl rfl

/-- A completed instruction acquires when it asks for it, and when what it returned was written by a release (R34, R229). -/
theorem acquireAt_eq {s : State} (hwait : s.myCtx.wait = .none) (acq : Bool) :
    (if acq then s.acquire else s).acquireAt s.cur.core s.cur.ctx = if acq = true ∨ s.myCtx.acq = true then s.afterAcquire else s := by
  cases acq with
  | false =>
    rw [if_neg Bool.false_ne_true, acquireAt_of_wait_none hwait]
    exact if_congr (by simp) rfl rfl
  | true =>
    have hme : s.acquire.myCtx = { s.myCtx with ahead := [] } :=
      (ctxAt_setCtxAt s s.cur.core s.cur.ctx _ s.cur.core s.cur.ctx).trans (if_pos ⟨rfl, rfl⟩)
    rw [if_pos rfl, if_pos (.inl rfl)]
    change s.acquire.acquireAt s.acquire.cur.core s.acquire.cur.ctx = _
    rw [acquireAt_of_wait_none (by rw [hme]; exact hwait), State.afterAcquire, hme]
    split_ifs with hacq
    · exact setCtxAt_setCtxAt _ _ _ _ _
    · have hfalse : s.myCtx.acq = false := by simpa using hacq
      rw [State.afterAcquire, ← hfalse]
      rfl

/-! ### Replies (R34, R112, R119, R126, R127, R229) -/

/-- The state in which the instruction that waited for a reply goes on. -/
def State.replied (s : State) (id core ctx : Nat) (at_ : Cur) : State :=
  { (s.dropFlight id).setCtxAt core ctx { s.ctxAt core ctx with wait := .none } with cur := at_ }

theorem replyArrive_eq {s : State} {id core ctx : Nat} {k : Kont} {at_ : Cur} {a : Answer}
    (hf : lookupId id s.flights = some (.reply (.ctx core ctx) a)) (hw : (s.ctxAt core ctx).wait = .reply id k at_) :
    s.replyArrive id =
      (((s.replied id core ctx at_).setStateAt core ctx stREADY).resumeReply id k at_ a).acquireAt core ctx := by
  have hawaits : (Wait.reply id k at_).awaits id = true := by simp [Wait.awaits]
  simp only [State.replyArrive, hf, hw, hawaits, if_true]
  rfl

/-- The same, READY. -/
def State.readied (s : State) (id core ctx : Nat) (at_ : Cur) : State := (s.replied id core ctx at_).setStateAt core ctx stREADY

/-- A completed instruction, with the acquire that it asks for. -/
def State.completed (s : State) (acq : Bool) : State := if acq then s.advance.acquire else s.advance

/-- The answer `o` of a reply whose instruction writes registers in `rs` with `p` of them and completes: its context is READY, and
acquires when the instruction asks for it or the value was written by a release (R22, R34, R229). -/
def State.Resumes (s : State) (id : Nat) (at_ : Cur) (acq : Bool) (o : Host.Outcome State Fault Refusal) (rs : List Range)
    (p : State → Prop) : Prop :=
  CompletesOver (s.replied id at_.core at_.ctx at_)
    (if acq = true ∨ (s.ctxAt at_.core at_.ctx).acq = true then (s.replied id at_.core at_.ctx at_).afterAcquire
      else s.replied id at_.core at_.ctx at_)
    o (rs ++ [(s.replied id at_.core at_.ctx at_).cxRange cxSTATUS]) (fun t => bits (t.cx cxSTATUS) 3 0 = 1 ∧ p t)

/-- General registers and lanes read as before. -/
structure SameRegisters (s t : State) : Prop where
  gN : ∀ r, t.gN r = s.gN r
  laneN : ∀ r i, i < 16 → t.laneN r i = s.laneN r i

section
variable {s : State} {id : Nat} {at_ : Cur} {rs : List Range} {w : State} {p : State → Prop}

theorem readied_bytesOnly (s : State) (id : Nat) (at_ : Cur) :
    BytesOnly [(s.replied id at_.core at_.ctx at_).cxRange cxSTATUS] (s.replied id at_.core at_.ctx at_)
      (s.readied id at_.core at_.ctx at_) :=
  setCx_bytesOnly (s.replied id at_.core at_.ctx at_) cxSTATUS _

theorem replied_myCtx (s : State) (id : Nat) (at_ : Cur) :
    (s.replied id at_.core at_.ctx at_).myCtx = { s.ctxAt at_.core at_.ctx with wait := .none } :=
  (ctxAt_setCtxAt (s.dropFlight id) at_.core at_.ctx _ at_.core at_.ctx).trans (if_pos ⟨rfl, rfl⟩)

/-- The context whose reply arrives is READY (R22). -/
theorem readied_status (s : State) (id : Nat) (at_ : Cur) :
    bits ((s.readied id at_.core at_.ctx at_).cx cxSTATUS) 3 0 = 1 := by
  have hlt := cx_lt (s.replied id at_.core at_.ctx at_) cxSTATUS
  have hset := cx_setCx (s.replied id at_.core at_.ctx at_) cxSTATUS
    (setBits (setBits ((s.replied id at_.core at_.ctx at_).cx cxSTATUS) 3 0 stREADY) 7 4 at_.ctx)
  rw [show (s.readied id at_.core at_.ctx at_).cx cxSTATUS = _ from hset]
  simp only [bits, setBits, stREADY]
  omega

/-- The instruction that waited writes its registers and completes; its context is READY and acquires. -/
theorem completed_acquireAt (acq : Bool) (hw : BytesOnly rs (s.readied id at_.core at_.ctx at_) w)
    (hr : (s.replied id at_.core at_.ctx at_).inRegisters rs) (hp : ∀ t, SameRegisters w t → p t) :
    s.Resumes id at_ acq (.next ((w.completed acq).acquireAt at_.core at_.ctx)) rs p := by
  have hready := readied_bytesOnly s id at_
  have hwrite := (hready.trans hw).mono fun x hx => List.mem_append.2 (List.mem_append.1 hx).symm
  have hapart := hr.apart.append (cxRange_apart (s.replied id at_.core at_.ctx at_) cxSTATUS (.inl (by decide)))
  have hstatus : bits (w.cx cxSTATUS) 3 0 = 1 := by
    rw [hw.cx_of_inRegisters (hready.inRegisters hr) (by decide)]
    exact readied_status s id at_
  obtain ⟨x, hx, hpc, hreps, hframe, hst, hregs⟩ :=
    completes_of_apart (p := fun t => bits (t.cx cxSTATUS) 3 0 = 1 ∧ SameRegisters w t) hwrite hapart fun v hv =>
      ⟨by rw [cx_onRanges hwrite hv cxSTATUS (.inr (.inl (by decide))), hstatus], gN_onRanges hwrite hv,
        laneN_onRanges hwrite hv⟩
  obtain rfl : w.advance = x := Host.Outcome.next.inj hx
  have hcur : w.advance.cur = at_ := hframe.cur
  have hmine : w.advance.myCtx = { s.ctxAt at_.core at_.ctx with wait := .none } := by
    rw [State.myCtx, hframe.ctxAt, hcur]
    exact replied_myCtx s id at_
  have hfinish := acquireAt_eq (s := w.advance) (by rw [hmine]) acq
  rw [hcur, hmine] at hfinish
  rw [State.completed, hfinish, State.Resumes]
  split_ifs with hacq
  · have hsw := sameWorkspaces_afterAcquire w.advance
    exact ⟨_, rfl, hsw.pc.trans hpc, (hsw.cx _).trans hreps, hframe.afterAcquire, by rw [hsw.cx]; exact hst,
      hp _ ⟨fun r => (hsw.gN r).trans (hregs.gN r), fun r i hi => (hsw.laneN r i).trans (hregs.laneN r i hi)⟩⟩
  · exact ⟨_, rfl, hpc, hreps, hframe, hst, hp _ hregs⟩

/-- A reply with whose data the instruction that waited writes its registers and completes. -/
theorem reply_completes {acq : Bool} {k : Kont} {a : Answer}
    (hf : lookupId id s.flights = some (.reply (.ctx at_.core at_.ctx) a)) (hk : (s.ctxAt at_.core at_.ctx).wait = .reply id k at_)
    (hdone : (s.readied id at_.core at_.ctx at_).resumeReply id k at_ a = w.completed acq)
    (hw : BytesOnly rs (s.readied id at_.core at_.ctx at_) w)
    (hr : (s.replied id at_.core at_.ctx at_).inRegisters rs) (hp : ∀ t, SameRegisters w t → p t) :
    s.Resumes id at_ acq (exec (.replyArrival id) s) rs p := by
  have hexec : exec (.replyArrival id) s = .next ((w.completed acq).acquireAt at_.core at_.ctx) :=
    congrArg Host.Outcome.next ((replyArrive_eq hf hk).trans (congrArg (·.acquireAt at_.core at_.ctx) hdone))
  rw [hexec]
  exact completed_acquireAt acq hw hr hp

end

/-! What each kind of blocking request makes of the data. -/

section
variable (s : State) (d : GReg) (acq : Bool) (v : Nat)

theorem regPlus_one_val (hd : d.val % 2 = 0) : (regPlus d 1).val = d.val + 1 := by
  have hlt := d.isLt
  simp only [regPlus]
  omega

/-- A CASP's value fills a pair of general registers. -/
theorem takeData_cas_pair (hd : d.val % 2 = 0) : s.takeData (.cas d.val 16 acq) v =
    ((s.setGN d v).setGN (regPlus d 1) (v / 2 ^ 64)).completed acq := by
  rw [State.setGN, regPlus_one_val d hd, State.setGN, setGAt_cur]
  rfl

theorem setGN_setGN_bytesOnly (e : GReg) (x y : Nat) :
    BytesOnly (s.gRange d ++ s.gRange e) s ((s.setGN d x).setGN e y) := by
  have h := setGN_bytesOnly (s.setGN d x) e y
  rw [(setGN_bytesOnly s d x).gRange] at h
  exact (setGN_bytesOnly s d x).trans h

/-- A vector load's data fill one vector register. -/
theorem takeData_vload (d : VReg) : s.takeData (.vload d.val acq) v =
    (s.setV d 0xFFFF (fun i => bits (v % 2 ^ (8 * 64)) (32 * i + 31) (32 * i))).completed acq := by
  have hd : vregOf d.val = d := Fin.ext (Nat.mod_eq_of_lt d.isLt)
  rw [show s.takeData (.vload d.val acq) v = s.finishVload (vregOf d.val) acq (bytesOf 64 v) from rfl, hd, State.finishVload,
    natOf_bytesOf]
  rfl

/-- The data of 64 bytes, lane by lane (R112). -/
theorem bits_lane (i : Nat) (hi : i < 16) :
    bits (v % 2 ^ (8 * 64)) (32 * i + 31) (32 * i) % 2 ^ 32 = v / 2 ^ (32 * i) % 2 ^ 32 := by
  have hsplit : 2 ^ (8 * 64) = 2 ^ (32 * i) * 2 ^ (8 * 64 - 32 * i) := by rw [← pow_add]; congr 1; omega
  rw [bits, show 32 * i + 31 + 1 - 32 * i = 32 by omega, Nat.mod_mod, hsplit, Nat.mod_mul_right_div_self]
  exact Nat.mod_mod_of_dvd _ (pow_dvd_pow 2 (by omega))

end

section
variable {s : State} {id : Nat} {at_ : Cur} {acq : Bool} {k : Kont} {a : Answer} {d : GReg} {v : Nat}
  (hf : lookupId id s.flights = some (.reply (.ctx at_.core at_.ctx) a)) (hk : (s.ctxAt at_.core at_.ctx).wait = .reply id k at_)
include hf hk

/-- The reply of a request for one general register: a load, a value-returning atomic or a CAS. -/
theorem reply_writesG (hdone : (s.readied id at_.core at_.ctx at_).resumeReply id k at_ a =
      ((s.readied id at_.core at_.ctx at_).setGN d v).completed acq) :
    s.Resumes id at_ acq (exec (.replyArrival id) s) ((s.replied id at_.core at_.ctx at_).gRange d)
      (fun t => t.gN d = if d = 0 then 0 else v % 2 ^ 64) := by
  refine reply_completes hf hk hdone ?_ (gRange_inRegisters _ d) fun t ht => (ht.gN d).trans (gN_setGN _ d v)
  rw [← (readied_bytesOnly s id at_).gRange]
  exact setGN_bytesOnly _ d v

theorem reply_writesPair (hd : d.val % 2 = 0) (hdone : (s.readied id at_.core at_.ctx at_).resumeReply id k at_ a =
      (((s.readied id at_.core at_.ctx at_).setGN d v).setGN (regPlus d 1) (v / 2 ^ 64)).completed acq) :
    s.Resumes id at_ acq (exec (.replyArrival id) s)
      ((s.replied id at_.core at_.ctx at_).gRange d ++ (s.replied id at_.core at_.ctx at_).gRange (regPlus d 1))
      (fun t => (t.gN d = if d = 0 then 0 else v % 2 ^ 64) ∧ t.gN (regPlus d 1) = v / 2 ^ 64 % 2 ^ 64) := by
  have hval := regPlus_one_val d hd
  have hne : d ≠ regPlus d 1 := fun h => by rw [← h] at hval; omega
  have hodd : regPlus d 1 ≠ 0 := fun h => by rw [h] at hval; simp at hval
  refine reply_completes hf hk hdone ?_ ((gRange_inRegisters _ d).append (gRange_inRegisters _ _)) fun t ht => ⟨?_, ?_⟩
  · rw [← (readied_bytesOnly s id at_).gRange, ← (readied_bytesOnly s id at_).gRange]
    exact setGN_setGN_bytesOnly _ d _ v _
  · rw [ht.gN, gN_setGN_ne _ _ _ _ hne, gN_setGN]
  · rw [ht.gN, gN_setGN, if_neg hodd]

theorem reply_writesV {d : VReg} (hdone : (s.readied id at_.core at_.ctx at_).resumeReply id k at_ a =
      ((s.readied id at_.core at_.ctx at_).setV d 0xFFFF (fun i => bits (v % 2 ^ (8 * 64)) (32 * i + 31) (32 * i))).completed acq) :
    s.Resumes id at_ acq (exec (.replyArrival id) s) [(s.replied id at_.core at_.ctx at_).vRange d]
      (fun t => ∀ i, i < 16 → t.laneN d i = v / 2 ^ (32 * i) % 2 ^ 32) := by
  refine reply_completes hf hk hdone ?_ (vRange_inRegisters _ d) fun t ht i hi => ?_
  · rw [← (readied_bytesOnly s id at_).vRange]
    exact setV_bytesOnly _ d _ _
  · have hmask : bitOf 0xFFFF i = true := by interval_cases i <;> rfl
    rw [ht.laneN d i hi, laneN_setV _ d _ _ i hi, if_pos hmask, bits_lane v i hi]

/-- A fault in the place of the data traps at the instruction that waited (R119). -/
theorem reply_faults {c addr aux : Nat} (hacq : (s.ctxAt at_.core at_.ctx).acq = false)
    (htrap : (s.readied id at_.core at_.ctx at_).resumeReply id k at_ a =
      (s.readied id at_.core at_.ctx at_).takeTrap c addr aux) :
    exec (.replyArrival id) s = .next ((s.readied id at_.core at_.ctx at_).takeTrap c addr aux) := by
  have hkept : (((s.readied id at_.core at_.ctx at_).takeTrap c addr aux).ctxAt at_.core at_.ctx).acq = false := by
    rw [(SameAcq.refl _).takeTrap.acq]
    exact (congrArg Ctx.acq (replied_myCtx s id at_)).trans hacq
  have hnone : ((s.readied id at_.core at_.ctx at_).takeTrap c addr aux).acquireAt at_.core at_.ctx =
      (s.readied id at_.core at_.ctx at_).takeTrap c addr aux :=
    if_neg fun h => by simp [hkept] at h
  exact congrArg Host.Outcome.next ((replyArrive_eq hf hk).trans
    ((congrArg (·.acquireAt at_.core at_.ctx) htrap).trans hnone))

end

theorem repliesComplete : Claims.RepliesComplete := by
  rintro s id core ctx k at_ a hf hk rfl rfl _ u base resumes
  refine ⟨?load, ?vload, ?cas, ?casp, ?fault⟩
  case load =>
    rintro d acq v rfl rfl
    exact reply_writesG hf hk rfl
  case vload =>
    rintro d acq v rfl rfl
    exact reply_writesV hf hk (takeData_vload _ acq v d)
  case cas =>
    rintro d acq v rfl rfl
    exact reply_writesG hf hk rfl
  case casp =>
    rintro d acq v rfl rfl hd
    exact reply_writesPair hf hk hd (takeData_cas_pair _ d acq v hd)
  case fault =>
    rintro c addr aux hacq rfl (⟨d, acq, rfl⟩ | ⟨d, acq, rfl⟩ | ⟨d, n, acq, rfl⟩)
    · exact reply_faults hf hk hacq rfl
    · exact reply_faults hf hk hacq rfl
    · exact reply_faults hf hk hacq rfl

/-- Settles O18, from what an operation does that is sent and counted, what one does that asks and waits, and what a reply does. -/
theorem requestsAndReplies : Obligations.RequestsAndReplies := ⟨postedOperations, blockingRequests, repliesComplete⟩

end Sys2Proof.Machine

/-! # A near store and a workspace that is not aligned (O34) -/

namespace Sys2Proof.Machine

/-- A one-byte store to the last byte of CX.STATUS of context 3 of `misaligned`. -/
def storeInStatus : MemReq :=
  { part := 0, va := nearLoc 0 0 0x32E20, near := some (nearLoc 0 0 0x32E20), op := .store [0] false, back := .ctx 0 0,
    seq := none, stage := .travelling, refused := none, rel := false, again := false }

/-- Partition 0 runs on cluster 0, and the workspace of context 3 of core 0 begins one byte past its slot (R23): its CX.STATUS
lies at 0x32E19 to 0x32E20. -/
def misaligned : State :=
  { State.reset with
    parts := [(0, { Part.reset with status := .running, clusters := [0] })]
    cores := [(0, { CoreState.reset with ctxs := [(3, { Ctx.reset 3 with wp := 0x32401 })] })]
    flights := [(0, .mem storeInStatus)] }

theorem misaligned_switches_no_bank (x y b : Nat) : (misaligned.ctxAt x y).wait ≠ .bank b := by
  simp only [State.ctxAt, State.core, misaligned, Tbl.get]
  split_ifs <;> simp only [CoreState.reset, Tbl.get]
  · split_ifs <;> simp [Ctx.reset]
  · simp [Ctx.reset]

/-- The store puts the context's number into the low byte of CX.STATUS (R22), which is outside the eight bytes that the
statement lets it change. -/
theorem misaligned_store_sets_ctx :
    (misaligned.nearArrive 0).mem.get (nearLoc 0 0 0x32E19) = 0x30 ∧ misaligned.mem.get (nearLoc 0 0 0x32E19) = 0 ∧
      misaligned.storeRange 0 0 0x32E20 1 = (nearLoc 0 0 0x32E20, 8) := by decide +kernel

/-- Refutes O34: a store into the context words of a current workspace may change the whole words that it lies in, but
`State.storeRange` counts those words from offset 0 of the PM, and the model holds the words of a workspace at
offsets from CX.WP. The statement does not ask that CX.WP is a multiple of 8, and in `misaligned` it is not. -/
theorem not_nearTraffic : ¬ Obligations.NearTraffic := by
  rintro ⟨near, -⟩
  obtain ⟨-, delivered, -⟩ := near misaligned 0 0 0 0x32E20 storeInStatus rfl rfl rfl rfl rfl (by decide) (by decide)
    (by decide) rfl (by decide +kernel) rfl (by decide +kernel)
  obtain ⟨-, -, stores⟩ := delivered (by decide +kernel) (.inl (by decide)) misaligned_switches_no_bank
  obtain ⟨t, hnext, hframe, -⟩ := stores [0] rfl (by simp)
  obtain rfl : misaligned.nearArrive 0 = t := Host.Outcome.next.inj hnext
  obtain ⟨hafter, hbefore, hrange⟩ := misaligned_store_sets_ctx
  have hsame := hframe.byte (nearLoc 0 0 0x32E19) (by
    rw [List.forall_mem_singleton, show ([0] : List Byte).length = 1 from rfl, hrange]
    decide)
  exact absurd (hafter.symm.trans (hsame.trans hbefore)) (by decide)

end Sys2Proof.Machine

/-! # Instructions and their words (O55, O56, O57)

A word is put together from its fields, and it is the only word that holds them (`eq_iff_holds`); so each layout of R35 and R36 is
stated once, as what the word's fields are, and read in both directions. -/

namespace Sys2Proof.Encoding
open Sys2Proof.Laws

/-! ### A word and its fields (R35) -/

/-- The number whose digits, the lowest first, have the given values and widths in bits. -/
def digits : List (Nat × Nat) → Nat
  | [] => 0
  | (v, n) :: ds => v + 2 ^ n * digits ds

theorem digits_nil : digits [] = 0 := rfl
theorem digits_cons (v n : Nat) (ds : List (Nat × Nat)) : digits ((v, n) :: ds) = v + 2 ^ n * digits ds := rfl

/-- Every value is below its width. -/
def Fits : List (Nat × Nat) → Prop
  | [] => True
  | (v, n) :: ds => v < 2 ^ n ∧ Fits ds

/-- From bit `lo` on a word holds the given fields, each a value and its width, and nothing above them. -/
def Holds (w : Nat) : Nat → List (Nat × Nat) → Prop
  | lo, [] => w / 2 ^ lo = 0
  | lo, (v, n) :: ds => fld w lo n = v ∧ Holds w (lo + n) ds

theorem digits_eq_iff {w : Nat} (ds : List (Nat × Nat)) (lo : Nat) (h : Fits ds) : digits ds = w / 2 ^ lo ↔ Holds w lo ds := by
  induction ds generalizing lo with
  | nil => exact eq_comm
  | cons d ds ih =>
    obtain ⟨v, n⟩ := d
    obtain ⟨hv, hds⟩ := h
    rw [digits, Holds, ← ih (lo + n) hds, pow_add, ← Nat.div_div_eq_div_mul, fld]
    constructor
    · intro hsum
      rw [← hsum, Nat.add_mul_mod_self_left, Nat.mod_eq_of_lt hv, Nat.add_mul_div_left _ _ (Nat.two_pow_pos n),
        Nat.div_eq_of_lt hv, Nat.zero_add]
      exact ⟨rfl, rfl⟩
    · rintro ⟨hlow, hhigh⟩
      rw [hhigh, ← hlow, Nat.mod_add_div]

/-- A word put together from its fields holds them, and no other word does. -/
theorem eq_iff_holds {v w : Nat} (ds : List (Nat × Nat)) (h : Fits ds) (hv : v = digits ds) : v = w ↔ Holds w 0 ds := by
  rw [hv, ← digits_eq_iff ds 0 h, pow_zero, Nat.div_one]

theorem fld_lt (w lo n : Nat) : fld w lo n < 2 ^ n := Nat.mod_lt _ (Nat.two_pow_pos n)
theorem fld_add (w lo n m : Nat) : fld w lo (n + m) = fld w lo n + 2 ^ n * fld w (lo + n) m := by
  rw [fld, pow_add, Nat.mod_mul, fld, fld, pow_add, Nat.div_div_eq_div_mul]
theorem opcode_eq_fld (w : Nat) : w % 64 = fld w 0 6 := by simp [fld]

/-! ### What fields mean (R36, R37) -/

theorem ofNat_eq {k w lo : Nat} (n : Nat) [NeZero k] {x : Fin k} (h : fld w lo n = x.val) (hk : k = 2 ^ n) :
    Fin.ofNat k (w / 2 ^ lo) = x := by
  rw [Fin.ext_iff, Fin.val_ofNat, ← h, fld, hk]
theorem gr_eq {w lo : Nat} {r : GReg} (h : fld w lo 6 = r.val) : gr w lo = r := ofNat_eq 6 h rfl
theorem vr_eq {w lo : Nat} {r : VReg} (h : fld w lo 5 = r.val) : vr w lo = r := ofNat_eq 5 h rfl
theorem mr_eq {w lo : Nat} {r : MReg} (h : fld w lo 3 = r.val) : mr w lo = r := ofNat_eq 3 h rfl
theorem fld_eq_bit (w lo : Nat) : fld w lo 1 = bit (fld w lo 1 == 1) := by
  have := fld_lt w lo 1
  interval_cases fld w lo 1 <;> rfl
theorem beq_one_eq {n : Nat} {b : Bool} (h : n = bit b) : (n == 1) = b := by
  subst h; cases b <;> rfl

@[simp] theorem zeros_nil (w : Nat) : zeros w [] = true := rfl
@[simp] theorem zeros_cons {w lo n : Nat} {fs : List (Nat × Nat)} :
    zeros w ((lo, n) :: fs) = true ↔ fld w lo n = 0 ∧ zeros w fs = true := by
  simp [zeros]

theorem roundMode_code_ofCode {n : Nat} (h : n < 4) : (RoundMode.ofCode n).code = n := by
  interval_cases n <;> rfl
theorem fld_eq_roundMode (w lo : Nat) : fld w lo 2 = (RoundMode.ofCode (fld w lo 2)).code :=
  (roundMode_code_ofCode (fld_lt w lo 2)).symm
theorem roundMode_ofCode_code (m : RoundMode) : RoundMode.ofCode m.code = m := by cases m <;> rfl
theorem roundSel_ofCode_eq_some {n : Nat} {r : RoundSel} : RoundSel.ofCode n = some r ↔ n = r.code := by
  constructor
  · unfold RoundSel.ofCode
    split_ifs with hlt h4
    · rintro ⟨⟩
      exact (roundMode_code_ofCode hlt).symm
    · rintro ⟨⟩
      exact h4
    · rintro ⟨⟩
  · rintro rfl
    cases r with
    | named m => cases m <;> rfl
    | dynamic => rfl
theorem hint_ofCode_eq_some {n : Nat} {h : Hint} : Hint.ofCode n = some h ↔ n = h.code := by
  constructor
  · unfold Hint.ofCode
    split_ifs <;> rintro ⟨⟩ <;> assumption
  · rintro rfl
    cases h <;> rfl
theorem scope_ofCode_eq_some {n : Nat} {c : Scope} : Scope.ofCode n = some c ↔ n = c.code := by
  constructor
  · unfold Scope.ofCode
    split <;> rintro ⟨⟩ <;> rfl
  · rintro rfl
    cases c <;> rfl
theorem groupKind_ofCode_eq_some {n : Nat} {k : GroupKind} : GroupKind.ofCode n = some k ↔ n = k.code := by
  constructor
  · unfold GroupKind.ofCode
    split_ifs <;> rintro ⟨⟩ <;> assumption
  · rintro rfl
    cases k <;> rfl
theorem fld_eq_waitSel (w lo : Nat) : fld w lo 2 = (WaitSel.ofCode (fld w lo 2)).code := by
  have := fld_lt w lo 2
  interval_cases fld w lo 2 <;> rfl
theorem waitSel_ofCode_code (s : WaitSel) : WaitSel.ofCode s.code = s := by
  obtain ⟨sn, sg⟩ := s
  cases sn <;> cases sg <;> rfl
theorem fld_eq_level (w lo : Nat) : fld w lo 2 = (Level.ofCode (fld w lo 2)).code := by
  have := fld_lt w lo 2
  interval_cases fld w lo 2 <;> rfl
theorem level_ofCode_code (l : Level) : Level.ofCode l.code = l := by cases l <;> rfl
theorem fld_eq_place (w lo : Nat) : fld w lo 2 = (Place.ofCode (fld w lo 2)).code := by
  have := fld_lt w lo 2
  interval_cases fld w lo 2 <;> rfl
theorem place_ofCode_code (p : Place) : Place.ofCode p.code = p := by cases p <;> rfl

/-! ### Immediates and their prefixes (R12, R38, R39, R53) -/

theorem mod_of_high {n x : Nat} (hn : n ≤ 64) (hx : x < 2 ^ 64) (hge : 2 ^ 64 - 2 ^ n ≤ x) :
    x % 2 ^ n + (2 ^ 64 - 2 ^ n) = x := by
  obtain ⟨q, hq⟩ := pow_dvd_pow 2 hn
  have hhigh : 2 ^ 64 - 2 ^ n = 2 ^ n * (q - 1) := by rw [Nat.mul_sub_one, ← hq]
  have hrest : x - 2 ^ n * (q - 1) < 2 ^ n := by omega
  obtain ⟨r, hr⟩ := Nat.exists_eq_add_of_le (hhigh ▸ hge)
  rw [hhigh, hr, Nat.mul_add_mod, Nat.mod_eq_of_lt (by omega), Nat.add_comm]

theorem sextNat_toNat {n x : Nat} (hn : n ≤ 64) :
    (sextNat n x).toNat = x % 2 ^ n + if x % 2 ^ n < 2 ^ (n - 1) then 0 else 2 ^ 64 - 2 ^ n := by
  have hlt := Nat.mod_lt x (Nat.two_pow_pos n)
  have hle := Nat.pow_le_pow_right (show 0 < 2 by decide) hn
  unfold sextNat
  split_ifs <;> rw [BitVec.toNat_ofNat, Nat.mod_eq_of_lt (by omega)]
  rw [Nat.add_zero]

/-- The low bits of an extended field are the field (R12). -/
theorem sextNat_mod {n x : Nat} (hn : n ≤ 64) : (sextNat n x).toNat % 2 ^ n = x % 2 ^ n := by
  obtain ⟨q, hq⟩ := pow_dvd_pow 2 hn
  rw [sextNat_toNat hn]
  split_ifs
  · rw [Nat.add_zero, Nat.mod_mod]
  · rw [hq, ← Nat.mul_sub_one, Nat.add_mul_mod_self_left, Nat.mod_mod]

theorem fitsSigned_sextNat {n x : Nat} (h0 : 0 < n) (hn : n ≤ 64) : fitsSigned n (sextNat n x) = true := by
  have hlt := Nat.mod_lt x (Nat.two_pow_pos n)
  have hle := Nat.pow_le_pow_right (show 0 < 2 by decide) hn
  have hhalf : 2 ^ n = 2 * 2 ^ (n - 1) := by rw [← pow_succ', Nat.sub_one_add_one h0.ne']
  rw [fitsSigned, sextNat_toNat hn, Bool.or_eq_true, decide_eq_true_iff, decide_eq_true_iff]
  split_ifs <;> omega

theorem sextNat_eq {n x : Nat} {v : Word} (h0 : 0 < n) (hn : n ≤ 64) (hv : fitsSigned n v = true)
    (hx : x = v.toNat % 2 ^ n) : sextNat n x = v := by
  have hle := Nat.pow_le_pow_right (show 0 < 2 by decide) hn
  have hhalf : 2 ^ n = 2 * 2 ^ (n - 1) := by rw [← pow_succ', Nat.sub_one_add_one h0.ne']
  have hpos := Nat.two_pow_pos (n - 1)
  rw [fitsSigned, Bool.or_eq_true, decide_eq_true_iff, decide_eq_true_iff] at hv
  apply BitVec.eq_of_toNat_eq
  rw [sextNat_toNat hn, hx, Nat.mod_mod]
  rcases hv with hlow | hhigh
  · rw [Nat.mod_eq_of_lt (by omega), if_pos hlow, Nat.add_zero]
  · have heq := mod_of_high hn v.isLt (by omega)
    rw [if_neg (by omega), heq]

/-- The P bits of prefixes that may precede a word which takes up to `m` of them; those of the first of two have two zeros at
the top (R39). -/
def PrefixBits (m : Nat) : List Nat → Prop
  | [] => True
  | [p] => 1 ≤ m ∧ p < 2 ^ 26
  | [p, q] => m = 2 ∧ p < 2 ^ 24 ∧ q < 2 ^ 26
  | _ => False

/-- The X word that holds P bits (R35). -/
def prefixWord (p : Nat) : Nat := 63 + p * 2 ^ 6

section
variable {base m : Nat} {v : Word}
theorem wf_noPrefix : Imm.wf base m ⟨0, v⟩ = fitsSigned base v := rfl
theorem wf_onePrefix : Imm.wf base m ⟨1, v⟩ = fitsSigned (base + 26) v := rfl
theorem wf_twoPrefixes : Imm.wf base m ⟨2, v⟩ = (m == 2) := rfl
theorem field_mk (p : Nat) : Imm.field base ⟨p, v⟩ = v.toNat % 2 ^ base := rfl
theorem prefixes_none : Imm.prefixes base ⟨0, v⟩ = [] := rfl
theorem prefixes_one : Imm.prefixes base ⟨1, v⟩ = [v.toNat / 2 ^ base % 2 ^ 26] := rfl
theorem prefixes_two : Imm.prefixes base ⟨2, v⟩ = [v.toNat / 2 ^ 40, v.toNat / 2 ^ 14 % 2 ^ 26] := rfl
end

section
variable {base f : Nat}
theorem immOf_nil : immOf [] base f = ⟨0, sextNat base f⟩ := rfl
theorem immOf_one (p : Nat) : immOf [p] base f = ⟨1, sextNat (base + 26) (p * 2 ^ base + f)⟩ := rfl
theorem immOf_two (p q : Nat) : immOf [p, q] base f = ⟨2, BitVec.ofNat 64 (p % 2 ^ 24 * 2 ^ 40 + q * 2 ^ 14 + f)⟩ := rfl
end

/-- The 64 bits that two prefixes and the field of format RI make (R39). -/
theorem twoPrefixes_toNat {p q f : Nat} (hp : p < 2 ^ 24) (hq : q < 2 ^ 26) (hf : f < 2 ^ 14) :
    (BitVec.ofNat 64 (p % 2 ^ 24 * 2 ^ 40 + q * 2 ^ 14 + f)).toNat = p * 2 ^ 40 + q * 2 ^ 14 + f := by
  rw [BitVec.toNat_ofNat]
  omega

section
variable {m base f : Nat} {pf : List Nat} (hpf : PrefixBits m pf) (hm : m = 2 → base = 14) (hb : base ≤ 38) (hf : f < 2 ^ base)
include hpf hm hb hf

theorem field_immOf : (immOf pf base f).field base = f := by
  match pf, hpf with
  | [], _ => rw [immOf_nil, Imm.field, sextNat_mod (by omega), Nat.mod_eq_of_lt hf]
  | [p], _ =>
    rw [immOf_one, Imm.field, ← Nat.mod_mod_of_dvd _ (pow_dvd_pow 2 (Nat.le_add_right base 26)), sextNat_mod (by omega),
      Nat.mod_mod_of_dvd _ (pow_dvd_pow 2 (Nat.le_add_right base 26)), Nat.add_comm, Nat.add_mul_mod_self_right, Nat.mod_eq_of_lt hf]
  | [p, q], ⟨h2, hp, hq⟩ =>
    obtain rfl := hm h2
    rw [immOf_two, Imm.field, twoPrefixes_toNat hp hq hf]
    omega

theorem prefixes_immOf : (immOf pf base f).prefixes base = pf := by
  match pf, hpf with
  | [], _ => rw [immOf_nil, prefixes_none]
  | [p], ⟨_, hp⟩ =>
    have hlt : p * 2 ^ base + f < 2 ^ base * 2 ^ 26 := by nlinarith
    rw [immOf_one, prefixes_one, ← Nat.mod_mul_right_div_self, ← pow_add, sextNat_mod (by omega), pow_add, Nat.mod_eq_of_lt hlt,
      Nat.add_comm, Nat.add_mul_div_right _ _ (Nat.two_pow_pos base), Nat.div_eq_of_lt hf, Nat.zero_add]
  | [p, q], ⟨h2, hp, hq⟩ =>
    obtain rfl := hm h2
    rw [immOf_two, prefixes_two, twoPrefixes_toNat hp hq hf]
    simp only [List.cons.injEq, and_true]
    omega

end

theorem wf_immOf {m base f : Nat} {pf : List Nat} (hpf : PrefixBits m pf) (h0 : 0 < base) (hb : base ≤ 38) :
    (immOf pf base f).wf base m = true := by
  match pf, hpf with
  | [], _ => rw [immOf_nil, wf_noPrefix, fitsSigned_sextNat h0 (by omega)]
  | [p], _ => rw [immOf_one, wf_onePrefix, fitsSigned_sextNat (by omega) (by omega)]
  | [p, q], ⟨h2, _⟩ => rw [immOf_two, wf_twoPrefixes, h2, beq_self_eq_true]

/-- An immediate that some words spell has no prefix, one, or two (R39). -/
theorem wf_cases {m base : Nat} {imm : Imm} (h : imm.wf base m = true) :
    (∃ v, imm = ⟨0, v⟩ ∧ fitsSigned base v = true) ∨ (∃ v, imm = ⟨1, v⟩ ∧ fitsSigned (base + 26) v = true) ∨
      ∃ v, imm = ⟨2, v⟩ ∧ m = 2 := by
  obtain ⟨p, v⟩ := imm
  unfold Imm.wf at h
  dsimp only at h
  split at h
  · exact .inl ⟨v, rfl, h⟩
  · exact .inr (.inl ⟨v, rfl, h⟩)
  · exact .inr (.inr ⟨v, rfl, beq_iff_eq.1 h⟩)
  · cases h

section
variable {m base : Nat} {imm : Imm} (h : imm.wf base m = true)
include h

theorem prefixBits_prefixes (h1 : 1 ≤ m) : PrefixBits m (imm.prefixes base) := by
  rcases wf_cases h with ⟨v, rfl, -⟩ | ⟨v, rfl, -⟩ | ⟨v, rfl, h2⟩
  · rw [prefixes_none, PrefixBits]
    trivial
  · rw [prefixes_one, PrefixBits]
    exact ⟨h1, Nat.mod_lt _ (Nat.two_pow_pos _)⟩
  · rw [prefixes_two, PrefixBits]
    exact ⟨h2, Nat.div_lt_of_lt_mul v.isLt, Nat.mod_lt _ (Nat.two_pow_pos _)⟩

theorem immOf_prefixes (hm : m = 2 → base = 14) (h0 : 0 < base) (hb : base ≤ 38) :
    immOf (imm.prefixes base) base (imm.field base) = imm := by
  rcases wf_cases h with ⟨v, rfl, hv⟩ | ⟨v, rfl, hv⟩ | ⟨v, rfl, h2⟩
  · rw [prefixes_none, immOf_nil, field_mk, sextNat_eq h0 (by omega) hv rfl]
  · rw [prefixes_one, immOf_one, sextNat_eq (by omega) (by omega) hv]
    rw [field_mk, pow_add, Nat.mod_mul, Nat.mul_comm, Nat.add_comm]
  · obtain rfl := hm h2
    have hv := v.isLt
    have hhigh : v.toNat / 2 ^ 14 / 2 ^ 26 = v.toNat / 2 ^ 40 := Nat.div_div_eq_div_mul _ _ _
    rw [prefixes_two, immOf_two, field_mk, Imm.mk.injEq, ← BitVec.toNat_inj, BitVec.toNat_ofNat]
    omega

end

/-! ### Layouts of one word (R35, R36) -/

section
variable {base w : Nat}

/-! General registers, with SUB in the top eight bits. -/

theorem holds_rrr {d a b : GReg} (hb : base % 2 ^ 24 < 64 ∧ base < 2 ^ 32) :
    packWord base [(d.val, 6), (a.val, 12), (b.val, 18)] = w ↔
      fld w 0 6 = base % 64 ∧ fld w 6 6 = d.val ∧ fld w 12 6 = a.val ∧ fld w 18 6 = b.val ∧ fld w 24 8 = base / 0x1000000 ∧
      w / 2 ^ 32 = 0 :=
  eq_iff_holds [(base % 64, 6), (d.val, 6), (a.val, 6), (b.val, 6), (base / 0x1000000, 8)]
    ⟨Nat.mod_lt _ (by decide), d.isLt, a.isLt, b.isLt, Nat.div_lt_of_lt_mul hb.2, trivial⟩
    (by simp only [packWord_cons, packWord_nil, digits_cons, digits_nil]; omega)
theorem holds_rr {d a : GReg} (hb : base % 2 ^ 24 < 64 ∧ base < 2 ^ 32) : packWord base [(d.val, 6), (a.val, 12)] = w ↔
      fld w 0 6 = base % 64 ∧ fld w 6 6 = d.val ∧ fld w 12 6 = a.val ∧ fld w 18 6 = 0 ∧ fld w 24 8 = base / 0x1000000 ∧
      w / 2 ^ 32 = 0 :=
  eq_iff_holds [(base % 64, 6), (d.val, 6), (a.val, 6), (0, 6), (base / 0x1000000, 8)]
    ⟨Nat.mod_lt _ (by decide), d.isLt, a.isLt, by decide, Nat.div_lt_of_lt_mul hb.2, trivial⟩
    (by simp only [packWord_cons, packWord_nil, digits_cons, digits_nil]; omega)
theorem holds_ab {a b : GReg} (hb : base % 2 ^ 24 < 64 ∧ base < 2 ^ 32) : packWord base [(a.val, 12), (b.val, 18)] = w ↔
      fld w 0 6 = base % 64 ∧ fld w 6 6 = 0 ∧ fld w 12 6 = a.val ∧ fld w 18 6 = b.val ∧ fld w 24 8 = base / 0x1000000 ∧
      w / 2 ^ 32 = 0 :=
  eq_iff_holds [(base % 64, 6), (0, 6), (a.val, 6), (b.val, 6), (base / 0x1000000, 8)]
    ⟨Nat.mod_lt _ (by decide), by decide, a.isLt, b.isLt, Nat.div_lt_of_lt_mul hb.2, trivial⟩
    (by simp only [packWord_cons, packWord_nil, digits_cons, digits_nil]; omega)
theorem holds_a {a : GReg} (hb : base % 2 ^ 24 < 64 ∧ base < 2 ^ 32) : packWord base [(a.val, 12)] = w ↔
      fld w 0 6 = base % 64 ∧ fld w 6 6 = 0 ∧ fld w 12 6 = a.val ∧ fld w 18 6 = 0 ∧ fld w 24 8 = base / 0x1000000 ∧ w / 2 ^ 32 = 0 :=
  eq_iff_holds [(base % 64, 6), (0, 6), (a.val, 6), (0, 6), (base / 0x1000000, 8)]
    ⟨Nat.mod_lt _ (by decide), by decide, a.isLt, by decide, Nat.div_lt_of_lt_mul hb.2, trivial⟩
    (by simp only [packWord_cons, packWord_nil, digits_cons, digits_nil]; omega)
theorem holds_d {d : GReg} (hb : base % 2 ^ 24 < 64 ∧ base < 2 ^ 32) : packWord base [(d.val, 6)] = w ↔
      fld w 0 6 = base % 64 ∧ fld w 6 6 = d.val ∧ fld w 12 12 = 0 ∧ fld w 24 8 = base / 0x1000000 ∧ w / 2 ^ 32 = 0 :=
  eq_iff_holds [(base % 64, 6), (d.val, 6), (0, 12), (base / 0x1000000, 8)]
    ⟨Nat.mod_lt _ (by decide), d.isLt, by decide, Nat.div_lt_of_lt_mul hb.2, trivial⟩
    (by simp only [packWord_cons, packWord_nil, digits_cons, digits_nil]; omega)
theorem holds_none (hb : base % 2 ^ 24 < 64 ∧ base < 2 ^ 32) : packWord base [] = w ↔
      fld w 0 6 = base % 64 ∧ fld w 6 18 = 0 ∧ fld w 24 8 = base / 0x1000000 ∧ w / 2 ^ 32 = 0 :=
  eq_iff_holds [(base % 64, 6), (0, 18), (base / 0x1000000, 8)]
    ⟨Nat.mod_lt _ (by decide), by decide, Nat.div_lt_of_lt_mul hb.2, trivial⟩
    (by simp only [packWord_nil, digits_cons, digits_nil]; omega)
theorem holds_rrc {d a : GReg} {rc : RoundSel} (hb : base % 2 ^ 24 < 64 ∧ base < 2 ^ 32) :
    packWord base [(d.val, 6), (a.val, 12), (rc.code, 18)] = w ↔
      fld w 0 6 = base % 64 ∧ fld w 6 6 = d.val ∧ fld w 12 6 = a.val ∧ fld w 18 3 = rc.code ∧ fld w 21 3 = 0 ∧
      fld w 24 8 = base / 0x1000000 ∧ w / 2 ^ 32 = 0 :=
  eq_iff_holds [(base % 64, 6), (d.val, 6), (a.val, 6), (rc.code, 3), (0, 3), (base / 0x1000000, 8)]
    ⟨Nat.mod_lt _ (by decide), d.isLt, a.isLt, roundSel_code_lt _, by decide, Nat.div_lt_of_lt_mul hb.2, trivial⟩
    (by simp only [packWord_cons, packWord_nil, digits_cons, digits_nil]; omega)
theorem holds_ftoe5 {d a : GReg} {rc : RoundSel} {inf : Bool} :
    packWord 134217746 [(d.val, 6), (a.val, 12), (rc.code, 18), (bit inf, 21)] = w ↔
      fld w 0 6 = 18 ∧ fld w 6 6 = d.val ∧ fld w 12 6 = a.val ∧ fld w 18 3 = rc.code ∧ fld w 21 1 = bit inf ∧ fld w 22 2 = 0 ∧
      fld w 24 8 = 8 ∧ w / 2 ^ 32 = 0 :=
  eq_iff_holds [(18, 6), (d.val, 6), (a.val, 6), (rc.code, 3), (bit inf, 1), (0, 2), (8, 8)]
    ⟨by decide, d.isLt, a.isLt, roundSel_code_lt _, bit_lt _, by decide, by decide, trivial⟩
    (by simp only [packWord_cons, packWord_nil, digits_cons, digits_nil]; omega)
theorem holds_shift {d a : GReg} {sh : Fin 64} (hb : base % 2 ^ 30 < 64 ∧ base < 2 ^ 32) :
    packWord base [(d.val, 6), (a.val, 12), (sh.val, 18)] = w ↔
      fld w 0 6 = base % 64 ∧ fld w 6 6 = d.val ∧ fld w 12 6 = a.val ∧ fld w 18 6 = sh.val ∧ fld w 24 6 = 0 ∧
      fld w 30 2 = base / 0x40000000 ∧ w / 2 ^ 32 = 0 :=
  eq_iff_holds [(base % 64, 6), (d.val, 6), (a.val, 6), (sh.val, 6), (0, 6), (base / 0x40000000, 2)]
    ⟨Nat.mod_lt _ (by decide), d.isLt, a.isLt, sh.isLt, by decide, Nat.div_lt_of_lt_mul hb.2, trivial⟩
    (by simp only [packWord_cons, packWord_nil, digits_cons, digits_nil]; omega)

/-! Immediates. -/

theorem holds_ri {d a : GReg} {imm : Imm} (hb : base < 64) : packWord base [(d.val, 6), (a.val, 12), (imm.field 14, 18)] = w ↔
      fld w 0 6 = base ∧ fld w 6 6 = d.val ∧ fld w 12 6 = a.val ∧ fld w 18 14 = imm.field 14 ∧ w / 2 ^ 32 = 0 :=
  eq_iff_holds [(base, 6), (d.val, 6), (a.val, 6), (imm.field 14, 14)]
    ⟨hb, d.isLt, a.isLt, imm_field_lt _ _, trivial⟩
    (by simp only [packWord_cons, packWord_nil, digits_cons, digits_nil]; omega)
theorem holds_addpc {d : GReg} {imm : Imm} : packWord 13 [(d.val, 6), (imm.field 14, 18)] = w ↔
      fld w 0 6 = 13 ∧ fld w 6 6 = d.val ∧ fld w 12 6 = 0 ∧ fld w 18 14 = imm.field 14 ∧ w / 2 ^ 32 = 0 :=
  eq_iff_holds [(13, 6), (d.val, 6), (0, 6), (imm.field 14, 14)]
    ⟨by decide, d.isLt, by decide, imm_field_lt _ _, trivial⟩
    (by simp only [packWord_cons, packWord_nil, digits_cons, digits_nil]; omega)
theorem holds_jal {d : GReg} {imm : Imm} : packWord 30 [(d.val, 6), (imm.field 20, 12)] = w ↔
      fld w 0 6 = 30 ∧ fld w 6 6 = d.val ∧ fld w 12 20 = imm.field 20 ∧ w / 2 ^ 32 = 0 :=
  eq_iff_holds [(30, 6), (d.val, 6), (imm.field 20, 20)]
    ⟨by decide, d.isLt, imm_field_lt _ _, trivial⟩
    (by simp only [packWord_cons, packWord_nil, digits_cons, digits_nil]; omega)
theorem holds_jalr {d a : GReg} {imm : Imm} : packWord 31 [(d.val, 6), (a.val, 12), (imm.field 10, 18)] = w ↔
      fld w 0 6 = 31 ∧ fld w 6 6 = d.val ∧ fld w 12 6 = a.val ∧ fld w 18 10 = imm.field 10 ∧ fld w 28 4 = 0 ∧ w / 2 ^ 32 = 0 :=
  eq_iff_holds [(31, 6), (d.val, 6), (a.val, 6), (imm.field 10, 10), (0, 4)]
    ⟨by decide, d.isLt, a.isLt, imm_field_lt _ _, by decide, trivial⟩
    (by simp only [packWord_cons, packWord_nil, digits_cons, digits_nil]; omega)
theorem holds_loopnz {d : GReg} {imm : Imm} : packWord 268435487 [(d.val, 6), (imm.field 10, 18)] = w ↔
      fld w 0 6 = 31 ∧ fld w 6 6 = d.val ∧ fld w 12 6 = 0 ∧ fld w 18 10 = imm.field 10 ∧ fld w 28 4 = 1 ∧ w / 2 ^ 32 = 0 :=
  eq_iff_holds [(31, 6), (d.val, 6), (0, 6), (imm.field 10, 10), (1, 4)]
    ⟨by decide, d.isLt, by decide, imm_field_lt _ _, by decide, trivial⟩
    (by simp only [packWord_cons, packWord_nil, digits_cons, digits_nil]; omega)
theorem holds_rep {a : GReg} {stride : Fin 8} {len : Fin 16} :
    packWord 536870943 [(a.val, 12), (stride.val, 22), (len.val, 18)] = w ↔
      fld w 0 6 = 31 ∧ fld w 6 6 = 0 ∧ fld w 12 6 = a.val ∧ fld w 18 4 = len.val ∧ fld w 22 3 = stride.val ∧ fld w 25 3 = 0 ∧
      fld w 28 4 = 2 ∧ w / 2 ^ 32 = 0 :=
  eq_iff_holds [(31, 6), (0, 6), (a.val, 6), (len.val, 4), (stride.val, 3), (0, 3), (2, 4)]
    ⟨by decide, by decide, a.isLt, len.isLt, stride.isLt, by decide, by decide, trivial⟩
    (by simp only [packWord_cons, packWord_nil, digits_cons, digits_nil]; omega)
theorem holds_repi {count : Fin 4096} {stride : Fin 8} {len : Fin 16} :
    packWord 805306399 [(count.val, 6), (stride.val, 22), (len.val, 18)] = w ↔
      fld w 0 6 = 31 ∧ fld w 6 12 = count.val ∧ fld w 18 4 = len.val ∧ fld w 22 3 = stride.val ∧ fld w 25 3 = 0 ∧ fld w 28 4 = 3 ∧
      w / 2 ^ 32 = 0 :=
  eq_iff_holds [(31, 6), (count.val, 12), (len.val, 4), (stride.val, 3), (0, 3), (3, 4)]
    ⟨by decide, count.isLt, len.isLt, stride.isLt, by decide, by decide, trivial⟩
    (by simp only [packWord_cons, packWord_nil, digits_cons, digits_nil]; omega)

/-! Memory. -/

theorem holds_mem {d a : GReg} {off : Imm} {h : Hint} {s : WaitSel} (hb : base < 64) :
    packWord base [(d.val, 6), (a.val, 12), (off.field 10, 22), (h.code, 20), (s.code, 18)] = w ↔
      fld w 0 6 = base ∧ fld w 6 6 = d.val ∧ fld w 12 6 = a.val ∧ fld w 18 2 = s.code ∧ fld w 20 2 = h.code ∧
      fld w 22 10 = off.field 10 ∧ w / 2 ^ 32 = 0 :=
  eq_iff_holds [(base, 6), (d.val, 6), (a.val, 6), (s.code, 2), (h.code, 2), (off.field 10, 10)]
    ⟨hb, d.isLt, a.isLt, waitSel_code_lt _, hint_code_lt _, imm_field_lt _ _, trivial⟩
    (by simp only [packWord_cons, packWord_nil, digits_cons, digits_nil]; omega)
theorem holds_vmem {d : VReg} {a : GReg} {off : Imm} {h : Hint} {s : WaitSel} (hb : base < 64) :
    packWord base [(d.val, 6), (a.val, 12), (off.field 10, 22), (h.code, 20), (s.code, 18)] = w ↔
      fld w 0 6 = base ∧ fld w 6 5 = d.val ∧ fld w 11 1 = 0 ∧ fld w 12 6 = a.val ∧ fld w 18 2 = s.code ∧ fld w 20 2 = h.code ∧
      fld w 22 10 = off.field 10 ∧ w / 2 ^ 32 = 0 :=
  eq_iff_holds [(base, 6), (d.val, 5), (0, 1), (a.val, 6), (s.code, 2), (h.code, 2), (off.field 10, 10)]
    ⟨hb, d.isLt, by decide, a.isLt, waitSel_code_lt _, hint_code_lt _, imm_field_lt _ _, trivial⟩
    (by simp only [packWord_cons, packWord_nil, digits_cons, digits_nil]; omega)
theorem holds_pref {a : GReg} {off : Imm} {stream : Bool} {s : WaitSel} :
    packWord 35 [(a.val, 12), (off.field 10, 22), (bit stream, 21), (s.code, 18)] = w ↔
      fld w 0 6 = 35 ∧ fld w 6 6 = 0 ∧ fld w 12 6 = a.val ∧ fld w 18 2 = s.code ∧ fld w 20 1 = 0 ∧ fld w 21 1 = bit stream ∧
      fld w 22 10 = off.field 10 ∧ w / 2 ^ 32 = 0 :=
  eq_iff_holds [(35, 6), (0, 6), (a.val, 6), (s.code, 2), (0, 1), (bit stream, 1), (off.field 10, 10)]
    ⟨by decide, by decide, a.isLt, waitSel_code_lt _, by decide, bit_lt _, imm_field_lt _ _, trivial⟩
    (by simp only [packWord_cons, packWord_nil, digits_cons, digits_nil]; omega)
theorem holds_stn {a b : GReg} {hi rel : Bool} {s : WaitSel} :
    packWord 33554474 [(a.val, 12), (b.val, 18), (bit hi, 6), (bit rel, 29), (s.code, 30)] = w ↔
      fld w 0 6 = 42 ∧ fld w 6 1 = bit hi ∧ fld w 7 5 = 0 ∧ fld w 12 6 = a.val ∧ fld w 18 6 = b.val ∧ fld w 24 4 = 2 ∧
      fld w 28 1 = 0 ∧ fld w 29 1 = bit rel ∧ fld w 30 2 = s.code ∧ w / 2 ^ 32 = 0 :=
  eq_iff_holds [(42, 6), (bit hi, 1), (0, 5), (a.val, 6), (b.val, 6), (2, 4), (0, 1), (bit rel, 1), (s.code, 2)]
    ⟨by decide, bit_lt _, by decide, a.isLt, b.isLt, by decide, by decide, bit_lt _, waitSel_code_lt _, trivial⟩
    (by simp only [packWord_cons, packWord_nil, digits_cons, digits_nil]; omega)
theorem holds_atomic {d a b : GReg} {acq rel : Bool} {s : WaitSel} (hb : base % 2 ^ 24 < 64 ∧ base < 2 ^ 28) :
    packWord base [(d.val, 6), (a.val, 12), (b.val, 18), (bit acq, 28), (bit rel, 29), (s.code, 30)] = w ↔
      fld w 0 6 = base % 64 ∧ fld w 6 6 = d.val ∧ fld w 12 6 = a.val ∧ fld w 18 6 = b.val ∧ fld w 24 4 = base / 0x1000000 ∧
      fld w 28 1 = bit acq ∧ fld w 29 1 = bit rel ∧ fld w 30 2 = s.code ∧ w / 2 ^ 32 = 0 :=
  eq_iff_holds [(base % 64, 6), (d.val, 6), (a.val, 6), (b.val, 6), (base / 0x1000000, 4), (bit acq, 1), (bit rel, 1), (s.code, 2)]
    ⟨Nat.mod_lt _ (by decide), d.isLt, a.isLt, b.isLt, Nat.div_lt_of_lt_mul hb.2, bit_lt _, bit_lt _, waitSel_code_lt _, trivial⟩
    (by simp only [packWord_cons, packWord_nil, digits_cons, digits_nil]; omega)
theorem holds_posted {a b : GReg} {rel : Bool} {s : WaitSel} (hb : base % 2 ^ 24 < 64 ∧ base < 2 ^ 28) :
    packWord base [(a.val, 12), (b.val, 18), (bit rel, 29), (s.code, 30)] = w ↔
      fld w 0 6 = base % 64 ∧ fld w 6 6 = 0 ∧ fld w 12 6 = a.val ∧ fld w 18 6 = b.val ∧ fld w 24 4 = base / 0x1000000 ∧
      fld w 28 1 = 0 ∧ fld w 29 1 = bit rel ∧ fld w 30 2 = s.code ∧ w / 2 ^ 32 = 0 :=
  eq_iff_holds [(base % 64, 6), (0, 6), (a.val, 6), (b.val, 6), (base / 0x1000000, 4), (0, 1), (bit rel, 1), (s.code, 2)]
    ⟨Nat.mod_lt _ (by decide), by decide, a.isLt, b.isLt, Nat.div_lt_of_lt_mul hb.2, by decide, bit_lt _, waitSel_code_lt _, trivial⟩
    (by simp only [packWord_cons, packWord_nil, digits_cons, digits_nil]; omega)

/-! Order and barriers. -/

theorem holds_wait {at_ tl cp sg sn : Fin 32} :
    packWord 44 [(at_.val, 26), (tl.val, 21), (cp.val, 16), (sg.val, 11), (sn.val, 6)] = w ↔
      fld w 0 6 = 44 ∧ fld w 6 5 = sn.val ∧ fld w 11 5 = sg.val ∧ fld w 16 5 = cp.val ∧ fld w 21 5 = tl.val ∧ fld w 26 5 = at_.val ∧
      fld w 31 1 = 0 ∧ w / 2 ^ 32 = 0 :=
  eq_iff_holds [(44, 6), (sn.val, 5), (sg.val, 5), (cp.val, 5), (tl.val, 5), (at_.val, 5), (0, 1)]
    ⟨by decide, sn.isLt, sg.isLt, cp.isLt, tl.isLt, at_.isLt, by decide, trivial⟩
    (by simp only [packWord_cons, packWord_nil, digits_cons, digits_nil]; omega)
theorem holds_fence {scope : Scope} : packWord 45 [(scope.code, 6)] = w ↔
      fld w 0 6 = 45 ∧ fld w 6 3 = scope.code ∧ fld w 9 15 = 0 ∧ fld w 24 8 = 0 ∧ w / 2 ^ 32 = 0 :=
  eq_iff_holds [(45, 6), (scope.code, 3), (0, 15), (0, 8)]
    ⟨by decide, scope_code_lt _, by decide, by decide, trivial⟩
    (by simp only [packWord_cons, packWord_nil, digits_cons, digits_nil]; omega)
theorem holds_barrierA {lvl : Level} {obj : Fin 16} {a : GReg} (hb : base % 2 ^ 24 < 64 ∧ base < 2 ^ 32) :
    packWord base [(lvl.code, 22), (obj.val, 18), (a.val, 12)] = w ↔
      fld w 0 6 = base % 64 ∧ fld w 6 6 = 0 ∧ fld w 12 6 = a.val ∧ fld w 18 4 = obj.val ∧ fld w 22 2 = lvl.code ∧
      fld w 24 8 = base / 0x1000000 ∧ w / 2 ^ 32 = 0 :=
  eq_iff_holds [(base % 64, 6), (0, 6), (a.val, 6), (obj.val, 4), (lvl.code, 2), (base / 0x1000000, 8)]
    ⟨Nat.mod_lt _ (by decide), by decide, a.isLt, obj.isLt, level_code_lt _, Nat.div_lt_of_lt_mul hb.2, trivial⟩
    (by simp only [packWord_cons, packWord_nil, digits_cons, digits_nil]; omega)
theorem holds_barrierD {lvl : Level} {obj : Fin 16} {d : GReg} (hb : base % 2 ^ 24 < 64 ∧ base < 2 ^ 32) :
    packWord base [(lvl.code, 22), (obj.val, 18), (d.val, 6)] = w ↔
      fld w 0 6 = base % 64 ∧ fld w 6 6 = d.val ∧ fld w 12 6 = 0 ∧ fld w 18 4 = obj.val ∧ fld w 22 2 = lvl.code ∧
      fld w 24 8 = base / 0x1000000 ∧ w / 2 ^ 32 = 0 :=
  eq_iff_holds [(base % 64, 6), (d.val, 6), (0, 6), (obj.val, 4), (lvl.code, 2), (base / 0x1000000, 8)]
    ⟨Nat.mod_lt _ (by decide), d.isLt, by decide, obj.isLt, level_code_lt _, Nat.div_lt_of_lt_mul hb.2, trivial⟩
    (by simp only [packWord_cons, packWord_nil, digits_cons, digits_nil]; omega)

/-! Vector and mask registers. -/

theorem holds_vvv {d a b : VReg} {m : MReg} (hb : base % 2 ^ 24 < 64 ∧ base < 2 ^ 32) :
    packWord base [(d.val, 6), (a.val, 11), (b.val, 16), (m.val, 21)] = w ↔
      fld w 0 6 = base % 64 ∧ fld w 6 5 = d.val ∧ fld w 11 5 = a.val ∧ fld w 16 5 = b.val ∧ fld w 21 3 = m.val ∧
      fld w 24 8 = base / 0x1000000 ∧ w / 2 ^ 32 = 0 :=
  eq_iff_holds [(base % 64, 6), (d.val, 5), (a.val, 5), (b.val, 5), (m.val, 3), (base / 0x1000000, 8)]
    ⟨Nat.mod_lt _ (by decide), d.isLt, a.isLt, b.isLt, m.isLt, Nat.div_lt_of_lt_mul hb.2, trivial⟩
    (by simp only [packWord_cons, packWord_nil, digits_cons, digits_nil]; omega)
theorem holds_vv {d a : VReg} {m : MReg} (hb : base % 2 ^ 24 < 64 ∧ base < 2 ^ 32) :
    packWord base [(d.val, 6), (a.val, 11), (m.val, 21)] = w ↔
      fld w 0 6 = base % 64 ∧ fld w 6 5 = d.val ∧ fld w 11 5 = a.val ∧ fld w 16 5 = 0 ∧ fld w 21 3 = m.val ∧
      fld w 24 8 = base / 0x1000000 ∧ w / 2 ^ 32 = 0 :=
  eq_iff_holds [(base % 64, 6), (d.val, 5), (a.val, 5), (0, 5), (m.val, 3), (base / 0x1000000, 8)]
    ⟨Nat.mod_lt _ (by decide), d.isLt, a.isLt, by decide, m.isLt, Nat.div_lt_of_lt_mul hb.2, trivial⟩
    (by simp only [packWord_cons, packWord_nil, digits_cons, digits_nil]; omega)
theorem holds_mvv {d : MReg} {a b : VReg} {m : MReg} (hb : base % 2 ^ 24 < 64 ∧ base < 2 ^ 32) :
    packWord base [(d.val, 6), (a.val, 11), (b.val, 16), (m.val, 21)] = w ↔
      fld w 0 6 = base % 64 ∧ fld w 6 3 = d.val ∧ fld w 9 2 = 0 ∧ fld w 11 5 = a.val ∧ fld w 16 5 = b.val ∧ fld w 21 3 = m.val ∧
      fld w 24 8 = base / 0x1000000 ∧ w / 2 ^ 32 = 0 :=
  eq_iff_holds [(base % 64, 6), (d.val, 3), (0, 2), (a.val, 5), (b.val, 5), (m.val, 3), (base / 0x1000000, 8)]
    ⟨Nat.mod_lt _ (by decide), d.isLt, by decide, a.isLt, b.isLt, m.isLt, Nat.div_lt_of_lt_mul hb.2, trivial⟩
    (by simp only [packWord_cons, packWord_nil, digits_cons, digits_nil]; omega)
theorem holds_mmm {d a b : MReg} (hb : base % 2 ^ 24 < 64 ∧ base < 2 ^ 32) :
    packWord base [(d.val, 6), (a.val, 11), (b.val, 16)] = w ↔
      fld w 0 6 = base % 64 ∧ fld w 6 3 = d.val ∧ fld w 9 2 = 0 ∧ fld w 11 3 = a.val ∧ fld w 14 2 = 0 ∧ fld w 16 3 = b.val ∧
      fld w 19 5 = 0 ∧ fld w 24 8 = base / 0x1000000 ∧ w / 2 ^ 32 = 0 :=
  eq_iff_holds [(base % 64, 6), (d.val, 3), (0, 2), (a.val, 3), (0, 2), (b.val, 3), (0, 5), (base / 0x1000000, 8)]
    ⟨Nat.mod_lt _ (by decide), d.isLt, by decide, a.isLt, by decide, b.isLt, by decide, Nat.div_lt_of_lt_mul hb.2, trivial⟩
    (by simp only [packWord_cons, packWord_nil, digits_cons, digits_nil]; omega)
theorem holds_mnot {d a : MReg} : packWord 201326642 [(d.val, 6), (a.val, 11)] = w ↔
      fld w 0 6 = 50 ∧ fld w 6 3 = d.val ∧ fld w 9 2 = 0 ∧ fld w 11 3 = a.val ∧ fld w 14 10 = 0 ∧ fld w 24 8 = 12 ∧ w / 2 ^ 32 = 0 :=
  eq_iff_holds [(50, 6), (d.val, 3), (0, 2), (a.val, 3), (0, 10), (12, 8)]
    ⟨by decide, d.isLt, by decide, a.isLt, by decide, by decide, trivial⟩
    (by simp only [packWord_cons, packWord_nil, digits_cons, digits_nil]; omega)
theorem holds_vbcast {d : VReg} {a : GReg} {m : MReg} : packWord 53 [(d.val, 6), (a.val, 12), (m.val, 29)] = w ↔
      fld w 0 6 = 53 ∧ fld w 6 5 = d.val ∧ fld w 11 1 = 0 ∧ fld w 12 6 = a.val ∧ fld w 18 6 = 0 ∧ fld w 24 5 = 0 ∧
      fld w 29 3 = m.val ∧ w / 2 ^ 32 = 0 :=
  eq_iff_holds [(53, 6), (d.val, 5), (0, 1), (a.val, 6), (0, 6), (0, 5), (m.val, 3)]
    ⟨by decide, d.isLt, by decide, a.isLt, by decide, by decide, m.isLt, trivial⟩
    (by simp only [packWord_cons, packWord_nil, digits_cons, digits_nil]; omega)
theorem holds_vextr {d : GReg} {a : VReg} {b : GReg} : packWord 16777269 [(d.val, 6), (a.val, 12), (b.val, 18)] = w ↔
      fld w 0 6 = 53 ∧ fld w 6 6 = d.val ∧ fld w 12 5 = a.val ∧ fld w 17 1 = 0 ∧ fld w 18 6 = b.val ∧ fld w 24 5 = 1 ∧
      fld w 29 3 = 0 ∧ w / 2 ^ 32 = 0 :=
  eq_iff_holds [(53, 6), (d.val, 6), (a.val, 5), (0, 1), (b.val, 6), (1, 5), (0, 3)]
    ⟨by decide, d.isLt, a.isLt, by decide, b.isLt, by decide, by decide, trivial⟩
    (by simp only [packWord_cons, packWord_nil, digits_cons, digits_nil]; omega)
theorem holds_vinsr {d : VReg} {a b : GReg} : packWord 33554485 [(d.val, 6), (a.val, 12), (b.val, 18)] = w ↔
      fld w 0 6 = 53 ∧ fld w 6 5 = d.val ∧ fld w 11 1 = 0 ∧ fld w 12 6 = a.val ∧ fld w 18 6 = b.val ∧ fld w 24 5 = 2 ∧
      fld w 29 3 = 0 ∧ w / 2 ^ 32 = 0 :=
  eq_iff_holds [(53, 6), (d.val, 5), (0, 1), (a.val, 6), (b.val, 6), (2, 5), (0, 3)]
    ⟨by decide, d.isLt, by decide, a.isLt, b.isLt, by decide, by decide, trivial⟩
    (by simp only [packWord_cons, packWord_nil, digits_cons, digits_nil]; omega)
theorem holds_gather {d : VReg} {a : GReg} {b : VReg} {m : MReg} (hb : base % 2 ^ 24 < 64 ∧ base < 2 ^ 29) :
    packWord base [(d.val, 6), (a.val, 12), (b.val, 18), (m.val, 29)] = w ↔
      fld w 0 6 = base % 64 ∧ fld w 6 5 = d.val ∧ fld w 11 1 = 0 ∧ fld w 12 6 = a.val ∧ fld w 18 5 = b.val ∧ fld w 23 1 = 0 ∧
      fld w 24 5 = base / 0x1000000 ∧ fld w 29 3 = m.val ∧ w / 2 ^ 32 = 0 :=
  eq_iff_holds [(base % 64, 6), (d.val, 5), (0, 1), (a.val, 6), (b.val, 5), (0, 1), (base / 0x1000000, 5), (m.val, 3)]
    ⟨Nat.mod_lt _ (by decide), d.isLt, by decide, a.isLt, b.isLt, by decide, Nat.div_lt_of_lt_mul hb.2, m.isLt, trivial⟩
    (by simp only [packWord_cons, packWord_nil, digits_cons, digits_nil]; omega)
theorem holds_mtog {d : GReg} {a : MReg} : packWord 83886133 [(d.val, 6), (a.val, 12)] = w ↔
      fld w 0 6 = 53 ∧ fld w 6 6 = d.val ∧ fld w 12 3 = a.val ∧ fld w 15 9 = 0 ∧ fld w 24 5 = 5 ∧ fld w 29 3 = 0 ∧ w / 2 ^ 32 = 0 :=
  eq_iff_holds [(53, 6), (d.val, 6), (a.val, 3), (0, 9), (5, 5), (0, 3)]
    ⟨by decide, d.isLt, a.isLt, by decide, by decide, by decide, trivial⟩
    (by simp only [packWord_cons, packWord_nil, digits_cons, digits_nil]; omega)
theorem holds_gtom {d : MReg} {a : GReg} : packWord 100663349 [(d.val, 6), (a.val, 12)] = w ↔
      fld w 0 6 = 53 ∧ fld w 6 3 = d.val ∧ fld w 9 3 = 0 ∧ fld w 12 6 = a.val ∧ fld w 18 6 = 0 ∧ fld w 24 5 = 6 ∧ fld w 29 3 = 0 ∧
      w / 2 ^ 32 = 0 :=
  eq_iff_holds [(53, 6), (d.val, 3), (0, 3), (a.val, 6), (0, 6), (6, 5), (0, 3)]
    ⟨by decide, d.isLt, by decide, a.isLt, by decide, by decide, by decide, trivial⟩
    (by simp only [packWord_cons, packWord_nil, digits_cons, digits_nil]; omega)

/-! Tasks, messages, accumulates and shelves. -/

theorem holds_spawn {d a b : GReg} {plc : Place} {pri : Fin 4} {twin rst : Bool} (hb : base % 2 ^ 24 < 64 ∧ base < 2 ^ 25) :
    packWord base [(d.val, 6), (a.val, 12), (b.val, 18), (plc.code, 29), (pri.val, 27), (bit twin, 26), (bit rst, 25)] = w ↔
      fld w 0 6 = base % 64 ∧ fld w 6 6 = d.val ∧ fld w 12 6 = a.val ∧ fld w 18 6 = b.val ∧ fld w 24 1 = base / 0x1000000 ∧
      fld w 25 1 = bit rst ∧ fld w 26 1 = bit twin ∧ fld w 27 2 = pri.val ∧ fld w 29 2 = plc.code ∧ fld w 31 1 = 0 ∧ w / 2 ^ 32 = 0 :=
  eq_iff_holds [(base % 64, 6), (d.val, 6), (a.val, 6), (b.val, 6), (base / 0x1000000, 1), (bit rst, 1), (bit twin, 1),
    (pri.val, 2), (plc.code, 2), (0, 1)]
    ⟨Nat.mod_lt _ (by decide), d.isLt, a.isLt, b.isLt, Nat.div_lt_of_lt_mul hb.2, bit_lt _, bit_lt _, pri.isLt,
      place_code_lt _, by decide, trivial⟩
    (by simp only [packWord_cons, packWord_nil, digits_cons, digits_nil]; omega)
theorem holds_callat {d a b : GReg} {pri : Fin 4} : packWord 2147483704 [(d.val, 6), (a.val, 12), (b.val, 18), (pri.val, 27)] = w ↔
      fld w 0 6 = 56 ∧ fld w 6 6 = d.val ∧ fld w 12 6 = a.val ∧ fld w 18 6 = b.val ∧ fld w 24 3 = 0 ∧ fld w 27 2 = pri.val ∧
      fld w 29 3 = 4 ∧ w / 2 ^ 32 = 0 :=
  eq_iff_holds [(56, 6), (d.val, 6), (a.val, 6), (b.val, 6), (0, 3), (pri.val, 2), (4, 3)]
    ⟨by decide, d.isLt, a.isLt, b.isLt, by decide, pri.isLt, by decide, trivial⟩
    (by simp only [packWord_cons, packWord_nil, digits_cons, digits_nil]; omega)
theorem holds_send {d a b : GReg} {n : Fin 9} : packWord 58 [(d.val, 6), (a.val, 12), (b.val, 18), (n.val, 24)] = w ↔
      fld w 0 6 = 58 ∧ fld w 6 6 = d.val ∧ fld w 12 6 = a.val ∧ fld w 18 6 = b.val ∧ fld w 24 4 = n.val ∧ fld w 28 4 = 0 ∧
      w / 2 ^ 32 = 0 :=
  eq_iff_holds [(58, 6), (d.val, 6), (a.val, 6), (b.val, 6), (n.val, 4), (0, 4)]
    ⟨by decide, d.isLt, a.isLt, b.isLt, n.isLt.trans (by decide), by decide, trivial⟩
    (by simp only [packWord_cons, packWord_nil, digits_cons, digits_nil]; omega)
theorem holds_hret : packWord 268435514 [] = w ↔
      fld w 0 6 = 58 ∧ fld w 6 22 = 0 ∧ fld w 28 4 = 1 ∧ w / 2 ^ 32 = 0 :=
  eq_iff_holds [(58, 6), (0, 22), (1, 4)]
    ⟨by decide, by decide, by decide, trivial⟩
    (by simp only [packWord_nil, digits_cons, digits_nil]; omega)
theorem holds_acc {a : GReg} {b : VReg} {m : MReg} (hb : base % 2 ^ 24 < 64 ∧ base < 2 ^ 32) :
    packWord base [(a.val, 12), (b.val, 18), (m.val, 6)] = w ↔
      fld w 0 6 = base % 64 ∧ fld w 6 3 = m.val ∧ fld w 9 3 = 0 ∧ fld w 12 6 = a.val ∧ fld w 18 5 = b.val ∧ fld w 23 1 = 0 ∧
      fld w 24 8 = base / 0x1000000 ∧ w / 2 ^ 32 = 0 :=
  eq_iff_holds [(base % 64, 6), (m.val, 3), (0, 3), (a.val, 6), (b.val, 5), (0, 1), (base / 0x1000000, 8)]
    ⟨Nat.mod_lt _ (by decide), m.isLt, by decide, a.isLt, b.isLt, by decide, Nat.div_lt_of_lt_mul hb.2, trivial⟩
    (by simp only [packWord_cons, packWord_nil, digits_cons, digits_nil]; omega)
theorem holds_rmerge {a : GReg} {b : VReg} {m : MReg} {ks : Fin 4} :
    packWord 33554493 [(a.val, 12), (b.val, 18), (m.val, 6), (ks.val, 9)] = w ↔
      fld w 0 6 = 61 ∧ fld w 6 3 = m.val ∧ fld w 9 2 = ks.val ∧ fld w 11 1 = 0 ∧ fld w 12 6 = a.val ∧ fld w 18 5 = b.val ∧
      fld w 23 1 = 0 ∧ fld w 24 8 = 2 ∧ w / 2 ^ 32 = 0 :=
  eq_iff_holds [(61, 6), (m.val, 3), (ks.val, 2), (0, 1), (a.val, 6), (b.val, 5), (0, 1), (2, 8)]
    ⟨by decide, m.isLt, ks.isLt, by decide, a.isLt, b.isLt, by decide, by decide, trivial⟩
    (by simp only [packWord_cons, packWord_nil, digits_cons, digits_nil]; omega)
theorem holds_all (hb : base % 2 ^ 24 = 125 ∧ base < 2 ^ 32) : packWord base [] = w ↔
      fld w 0 6 = 61 ∧ fld w 6 1 = 1 ∧ fld w 7 17 = 0 ∧ fld w 24 8 = base / 0x1000000 ∧ w / 2 ^ 32 = 0 :=
  eq_iff_holds [(61, 6), (1, 1), (0, 17), (base / 0x1000000, 8)]
    ⟨by decide, by decide, by decide, Nat.div_lt_of_lt_mul hb.2, trivial⟩
    (by simp only [packWord_nil, digits_cons, digits_nil]; omega)
theorem holds_range {a b : GReg} : packWord 50331709 [(a.val, 12), (b.val, 18)] = w ↔
      fld w 0 6 = 61 ∧ fld w 6 1 = 0 ∧ fld w 7 5 = 0 ∧ fld w 12 6 = a.val ∧ fld w 18 6 = b.val ∧ fld w 24 8 = 3 ∧ w / 2 ^ 32 = 0 :=
  eq_iff_holds [(61, 6), (0, 1), (0, 5), (a.val, 6), (b.val, 6), (3, 8)]
    ⟨by decide, by decide, by decide, a.isLt, b.isLt, by decide, trivial⟩
    (by simp only [packWord_cons, packWord_nil, digits_cons, digits_nil]; omega)
theorem holds_die {a : GReg} : packWord 117440573 [(a.val, 12)] = w ↔
      fld w 0 6 = 61 ∧ fld w 6 1 = 0 ∧ fld w 7 5 = 0 ∧ fld w 12 6 = a.val ∧ fld w 18 6 = 0 ∧ fld w 24 8 = 7 ∧ w / 2 ^ 32 = 0 :=
  eq_iff_holds [(61, 6), (0, 1), (0, 5), (a.val, 6), (0, 6), (7, 8)]
    ⟨by decide, by decide, by decide, a.isLt, by decide, by decide, trivial⟩
    (by simp only [packWord_cons, packWord_nil, digits_cons, digits_nil]; omega)

/-! The words of tile commands (R140). -/

theorem holds_top (hb : base % 64 = 62 ∧ base < 4096) : base = w ↔
      fld w 0 6 = 62 ∧ fld w 6 6 = base / 64 ∧ fld w 12 20 = 0 ∧ w / 2 ^ 32 = 0 :=
  eq_iff_holds [(62, 6), (base / 64, 6), (0, 20)] ⟨by decide, Nat.div_lt_of_lt_mul hb.2, by decide, trivial⟩
    (by simp only [digits_cons, digits_nil]; omega)
theorem holds_mfmt {af bf : Fin 16} {rc : RoundMode} {accm : Bool} :
    packWord 62 [(af.val, 12), (bf.val, 16), (rc.code, 20), (bit accm, 22)] = w ↔
      fld w 0 6 = 62 ∧ fld w 6 6 = 0 ∧ fld w 12 4 = af.val ∧ fld w 16 4 = bf.val ∧ fld w 20 2 = rc.code ∧ fld w 22 1 = bit accm ∧
      fld w 23 9 = 0 ∧ w / 2 ^ 32 = 0 :=
  eq_iff_holds [(62, 6), (0, 6), (af.val, 4), (bf.val, 4), (rc.code, 2), (bit accm, 1), (0, 9)]
    ⟨by decide, by decide, af.isLt, bf.isLt, roundMode_code_lt _, bit_lt _, by decide, trivial⟩
    (by simp only [packWord_cons, packWord_nil, digits_cons, digits_nil]; omega)
theorem holds_malloc {t g0 ng : Fin 8} {kind : GroupKind} {ks : Fin 4} :
    packWord 126 [(t.val, 12), (g0.val, 16), (ng.val, 19), (kind.code, 22), (ks.val, 24)] = w ↔
      fld w 0 6 = 62 ∧ fld w 6 6 = 1 ∧ fld w 12 3 = t.val ∧ fld w 15 1 = 0 ∧ fld w 16 3 = g0.val ∧ fld w 19 3 = ng.val ∧
      fld w 22 2 = kind.code ∧ fld w 24 2 = ks.val ∧ fld w 26 6 = 0 ∧ w / 2 ^ 32 = 0 :=
  eq_iff_holds [(62, 6), (1, 6), (t.val, 3), (0, 1), (g0.val, 3), (ng.val, 3), (kind.code, 2), (ks.val, 2), (0, 6)]
    ⟨by decide, by decide, t.isLt, by decide, g0.isLt, ng.isLt, groupKind_code_lt _, ks.isLt, by decide, trivial⟩
    (by simp only [packWord_cons, packWord_nil, digits_cons, digits_nil]; omega)
theorem holds_mfree {t g0 ng : Fin 8} : packWord 190 [(t.val, 12), (g0.val, 16), (ng.val, 19)] = w ↔
      fld w 0 6 = 62 ∧ fld w 6 6 = 2 ∧ fld w 12 3 = t.val ∧ fld w 15 1 = 0 ∧ fld w 16 3 = g0.val ∧ fld w 19 3 = ng.val ∧
      fld w 22 10 = 0 ∧ w / 2 ^ 32 = 0 :=
  eq_iff_holds [(62, 6), (2, 6), (t.val, 3), (0, 1), (g0.val, 3), (ng.val, 3), (0, 10)]
    ⟨by decide, by decide, t.isLt, by decide, g0.isLt, ng.isLt, by decide, trivial⟩
    (by simp only [packWord_cons, packWord_nil, digits_cons, digits_nil]; omega)
theorem holds_mzero {t : Fin 8} {row0 nr : Fin 128} : packWord 254 [(t.val, 12), (row0.val, 15), (nr.val, 22)] = w ↔
      fld w 0 6 = 62 ∧ fld w 6 6 = 3 ∧ fld w 12 3 = t.val ∧ fld w 15 7 = row0.val ∧ fld w 22 7 = nr.val ∧ fld w 29 3 = 0 ∧
      w / 2 ^ 32 = 0 :=
  eq_iff_holds [(62, 6), (3, 6), (t.val, 3), (row0.val, 7), (nr.val, 7), (0, 3)]
    ⟨by decide, by decide, t.isLt, row0.isLt, nr.isLt, by decide, trivial⟩
    (by simp only [packWord_cons, packWord_nil, digits_cons, digits_nil]; omega)
theorem holds_mma {t : Fin 8} {shp : Fin 4} {row0 nr : Fin 128} :
    packWord 318 [(t.val, 12), (shp.val, 15), (row0.val, 17), (nr.val, 24)] = w ↔
      fld w 0 6 = 62 ∧ fld w 6 6 = 4 ∧ fld w 12 3 = t.val ∧ fld w 15 2 = shp.val ∧ fld w 17 7 = row0.val ∧ fld w 24 7 = nr.val ∧
      fld w 31 1 = 0 ∧ w / 2 ^ 32 = 0 :=
  eq_iff_holds [(62, 6), (4, 6), (t.val, 3), (shp.val, 2), (row0.val, 7), (nr.val, 7), (0, 1)]
    ⟨by decide, by decide, t.isLt, shp.isLt, row0.isLt, nr.isLt, by decide, trivial⟩
    (by simp only [packWord_cons, packWord_nil, digits_cons, digits_nil]; omega)
theorem holds_gmma {t nt : Fin 8} {nw : Fin 4} {ng : Fin 64} :
    packWord 382 [(t.val, 12), (nt.val, 15), (nw.val, 18), (ng.val, 20)] = w ↔
      fld w 0 6 = 62 ∧ fld w 6 6 = 5 ∧ fld w 12 3 = t.val ∧ fld w 15 3 = nt.val ∧ fld w 18 2 = nw.val ∧ fld w 20 6 = ng.val ∧
      fld w 26 6 = 0 ∧ w / 2 ^ 32 = 0 :=
  eq_iff_holds [(62, 6), (5, 6), (t.val, 3), (nt.val, 3), (nw.val, 2), (ng.val, 6), (0, 6)]
    ⟨by decide, by decide, t.isLt, nt.isLt, nw.isLt, ng.isLt, by decide, trivial⟩
    (by simp only [packWord_cons, packWord_nil, digits_cons, digits_nil]; omega)
theorem holds_mdrain {t : Fin 8} {row0 nr : Fin 128} {dst : DrainDst} {df : Bool} :
    packWord 446 [(t.val, 12), (row0.val, 15), (nr.val, 22), (dst.code, 29), (bit df, 31)] = w ↔
      fld w 0 6 = 62 ∧ fld w 6 6 = 6 ∧ fld w 12 3 = t.val ∧ fld w 15 7 = row0.val ∧ fld w 22 7 = nr.val ∧ fld w 29 2 = dst.code ∧
      fld w 31 1 = bit df ∧ w / 2 ^ 32 = 0 :=
  eq_iff_holds [(62, 6), (6, 6), (t.val, 3), (row0.val, 7), (nr.val, 7), (dst.code, 2), (bit df, 1)]
    ⟨by decide, by decide, t.isLt, row0.isLt, nr.isLt, drainDst_code_lt _, bit_lt _, trivial⟩
    (by simp only [packWord_cons, packWord_nil, digits_cons, digits_nil]; omega)
theorem holds_mquant {t : Fin 8} {row0 nr : Fin 128} {dst : DrainDst} :
    packWord 510 [(t.val, 12), (row0.val, 15), (nr.val, 22), (dst.code, 29)] = w ↔
      fld w 0 6 = 62 ∧ fld w 6 6 = 7 ∧ fld w 12 3 = t.val ∧ fld w 15 7 = row0.val ∧ fld w 22 7 = nr.val ∧ fld w 29 2 = dst.code ∧
      fld w 31 1 = 0 ∧ w / 2 ^ 32 = 0 :=
  eq_iff_holds [(62, 6), (7, 6), (t.val, 3), (row0.val, 7), (nr.val, 7), (dst.code, 2), (0, 1)]
    ⟨by decide, by decide, t.isLt, row0.isLt, nr.isLt, drainDst_code_lt _, by decide, trivial⟩
    (by simp only [packWord_cons, packWord_nil, digits_cons, digits_nil]; omega)
theorem holds_mrank {t : Fin 8} {row0 nr : Fin 128} {ts : Fin 8} :
    packWord 638 [(t.val, 12), (row0.val, 15), (nr.val, 22), (ts.val, 29)] = w ↔
      fld w 0 6 = 62 ∧ fld w 6 6 = 9 ∧ fld w 12 3 = t.val ∧ fld w 15 7 = row0.val ∧ fld w 22 7 = nr.val ∧ fld w 29 3 = ts.val ∧
      w / 2 ^ 32 = 0 :=
  eq_iff_holds [(62, 6), (9, 6), (t.val, 3), (row0.val, 7), (nr.val, 7), (ts.val, 3)]
    ⟨by decide, by decide, t.isLt, row0.isLt, nr.isLt, ts.isLt, trivial⟩
    (by simp only [packWord_cons, packWord_nil, digits_cons, digits_nil]; omega)
theorem holds_mthr {t : Fin 8} {row0 : Fin 128} : packWord 702 [(t.val, 12), (row0.val, 15)] = w ↔
      fld w 0 6 = 62 ∧ fld w 6 6 = 10 ∧ fld w 12 3 = t.val ∧ fld w 15 7 = row0.val ∧ fld w 22 10 = 0 ∧ w / 2 ^ 32 = 0 :=
  eq_iff_holds [(62, 6), (10, 6), (t.val, 3), (row0.val, 7), (0, 10)]
    ⟨by decide, by decide, t.isLt, row0.isLt, by decide, trivial⟩
    (by simp only [packWord_cons, packWord_nil, digits_cons, digits_nil]; omega)
theorem holds_acct {t : Fin 8} {row0 nr : Fin 128} {df : Bool} :
    packWord 766 [(t.val, 12), (row0.val, 15), (nr.val, 22), (bit df, 29)] = w ↔
      fld w 0 6 = 62 ∧ fld w 6 6 = 11 ∧ fld w 12 3 = t.val ∧ fld w 15 7 = row0.val ∧ fld w 22 7 = nr.val ∧ fld w 29 1 = bit df ∧
      fld w 30 2 = 0 ∧ w / 2 ^ 32 = 0 :=
  eq_iff_holds [(62, 6), (11, 6), (t.val, 3), (row0.val, 7), (nr.val, 7), (bit df, 1), (0, 2)]
    ⟨by decide, by decide, t.isLt, row0.isLt, nr.isLt, bit_lt _, by decide, trivial⟩
    (by simp only [packWord_cons, packWord_nil, digits_cons, digits_nil]; omega)
theorem holds_tfill {esz : Fin 4} : packWord 1342 [(esz.val, 12)] = w ↔
      fld w 0 6 = 62 ∧ fld w 6 6 = 20 ∧ fld w 12 2 = esz.val ∧ fld w 14 18 = 0 ∧ w / 2 ^ 32 = 0 :=
  eq_iff_holds [(62, 6), (20, 6), (esz.val, 2), (0, 18)]
    ⟨by decide, by decide, esz.isLt, by decide, trivial⟩
    (by simp only [packWord_cons, packWord_nil, digits_cons, digits_nil]; omega)
theorem holds_regs1 {a : GReg} : packWord 0 [(a.val, 0)] = w ↔
      fld w 0 6 = a.val ∧ fld w 6 26 = 0 ∧ w / 2 ^ 32 = 0 :=
  eq_iff_holds [(a.val, 6), (0, 26)]
    ⟨a.isLt, by decide, trivial⟩
    (by simp only [packWord_cons, packWord_nil, digits_cons, digits_nil]; omega)
theorem holds_regs2 {a b : GReg} : packWord 0 [(a.val, 0), (b.val, 6)] = w ↔
      fld w 0 6 = a.val ∧ fld w 6 6 = b.val ∧ fld w 12 20 = 0 ∧ w / 2 ^ 32 = 0 :=
  eq_iff_holds [(a.val, 6), (b.val, 6), (0, 20)]
    ⟨a.isLt, b.isLt, by decide, trivial⟩
    (by simp only [packWord_cons, packWord_nil, digits_cons, digits_nil]; omega)
theorem holds_regs3 {a b c : GReg} : packWord 0 [(a.val, 0), (b.val, 6), (c.val, 12)] = w ↔
      fld w 0 6 = a.val ∧ fld w 6 6 = b.val ∧ fld w 12 6 = c.val ∧ fld w 18 14 = 0 ∧ w / 2 ^ 32 = 0 :=
  eq_iff_holds [(a.val, 6), (b.val, 6), (c.val, 6), (0, 14)]
    ⟨a.isLt, b.isLt, c.isLt, by decide, trivial⟩
    (by simp only [packWord_cons, packWord_nil, digits_cons, digits_nil]; omega)
theorem holds_regs4 {a b c d : GReg} : packWord 0 [(a.val, 0), (b.val, 6), (c.val, 12), (d.val, 18)] = w ↔
      fld w 0 6 = a.val ∧ fld w 6 6 = b.val ∧ fld w 12 6 = c.val ∧ fld w 18 6 = d.val ∧ fld w 24 8 = 0 ∧ w / 2 ^ 32 = 0 :=
  eq_iff_holds [(a.val, 6), (b.val, 6), (c.val, 6), (d.val, 6), (0, 8)]
    ⟨a.isLt, b.isLt, c.isLt, d.isLt, by decide, trivial⟩
    (by simp only [packWord_cons, packWord_nil, digits_cons, digits_nil]; omega)
theorem holds_regsDst {a b : GReg} {dst : DrainDst} : packWord 0 [(a.val, 0), (b.val, 6), (dst.reg, 12)] = w ↔
      fld w 0 6 = a.val ∧ fld w 6 6 = b.val ∧ fld w 12 6 = dst.reg ∧ fld w 18 14 = 0 ∧ w / 2 ^ 32 = 0 :=
  eq_iff_holds [(a.val, 6), (b.val, 6), (dst.reg, 6), (0, 14)]
    ⟨a.isLt, b.isLt, drainDst_reg_lt _, by decide, trivial⟩
    (by simp only [packWord_cons, packWord_nil, digits_cons, digits_nil]; omega)
theorem holds_mrankRegs {a : GReg} {srow0 ncm : Fin 128} : packWord 0 [(a.val, 0), (srow0.val, 6), (ncm.val, 13)] = w ↔
      fld w 0 6 = a.val ∧ fld w 6 7 = srow0.val ∧ fld w 13 7 = ncm.val ∧ fld w 20 12 = 0 ∧ w / 2 ^ 32 = 0 :=
  eq_iff_holds [(a.val, 6), (srow0.val, 7), (ncm.val, 7), (0, 12)]
    ⟨a.isLt, srow0.isLt, ncm.isLt, by decide, trivial⟩
    (by simp only [packWord_cons, packWord_nil, digits_cons, digits_nil]; omega)
theorem holds_mthrRegs {d : VReg} {a : GReg} : packWord 0 [(d.val, 0), (a.val, 6)] = w ↔
      fld w 0 5 = d.val ∧ fld w 5 1 = 0 ∧ fld w 6 6 = a.val ∧ fld w 12 20 = 0 ∧ w / 2 ^ 32 = 0 :=
  eq_iff_holds [(d.val, 5), (0, 1), (a.val, 6), (0, 20)]
    ⟨d.isLt, by decide, a.isLt, by decide, trivial⟩
    (by simp only [packWord_cons, packWord_nil, digits_cons, digits_nil]; omega)
end

/-! ### The words that an instruction is read from (R33, R39, R40) -/

/-- How many prefixes may precede a word of an opcode and of what bits [31:28] hold: format RI takes two; formats BR, J and MEM, and
layout RI-S with SUB 0 or 1, take one (R39). -/
def prefixesOf (op sub : Nat) : Nat :=
  if opRI op = true then 2
  else if 24 ≤ op ∧ op ≤ 30 ∨ op = 31 ∧ sub < 2 ∨ 32 ≤ op ∧ op ≤ 39 ∨ op = 54 ∨ op = 55 then 1 else 0

/-- How many prefixes may precede a word (R39). -/
def maxPrefixes (w : Nat) : Nat := prefixesOf (fld w 0 6) (fld w 28 4)

theorem maxPrefixes_eq_two {w : Nat} : maxPrefixes w = 2 ↔ opRI (w % 64) = true := by
  rw [maxPrefixes, prefixesOf, opcode_eq_fld]
  split_ifs with hri <;> simp [hri]
theorem maxPrefixes_pos {w : Nat} : 1 ≤ maxPrefixes w ↔ takesPrefix w = true := by
  rw [maxPrefixes, prefixesOf, takesPrefix, opcode_eq_fld]
  cases opRI (fld w 0 6) with
  | true => simp
  | false =>
    rw [if_neg Bool.false_ne_true]
    split_ifs with hone <;> simpa [or_assoc] using hone

theorem prefixWord_fld {w : Nat} (hw : w < 2 ^ 32) (hop : w % 64 = 63) : prefixWord (fld w 6 26) = w := by
  simp only [prefixWord, fld]
  omega
theorem fld_prefixWord {p : Nat} (hp : p < 2 ^ 26) : fld (prefixWord p) 6 26 = p := by
  simp only [prefixWord, fld]
  omega
theorem prefixWord_mod (p : Nat) : prefixWord p % 64 = 63 := by
  simp only [prefixWord]
  omega
theorem prefixWords_eq (base : Nat) (imm : Imm) : prefixWords base imm = (imm.prefixes base).map prefixWord := rfl

/-- A word of a prefix or of a tile command is no word of another instruction (R43). -/
theorem opcode_of_decodeWord {k w : Nat} {pf : List Nat} {i : Instr} (h : decodeWord k pf w = .ok i) : w % 64 ≠ 62 ∧ w % 64 ≠ 63 := by
  constructor <;> intro hop <;> simp only [decodeWord, hop, illegalWord, reduceCtorEq] at h

/-- What a word gives with the P bits of its prefixes, whatever words follow (R39). -/
theorem decodeWords_of_decodeWord {pf : List Nat} {w : Nat} {i : Instr} (hpf : PrefixBits (maxPrefixes w) pf)
    (h : decodeWord 0 pf w = .ok i) (rest : List Nat) :
    decodeWords (pf.map prefixWord ++ w :: rest) = .ok (i, pf.length + 1) := by
  obtain ⟨h62, h63⟩ := opcode_of_decodeWord h
  match pf, hpf with
  | [], _ => simp [decodeWords, decodeWordsIn, h62, h63, h, Except.map]
  | [p], ⟨h1, hp⟩ =>
    have htakes : takesPrefix w = true := maxPrefixes_pos.1 h1
    simp [decodeWords, decodeWordsIn, decodePrefixed, prefixWord_mod, fld_prefixWord hp, h63, htakes, h, Except.map]
  | [p, q], ⟨h2, hp, hq⟩ =>
    have hri : opRI (w % 64) = true := maxPrefixes_eq_two.1 h2
    have htop : fld (prefixWord p) 30 2 = 0 := by
      simp only [prefixWord, fld]
      omega
    simp [decodeWords, decodeWordsIn, decodePrefixed, prefixWord_mod, fld_prefixWord (hp.trans (by decide)), fld_prefixWord hq, hri,
      htop, h, Except.map]

theorem map_eq_ok {α β : Type} {x : Except DecErr α} {f : α → β} {b : β} (h : x.map f = .ok b) : ∃ a, x = .ok a ∧ f a = b := by
  cases x with
  | error e => cases h
  | ok a => exact ⟨a, rfl, Except.ok.inj h⟩

/-- What gives an instruction with its prefixes. -/
theorem decodePrefixed_eq_ok {w0 : Nat} {r : List Nat} {i : Instr} {n : Nat} (h0 : w0 < 2 ^ 32) (hop : w0 % 64 = 63)
    (hr : ∀ w ∈ r, w < 2 ^ 32) (h : decodePrefixed 0 w0 r = .ok (i, n)) :
    ∃ pf w rest, w0 :: r = pf.map prefixWord ++ w :: rest ∧ n = pf.length + 1 ∧ PrefixBits (maxPrefixes w) pf ∧
      decodeWord 0 pf w = .ok i := by
  unfold decodePrefixed at h
  match r with
  | [] => cases h
  | w1 :: r1 =>
    by_cases h1 : w1 % 64 = 63
    · match r1 with
      | [] => simp [h1] at h
      | w2 :: rest =>
        simp only [h1, if_true] at h
        split_ifs at h with hri htop
        obtain ⟨j, hj, hjn⟩ := map_eq_ok h
        cases hjn
        have hw1 : w1 < 2 ^ 32 := hr _ (by simp)
        refine ⟨[fld w0 6 26, fld w1 6 26], w2, rest, ?_, rfl, ⟨?_, ?_, fld_lt _ _ _⟩, hj⟩
        · simp [prefixWord_fld h0 hop, prefixWord_fld hw1 h1]
        · exact maxPrefixes_eq_two.2 (by simpa using hri)
        · simp [fld] at htop ⊢
          omega
    · simp only [h1, if_false] at h
      split_ifs at h with htakes
      obtain ⟨j, hj, hjn⟩ := map_eq_ok h
      cases hjn
      refine ⟨[fld w0 6 26], w1, r1, by simp [prefixWord_fld h0 hop], rfl,
        ⟨maxPrefixes_pos.2 (by simpa using htakes), fld_lt _ _ _⟩, hj⟩

/-- Words that give an instruction are prefixes and the word that they precede, or the four words of a tile command. -/
theorem decodeWords_eq_ok {ws : List Nat} {i : Instr} {n : Nat} (hws : ∀ w ∈ ws, w < 2 ^ 32) (h : decodeWords ws = .ok (i, n)) :
    (∃ pf w rest, ws = pf.map prefixWord ++ w :: rest ∧ n = pf.length + 1 ∧ PrefixBits (maxPrefixes w) pf ∧
      decodeWord 0 pf w = .ok i) ∨
      ∃ w0 w1 w2 w3 rest, ws = w0 :: w1 :: w2 :: w3 :: rest ∧ n = 4 ∧ w0 % 64 = 62 ∧ decodeTile w0 w1 w2 w3 = .ok i := by
  unfold decodeWords decodeWordsIn at h
  match ws with
  | [] => cases h
  | w0 :: r =>
    dsimp only at h
    split_ifs at h with h63 h62
    · rw [List.forall_mem_cons] at hws
      exact .inl (decodePrefixed_eq_ok hws.1 h63 hws.2 h)
    · right
      match r with
      | w1 :: w2 :: w3 :: rest =>
        obtain ⟨j, hj, hjn⟩ := map_eq_ok h
        cases hjn
        exact ⟨w0, w1, w2, w3, rest, rfl, rfl, h62, hj⟩
      | [] | [_] | [_, _] => cases h
    · left
      obtain ⟨j, hj, hjn⟩ := map_eq_ok h
      cases hjn
      exact ⟨[], w0, r, rfl, rfl, trivial, hj⟩

/-! ### What words decode to (O57) -/

/-- An instruction that is well formed, no step of another agent, and written as the given words. -/
def Spells (ws : List Nat) (i : Instr) : Prop := i.wf = true ∧ i.isEvent = false ∧ encode i = ws

/-- The answer of a decoder, if it is an instruction, is one that the given words spell. -/
def Gives (ws : List Nat) (r : Except DecErr Instr) : Prop := ∀ i, r = .ok i → Spells ws i

section
variable {w v c n : Nat} {ws pf : List Nat} {i : Instr} {r : Except DecErr Instr} {ok : Bool}

theorem Gives.illegal : Gives ws (illegalWord c) := fun _ h => by cases h
theorem Gives.unlessReserved (h : ok = true → Gives ws r) : Gives ws (unlessReserved c ok r) := by
  cases ok with
  | true => exact h rfl
  | false => exact fun _ h => by cases h
theorem Gives.unlessIllegal (h : ok = true → Gives ws r) : Gives ws (unlessIllegal c ok r) := by
  cases ok with
  | true => exact h rfl
  | false => exact fun _ h => by cases h
theorem Gives.orReserved {α : Type} {o : Option α} {k : α → Except DecErr Instr} (h : ∀ a, o = some a → Gives ws (k a)) :
    Gives ws (orReserved c o k) := by
  cases o with
  | some a => exact h a rfl
  | none => exact fun _ h => by cases h

/-- An instruction of one word. -/
theorem Gives.word (hwf : i.wf = true) (hev : i.isEvent = false) (henc : encode i = [v]) (hv : v = w) : Gives [w] (.ok i) := by
  rintro _ ⟨⟩
  exact ⟨hwf, hev, by rw [henc, hv]⟩

/-- An instruction with an immediate, of which the word holds the field `n` and the prefixes the rest (R39). -/
theorem Gives.imm {m base : Nat} (hsize : (m = 2 → base = 14) ∧ 0 < base ∧ base ≤ 38) (hpf : PrefixBits m pf)
    (hwf : (immOf pf base n).wf base m = true → i.wf = true)
    (hev : i.isEvent = false) (henc : encode i = prefixWords base (immOf pf base n) ++ [v]) (hn : n < 2 ^ base)
    (hv : n = (immOf pf base n).field base → v = w) :
    Gives (pf.map prefixWord ++ [w]) (.ok i) := by
  obtain ⟨hm, h0, hb⟩ := hsize
  rintro _ ⟨⟩
  refine ⟨hwf (wf_immOf hpf h0 hb), hev, ?_⟩
  rw [henc, hv (field_immOf hpf hm hb hn).symm, prefixWords_eq, prefixes_immOf hpf hm hb hn]

theorem field_eq_zero {lo n : Nat} {fs : List (Nat × Nat)} (h : zeros w ((lo, n) :: fs) = true) : fld w lo n = 0 := (zeros_cons.1 h).1
theorem two_fields_eq_zero {lo n lo' n' : Nat} (h : zeros w [(lo, n), (lo', n')] = true) : fld w lo n = 0 ∧ fld w lo' n' = 0 := by
  simpa using h
theorem three_fields_eq_zero {lo n lo' n' lo'' n'' : Nat} (h : zeros w [(lo, n), (lo', n'), (lo'', n'')] = true) :
    fld w lo n = 0 ∧ fld w lo' n' = 0 ∧ fld w lo'' n'' = 0 := by
  simpa using h
theorem prefixBits_zero (h : PrefixBits 0 pf) : pf = [] := by
  match pf, h with
  | [], _ => rfl
  | [_], ⟨h, _⟩ => omega
  | [_, _], ⟨h, _⟩ => omega
theorem windowG_zero (r : GReg) : windowG 0 r = r := if_pos (.inl rfl)
end

section
variable {w : Nat} (hw : w / 2 ^ 32 = 0)
include hw

theorem decOp01_gives (hop : fld w 0 6 = 1) : Gives [w] (decOp01 w) := by
  unfold decOp01
  split
  case h_16 => exact .illegal
  all_goals exact .word rfl rfl rfl ((holds_rrr (by decide)).2 ⟨hop, rfl, rfl, rfl, ‹_›, hw⟩)

theorem decOp02_gives (hop : fld w 0 6 = 2) : Gives [w] (decOp02 w) := by
  unfold decOp02
  split
  case h_8 => exact .illegal
  all_goals exact .word rfl rfl rfl ((holds_rrr (by decide)).2 ⟨hop, rfl, rfl, rfl, ‹_›, hw⟩)

theorem decOp03_gives (hop : fld w 0 6 = 3) : Gives [w] (decOp03 w) := by
  unfold decOp03
  split
  case h_9 => exact .illegal
  all_goals exact .word rfl rfl rfl ((holds_rrr (by decide)).2 ⟨hop, rfl, rfl, rfl, ‹_›, hw⟩)

theorem decOp04_gives (hop : fld w 0 6 = 4) : Gives [w] (decOp04 w) := by
  unfold decOp04
  split
  case h_14 => exact .illegal
  case h_12 | h_13 => exact .word rfl rfl rfl ((holds_rrr (by decide)).2 ⟨hop, rfl, rfl, rfl, ‹_›, hw⟩)
  all_goals
    exact .unlessReserved fun hz => .word rfl rfl rfl ((holds_rr (by decide)).2 ⟨hop, rfl, rfl, field_eq_zero hz, ‹_›, hw⟩)

theorem decOp09_gives (hop : fld w 0 6 = 9) : Gives [w] (decOp09 w) := by
  unfold decOp09
  split
  case h_5 => exact .illegal
  all_goals
    exact .unlessReserved fun hz => .word rfl rfl rfl ((holds_shift (by decide)).2 ⟨hop, rfl, rfl, rfl, field_eq_zero hz, ‹_›, hw⟩)

theorem decOp10_gives (hop : fld w 0 6 = 16) : Gives [w] (decOp10 w) := by
  unfold decOp10
  split
  case h_13 => exact .illegal
  case h_9 | h_10 | h_11 =>
    exact .unlessReserved fun hz => .word rfl rfl rfl ((holds_rr (by decide)).2 ⟨hop, rfl, rfl, field_eq_zero hz, ‹_›, hw⟩)
  all_goals exact .word rfl rfl rfl ((holds_rrr (by decide)).2 ⟨hop, rfl, rfl, rfl, ‹_›, hw⟩)

theorem decOp11_gives (hop : fld w 0 6 = 17) : Gives [w] (decOp11 w) := by
  unfold decOp11
  split
  case h_6 => exact .illegal
  case h_5 => exact .unlessReserved fun hz => .word rfl rfl rfl ((holds_rr (by decide)).2 ⟨hop, rfl, rfl, field_eq_zero hz, ‹_›, hw⟩)
  all_goals exact .word rfl rfl rfl ((holds_rrr (by decide)).2 ⟨hop, rfl, rfl, rfl, ‹_›, hw⟩)

theorem decOp12_gives (hop : fld w 0 6 = 18) : Gives [w] (decOp12 w) := by
  unfold decOp12
  split
  case h_13 => exact .illegal
  case h_9 =>
    exact .unlessReserved fun hz => .orReserved fun rc hrc => .word rfl rfl rfl
      (holds_ftoe5.2 ⟨hop, rfl, rfl, roundSel_ofCode_eq_some.1 hrc, fld_eq_bit _ _, field_eq_zero hz, ‹_›, hw⟩)
  all_goals
    exact .unlessReserved fun hz => .orReserved fun rc hrc => .word rfl rfl rfl
      ((holds_rrc (by decide)).2 ⟨hop, rfl, rfl, roundSel_ofCode_eq_some.1 hrc, field_eq_zero hz, ‹_›, hw⟩)

theorem decOp28_gives (hop : fld w 0 6 = 40) : Gives [w] (decOp28 w) := by
  unfold decOp28
  split
  case h_11 => exact .illegal
  all_goals
    exact .word rfl rfl rfl
      ((holds_atomic (by decide)).2 ⟨hop, rfl, rfl, rfl, ‹_›, fld_eq_bit _ _, fld_eq_bit _ _, fld_eq_waitSel _ _, hw⟩)

theorem decOp29_gives (hop : fld w 0 6 = 41) : Gives [w] (decOp29 w) := by
  unfold decOp29
  split
  case h_11 => exact .illegal
  all_goals
    refine .unlessReserved fun hz => ?_
    obtain ⟨hlow, hhigh⟩ := two_fields_eq_zero hz
    exact .word rfl rfl rfl
      ((holds_posted (by decide)).2 ⟨hop, hlow, rfl, rfl, ‹_›, hhigh, fld_eq_bit _ _, fld_eq_waitSel _ _, hw⟩)

theorem decOp2A_gives (hop : fld w 0 6 = 42) : Gives [w] (decOp2A 0 w) := by
  unfold decOp2A
  rw [windowG_zero, windowG_zero]
  split
  · exact .word rfl rfl rfl
      ((holds_atomic (by decide)).2 ⟨hop, rfl, rfl, rfl, ‹_›, fld_eq_bit _ _, fld_eq_bit _ _, fld_eq_waitSel _ _, hw⟩)
  · exact .unlessIllegal fun heven => .word heven rfl rfl
      ((holds_atomic (by decide)).2 ⟨hop, rfl, rfl, rfl, ‹_›, fld_eq_bit _ _, fld_eq_bit _ _, fld_eq_waitSel _ _, hw⟩)
  · refine .unlessReserved fun hz => ?_
    obtain ⟨hlow, hhigh⟩ := two_fields_eq_zero hz
    exact .word rfl rfl rfl
      (holds_stn.2 ⟨hop, fld_eq_bit _ _, hlow, rfl, rfl, ‹_›, hhigh, fld_eq_bit _ _, fld_eq_waitSel _ _, hw⟩)
  · exact .illegal

theorem decOp2C_gives (hop : fld w 0 6 = 44) : Gives [w] (decOp2C w) :=
  .unlessReserved fun hz => .word rfl rfl rfl (holds_wait.2 ⟨hop, rfl, rfl, rfl, rfl, rfl, field_eq_zero hz, hw⟩)

theorem decOp2D_gives (hop : fld w 0 6 = 45) : Gives [w] (decOp2D w) := by
  unfold decOp2D
  split
  · exact .unlessReserved fun hz => .orReserved fun scope hscope => .word rfl rfl rfl
      (holds_fence.2 ⟨hop, scope_ofCode_eq_some.1 hscope, field_eq_zero hz, ‹_›, hw⟩)
  · exact .unlessReserved fun hz => .word rfl rfl rfl ((holds_rr (by decide)).2 ⟨hop, rfl, rfl, field_eq_zero hz, ‹_›, hw⟩)
  · exact .illegal

theorem decOp2E_gives (hop : fld w 0 6 = 46) : Gives [w] (decOp2E w) := by
  unfold decOp2E
  split
  case h_1 | h_3 =>
    exact .unlessReserved fun hobj => .unlessReserved fun hz => .word hobj rfl rfl
      ((holds_barrierA (by decide)).2 ⟨hop, field_eq_zero hz, rfl, rfl, fld_eq_level _ _, ‹_›, hw⟩)
  case h_2 | h_4 =>
    exact .unlessReserved fun hobj => .unlessReserved fun hz => .word hobj rfl rfl
      ((holds_barrierD (by decide)).2 ⟨hop, rfl, field_eq_zero hz, rfl, fld_eq_level _ _, ‹_›, hw⟩)
  case h_5 => exact .illegal

theorem decOp30_gives (hop : fld w 0 6 = 48) : Gives [w] (decOp30 w) := by
  unfold decOp30
  split
  case h_17 => exact .illegal
  case h_9 | h_10 | h_11 | h_12 | h_13 | h_14 | h_15 =>
    exact .unlessReserved fun hz => .word rfl rfl rfl ((holds_vv (by decide)).2 ⟨hop, rfl, rfl, field_eq_zero hz, rfl, ‹_›, hw⟩)
  all_goals exact .word rfl rfl rfl ((holds_vvv (by decide)).2 ⟨hop, rfl, rfl, rfl, rfl, ‹_›, hw⟩)

theorem decOp31_gives (hop : fld w 0 6 = 49) : Gives [w] (decOp31 w) := by
  unfold decOp31
  split
  case h_17 => exact .illegal
  all_goals exact .word rfl rfl rfl ((holds_vvv (by decide)).2 ⟨hop, rfl, rfl, rfl, rfl, ‹_›, hw⟩)

theorem decOp32_gives (hop : fld w 0 6 = 50) : Gives [w] (decOp32 w) := by
  unfold decOp32
  split
  case h_12 => exact .illegal
  case h_7 => exact .word rfl rfl rfl ((holds_vvv (by decide)).2 ⟨hop, rfl, rfl, rfl, rfl, ‹_›, hw⟩)
  case h_8 | h_9 | h_10 =>
    refine .unlessReserved fun hz => ?_
    obtain ⟨hlow, hmid, hhigh⟩ := three_fields_eq_zero hz
    exact .word rfl rfl rfl ((holds_mmm (by decide)).2 ⟨hop, rfl, hlow, rfl, hmid, rfl, hhigh, ‹_›, hw⟩)
  case h_11 =>
    refine .unlessReserved fun hz => ?_
    obtain ⟨hlow, hhigh⟩ := two_fields_eq_zero hz
    exact .word rfl rfl rfl (holds_mnot.2 ⟨hop, rfl, hlow, rfl, hhigh, ‹_›, hw⟩)
  all_goals
    exact .unlessReserved fun hz => .word rfl rfl rfl ((holds_mvv (by decide)).2 ⟨hop, rfl, field_eq_zero hz, rfl, rfl, rfl, ‹_›, hw⟩)

theorem decOp33_gives (hop : fld w 0 6 = 51) : Gives [w] (decOp33 w) := by
  unfold decOp33
  split
  case h_15 => exact .illegal
  case h_1 | h_2 | h_3 | h_4 | h_7 | h_11 =>
    exact .word rfl rfl rfl ((holds_vvv (by decide)).2 ⟨hop, rfl, rfl, rfl, rfl, ‹_›, hw⟩)
  all_goals
    exact .unlessReserved fun hz => .word rfl rfl rfl ((holds_vv (by decide)).2 ⟨hop, rfl, rfl, field_eq_zero hz, rfl, ‹_›, hw⟩)

theorem decOp34_gives (hop : fld w 0 6 = 52) : Gives [w] (decOp34 w) := by
  unfold decOp34
  split
  case h_9 => exact .illegal
  case h_8 =>
    exact .unlessReserved fun hz => .word rfl rfl rfl ((holds_mvv (by decide)).2 ⟨hop, rfl, field_eq_zero hz, rfl, rfl, rfl, ‹_›, hw⟩)
  all_goals
    exact .unlessReserved fun hz => .word rfl rfl rfl ((holds_vv (by decide)).2 ⟨hop, rfl, rfl, field_eq_zero hz, rfl, ‹_›, hw⟩)

theorem decOp35_gives (hop : fld w 0 6 = 53) : Gives [w] (decOp35 w) := by
  unfold decOp35
  split
  case h_8 => exact .illegal
  all_goals refine .unlessReserved fun hz => ?_
  case h_7 =>
    obtain ⟨hlow, hmid, hhigh⟩ := three_fields_eq_zero hz
    exact .word rfl rfl rfl (holds_gtom.2 ⟨hop, rfl, hlow, rfl, hmid, ‹_›, hhigh, hw⟩)
  all_goals obtain ⟨hlow, hhigh⟩ := two_fields_eq_zero hz
  case h_1 => exact .word rfl rfl rfl (holds_vbcast.2 ⟨hop, rfl, hlow, rfl, hhigh, ‹_›, rfl, hw⟩)
  case h_2 => exact .word rfl rfl rfl (holds_vextr.2 ⟨hop, rfl, rfl, hlow, rfl, ‹_›, hhigh, hw⟩)
  case h_3 => exact .word rfl rfl rfl (holds_vinsr.2 ⟨hop, rfl, hlow, rfl, rfl, ‹_›, hhigh, hw⟩)
  case h_4 | h_5 => exact .word rfl rfl rfl ((holds_gather (by decide)).2 ⟨hop, rfl, hlow, rfl, rfl, hhigh, ‹_›, rfl, hw⟩)
  case h_6 => exact .word rfl rfl rfl (holds_mtog.2 ⟨hop, rfl, rfl, hlow, ‹_›, hhigh, hw⟩)

theorem decOp38_gives (hop : fld w 0 6 = 56) : Gives [w] (decOp38 0 w) := by
  unfold decOp38
  rw [windowG_zero]
  split_ifs with hcallat hspawn
  · exact .unlessIllegal fun hz => .unlessIllegal fun hgroup => .word hgroup rfl rfl
      (holds_callat.2 ⟨hop, rfl, rfl, rfl, field_eq_zero hz, rfl, hcallat, hw⟩)
  · exact .unlessIllegal fun hgroup => .unlessReserved fun hz => .word hgroup rfl rfl ((holds_spawn (by decide)).2
      ⟨hop, rfl, rfl, rfl, hspawn, fld_eq_bit _ _, fld_eq_bit _ _, rfl, fld_eq_place _ _, field_eq_zero hz, hw⟩)
  · have hspawnt : fld w 24 1 = 1 := by
      have := fld_lt w 24 1
      omega
    exact .unlessIllegal fun hgroup => .unlessReserved fun hz => .word hgroup rfl rfl ((holds_spawn (by decide)).2
      ⟨hop, rfl, rfl, rfl, hspawnt, fld_eq_bit _ _, fld_eq_bit _ _, rfl, fld_eq_place _ _, field_eq_zero hz, hw⟩)

theorem decOp39_gives (hop : fld w 0 6 = 57) : Gives [w] (decOp39 0 w) := by
  unfold decOp39
  rw [windowG_zero]
  split
  case h_13 => exact .illegal
  case h_2 =>
    exact .unlessIllegal fun hgroup => .unlessReserved fun hz => .word hgroup rfl rfl
      ((holds_rr (by decide)).2 ⟨hop, rfl, rfl, field_eq_zero hz, ‹_›, hw⟩)
  case h_3 | h_4 => exact .word rfl rfl rfl ((holds_rrr (by decide)).2 ⟨hop, rfl, rfl, rfl, ‹_›, hw⟩)
  case h_7 => exact .unlessReserved fun hz => .word rfl rfl rfl ((holds_d (by decide)).2 ⟨hop, rfl, field_eq_zero hz, ‹_›, hw⟩)
  case h_8 | h_12 =>
    refine .unlessReserved fun hz => ?_
    obtain ⟨hlow, hhigh⟩ := two_fields_eq_zero hz
    exact .word rfl rfl rfl ((holds_a (by decide)).2 ⟨hop, hlow, rfl, hhigh, ‹_›, hw⟩)
  case h_10 | h_11 => exact .unlessReserved fun hz => .word rfl rfl rfl ((holds_none (by decide)).2 ⟨hop, field_eq_zero hz, ‹_›, hw⟩)
  all_goals
    exact .unlessReserved fun hz => .word rfl rfl rfl ((holds_rr (by decide)).2 ⟨hop, rfl, rfl, field_eq_zero hz, ‹_›, hw⟩)

theorem decOp3A_gives (hop : fld w 0 6 = 58) : Gives [w] (decOp3A 0 w) := by
  unfold decOp3A
  rw [windowG_zero]
  split
  · refine .unlessIllegal fun hgroup => .unlessReserved fun h8 => .unlessReserved fun hfirst => ?_
    have hn : fld w 24 4 = (Fin.ofNat 9 (fld w 24 4)).val := (Nat.mod_eq_of_lt (Nat.lt_succ_of_le (of_decide_eq_true h8))).symm
    refine .word ?_ rfl rfl (holds_send.2 ⟨hop, rfl, rfl, rfl, hn, ‹_›, hw⟩)
    exact Bool.and_eq_true_iff.2 ⟨hn ▸ hgroup, hn ▸ hfirst⟩
  · exact .unlessReserved fun hz => .word rfl rfl rfl (holds_hret.2 ⟨hop, field_eq_zero hz, ‹_›, hw⟩)
  · exact .illegal

theorem decOp3B_gives (hop : fld w 0 6 = 59) : Gives [w] (decOp3B w) := by
  unfold decOp3B
  split
  · exact .word rfl rfl rfl ((holds_rrr (by decide)).2 ⟨hop, rfl, rfl, rfl, ‹_›, hw⟩)
  · refine .unlessReserved fun hz => ?_
    obtain ⟨hlow, hhigh⟩ := two_fields_eq_zero hz
    exact .word rfl rfl rfl ((holds_a (by decide)).2 ⟨hop, hlow, rfl, hhigh, ‹_›, hw⟩)
  · exact .illegal

theorem decOp3C_gives (hop : fld w 0 6 = 60) : Gives [w] (decOp3C w) := by
  unfold decOp3C
  split
  case h_10 => exact .illegal
  case h_2 | h_3 => exact .word rfl rfl rfl ((holds_rrr (by decide)).2 ⟨hop, rfl, rfl, rfl, ‹_›, hw⟩)
  case h_4 =>
    refine .unlessReserved fun hz => ?_
    obtain ⟨hlow, hhigh⟩ := two_fields_eq_zero hz
    exact .word rfl rfl rfl ((holds_a (by decide)).2 ⟨hop, hlow, rfl, hhigh, ‹_›, hw⟩)
  case h_5 => exact .unlessReserved fun hz => .word rfl rfl rfl ((holds_none (by decide)).2 ⟨hop, field_eq_zero hz, ‹_›, hw⟩)
  case h_6 | h_9 =>
    exact .unlessReserved fun hz => .word rfl rfl rfl ((holds_rr (by decide)).2 ⟨hop, rfl, rfl, field_eq_zero hz, ‹_›, hw⟩)
  all_goals
    exact .unlessReserved fun hz => .word rfl rfl rfl ((holds_ab (by decide)).2 ⟨hop, field_eq_zero hz, rfl, rfl, ‹_›, hw⟩)

theorem decOp3D_gives (hop : fld w 0 6 = 61) : Gives [w] (decOp3D w) := by
  have hbit {x : Nat} (h : ¬ fld w x 1 = 1) : fld w x 1 = 0 := by
    have := fld_lt w x 1
    omega
  unfold decOp3D
  split
  case h_9 => exact .illegal
  case h_1 | h_2 =>
    refine .unlessReserved fun hz => ?_
    obtain ⟨hlow, hhigh⟩ := two_fields_eq_zero hz
    exact .word rfl rfl rfl ((holds_acc (by decide)).2 ⟨hop, rfl, hlow, rfl, rfl, hhigh, ‹_›, hw⟩)
  case h_3 =>
    refine .unlessReserved fun hz => ?_
    obtain ⟨hlow, hhigh⟩ := two_fields_eq_zero hz
    exact .word rfl rfl rfl (holds_rmerge.2 ⟨hop, rfl, rfl, hlow, rfl, rfl, hhigh, ‹_›, hw⟩)
  case h_4 =>
    split_ifs with hall
    · exact .unlessReserved fun hz => .word rfl rfl rfl ((holds_all (by decide)).2 ⟨hop, hall, field_eq_zero hz, ‹_›, hw⟩)
    · exact .unlessReserved fun hz => .word rfl rfl rfl (holds_range.2 ⟨hop, hbit hall, field_eq_zero hz, rfl, rfl, ‹_›, hw⟩)
  case h_5 | h_6 => exact .word rfl rfl rfl ((holds_rrr (by decide)).2 ⟨hop, rfl, rfl, rfl, ‹_›, hw⟩)
  case h_7 => exact .unlessReserved fun hz => .word rfl rfl rfl ((holds_ab (by decide)).2 ⟨hop, field_eq_zero hz, rfl, rfl, ‹_›, hw⟩)
  case h_8 =>
    split_ifs with hall
    · exact .unlessReserved fun hz => .word rfl rfl rfl ((holds_all (by decide)).2 ⟨hop, hall, field_eq_zero hz, ‹_›, hw⟩)
    · refine .unlessReserved fun hz => ?_
      obtain ⟨hlow, hhigh⟩ := two_fields_eq_zero hz
      exact .word rfl rfl rfl (holds_die.2 ⟨hop, hbit hall, hlow, rfl, hhigh, ‹_›, hw⟩)

end

/-! Immediates: what a decoder gives with the P bits of the prefixes. -/

section
variable {w : Nat} {pf : List Nat} (hw : w / 2 ^ 32 = 0)
include hw

theorem decOp1F_gives (hpf : PrefixBits (maxPrefixes w) pf) (hop : fld w 0 6 = 31) :
    Gives (pf.map prefixWord ++ [w]) (decOp1F pf w) := by
  rw [maxPrefixes, hop] at hpf
  unfold decOp1F
  split
  case h_1 hsub =>
    rw [hsub] at hpf
    exact .imm (m := 1) (by decide) hpf id rfl rfl (fld_lt _ _ _) fun himm => holds_jalr.2 ⟨hop, rfl, rfl, himm, hsub, hw⟩
  case h_2 hsub =>
    rw [hsub] at hpf
    exact .unlessReserved fun hz => .imm (m := 1) (by decide) hpf id rfl rfl (fld_lt _ _ _) fun himm =>
      holds_loopnz.2 ⟨hop, rfl, field_eq_zero hz, himm, hsub, hw⟩
  case h_3 hsub =>
    rw [hsub] at hpf
    obtain rfl := prefixBits_zero hpf
    refine .unlessReserved fun hz => ?_
    obtain ⟨hlow, hhigh⟩ := two_fields_eq_zero hz
    exact .word rfl rfl rfl (holds_rep.2 ⟨hop, hlow, rfl, rfl, rfl, hhigh, hsub, hw⟩)
  case h_4 hsub =>
    rw [hsub] at hpf
    obtain rfl := prefixBits_zero hpf
    exact .unlessReserved fun hz => .word rfl rfl rfl (holds_repi.2 ⟨hop, rfl, rfl, rfl, field_eq_zero hz, hsub, hw⟩)
  case h_5 => exact .illegal

theorem decOp23_gives (hpf : PrefixBits 1 pf) (hop : fld w 0 6 = 35) : Gives (pf.map prefixWord ++ [w]) (decOp23 pf w) := by
  have hsplit : fld w 20 2 = fld w 20 1 + 2 * fld w 21 1 := fld_add w 20 1 1
  unfold decOp23
  split_ifs with hpref
  · exact .imm (by decide) hpf id rfl rfl (fld_lt _ _ _) fun himm => holds_pref.2
      ⟨hop, hpref.1, rfl, fld_eq_waitSel _ _, hpref.2, fld_eq_bit _ _, himm, hw⟩
  · refine .orReserved fun h hh => .imm (by decide) hpf (fun hwf => ?_) rfl rfl (fld_lt _ _ _) fun himm => (holds_mem (by decide)).2
      ⟨hop, rfl, rfl, fld_eq_waitSel _ _, hint_ofCode_eq_some.1 hh, himm, hw⟩
    have hcode := hint_ofCode_eq_some.1 hh
    have hlt := fld_lt w 20 1
    have hldd : ¬ gr w 6 = 0 ∨ h = .order := by
      by_cases hd : gr w 6 = 0
      · have h20 : fld w 20 1 ≠ 0 := fun h0 => hpref ⟨congrArg Fin.val hd, h0⟩
        cases h with
        | order => exact .inr rfl
        | plain | stream => simp only [Hint.code] at hcode; omega
      · exact .inl hd
    exact Bool.and_eq_true_iff.2 ⟨hwf, by simpa using hldd⟩

/-- Each opcode's decoder gives only what the prefixes and the word spell. -/
theorem decodeWord_gives (hpf : PrefixBits (maxPrefixes w) pf) : Gives (pf.map prefixWord ++ [w]) (decodeWord 0 pf w) := by
  have bits {n : Nat} (m : Nat) (hop : fld w 0 6 = n) (hm : prefixesOf n (fld w 28 4) = m) : PrefixBits m pf := by
    rw [← hm, ← hop]
    exact hpf
  have single {n : Nat} {r : Except DecErr Instr} (hop : fld w 0 6 = n) (hn : prefixesOf n (fld w 28 4) = 0) (hr : Gives [w] r) :
      Gives (pf.map prefixWord ++ [w]) r := by
    obtain rfl := prefixBits_zero (bits 0 hop hn)
    exact hr
  unfold decodeWord
  rw [opcode_eq_fld]
  split
  case h_5 hop | h_6 hop | h_7 hop | h_8 hop | h_10 hop | h_11 hop | h_12 hop | h_14 hop =>
    exact .imm (by decide) (bits 2 hop rfl) id rfl rfl (fld_lt _ _ _) fun himm => (holds_ri (by decide)).2 ⟨hop, rfl, rfl, himm, hw⟩
  case h_13 hop =>
    exact .unlessReserved fun hz => .imm (by decide) (bits 2 hop rfl) id rfl rfl (fld_lt _ _ _) fun himm =>
      holds_addpc.2 ⟨hop, rfl, field_eq_zero hz, himm, hw⟩
  case h_18 hop | h_19 hop | h_20 hop | h_21 hop | h_22 hop | h_23 hop =>
    exact .imm (by decide) (bits 1 hop rfl) id rfl rfl (fld_lt _ _ _) fun himm => (holds_ri (by decide)).2 ⟨hop, rfl, rfl, himm, hw⟩
  case h_24 hop =>
    exact .imm (by decide) (bits 1 hop rfl) id rfl rfl (fld_lt _ _ _) fun himm => holds_jal.2 ⟨hop, rfl, himm, hw⟩
  case h_26 hop | h_27 hop | h_28 hop | h_30 hop | h_31 hop | h_32 hop | h_33 hop =>
    exact .orReserved fun h hh => .imm (by decide) (bits 1 hop rfl) id rfl rfl (fld_lt _ _ _) fun himm =>
      (holds_mem (by decide)).2 ⟨hop, rfl, rfl, fld_eq_waitSel _ _, hint_ofCode_eq_some.1 hh, himm, hw⟩
  case h_46 hop | h_47 hop =>
    exact .unlessReserved fun hz => .orReserved fun h hh => .imm (by decide) (bits 1 hop rfl) id rfl rfl (fld_lt _ _ _) fun himm =>
      (holds_vmem (by decide)).2 ⟨hop, rfl, field_eq_zero hz, rfl, fld_eq_waitSel _ _, hint_ofCode_eq_some.1 hh, himm, hw⟩
  case h_25 hop => exact decOp1F_gives hw hpf hop
  case h_29 hop => exact decOp23_gives hw (bits 1 hop rfl) hop
  case h_1 hop => exact single hop rfl (decOp01_gives hw hop)
  case h_2 hop => exact single hop rfl (decOp02_gives hw hop)
  case h_3 hop => exact single hop rfl (decOp03_gives hw hop)
  case h_4 hop => exact single hop rfl (decOp04_gives hw hop)
  case h_9 hop => exact single hop rfl (decOp09_gives hw hop)
  case h_15 hop => exact single hop rfl (decOp10_gives hw hop)
  case h_16 hop => exact single hop rfl (decOp11_gives hw hop)
  case h_17 hop => exact single hop rfl (decOp12_gives hw hop)
  case h_34 hop => exact single hop rfl (decOp28_gives hw hop)
  case h_35 hop => exact single hop rfl (decOp29_gives hw hop)
  case h_36 hop => exact single hop rfl (decOp2A_gives hw hop)
  case h_37 hop => exact single hop rfl (decOp2C_gives hw hop)
  case h_38 hop => exact single hop rfl (decOp2D_gives hw hop)
  case h_39 hop => exact single hop rfl (decOp2E_gives hw hop)
  case h_40 hop => exact single hop rfl (decOp30_gives hw hop)
  case h_41 hop => exact single hop rfl (decOp31_gives hw hop)
  case h_42 hop => exact single hop rfl (decOp32_gives hw hop)
  case h_43 hop => exact single hop rfl (decOp33_gives hw hop)
  case h_44 hop => exact single hop rfl (decOp34_gives hw hop)
  case h_45 hop => exact single hop rfl (decOp35_gives hw hop)
  case h_48 hop => exact single hop rfl (decOp38_gives hw hop)
  case h_49 hop => exact single hop rfl (decOp39_gives hw hop)
  case h_50 hop => exact single hop rfl (decOp3A_gives hw hop)
  case h_51 hop => exact single hop rfl (decOp3B_gives hw hop)
  case h_52 hop => exact single hop rfl (decOp3C_gives hw hop)
  case h_53 hop => exact single hop rfl (decOp3D_gives hw hop)
  case h_54 => exact .illegal
end

/-! ### Completion words, destinations and quantised formats (R140, R158, R160) -/

section
variable {w w0 w1 : Nat}

theorem eq_zero_of_zeros (hw : w / 2 ^ 32 = 0) (h : zeros w [(0, 32)] = true) : 0 = w :=
  (eq_iff_holds [(0, 32)] ⟨by decide, trivial⟩ rfl).2 ⟨field_eq_zero h, hw⟩

theorem holds_noCompletion : Completion.none.word = w ↔ fld w 0 6 = 0 ∧ fld w 6 2 = 0 ∧ fld w 8 24 = 0 ∧ w / 2 ^ 32 = 0 :=
  eq_iff_holds [(0, 6), (0, 2), (0, 24)] ⟨by decide, by decide, by decide, trivial⟩ rfl
theorem holds_obj {g : GReg} : (Completion.obj g).word = w ↔ fld w 0 6 = g.val ∧ fld w 6 2 = 1 ∧ fld w 8 24 = 0 ∧ w / 2 ^ 32 = 0 :=
  eq_iff_holds [(g.val, 6), (1, 2), (0, 24)] ⟨g.isLt, by decide, by decide, trivial⟩
    (by simp only [Completion.word, digits_cons, digits_nil]; omega)
theorem holds_fut {g : GReg} : (Completion.fut g).word = w ↔ fld w 0 6 = g.val ∧ fld w 6 2 = 2 ∧ fld w 8 24 = 0 ∧ w / 2 ^ 32 = 0 :=
  eq_iff_holds [(g.val, 6), (2, 2), (0, 24)] ⟨g.isLt, by decide, by decide, trivial⟩
    (by simp only [Completion.word, digits_cons, digits_nil]; omega)

theorem completionOk_iff : completionOk w = true ↔ fld w 8 24 = 0 ∧ fld w 6 2 ≠ 3 ∧ (fld w 6 2 = 0 → fld w 0 6 = 0) := by
  simp [completionOk, and_assoc, or_iff_not_imp_left]

theorem word_completionOf (hw : w / 2 ^ 32 = 0) (h : completionOk w = true) : (completionOf w).word = w := by
  obtain ⟨htop, h3, hreg⟩ := completionOk_iff.1 h
  have hlt := fld_lt w 6 2
  unfold completionOf
  split_ifs with h1 h2
  · exact holds_obj.2 ⟨rfl, h1, htop, hw⟩
  · exact holds_fut.2 ⟨rfl, h2, htop, hw⟩
  · have h0 : fld w 6 2 = 0 := by omega
    exact holds_noCompletion.2 ⟨hreg h0, h0, htop, hw⟩

theorem completionOk_word (c : Completion) : completionOk c.word = true := by
  rw [completionOk_iff]
  cases c with
  | none => exact ⟨rfl, by decide, fun _ => rfl⟩
  | obj g =>
    obtain ⟨-, hkind, htop, -⟩ := holds_obj.1 (rfl : (Completion.obj g).word = _)
    exact ⟨htop, fun h => absurd (hkind.symm.trans h) (by decide), fun h => absurd (hkind.symm.trans h) (by decide)⟩
  | fut g =>
    obtain ⟨-, hkind, htop, -⟩ := holds_fut.1 (rfl : (Completion.fut g).word = _)
    exact ⟨htop, fun h => absurd (hkind.symm.trans h) (by decide), fun h => absurd (hkind.symm.trans h) (by decide)⟩

theorem completionOf_word (c : Completion) : completionOf c.word = c := by
  cases c with
  | none => rfl
  | obj g =>
    obtain ⟨hreg, hkind, -⟩ := holds_obj.1 (rfl : (Completion.obj g).word = _)
    rw [completionOf, if_pos hkind, gr_eq hreg]
  | fut g =>
    obtain ⟨hreg, hkind, -⟩ := holds_fut.1 (rfl : (Completion.fut g).word = _)
    rw [completionOf, if_neg fun h => absurd (hkind.symm.trans h) (by decide), if_pos hkind, gr_eq hreg]

theorem fld_eq_drainDst (h3 : fld w0 29 2 ≠ 3) (h0 : fld w0 29 2 ≠ 0 ∨ fld w1 12 6 = 0) :
    fld w0 29 2 = (drainDstOf w0 w1).code ∧ fld w1 12 6 = (drainDstOf w0 w1).reg := by
  have hlt := fld_lt w0 29 2
  unfold drainDstOf
  split_ifs with h1 h2
  · exact ⟨h1, rfl⟩
  · exact ⟨h2, rfl⟩
  · have hmem : fld w0 29 2 = 0 := by omega
    exact ⟨hmem, h0.resolve_left (not_not_intro hmem)⟩

/-- The checks of R158 on the first two words of MDRAIN and MQUANT. -/
theorem drainDst_check (h3 : decide (fld w0 29 2 ≠ 3) = true)
    (hz : (zeros w1 [(18, 14)] && (decide (fld w0 29 2 ≠ 0) || zeros w1 [(12, 6)])) = true) :
    fld w0 29 2 = (drainDstOf w0 w1).code ∧ fld w1 12 6 = (drainDstOf w0 w1).reg ∧ fld w1 18 14 = 0 := by
  simp only [Bool.and_eq_true, Bool.or_eq_true, decide_eq_true_eq, zeros_cons, zeros_nil, and_true] at h3 hz
  obtain ⟨hcode, hreg⟩ := fld_eq_drainDst h3 hz.2
  exact ⟨hcode, hreg, hz.1⟩

/-- The check of R148 on the first word of MALLOC. -/
theorem malloc_check
    (h : (zeros w0 [(15, 1), (26, 6)] && decide (fld w0 22 2 ≠ 3) && (decide (fld w0 22 2 = 2) || zeros w0 [(24, 2)])) = true) :
    (fld w0 15 1 = 0 ∧ fld w0 26 6 = 0) ∧ fld w0 22 2 = ((GroupKind.ofCode (fld w0 22 2)).getD .sum).code ∧
      ((GroupKind.ofCode (fld w0 22 2)).getD .sum = .ranked ∨ fld w0 24 2 = 0) := by
  simp only [Bool.and_eq_true, Bool.or_eq_true, decide_eq_true_eq, zeros_cons, zeros_nil, and_true] at h
  obtain ⟨⟨hz, h3⟩, hks⟩ := h
  have hlt := fld_lt w0 22 2
  refine ⟨hz, ?_, hks.imp_left fun h2 => by rw [h2]; rfl⟩
  interval_cases fld w0 22 2 <;> [rfl; rfl; rfl; exact absurd rfl h3]

theorem drainDstOf_eq {d : DrainDst} (hcode : fld w0 29 2 = d.code) (hreg : fld w1 12 6 = d.reg) : drainDstOf w0 w1 = d := by
  unfold drainDstOf
  rw [hcode]
  cases d with
  | mem => rfl
  | fut x => rw [DrainDst.code, if_pos rfl, gr_eq hreg]
  | hnd x => rw [DrainDst.code, if_neg (by decide), if_pos rfl, gr_eq hreg]

theorem holds_plainFormat {n : Nat} (hn : n < 4) :
    n = w ↔ fld w 0 2 = n ∧ fld w 2 4 = 0 ∧ fld w 6 18 = 0 ∧ fld w 24 8 = 0 ∧ w / 2 ^ 32 = 0 :=
  eq_iff_holds [(n, 2), (0, 4), (0, 18), (0, 8)] ⟨hn, by decide, by decide, by decide, trivial⟩ rfl
theorem holds_fb4 {s b d : GReg} : (QuantFmt.fb4 s b d).word = w ↔
    fld w 0 2 = 3 ∧ fld w 2 4 = 0 ∧ fld w 6 6 = s.val ∧ fld w 12 6 = b.val ∧ fld w 18 6 = d.val ∧ fld w 24 8 = 0 ∧ w / 2 ^ 32 = 0 :=
  eq_iff_holds [(3, 2), (0, 4), (s.val, 6), (b.val, 6), (d.val, 6), (0, 8)]
    ⟨by decide, by decide, s.isLt, b.isLt, d.isLt, by decide, trivial⟩ (by simp only [QuantFmt.word, digits_cons, digits_nil]; omega)

/-- The check of R160 on the third word of MQUANT. -/
theorem word_quantFmtOf (hw : w / 2 ^ 32 = 0) (hlow : fld w 2 4 = 0) (htop : fld w 24 8 = 0)
    (h3 : fld w 0 2 = 3 ∨ fld w 6 18 = 0) : (quantFmtOf w).word = w := by
  have hlt := fld_lt w 0 2
  unfold quantFmtOf
  split_ifs with h0 h1 h2
  · exact (holds_plainFormat (by decide)).2 ⟨h0, hlow, h3.resolve_left (by omega), htop, hw⟩
  · exact (holds_plainFormat (by decide)).2 ⟨h1, hlow, h3.resolve_left (by omega), htop, hw⟩
  · exact (holds_plainFormat (by decide)).2 ⟨h2, hlow, h3.resolve_left (by omega), htop, hw⟩
  · exact holds_fb4.2 ⟨by omega, hlow, rfl, rfl, rfl, htop, hw⟩

theorem quantFmt_word_ok (q : QuantFmt) :
    fld q.word 2 4 = 0 ∧ fld q.word 24 8 = 0 ∧ (fld q.word 0 2 = 3 ∨ fld q.word 6 18 = 0) := by
  cases q with
  | fb4 s b d =>
    obtain ⟨h3, hlow, -, -, -, htop, -⟩ := holds_fb4.1 (rfl : (QuantFmt.fb4 s b d).word = _)
    exact ⟨hlow, htop, .inl h3⟩
  | _ => exact ⟨rfl, rfl, .inr rfl⟩

theorem quantFmtOf_word (q : QuantFmt) : quantFmtOf q.word = q := by
  cases q with
  | fb4 s b d =>
    obtain ⟨h3, -, hs, hb, hd, -⟩ := holds_fb4.1 (rfl : (QuantFmt.fb4 s b d).word = _)
    rw [quantFmtOf, if_neg (by omega), if_neg (by omega), if_neg (by omega), gr_eq hs, gr_eq hb, gr_eq hd]
  | _ => rfl

end

/-! ### What the four words of a tile command decode to (O57) -/

section
variable {w0 w1 w2 w3 : Nat} {i : Instr}

/-- A tile command whose words are those that the encoder writes. -/
theorem Gives.tile {v0 v1 v2 v3 : Nat} {ok0 ok1 ok2 ok3 : Bool} (henc : encode i = [v0, v1, v2, v3]) (hev : i.isEvent = false)
    (hwf : ok0 = true → i.wf = true) (h0 : ok0 = true → ok1 = true → v0 = w0) (h1 : ok0 = true → ok1 = true → v1 = w1)
    (h2 : ok2 = true → v2 = w2) (h3 : ok3 = true → v3 = w3) :
    Gives [w0, w1, w2, w3] (tileCheck w0 w1 w2 w3 ok0 ok1 ok2 ok3 i) := by
  cases ok0 <;> [skip; cases ok1] <;> [skip; skip; cases ok2] <;> [skip; skip; skip; cases ok3] <;> rintro _ ⟨⟩
  exact ⟨hwf rfl, hev, by rw [henc, h0 rfl rfl, h1 rfl rfl, h2 rfl, h3 rfl]⟩

variable (hw0 : w0 / 2 ^ 32 = 0) (hw1 : w1 / 2 ^ 32 = 0) (hw2 : w2 / 2 ^ 32 = 0) (hw3 : w3 / 2 ^ 32 = 0) (hop : fld w0 0 6 = 62)
include hw0 hw1 hw2 hw3 hop

theorem decodeTile_gives : Gives [w0, w1, w2, w3] (decodeTile w0 w1 w2 w3) := by
  have zero2 := eq_zero_of_zeros hw2
  have done := word_completionOf hw3
  unfold decodeTile
  split
  case h_1 top =>
    exact .tile rfl rfl (fun _ => rfl)
      (fun hz _ => holds_mfmt.2 ⟨hop, top, rfl, rfl, fld_eq_roundMode _ _, fld_eq_bit _ _, field_eq_zero hz, hw0⟩)
      (fun _ hz => holds_regs4.2 ⟨rfl, rfl, rfl, rfl, field_eq_zero hz, hw1⟩) zero2 (eq_zero_of_zeros hw3)
  case h_2 top =>
    refine .tile rfl rfl (fun hz => ?_) (fun hz _ => ?_) (fun _ hz => holds_regs1.2 ⟨rfl, field_eq_zero hz, hw1⟩) zero2
      (eq_zero_of_zeros hw3)
    all_goals obtain ⟨⟨hgap, htop⟩, hcode, hks⟩ := malloc_check hz
    · exact Bool.or_eq_true_iff.2 (hks.imp decide_eq_true decide_eq_true)
    · exact holds_malloc.2 ⟨hop, top, rfl, hgap, rfl, rfl, hcode, rfl, htop, hw0⟩
  case h_3 top =>
    refine .tile rfl rfl (fun _ => rfl) (fun hz _ => ?_) (fun _ => eq_zero_of_zeros hw1) zero2 (eq_zero_of_zeros hw3)
    obtain ⟨hgap, htop⟩ := two_fields_eq_zero hz
    exact holds_mfree.2 ⟨hop, top, rfl, hgap, rfl, rfl, htop, hw0⟩
  case h_4 top =>
    exact .tile rfl rfl (fun _ => rfl)
      (fun hz _ => holds_mzero.2 ⟨hop, top, rfl, rfl, rfl, field_eq_zero hz, hw0⟩)
      (fun _ => eq_zero_of_zeros hw1) zero2 done
  case h_5 top =>
    exact .tile rfl rfl (fun _ => rfl)
      (fun hz _ => holds_mma.2 ⟨hop, top, rfl, rfl, rfl, rfl, field_eq_zero hz, hw0⟩)
      (fun _ hz => holds_regs4.2 ⟨rfl, rfl, rfl, rfl, field_eq_zero hz, hw1⟩) zero2 done
  case h_6 top =>
    exact .tile rfl rfl (fun _ => rfl)
      (fun hz _ => holds_gmma.2 ⟨hop, top, rfl, rfl, rfl, rfl, field_eq_zero hz, hw0⟩)
      (fun _ hz => holds_regs4.2 ⟨rfl, rfl, rfl, rfl, field_eq_zero hz, hw1⟩) zero2 done
  case h_7 top =>
    refine .tile rfl rfl (fun _ => rfl) (fun h3 hz => ?_) (fun h3 hz => ?_) zero2 done
    all_goals obtain ⟨hdst, hreg, htop⟩ := drainDst_check h3 hz
    · exact holds_mdrain.2 ⟨hop, top, rfl, rfl, rfl, hdst, fld_eq_bit _ _, hw0⟩
    · exact holds_regsDst.2 ⟨rfl, rfl, hreg, htop, hw1⟩
  case h_8 top =>
    refine .tile rfl rfl (fun _ => rfl) (fun h3 hz => ?_) (fun h3 hz => ?_) (fun hq => ?_) done
    · obtain ⟨h31, h3⟩ := Bool.and_eq_true_iff.1 h3
      obtain ⟨hdst, -, -⟩ := drainDst_check h3 hz
      exact holds_mquant.2 ⟨hop, top, rfl, rfl, rfl, hdst, field_eq_zero h31, hw0⟩
    · obtain ⟨-, hreg, htop⟩ := drainDst_check (Bool.and_eq_true_iff.1 h3).2 hz
      exact holds_regsDst.2 ⟨rfl, rfl, hreg, htop, hw1⟩
    · simp only [Bool.and_eq_true, Bool.or_eq_true, decide_eq_true_eq, zeros_cons, zeros_nil, and_true] at hq
      obtain ⟨⟨hlow, htop⟩, hregs⟩ := hq
      exact word_quantFmtOf hw2 hlow htop hregs
  case h_9 top =>
    exact .tile rfl rfl (fun _ => rfl) (fun hz _ => (holds_top (by decide)).2 ⟨hop, top, field_eq_zero hz, hw0⟩)
      (fun _ => eq_zero_of_zeros hw1) zero2 (eq_zero_of_zeros hw3)
  case h_10 top =>
    exact .tile rfl rfl (fun _ => rfl) (fun _ _ => holds_mrank.2 ⟨hop, top, rfl, rfl, rfl, rfl, hw0⟩)
      (fun _ hz => holds_mrankRegs.2 ⟨rfl, rfl, rfl, field_eq_zero hz, hw1⟩) zero2 done
  case h_11 top =>
    refine .tile rfl rfl (fun _ => rfl) (fun hz _ => holds_mthr.2 ⟨hop, top, rfl, rfl, field_eq_zero hz, hw0⟩)
      (fun _ hz => ?_) zero2 done
    obtain ⟨hgap, htop⟩ := two_fields_eq_zero hz
    exact holds_mthrRegs.2 ⟨rfl, hgap, rfl, htop, hw1⟩
  case h_12 top =>
    exact .tile rfl rfl (fun _ => rfl)
      (fun hz _ => holds_acct.2 ⟨hop, top, rfl, rfl, rfl, fld_eq_bit _ _, field_eq_zero hz, hw0⟩)
      (fun _ hz => holds_regs2.2 ⟨rfl, rfl, field_eq_zero hz, hw1⟩) zero2 done
  case h_13 top =>
    exact .tile rfl rfl (fun _ => rfl) (fun hz _ => (holds_top (by decide)).2 ⟨hop, top, field_eq_zero hz, hw0⟩)
      (fun _ hz => holds_regs1.2 ⟨rfl, field_eq_zero hz, hw1⟩) zero2 done
  case h_14 top | h_15 top =>
    exact .tile rfl rfl (fun _ => rfl) (fun hz _ => (holds_top (by decide)).2 ⟨hop, top, field_eq_zero hz, hw0⟩)
      (fun _ hz => holds_regs4.2 ⟨rfl, rfl, rfl, rfl, field_eq_zero hz, hw1⟩)
      (fun hz => holds_regs3.2 ⟨rfl, rfl, rfl, field_eq_zero hz, hw2⟩) done
  case h_16 top =>
    exact .tile rfl rfl (fun _ => rfl) (fun hz _ => (holds_top (by decide)).2 ⟨hop, top, field_eq_zero hz, hw0⟩)
      (fun _ hz => holds_regs4.2 ⟨rfl, rfl, rfl, rfl, field_eq_zero hz, hw1⟩) zero2 done
  case h_17 top =>
    exact .tile rfl rfl (fun _ => rfl) (fun hz _ => holds_tfill.2 ⟨hop, top, rfl, field_eq_zero hz, hw0⟩)
      (fun _ hz => holds_regs3.2 ⟨rfl, rfl, rfl, field_eq_zero hz, hw1⟩) zero2 done
  case h_18 => exact .illegal
end

theorem prefixBits_length {m : Nat} {pf : List Nat} (h : PrefixBits m pf) : pf.length ≤ 2 := by
  match pf, h with
  | [], _ => decide
  | [_], _ => simp
  | [_, _], _ => simp

/-- Settles O57: the words are those of prefixes and the word that they precede, or of a tile command, and each decoder gives
only what they spell. -/
theorem encodeOfDecode : Obligations.EncodeOfDecode := by
  unfold Obligations.EncodeOfDecode
  intro ws i n hws h
  have above : ∀ w ∈ ws, w / 2 ^ 32 = 0 := fun w hw => Nat.div_eq_of_lt (hws w hw)
  obtain ⟨pf, w, rest, rfl, rfl, hpf, hdec⟩ | ⟨w0, w1, w2, w3, rest, rfl, rfl, hop, hdec⟩ := decodeWords_eq_ok hws h
  · obtain ⟨hwf, hev, henc⟩ := decodeWord_gives (above w (by simp)) hpf i hdec
    have hlen := prefixBits_length hpf
    exact ⟨hwf, hev, by omega, by omega, by rw [henc]; simp [List.take_append]⟩
  · obtain ⟨hwf, hev, henc⟩ := decodeTile_gives (above w0 (by simp)) (above w1 (by simp)) (above w2 (by simp)) (above w3 (by simp))
      (opcode_eq_fld w0 ▸ hop) i hdec
    exact ⟨hwf, hev, by decide, by decide, henc⟩

/-! ### What an instruction's words decode to (O56) -/

/-- The words of an instruction decode to it, whatever words follow. -/
def Decodes (i : Instr) : Prop := ∀ rest, decodeWords (encode i ++ rest) = .ok (i, (encode i).length)

section
variable {i : Instr} {v : Nat} {P : Nat → Prop}

theorem Decodes.word (henc : encode i = [v]) (hv : ∀ {w}, v = w ↔ P w)
    (hdec : ∀ w, P w → decodeWord 0 [] w = .ok i) : Decodes i := fun rest => by
  rw [henc]
  exact decodeWords_of_decodeWord (pf := []) trivial (hdec v (hv.1 rfl)) rest

theorem Decodes.imm {imm : Imm} {m base : Nat} (hsize : 1 ≤ m ∧ (m = 2 → base = 14) ∧ 0 < base ∧ base ≤ 38)
    (henc : encode i = prefixWords base imm ++ [v]) (hwf : imm.wf base m = true)
    (hv : ∀ {w}, v = w ↔ P w)
    (hdec : ∀ w, P w → maxPrefixes w = m ∧ ∀ pf, immOf pf base (imm.field base) = imm → decodeWord 0 pf w = .ok i) :
    Decodes i := fun rest => by
  obtain ⟨h1, hm, h0, hb⟩ := hsize
  obtain ⟨hmax, hdec⟩ := hdec v (hv.1 rfl)
  have hpf := prefixBits_prefixes hwf h1
  rw [← hmax] at hpf
  rw [henc, prefixWords_eq, List.append_assoc, List.singleton_append, List.length_append, List.length_map, List.length_singleton]
  exact decodeWords_of_decodeWord hpf (hdec _ (immOf_prefixes hwf hm h0 hb)) rest

theorem Decodes.tile {v0 v1 v2 v3 : Nat} {P0 P1 P2 P3 : Nat → Prop} (henc : encode i = [v0, v1, v2, v3])
    (h0 : ∀ {w}, v0 = w ↔ P0 w) (h1 : ∀ {w}, v1 = w ↔ P1 w) (h2 : ∀ {w}, v2 = w ↔ P2 w) (h3 : ∀ {w}, v3 = w ↔ P3 w)
    (hdec : ∀ w0 w1 w2 w3, P0 w0 → P1 w1 → P2 w2 → P3 w3 → fld w0 0 6 = 62 ∧ decodeTile w0 w1 w2 w3 = .ok i) :
    Decodes i := fun rest => by
  obtain ⟨hop, hdec⟩ := hdec v0 v1 v2 v3 (h0.1 rfl) (h1.1 rfl) (h2.1 rfl) (h3.1 rfl)
  rw [henc]
  simp [decodeWords, decodeWordsIn, opcode_eq_fld v0, hop, hdec, Except.map]
end

section
variable {k w : Nat} {pf : List Nat}
theorem decodeWord_01 (h : fld w 0 6 = 1) : decodeWord k pf w = decOp01 w := by rw [decodeWord, opcode_eq_fld, h]; rfl
theorem decodeWord_02 (h : fld w 0 6 = 2) : decodeWord k pf w = decOp02 w := by rw [decodeWord, opcode_eq_fld, h]; rfl
theorem decodeWord_03 (h : fld w 0 6 = 3) : decodeWord k pf w = decOp03 w := by rw [decodeWord, opcode_eq_fld, h]; rfl
theorem decodeWord_04 (h : fld w 0 6 = 4) : decodeWord k pf w = decOp04 w := by rw [decodeWord, opcode_eq_fld, h]; rfl
theorem decodeWord_05 (h : fld w 0 6 = 5) : decodeWord k pf w = decOp05 pf w := by rw [decodeWord, opcode_eq_fld, h]; rfl
theorem decodeWord_06 (h : fld w 0 6 = 6) : decodeWord k pf w = decOp06 pf w := by rw [decodeWord, opcode_eq_fld, h]; rfl
theorem decodeWord_07 (h : fld w 0 6 = 7) : decodeWord k pf w = decOp07 pf w := by rw [decodeWord, opcode_eq_fld, h]; rfl
theorem decodeWord_08 (h : fld w 0 6 = 8) : decodeWord k pf w = decOp08 pf w := by rw [decodeWord, opcode_eq_fld, h]; rfl
theorem decodeWord_09 (h : fld w 0 6 = 9) : decodeWord k pf w = decOp09 w := by rw [decodeWord, opcode_eq_fld, h]; rfl
theorem decodeWord_0A (h : fld w 0 6 = 10) : decodeWord k pf w = decOp0A pf w := by rw [decodeWord, opcode_eq_fld, h]; rfl
theorem decodeWord_0B (h : fld w 0 6 = 11) : decodeWord k pf w = decOp0B pf w := by rw [decodeWord, opcode_eq_fld, h]; rfl
theorem decodeWord_0C (h : fld w 0 6 = 12) : decodeWord k pf w = decOp0C pf w := by rw [decodeWord, opcode_eq_fld, h]; rfl
theorem decodeWord_0D (h : fld w 0 6 = 13) : decodeWord k pf w = decOp0D pf w := by rw [decodeWord, opcode_eq_fld, h]; rfl
theorem decodeWord_0E (h : fld w 0 6 = 14) : decodeWord k pf w = decOp0E pf w := by rw [decodeWord, opcode_eq_fld, h]; rfl
theorem decodeWord_10 (h : fld w 0 6 = 16) : decodeWord k pf w = decOp10 w := by rw [decodeWord, opcode_eq_fld, h]; rfl
theorem decodeWord_11 (h : fld w 0 6 = 17) : decodeWord k pf w = decOp11 w := by rw [decodeWord, opcode_eq_fld, h]; rfl
theorem decodeWord_12 (h : fld w 0 6 = 18) : decodeWord k pf w = decOp12 w := by rw [decodeWord, opcode_eq_fld, h]; rfl
theorem decodeWord_18 (h : fld w 0 6 = 24) : decodeWord k pf w = decOp18 pf w := by rw [decodeWord, opcode_eq_fld, h]; rfl
theorem decodeWord_19 (h : fld w 0 6 = 25) : decodeWord k pf w = decOp19 pf w := by rw [decodeWord, opcode_eq_fld, h]; rfl
theorem decodeWord_1A (h : fld w 0 6 = 26) : decodeWord k pf w = decOp1A pf w := by rw [decodeWord, opcode_eq_fld, h]; rfl
theorem decodeWord_1B (h : fld w 0 6 = 27) : decodeWord k pf w = decOp1B pf w := by rw [decodeWord, opcode_eq_fld, h]; rfl
theorem decodeWord_1C (h : fld w 0 6 = 28) : decodeWord k pf w = decOp1C pf w := by rw [decodeWord, opcode_eq_fld, h]; rfl
theorem decodeWord_1D (h : fld w 0 6 = 29) : decodeWord k pf w = decOp1D pf w := by rw [decodeWord, opcode_eq_fld, h]; rfl
theorem decodeWord_1E (h : fld w 0 6 = 30) : decodeWord k pf w = decOp1E pf w := by rw [decodeWord, opcode_eq_fld, h]; rfl
theorem decodeWord_1F (h : fld w 0 6 = 31) : decodeWord k pf w = decOp1F pf w := by rw [decodeWord, opcode_eq_fld, h]; rfl
theorem decodeWord_20 (h : fld w 0 6 = 32) : decodeWord k pf w = decOp20 pf w := by rw [decodeWord, opcode_eq_fld, h]; rfl
theorem decodeWord_21 (h : fld w 0 6 = 33) : decodeWord k pf w = decOp21 pf w := by rw [decodeWord, opcode_eq_fld, h]; rfl
theorem decodeWord_22 (h : fld w 0 6 = 34) : decodeWord k pf w = decOp22 pf w := by rw [decodeWord, opcode_eq_fld, h]; rfl
theorem decodeWord_23 (h : fld w 0 6 = 35) : decodeWord k pf w = decOp23 pf w := by rw [decodeWord, opcode_eq_fld, h]; rfl
theorem decodeWord_24 (h : fld w 0 6 = 36) : decodeWord k pf w = decOp24 pf w := by rw [decodeWord, opcode_eq_fld, h]; rfl
theorem decodeWord_25 (h : fld w 0 6 = 37) : decodeWord k pf w = decOp25 pf w := by rw [decodeWord, opcode_eq_fld, h]; rfl
theorem decodeWord_26 (h : fld w 0 6 = 38) : decodeWord k pf w = decOp26 pf w := by rw [decodeWord, opcode_eq_fld, h]; rfl
theorem decodeWord_27 (h : fld w 0 6 = 39) : decodeWord k pf w = decOp27 pf w := by rw [decodeWord, opcode_eq_fld, h]; rfl
theorem decodeWord_28 (h : fld w 0 6 = 40) : decodeWord k pf w = decOp28 w := by rw [decodeWord, opcode_eq_fld, h]; rfl
theorem decodeWord_29 (h : fld w 0 6 = 41) : decodeWord k pf w = decOp29 w := by rw [decodeWord, opcode_eq_fld, h]; rfl
theorem decodeWord_2A (h : fld w 0 6 = 42) : decodeWord k pf w = decOp2A k w := by rw [decodeWord, opcode_eq_fld, h]; rfl
theorem decodeWord_2C (h : fld w 0 6 = 44) : decodeWord k pf w = decOp2C w := by rw [decodeWord, opcode_eq_fld, h]; rfl
theorem decodeWord_2D (h : fld w 0 6 = 45) : decodeWord k pf w = decOp2D w := by rw [decodeWord, opcode_eq_fld, h]; rfl
theorem decodeWord_2E (h : fld w 0 6 = 46) : decodeWord k pf w = decOp2E w := by rw [decodeWord, opcode_eq_fld, h]; rfl
theorem decodeWord_30 (h : fld w 0 6 = 48) : decodeWord k pf w = decOp30 w := by rw [decodeWord, opcode_eq_fld, h]; rfl
theorem decodeWord_31 (h : fld w 0 6 = 49) : decodeWord k pf w = decOp31 w := by rw [decodeWord, opcode_eq_fld, h]; rfl
theorem decodeWord_32 (h : fld w 0 6 = 50) : decodeWord k pf w = decOp32 w := by rw [decodeWord, opcode_eq_fld, h]; rfl
theorem decodeWord_33 (h : fld w 0 6 = 51) : decodeWord k pf w = decOp33 w := by rw [decodeWord, opcode_eq_fld, h]; rfl
theorem decodeWord_34 (h : fld w 0 6 = 52) : decodeWord k pf w = decOp34 w := by rw [decodeWord, opcode_eq_fld, h]; rfl
theorem decodeWord_35 (h : fld w 0 6 = 53) : decodeWord k pf w = decOp35 w := by rw [decodeWord, opcode_eq_fld, h]; rfl
theorem decodeWord_36 (h : fld w 0 6 = 54) : decodeWord k pf w = decOp36 pf w := by rw [decodeWord, opcode_eq_fld, h]; rfl
theorem decodeWord_37 (h : fld w 0 6 = 55) : decodeWord k pf w = decOp37 pf w := by rw [decodeWord, opcode_eq_fld, h]; rfl
theorem decodeWord_38 (h : fld w 0 6 = 56) : decodeWord k pf w = decOp38 k w := by rw [decodeWord, opcode_eq_fld, h]; rfl
theorem decodeWord_39 (h : fld w 0 6 = 57) : decodeWord k pf w = decOp39 k w := by rw [decodeWord, opcode_eq_fld, h]; rfl
theorem decodeWord_3A (h : fld w 0 6 = 58) : decodeWord k pf w = decOp3A k w := by rw [decodeWord, opcode_eq_fld, h]; rfl
theorem decodeWord_3B (h : fld w 0 6 = 59) : decodeWord k pf w = decOp3B w := by rw [decodeWord, opcode_eq_fld, h]; rfl
theorem decodeWord_3C (h : fld w 0 6 = 60) : decodeWord k pf w = decOp3C w := by rw [decodeWord, opcode_eq_fld, h]; rfl
theorem decodeWord_3D (h : fld w 0 6 = 61) : decodeWord k pf w = decOp3D w := by rw [decodeWord, opcode_eq_fld, h]; rfl
end
theorem unlessReserved_true (w : Nat) (r : Except DecErr Instr) : unlessReserved w true r = r := rfl
theorem unlessIllegal_true (w : Nat) (r : Except DecErr Instr) : unlessIllegal w true r = r := rfl
theorem orReserved_some {α : Type} (w : Nat) (a : α) (k : α → Except DecErr Instr) : orReserved w (some a) k = k a := rfl
theorem zeros_one {w lo n : Nat} (h : fld w lo n = 0) : zeros w [(lo, n)] = true := by simp [h]
theorem zeros_two {w lo n lo' n' : Nat} (h : fld w lo n = 0) (h' : fld w lo' n' = 0) : zeros w [(lo, n), (lo', n')] = true := by
  simp [h, h']
theorem zeros_three {w lo n lo' n' lo'' n'' : Nat} (h : fld w lo n = 0) (h' : fld w lo' n' = 0) (h'' : fld w lo'' n'' = 0) :
    zeros w [(lo, n), (lo', n'), (lo'', n'')] = true := by
  simp [h, h', h'']
theorem maxPrefixes_of {w n m : Nat} (hop : fld w 0 6 = n) (h : prefixesOf n (fld w 28 4) = m) : maxPrefixes w = m := by
  rw [maxPrefixes, hop, h]

/-- A load to g0 without .ACQ is a prefetch, whose words LDD may not use (R123). -/
theorem decodes_ldd {d a : GReg} {off : Imm} {h : Hint} {s : WaitSel} (hwf : (Instr.ldd d a off h s).wf = true) :
    Decodes (.ldd d a off h s) := by
  obtain ⟨hoff, hldd⟩ := Bool.and_eq_true_iff.1 hwf
  refine .imm (by decide) rfl hoff (holds_mem (by decide)) fun w ⟨hop, hd, ha, hs, hh, himm, _⟩ =>
    ⟨maxPrefixes_of hop rfl, fun pf hpf => ?_⟩
  have hnot : ¬ (fld w 6 6 = 0 ∧ fld w 20 1 = 0) := by
    rintro ⟨hd0, h20⟩
    have hsplit : fld w 20 2 = fld w 20 1 + 2 * fld w 21 1 := fld_add w 20 1 1
    rw [Bool.or_eq_true, decide_eq_true_iff, decide_eq_true_iff, ← hd, hd0] at hldd
    obtain rfl := hldd.resolve_left (not_not_intro rfl)
    simp only [Hint.code] at hh
    omega
  simp only [hop, decodeWord_23, decOp23, hnot, if_false, gr_eq hd, gr_eq ha, hs, waitSel_ofCode_code, hint_ofCode_eq_some.2 hh,
    orReserved_some, himm, hpf]

theorem decodes_pref {a : GReg} {off : Imm} {stream : Bool} {s : WaitSel} (hwf : (Instr.pref a off stream s).wf = true) :
    Decodes (.pref a off stream s) :=
  .imm (by decide) rfl hwf holds_pref fun w ⟨hop, hd, ha, hs, hacq, hstream, himm, _⟩ => ⟨maxPrefixes_of hop rfl, fun pf hpf => by
    simp only [hop, decodeWord_23, decOp23, hd, hacq, and_self, if_true, gr_eq ha, hs, waitSel_ofCode_code, beq_one_eq hstream,
      himm, hpf]⟩

/-- The top bit, which tells CALLAT from SPAWN and SPAWNT, is clear in both. -/
theorem not_callat {w : Nat} (h : fld w 31 1 = 0) : ¬ fld w 29 3 = 4 := by
  have hsplit : fld w 29 3 = fld w 29 2 + 4 * fld w 31 1 := fld_add w 29 2 1
  have hlt := fld_lt w 29 2
  omega

theorem decodes_spawn {d a b : GReg} {plc : Place} {pri : Fin 4} {twin rst : Bool}
    (hwf : (Instr.spawn d a b plc pri twin rst).wf = true) : Decodes (.spawn d a b plc pri twin rst) :=
  .word rfl (holds_spawn (by decide)) fun w ⟨hop, hd, ha, hb, hsub, hrst, htwin, hpri, hplc, hz, _⟩ => by
    simp only [hop, Nat.reduceMod, Nat.reduceDiv, decodeWord_38, decOp38, not_callat hz, if_false, hsub, if_true, zeros_one hz,
      windowG_zero, gr_eq hd, gr_eq ha, gr_eq hb, show groupOk b 4 = true from hwf, unlessIllegal_true, unlessReserved_true, hplc,
      place_ofCode_code, ofNat_eq 2 hpri rfl, beq_one_eq htwin, beq_one_eq hrst]

theorem decodes_spawnt {d a b : GReg} {plc : Place} {pri : Fin 4} {twin rst : Bool}
    (hwf : (Instr.spawnt d a b plc pri twin rst).wf = true) : Decodes (.spawnt d a b plc pri twin rst) :=
  .word rfl (holds_spawn (by decide)) fun w ⟨hop, hd, ha, hb, hsub, hrst, htwin, hpri, hplc, hz, _⟩ => by
    simp only [hop, Nat.reduceMod, Nat.reduceDiv, decodeWord_38, decOp38, not_callat hz, if_false, hsub, one_ne_zero, zeros_one hz,
      windowG_zero, gr_eq hd, gr_eq ha, gr_eq hb, show groupOk b 8 = true from hwf, unlessIllegal_true, unlessReserved_true, hplc,
      place_ofCode_code, ofNat_eq 2 hpri rfl, beq_one_eq htwin, beq_one_eq hrst]

theorem decodes_callat {d a b : GReg} {pri : Fin 4} (hwf : (Instr.callat d a b pri).wf = true) : Decodes (.callat d a b pri) :=
  .word rfl holds_callat fun w ⟨hop, hd, ha, hb, hz, hpri, hsub, _⟩ => by
    simp only [hop, decodeWord_38, decOp38, hsub, if_true, zeros_one hz, windowG_zero, gr_eq hd, gr_eq ha, gr_eq hb,
      show groupOk b 5 = true from hwf, unlessIllegal_true, ofNat_eq 2 hpri rfl]

theorem decodes_send {d a b : GReg} {n : Fin 9} (hwf : (Instr.send d a b n).wf = true) : Decodes (.send d a b n) := by
  obtain ⟨hgroup, hfirst⟩ := Bool.and_eq_true_iff.1 hwf
  refine .word rfl holds_send fun w ⟨hop, hd, ha, hb, hn, hsub, _⟩ => ?_
  have h8 : decide (n.val ≤ 8) = true := decide_eq_true (Nat.le_of_lt_succ n.isLt)
  have hn9 : Fin.ofNat 9 n.val = n := Fin.ext (Nat.mod_eq_of_lt n.isLt)
  simp only [hop, decodeWord_3A, decOp3A, hsub, hn, hb, hgroup, hfirst, h8, hn9, windowG_zero, gr_eq hd, gr_eq ha, gr_eq hb,
    unlessIllegal_true, unlessReserved_true]

theorem holds_zero {w : Nat} : 0 = w ↔ fld w 0 32 = 0 ∧ w / 2 ^ 32 = 0 := eq_iff_holds [(0, 32)] ⟨by decide, trivial⟩ rfl
theorem holds_completion {c : Completion} {w : Nat} : c.word = w ↔ completionOk w = true ∧ completionOf w = c ∧ w / 2 ^ 32 = 0 := by
  constructor
  · rintro rfl
    exact ⟨completionOk_word c, completionOf_word c, Nat.div_eq_of_lt ((completion_word_lt c).trans (by decide))⟩
  · rintro ⟨hok, rfl, hw⟩
    exact word_completionOf hw hok
theorem holds_quantFmt {q : QuantFmt} {w : Nat} :
    q.word = w ↔ (zeros w [(2, 4), (24, 8)] && (decide (fld w 0 2 = 3) || zeros w [(6, 18)])) = true ∧ quantFmtOf w = q ∧
      w / 2 ^ 32 = 0 := by
  simp only [Bool.and_eq_true, Bool.or_eq_true, decide_eq_true_eq, zeros_cons, zeros_nil, and_true]
  constructor
  · rintro rfl
    obtain ⟨hlow, htop, hregs⟩ := quantFmt_word_ok q
    exact ⟨⟨⟨hlow, htop⟩, hregs⟩, quantFmtOf_word q, Nat.div_eq_of_lt ((quantFmt_word_lt q).trans (by decide))⟩
  · rintro ⟨⟨⟨hlow, htop⟩, hregs⟩, rfl, hw⟩
    exact word_quantFmtOf hw hlow htop hregs

theorem tileCheck_ok (w0 w1 w2 w3 : Nat) (i : Instr) : tileCheck w0 w1 w2 w3 true true true true i = .ok i := rfl

theorem decodes_malloc {d : GReg} {t g0 ng : Fin 8} {kind : GroupKind} {ks : Fin 4}
    (hwf : (Instr.malloc d t g0 ng kind ks).wf = true) : Decodes (.malloc d t g0 ng kind ks) := by
  refine .tile rfl holds_malloc holds_regs1 holds_zero holds_zero fun w0 _ _ _ ⟨hop, htop, ht, hz, hg0, hng, hkind, hks, hz26, _⟩
    ⟨hd, hz1, _⟩ ⟨hz2, _⟩ ⟨hz3, _⟩ => ⟨hop, ?_⟩
  have h3 : fld w0 22 2 ≠ 3 := by rw [hkind]; cases kind <;> decide
  have hranked : (decide (fld w0 22 2 = 2) || zeros w0 [(24, 2)]) = true := by
    rw [hkind]
    rcases Bool.or_eq_true_iff.1 hwf with hk | hk
    · rw [of_decide_eq_true hk]
      rfl
    · rw [zeros_one (hks.trans (of_decide_eq_true hk)), Bool.or_true]
  simp only [decodeTile, htop, zeros_two hz hz26, decide_eq_true h3, hranked, Bool.and_self, groupKind_ofCode_eq_some.2 hkind,
    Option.getD_some, ofNat_eq 3 ht rfl, ofNat_eq 3 hg0 rfl, ofNat_eq 3 hng rfl, ofNat_eq 2 hks rfl, gr_eq hd, zeros_one hz1,
    zeros_one hz2, zeros_one hz3, tileCheck_ok]

theorem drainDst_ok {w0 w1 : Nat} {dst : DrainDst} (hcode : fld w0 29 2 = dst.code) (hreg : fld w1 12 6 = dst.reg)
    (hz : fld w1 18 14 = 0) : decide (fld w0 29 2 ≠ 3) = true ∧
      (zeros w1 [(18, 14)] && (decide (fld w0 29 2 ≠ 0) || zeros w1 [(12, 6)])) = true := by
  rw [zeros_one hz, hcode]
  cases dst with
  | mem => exact ⟨rfl, by rw [zeros_one hreg]; rfl⟩
  | fut x | hnd x => exact ⟨rfl, rfl⟩

theorem decodes_mdrain {t : Fin 8} {row0 nr : Fin 128} {df : Bool} {dst : DrainDst} {gD gSD : GReg} {cw : Completion} :
    Decodes (.mdrain t row0 nr df dst gD gSD cw) :=
  .tile rfl holds_mdrain holds_regsDst holds_zero holds_completion fun _ _ _ _ ⟨hop, htop, ht, hrow, hnr, hdst, hdf, _⟩
    ⟨ha, hb, hreg, hz1, _⟩ ⟨hz2, _⟩ ⟨hok, hcw, _⟩ => ⟨hop, by
      obtain ⟨h3, hcheck⟩ := drainDst_ok hdst hreg hz1
      simp only [decodeTile, htop, h3, hcheck, ofNat_eq 3 ht rfl, ofNat_eq 7 hrow rfl, ofNat_eq 7 hnr rfl, drainDstOf_eq hdst hreg,
        beq_one_eq hdf, gr_eq ha, gr_eq hb, zeros_one hz2, hok, hcw, tileCheck_ok]⟩

theorem decodes_mquant {t : Fin 8} {row0 nr : Fin 128} {dst : DrainDst} {qf : QuantFmt} {gD gSD : GReg} {cw : Completion} :
    Decodes (.mquant t row0 nr dst qf gD gSD cw) :=
  .tile rfl holds_mquant holds_regsDst holds_quantFmt holds_completion fun _ _ _ _ ⟨hop, htop, ht, hrow, hnr, hdst, hz, _⟩
    ⟨ha, hb, hreg, hz1, _⟩ ⟨hqok, hqf, _⟩ ⟨hok, hcw, _⟩ => ⟨hop, by
      obtain ⟨h3, hcheck⟩ := drainDst_ok hdst hreg hz1
      simp only [decodeTile, htop, zeros_one hz, h3, hcheck, Bool.and_self, ofNat_eq 3 ht rfl, ofNat_eq 7 hrow rfl,
        ofNat_eq 7 hnr rfl, drainDstOf_eq hdst hreg, gr_eq ha, gr_eq hb, hqok, hqf, hok, hcw, tileCheck_ok]⟩

theorem decodes_of_wf {i : Instr} (hwf : i.wf = true) (hev : i.isEvent = false) : Decodes i := by
  cases i with
  | add d a b | sub d a b | and d a b | or d a b | xor d a b | andn d a b | shl d a b | shr d a b | sra d a b | rol d a b
  | ror d a b | min d a b | max d a b | minu d a b | maxu d a b | mul d a b | mulh d a b | mulhu d a b | div d a b | divu d a b
  | rem d a b | remu d a b | cmpeq d a b | cmpne d a b | cmplt d a b | cmpltu d a b | cmple d a b | cmpleu d a b | cmovz d a b
  | cmovnz d a b | bext d a b | bins d a b | fadd d a b | fsub d a b | fmul d a b | fdiv d a b | fmadd d a b | fmsub d a b
  | fmin d a b | fmax d a b | fcopys d a b | fcmpeq d a b | fcmplt d a b | fcmple d a b | fcmpun d a b | resolve d a b
  | poison d a b | launch d a b | start d a b | stopc d a b | hsift d a b | hmerge d a b =>
    exact .word rfl (holds_rrr (by decide)) fun w ⟨hop, hd, ha, hb, hsub, _⟩ => by
      simp only [hop, Nat.reduceMod, Nat.reduceDiv, decodeWord_01, decOp01, decodeWord_02, decOp02, decodeWord_03, decOp03,
        decodeWord_04, decOp04, decodeWord_10, decOp10, decodeWord_11, decOp11, decodeWord_39, decOp39, decodeWord_3B, decOp3B,
        decodeWord_3C, decOp3C, decodeWord_3D, decOp3D, hsub, gr_eq hd, gr_eq ha, gr_eq hb]
  | clz d a | ctz d a | popc d a | brev d a | bswap d a | sextb d a | sexth d a | sextw d a | zextb d a | zexth d a | zextw d a
  | fsqrt d a | fabs d a | fneg d a | fclass d a | cwait d a | touch d a | cancel d a | cancelTree d a | fstat d a | ctrlr d a
  | park d a =>
    exact .word rfl (holds_rr (by decide)) fun w ⟨hop, hd, ha, hz, hsub, _⟩ => by
      simp only [hop, Nat.reduceMod, Nat.reduceDiv, decodeWord_04, decOp04, decodeWord_10, decOp10, decodeWord_11, decOp11,
        decodeWord_2D, decOp2D, decodeWord_39, decOp39, decodeWord_3C, decOp3C, hsub, zeros_one hz, unlessReserved_true, gr_eq hd,
        gr_eq ha]
  | vfadd d a b m | vfsub d a b m | vfmul d a b m | vfdiv d a b m | vfma d a b m | vfms d a b m | vfmin d a b m | vfmax d a b m
  | vbfma d a b m | vadd d a b m | vsub d a b m | vmul d a b m | vmulh d a b m | vmin d a b m | vmax d a b m | vminu d a b m
  | vmaxu d a b m | vand d a b m | vor d a b m | vxor d a b m | vshl d a b m | vshr d a b m | vsra d a b m | vadds d a b m
  | vsubs d a b m | vsel d a b m | vperm d a b m | vrotl d a b m | vziplo d a b m | vziphi d a b m | vcvtfbf d a b m
  | vcvtfb4 d a b m =>
    exact .word rfl (holds_vvv (by decide)) fun w ⟨hop, hd, ha, hb, hm, hsub, _⟩ => by
      simp only [hop, Nat.reduceMod, Nat.reduceDiv, decodeWord_30, decOp30, decodeWord_31, decOp31, decodeWord_32, decOp32,
        decodeWord_33, decOp33, hsub, vr_eq hd, vr_eq ha, vr_eq hb, mr_eq hm]
  | vfcmpeq d a b m | vfcmplt d a b m | vfcmple d a b m | vcmpeq d a b m | vcmplt d a b m | vcmpltu d a b m | vprune d a b m =>
    exact .word rfl (holds_mvv (by decide)) fun w ⟨hop, hd, hz, ha, hb, hm, hsub, _⟩ => by
      simp only [hop, Nat.reduceMod, Nat.reduceDiv, decodeWord_32, decOp32, decodeWord_34, decOp34, hsub, zeros_one hz,
        unlessReserved_true, mr_eq hd, vr_eq ha, vr_eq hb, mr_eq hm]
  | vfabs d a m | vfneg d a m | vfsqrt d a m | vfrcp d a m | vfrsq d a m | vfexp2 d a m | vflog2 d a m | vcvtif d a m | vcvtfi d a m
  | vcvtbff d a m | vcvtfe4 d a m | vcvtfe5 d a m | vcvte4f d a m | vcvte5f d a m | vcvtfe5Inf d a m | vredadd d a m
  | vredfadd d a m | vredfmax d a m | vredfmin d a m | vscan d a m | vscanf d a m | vscanx d a m =>
    exact .word rfl (holds_vv (by decide)) fun w ⟨hop, hd, ha, hz, hm, hsub, _⟩ => by
      simp only [hop, Nat.reduceMod, Nat.reduceDiv, decodeWord_30, decOp30, decodeWord_33, decOp33, decodeWord_34, decOp34, hsub,
        zeros_one hz, unlessReserved_true, vr_eq hd, vr_eq ha, mr_eq hm]
  | axchg d a b acq rel w | aadd d a b acq rel w | aand d a b acq rel w | aor d a b acq rel w | axor d a b acq rel w
  | amin d a b acq rel w | amax d a b acq rel w | aminu d a b acq rel w | amaxu d a b acq rel w | afadd d a b acq rel w
  | cas d a b acq rel w =>
    exact .word rfl (holds_atomic (by decide)) fun w ⟨hop, hd, ha, hb, hsub, hacq, hrel, hs, _⟩ => by
      simp only [hop, Nat.reduceMod, Nat.reduceDiv, decodeWord_28, decOp28, decodeWord_2A, decOp2A, hsub, gr_eq hd, gr_eq ha,
        gr_eq hb, beq_one_eq hacq, beq_one_eq hrel, hs, waitSel_ofCode_code]
  | casp d a b acq rel w =>
    exact .word rfl (holds_atomic (by decide)) fun w ⟨hop, hd, ha, hb, hsub, hacq, hrel, hs, _⟩ => by
      simp only [hop, Nat.reduceMod, Nat.reduceDiv, decodeWord_2A, decOp2A, hsub, gr_eq hd, gr_eq ha, gr_eq hb, beq_one_eq hacq,
        beq_one_eq hrel, hs, waitSel_ofCode_code, windowG_zero,
        show (decide (d.val % 2 = 0) && decide (b.val % 2 = 0)) = true from hwf, unlessIllegal_true]
  | axchgPost a b rel w | aaddPost a b rel w | aandPost a b rel w | aorPost a b rel w | axorPost a b rel w | aminPost a b rel w
  | amaxPost a b rel w | aminuPost a b rel w | amaxuPost a b rel w | afaddPost a b rel w =>
    exact .word rfl (holds_posted (by decide)) fun w ⟨hop, hz, ha, hb, hsub, hz28, hrel, hs, _⟩ => by
      simp only [hop, Nat.reduceMod, Nat.reduceDiv, decodeWord_29, decOp29, hsub, zeros_two hz hz28, unlessReserved_true, gr_eq ha,
        gr_eq hb, beq_one_eq hrel, hs, waitSel_ofCode_code]
  | stn a b hi rel w =>
    exact .word rfl holds_stn fun w ⟨hop, hhi, hz, ha, hb, hsub, hz28, hrel, hs, _⟩ => by
      simp only [hop, decodeWord_2A, decOp2A, hsub, zeros_two hz hz28, unlessReserved_true, gr_eq ha, gr_eq hb, beq_one_eq hhi,
        beq_one_eq hrel, hs, waitSel_ofCode_code]
  | setwp a b | ctrlw a b | bankmode a b | shelfput a b =>
    exact .word rfl (holds_ab (by decide)) fun w ⟨hop, hz, ha, hb, hsub, _⟩ => by
      simp only [hop, Nat.reduceMod, Nat.reduceDiv, decodeWord_3C, decOp3C, decodeWord_3D, decOp3D, hsub, zeros_one hz,
        unlessReserved_true, gr_eq ha, gr_eq hb]
  | ffree a | term a | flood a | trap a =>
    exact .word rfl (holds_a (by decide)) fun w ⟨hop, hz, ha, hz18, hsub, _⟩ => by
      simp only [hop, Nat.reduceMod, Nat.reduceDiv, decodeWord_39, decOp39, decodeWord_3B, decOp3B, decodeWord_3C, decOp3C, hsub,
        zeros_two hz hz18, unlessReserved_true, gr_eq ha]
  | fnew d =>
    exact .word rfl (holds_d (by decide)) fun w ⟨hop, hd, hz, hsub, _⟩ => by
      simp only [hop, Nat.reduceMod, Nat.reduceDiv, decodeWord_39, decOp39, hsub, zeros_one hz, unlessReserved_true, gr_eq hd]
  | chkc | yield | eret =>
    exact .word rfl (holds_none (by decide)) fun w ⟨hop, hz, hsub, _⟩ => by
      simp only [hop, Nat.reduceMod, Nat.reduceDiv, decodeWord_39, decOp39, decodeWord_3C, decOp3C, hsub, zeros_one hz,
        unlessReserved_true]
  | hret =>
    exact .word rfl holds_hret fun w ⟨hop, hz, hsub, _⟩ => by
      simp only [hop, decodeWord_3A, decOp3A, hsub, zeros_one hz, unlessReserved_true]
  | flushresAll | shelfcloseAll =>
    exact .word rfl (holds_all (by decide)) fun w ⟨hop, hall, hz, hsub, _⟩ => by
      simp only [hop, Nat.reduceDiv, decodeWord_3D, decOp3D, hsub, hall, if_true, zeros_one hz, unlessReserved_true]
  | flushresRange a b =>
    exact .word rfl holds_range fun w ⟨hop, hall, hz, ha, hb, hsub, _⟩ => by
      simp only [hop, decodeWord_3D, decOp3D, hsub, hall, zero_ne_one, if_false, zeros_one hz, unlessReserved_true, gr_eq ha,
        gr_eq hb]
  | shelfcloseDie a =>
    exact .word rfl holds_die fun w ⟨hop, hall, hz, ha, hz18, hsub, _⟩ => by
      simp only [hop, decodeWord_3D, decOp3D, hsub, hall, zero_ne_one, if_false, zeros_two hz hz18, unlessReserved_true, gr_eq ha]
  | itof d a rc | utof d a rc | ftoi d a rc | ftou d a rc | ftobf d a rc | bftof d a rc | ftoe4 d a rc | e4tof d a rc | e5tof d a rc
  | ftoe2 d a rc | e2tof d a rc =>
    exact .word rfl (holds_rrc (by decide)) fun w ⟨hop, hd, ha, hrc, hz, hsub, _⟩ => by
      simp only [hop, Nat.reduceMod, Nat.reduceDiv, decodeWord_12, decOp12, hsub, zeros_one hz, unlessReserved_true, gr_eq hd,
        gr_eq ha, roundSel_ofCode_eq_some.2 hrc, orReserved_some]
  | ftoe5 d a rc inf =>
    exact .word rfl holds_ftoe5 fun w ⟨hop, hd, ha, hrc, hinf, hz, hsub, _⟩ => by
      simp only [hop, decodeWord_12, decOp12, hsub, zeros_one hz, unlessReserved_true, gr_eq hd, gr_eq ha, beq_one_eq hinf,
        roundSel_ofCode_eq_some.2 hrc, orReserved_some]
  | shli d a sh | shri d a sh | srai d a sh | rori d a sh =>
    exact .word rfl (holds_shift (by decide)) fun w ⟨hop, hd, ha, hsh, hz, hsub, _⟩ => by
      simp only [hop, Nat.reduceMod, Nat.reduceDiv, decodeWord_09, decOp09, hsub, zeros_one hz, unlessReserved_true, gr_eq hd,
        gr_eq ha, ofNat_eq 6 hsh rfl]
  | rep a stride len =>
    exact .word rfl holds_rep fun w ⟨hop, hz, ha, hlen, hstride, hz25, hsub, _⟩ => by
      simp only [hop, decodeWord_1F, decOp1F, hsub, zeros_two hz hz25, unlessReserved_true, gr_eq ha, ofNat_eq 3 hstride rfl,
        ofNat_eq 4 hlen rfl]
  | repi count stride len =>
    exact .word rfl holds_repi fun w ⟨hop, hcount, hlen, hstride, hz, hsub, _⟩ => by
      simp only [hop, decodeWord_1F, decOp1F, hsub, zeros_one hz, unlessReserved_true, ofNat_eq 12 hcount rfl,
        ofNat_eq 3 hstride rfl, ofNat_eq 4 hlen rfl]
  | wait at_ tl cp sg sn =>
    exact .word rfl holds_wait fun w ⟨hop, hsn, hsg, hcp, htl, hat, hz, _⟩ => by
      simp only [hop, decodeWord_2C, decOp2C, zeros_one hz, unlessReserved_true, ofNat_eq 5 hat rfl, ofNat_eq 5 htl rfl,
        ofNat_eq 5 hcp rfl, ofNat_eq 5 hsg rfl, ofNat_eq 5 hsn rfl]
  | fence scope =>
    exact .word rfl holds_fence fun w ⟨hop, hscope, hz, hsub, _⟩ => by
      simp only [hop, decodeWord_2D, decOp2D, hsub, zeros_one hz, unlessReserved_true, scope_ofCode_eq_some.2 hscope,
        orReserved_some]
  | bararm lvl obj a | barwait lvl obj a =>
    exact .word rfl (holds_barrierA (by decide)) fun w ⟨hop, hz, ha, hobj, hlvl, hsub, _⟩ => by
      simp only [hop, Nat.reduceMod, Nat.reduceDiv, decodeWord_2E, decOp2E, hsub, zeros_one hz, ofNat_eq 4 hobj rfl, hlvl,
        level_ofCode_code, show objOk lvl obj = true from hwf, unlessReserved_true, gr_eq ha]
  | barrive lvl obj d | barq lvl obj d =>
    exact .word rfl (holds_barrierD (by decide)) fun w ⟨hop, hd, hz, hobj, hlvl, hsub, _⟩ => by
      simp only [hop, Nat.reduceMod, Nat.reduceDiv, decodeWord_2E, decOp2E, hsub, zeros_one hz, ofNat_eq 4 hobj rfl, hlvl,
        level_ofCode_code, show objOk lvl obj = true from hwf, unlessReserved_true, gr_eq hd]
  | mand d a b | mor d a b | mxor d a b =>
    exact .word rfl (holds_mmm (by decide)) fun w ⟨hop, hd, hz, ha, hz14, hb, hz19, hsub, _⟩ => by
      simp only [hop, Nat.reduceMod, Nat.reduceDiv, decodeWord_32, decOp32, hsub, zeros_three hz hz14 hz19, unlessReserved_true,
        mr_eq hd, mr_eq ha, mr_eq hb]
  | mnot d a =>
    exact .word rfl holds_mnot fun w ⟨hop, hd, hz, ha, hz14, hsub, _⟩ => by
      simp only [hop, decodeWord_32, decOp32, hsub, zeros_two hz hz14, unlessReserved_true, mr_eq hd, mr_eq ha]
  | vbcast d a m =>
    exact .word rfl holds_vbcast fun w ⟨hop, hd, hz, ha, hz18, hsub, hm, _⟩ => by
      simp only [hop, decodeWord_35, decOp35, hsub, zeros_two hz hz18, unlessReserved_true, vr_eq hd, gr_eq ha, mr_eq hm]
  | vextr d a b =>
    exact .word rfl holds_vextr fun w ⟨hop, hd, ha, hz, hb, hsub, hz29, _⟩ => by
      simp only [hop, decodeWord_35, decOp35, hsub, zeros_two hz hz29, unlessReserved_true, gr_eq hd, vr_eq ha, gr_eq hb]
  | vinsr d a b =>
    exact .word rfl holds_vinsr fun w ⟨hop, hd, hz, ha, hb, hsub, hz29, _⟩ => by
      simp only [hop, decodeWord_35, decOp35, hsub, zeros_two hz hz29, unlessReserved_true, vr_eq hd, gr_eq ha, gr_eq hb]
  | vgath d a b m | vscat d a b m =>
    exact .word rfl (holds_gather (by decide)) fun w ⟨hop, hd, hz, ha, hb, hz23, hsub, hm, _⟩ => by
      simp only [hop, Nat.reduceMod, Nat.reduceDiv, decodeWord_35, decOp35, hsub, zeros_two hz hz23, unlessReserved_true, vr_eq hd,
        gr_eq ha, vr_eq hb, mr_eq hm]
  | mtog d a =>
    exact .word rfl holds_mtog fun w ⟨hop, hd, ha, hz, hsub, hz29, _⟩ => by
      simp only [hop, decodeWord_35, decOp35, hsub, zeros_two hz hz29, unlessReserved_true, gr_eq hd, mr_eq ha]
  | gtom d a =>
    exact .word rfl holds_gtom fun w ⟨hop, hd, hz, ha, hz18, hsub, hz29, _⟩ => by
      simp only [hop, decodeWord_35, decOp35, hsub, zeros_three hz hz18 hz29, unlessReserved_true, mr_eq hd, gr_eq ha]
  | ttouch d a =>
    exact .word rfl (holds_rr (by decide)) fun w ⟨hop, hd, ha, hz, hsub, _⟩ => by
      simp only [hop, Nat.reduceMod, Nat.reduceDiv, decodeWord_39, decOp39, hsub, zeros_one hz, unlessReserved_true, gr_eq hd,
        gr_eq ha, windowG_zero, show groupOk d 2 = true from hwf, unlessIllegal_true]
  | acc a b m | accBf16 a b m =>
    exact .word rfl (holds_acc (by decide)) fun w ⟨hop, hm, hz, ha, hb, hz23, hsub, _⟩ => by
      simp only [hop, Nat.reduceMod, Nat.reduceDiv, decodeWord_3D, decOp3D, hsub, zeros_two hz hz23, unlessReserved_true, gr_eq ha,
        vr_eq hb, mr_eq hm]
  | rmerge a b m ks =>
    exact .word rfl holds_rmerge fun w ⟨hop, hm, hks, hz, ha, hb, hz23, hsub, _⟩ => by
      simp only [hop, decodeWord_3D, decOp3D, hsub, zeros_two hz hz23, unlessReserved_true, gr_eq ha, vr_eq hb, mr_eq hm,
        ofNat_eq 2 hks rfl]
  | addi d a imm | andi d a imm | ori d a imm | xori d a imm | cmpeqi d a imm | cmplti d a imm | cmpltui d a imm | muli d a imm =>
    exact .imm (by decide) rfl hwf (holds_ri (by decide)) fun w ⟨hop, hd, ha, himm, _⟩ => ⟨maxPrefixes_of hop rfl, fun pf hpf => by
      simp only [hop, decodeWord_05, decOp05, decodeWord_06, decOp06, decodeWord_07, decOp07, decodeWord_08, decOp08, decodeWord_0A,
        decOp0A, decodeWord_0B, decOp0B, decodeWord_0C, decOp0C, decodeWord_0E, decOp0E, gr_eq hd, gr_eq ha, himm, hpf]⟩
  | beq a b imm | bne a b imm | blt a b imm | bge a b imm | bltu a b imm | bgeu a b imm =>
    exact .imm (by decide) rfl hwf (holds_ri (by decide)) fun w ⟨hop, ha, hb, himm, _⟩ => ⟨maxPrefixes_of hop rfl, fun pf hpf => by
      simp only [hop, decodeWord_18, decOp18, decodeWord_19, decOp19, decodeWord_1A, decOp1A, decodeWord_1B, decOp1B, decodeWord_1C,
        decOp1C, decodeWord_1D, decOp1D, gr_eq ha, gr_eq hb, himm, hpf]⟩
  | addpc d imm =>
    exact .imm (by decide) rfl hwf holds_addpc fun w ⟨hop, hd, hz, himm, _⟩ => ⟨maxPrefixes_of hop rfl, fun pf hpf => by
      simp only [hop, decodeWord_0D, decOp0D, zeros_one hz, unlessReserved_true, gr_eq hd, himm, hpf]⟩
  | jal d imm =>
    exact .imm (by decide) rfl hwf holds_jal fun w ⟨hop, hd, himm, _⟩ => ⟨maxPrefixes_of hop rfl, fun pf hpf => by
      simp only [hop, decodeWord_1E, decOp1E, gr_eq hd, himm, hpf]⟩
  | jalr d a imm =>
    exact .imm (by decide) rfl hwf holds_jalr fun w ⟨hop, hd, ha, himm, hsub, _⟩ =>
      ⟨maxPrefixes_of hop (by rw [hsub]; rfl), fun pf hpf => by
      simp only [hop, decodeWord_1F, decOp1F, hsub, gr_eq hd, gr_eq ha, himm, hpf]⟩
  | loopnz d imm =>
    exact .imm (by decide) rfl hwf holds_loopnz fun w ⟨hop, hd, hz, himm, hsub, _⟩ =>
      ⟨maxPrefixes_of hop (by rw [hsub]; rfl), fun pf hpf => by
      simp only [hop, decodeWord_1F, decOp1F, hsub, zeros_one hz, unlessReserved_true, gr_eq hd, himm, hpf]⟩
  | ldb d a off h w | ldh d a off h w | ldw d a off h w | stb d a off h w | sth d a off h w | stw d a off h w | std d a off h w =>
    exact .imm (by decide) rfl hwf (holds_mem (by decide)) fun w ⟨hop, hd, ha, hs, hh, himm, _⟩ =>
      ⟨maxPrefixes_of hop rfl, fun pf hpf => by
      simp only [hop, decodeWord_20, decOp20, decodeWord_21, decOp21, decodeWord_22, decOp22, decodeWord_24, decOp24, decodeWord_25,
        decOp25, decodeWord_26, decOp26, decodeWord_27, decOp27, gr_eq hd, gr_eq ha, hs, waitSel_ofCode_code,
        hint_ofCode_eq_some.2 hh, orReserved_some, himm, hpf]⟩
  | vld d a off h w | vst d a off h w =>
    exact .imm (by decide) rfl hwf (holds_vmem (by decide)) fun w ⟨hop, hd, hz, ha, hs, hh, himm, _⟩ =>
      ⟨maxPrefixes_of hop rfl, fun pf hpf => by
      simp only [hop, decodeWord_36, decOp36, decodeWord_37, decOp37, zeros_one hz, unlessReserved_true, vr_eq hd, gr_eq ha, hs,
        waitSel_ofCode_code, hint_ofCode_eq_some.2 hh, orReserved_some, himm, hpf]⟩
  | ldd d a off h w => exact decodes_ldd hwf
  | pref a off stream w => exact decodes_pref hwf
  | spawn d a b plc pri twin rst => exact decodes_spawn hwf
  | spawnt d a b plc pri twin rst => exact decodes_spawnt hwf
  | callat d a b pri => exact decodes_callat hwf
  | send d a b n => exact decodes_send hwf
  | mfmt accm rc bf af gAS gAB gBS gBB =>
    exact .tile rfl holds_mfmt holds_regs4 holds_zero holds_zero fun _ _ _ _ ⟨hop, htop, haf, hbf, hrc, haccm, hz, _⟩ ⟨ha, hb, hc, hd,
      hz1, _⟩ ⟨hz2, _⟩ ⟨hz3, _⟩ => ⟨hop, by
      simp only [decodeTile, htop, zeros_one hz, ofNat_eq 4 haf rfl, ofNat_eq 4 hbf rfl, hrc, roundMode_ofCode_code,
        beq_one_eq haccm, gr_eq ha, gr_eq hb, gr_eq hc, gr_eq hd, zeros_one hz1, zeros_one hz2, zeros_one hz3, tileCheck_ok]⟩
  | mfree t g0 ng =>
    exact .tile rfl holds_mfree holds_zero holds_zero holds_zero fun _ _ _ _ ⟨hop, htop, ht, hz, hg0, hng, hz22, _⟩ ⟨hz1, _⟩ ⟨hz2, _⟩
      ⟨hz3, _⟩ => ⟨hop, by
      simp only [decodeTile, htop, zeros_two hz hz22, ofNat_eq 3 ht rfl, ofNat_eq 3 hg0 rfl, ofNat_eq 3 hng rfl, zeros_one hz1,
        zeros_one hz2, zeros_one hz3, tileCheck_ok]⟩
  | mzero t row0 nr cw =>
    exact .tile rfl holds_mzero holds_zero holds_zero holds_completion fun _ _ _ _ ⟨hop, htop, ht, hrow, hnr, hz, _⟩ ⟨hz1, _⟩ ⟨hz2, _⟩
      ⟨hok, hcw, _⟩ => ⟨hop, by
      simp only [decodeTile, htop, zeros_one hz, ofNat_eq 3 ht rfl, ofNat_eq 7 hrow rfl, ofNat_eq 7 hnr rfl, zeros_one hz1,
        zeros_one hz2, hok, hcw, tileCheck_ok]⟩
  | mma t shp row0 nr gA gSA gB gSB cw =>
    exact .tile rfl holds_mma holds_regs4 holds_zero holds_completion fun _ _ _ _ ⟨hop, htop, ht, hshp, hrow, hnr, hz, _⟩ ⟨ha, hb, hc,
      hd, hz1, _⟩ ⟨hz2, _⟩ ⟨hok, hcw, _⟩ => ⟨hop, by
      simp only [decodeTile, htop, zeros_one hz, ofNat_eq 3 ht rfl, ofNat_eq 2 hshp rfl, ofNat_eq 7 hrow rfl, ofNat_eq 7 hnr rfl,
        gr_eq ha, gr_eq hb, gr_eq hc, gr_eq hd, zeros_one hz1, zeros_one hz2, hok, hcw, tileCheck_ok]⟩
  | gmma t nt nw ng gA gSA gG gSB cw =>
    exact .tile rfl holds_gmma holds_regs4 holds_zero holds_completion fun _ _ _ _ ⟨hop, htop, ht, hnt, hnw, hng, hz, _⟩ ⟨ha, hb, hc,
      hd, hz1, _⟩ ⟨hz2, _⟩ ⟨hok, hcw, _⟩ => ⟨hop, by
      simp only [decodeTile, htop, zeros_one hz, ofNat_eq 3 ht rfl, ofNat_eq 3 hnt rfl, ofNat_eq 2 hnw rfl, ofNat_eq 6 hng rfl,
        gr_eq ha, gr_eq hb, gr_eq hc, gr_eq hd, zeros_one hz1, zeros_one hz2, hok, hcw, tileCheck_ok]⟩
  | msync =>
    exact .tile rfl (holds_top (by decide)) holds_zero holds_zero holds_zero fun _ _ _ _ ⟨hop, htop, hz, _⟩ ⟨hz1, _⟩ ⟨hz2, _⟩ ⟨hz3, _⟩
      => ⟨hop, by
      simp only [decodeTile, htop, Nat.reduceDiv, zeros_one hz, zeros_one hz1, zeros_one hz2, zeros_one hz3, tileCheck_ok]⟩
  | mrank ts t row0 nr srow0 ncm gC cw =>
    exact .tile rfl holds_mrank holds_mrankRegs holds_zero holds_completion fun _ _ _ _ ⟨hop, htop, ht, hrow, hnr, hts, _⟩ ⟨ha, hsrow,
      hncm, hz1, _⟩ ⟨hz2, _⟩ ⟨hok, hcw, _⟩ => ⟨hop, by
      simp only [decodeTile, htop, ofNat_eq 3 ht rfl, ofNat_eq 7 hrow rfl, ofNat_eq 7 hnr rfl, ofNat_eq 3 hts rfl, gr_eq ha,
        ofNat_eq 7 hsrow rfl, ofNat_eq 7 hncm rfl, zeros_one hz1, zeros_one hz2, hok, hcw, tileCheck_ok]⟩
  | mthr row0 t gF d cw =>
    exact .tile rfl holds_mthr holds_mthrRegs holds_zero holds_completion fun _ _ _ _ ⟨hop, htop, ht, hrow, hz, _⟩ ⟨hd, hz5, ha, hz1,
      _⟩ ⟨hz2, _⟩ ⟨hok, hcw, _⟩ => ⟨hop, by
      simp only [decodeTile, htop, zeros_one hz, ofNat_eq 3 ht rfl, ofNat_eq 7 hrow rfl, vr_eq hd, gr_eq ha, zeros_two hz5 hz1,
        zeros_one hz2, hok, hcw, tileCheck_ok]⟩
  | acct t row0 nr df gD gSD cw =>
    exact .tile rfl holds_acct holds_regs2 holds_zero holds_completion fun _ _ _ _ ⟨hop, htop, ht, hrow, hnr, hdf, hz, _⟩ ⟨ha, hb,
      hz1, _⟩ ⟨hz2, _⟩ ⟨hok, hcw, _⟩ => ⟨hop, by
      simp only [decodeTile, htop, zeros_one hz, ofNat_eq 3 ht rfl, ofNat_eq 7 hrow rfl, ofNat_eq 7 hnr rfl, beq_one_eq hdf,
        gr_eq ha, gr_eq hb, zeros_one hz1, zeros_one hz2, hok, hcw, tileCheck_ok]⟩
  | tcopy gT cw =>
    exact .tile rfl (holds_top (by decide)) holds_regs1 holds_zero holds_completion fun _ _ _ _ ⟨hop, htop, hz, _⟩ ⟨ha, hz1, _⟩ ⟨hz2,
      _⟩ ⟨hok, hcw, _⟩ => ⟨hop, by
      simp only [decodeTile, htop, Nat.reduceDiv, zeros_one hz, gr_eq ha, zeros_one hz1, zeros_one hz2, hok, hcw, tileCheck_ok]⟩
  | tgather gS gD gI gN gRB gSS gDS cw | tscatter gS gD gI gN gRB gSS gDS cw =>
    exact .tile rfl (holds_top (by decide)) holds_regs4 holds_regs3 holds_completion fun _ _ _ _ ⟨hop, htop, hz, _⟩ ⟨ha, hb, hc, hd,
      hz1, _⟩ ⟨he, hf, hg, hz2, _⟩ ⟨hok, hcw, _⟩ => ⟨hop, by
      simp only [decodeTile, htop, Nat.reduceDiv, zeros_one hz, gr_eq ha, gr_eq hb, gr_eq hc, gr_eq hd, zeros_one hz1, gr_eq he,
        gr_eq hf, gr_eq hg, zeros_one hz2, hok, hcw, tileCheck_ok]⟩
  | tmcast gS gD gM gN cw =>
    exact .tile rfl (holds_top (by decide)) holds_regs4 holds_zero holds_completion fun _ _ _ _ ⟨hop, htop, hz, _⟩ ⟨ha, hb, hc, hd,
      hz1, _⟩ ⟨hz2, _⟩ ⟨hok, hcw, _⟩ => ⟨hop, by
      simp only [decodeTile, htop, Nat.reduceDiv, zeros_one hz, gr_eq ha, gr_eq hb, gr_eq hc, gr_eq hd, zeros_one hz1,
        zeros_one hz2, hok, hcw, tileCheck_ok]⟩
  | tfill esz gD gV gN cw =>
    exact .tile rfl holds_tfill holds_regs3 holds_zero holds_completion fun _ _ _ _ ⟨hop, htop, hesz, hz, _⟩ ⟨ha, hb, hc, hz1, _⟩
      ⟨hz2, _⟩ ⟨hok, hcw, _⟩ => ⟨hop, by
      simp only [decodeTile, htop, zeros_one hz, ofNat_eq 2 hesz rfl, gr_eq ha, gr_eq hb, gr_eq hc, zeros_one hz1, zeros_one hz2,
        hok, hcw, tileCheck_ok]⟩
  | malloc d t g0 ng kind ks => exact decodes_malloc hwf
  | mdrain t row0 nr df dst gD gSD cw => exact decodes_mdrain
  | mquant t row0 nr dst qf gD gSD cw => exact decodes_mquant
  | _ => cases hev

/-- Settles O56, constructor by constructor: the words that the encoder writes hold the fields that the decoder of their opcode
asks for. -/
theorem decodeOfEncode : Obligations.DecodeOfEncode := by
  unfold Obligations.DecodeOfEncode
  exact fun i rest hwf hev => decodes_of_wf hwf hev rest

/-! ### Worked encodings (O55) -/

/-- An instruction's words, as the encoder writes them, are read back. -/
theorem toOption_decodeWords {i : Instr} {ws : List Nat} (hwf : i.wf = true) (hev : i.isEvent = false) (henc : encode i = ws) :
    (decodeWords ws).toOption = some (i, ws.length) := by
  have h := decodeOfEncode i [] hwf hev
  rw [List.append_nil, henc] at h
  rw [h]
  rfl

/-- Settles O55: all but the last are well-formed instructions, and the encoder writes these words for them; a word of zeros has no
opcode (R53). -/
theorem workedEncodings : Obligations.WorkedEncodings := by
  unfold Obligations.WorkedEncodings
  refine ⟨?_, ?_, ?_, ?_, ?_, ?_, ?_, ?_, ?_, ?_, ?_, ?_, ?_, ?_, ?_, ?_, ?_, ?_, ?_, ?_, rfl⟩
  all_goals exact toOption_decodeWords (by decide) rfl (by decide)

end Sys2Proof.Encoding

/-! # A step runs what the words at CX.PC decode to (O9) -/

namespace Sys2Proof.Machine

/-! ### States that hold the same contexts

The record of an issue (R18) changes what a core holds beside its contexts and its activation: every fetch and every read of a register
finds there what it found before. -/

/-- Two states differ in the cores' records alone, and there neither in the contexts nor in the activation. -/
structure SameContexts (s t : State) : Prop where
  cores : ∃ cores, t = { s with cores := cores }
  ctxs : ∀ core, (t.core core).ctxs = (s.core core).ctxs
  act : ∀ core, (t.core core).act = (s.core core).act

theorem SameContexts.refl (s : State) : SameContexts s s := ⟨⟨s.cores, rfl⟩, fun _ => rfl, fun _ => rfl⟩

theorem sameContexts_setCore {s : State} {core : Nat} {c : CoreState} (hctxs : c.ctxs = (s.core core).ctxs)
    (hact : c.act = (s.core core).act) : SameContexts s (s.setCore core c) := by
  refine ⟨⟨_, rfl⟩, fun k => ?_, fun k => ?_⟩ <;> rw [core_setCore] <;> split_ifs with hk
  · rw [hk, hctxs]
  · rfl
  · rw [hk, hact]
  · rfl

theorem sameContexts_noteIssue (s : State) (core ctx : Nat) (cyc : Bool) : SameContexts s (s.noteIssue core ctx cyc) := by
  cases cyc <;> exact sameContexts_setCore rfl rfl

/-- The state in which a context of a core executes an instruction of some length, the last of its body or not. -/
def State.executing (s : State) (core ctx len : Nat) (last : Bool) : State :=
  { s with cur := { core := core, ctx := ctx, len := len, last := last } }

section
variable {s t : State} (h : SameContexts s t)
include h

theorem SameContexts.executing (core ctx len : Nat) (last : Bool) :
    SameContexts (s.executing core ctx len last) (t.executing core ctx len last) := by
  obtain ⟨⟨cores, rfl⟩, hctxs, hact⟩ := h
  exact ⟨⟨cores, rfl⟩, hctxs, hact⟩

theorem SameContexts.ctxAt (core ctx : Nat) : t.ctxAt core ctx = s.ctxAt core ctx := by
  rw [State.ctxAt, h.ctxs]
  rfl

theorem SameContexts.sameWorkspaces : SameWorkspaces s t := by
  have hwp (core ctx : Nat) := congrArg Ctx.wp (h.ctxAt core ctx)
  obtain ⟨⟨cores, rfl⟩, -, -⟩ := h
  exact ⟨rfl, rfl, hwp⟩

theorem SameContexts.myCtx : t.myCtx = s.myCtx := by
  rw [State.myCtx, h.sameWorkspaces.cur, h.ctxAt]
  rfl

theorem SameContexts.overrun : t.overrun = s.overrun := by
  rw [State.overrun, State.me, h.act, h.sameWorkspaces.cur]
  rfl

theorem SameContexts.tainted (loc n : Nat) : t.tainted loc n = s.tainted loc n := by
  obtain ⟨⟨cores, rfl⟩, -, -⟩ := h
  rfl

theorem SameContexts.readsPoison (i : Instr) : t.readsPoison i = s.readsPoison i := by
  simp only [State.readsPoison, h.tainted, h.sameWorkspaces.wsLoc, h.sameWorkspaces.cur]

theorem SameContexts.codeWord (core ctx va : Nat) : t.codeWord core ctx va = s.codeWord core ctx va := by
  have hctx := h.ctxAt core ctx
  obtain ⟨⟨cores, rfl⟩, -, -⟩ := h
  rw [State.codeWord, hctx]
  rfl

theorem SameContexts.codeWords (core ctx va fuel : Nat) (ws : List Nat) :
    t.codeWords core ctx va fuel ws = s.codeWords core ctx va fuel ws := by
  induction fuel generalizing ws with
  | zero => rfl
  | succ fuel ih => simp only [State.codeWords, h.codeWord, ih]

theorem SameContexts.instrWords (core ctx va : Nat) : t.instrWords core ctx va = s.instrWords core ctx va :=
  h.codeWords core ctx va 4 []

theorem SameContexts.bodySearch (core ctx pc fuel : Nat) (starts : List Nat) :
    t.bodySearch core ctx pc fuel starts = s.bodySearch core ctx pc fuel starts := by
  induction fuel generalizing starts with
  | zero => simp only [State.bodySearch]
  | succ fuel ih => simp only [State.bodySearch, h.instrWords, ih]

theorem SameContexts.bodyIndex (core ctx : Nat) : t.bodyIndex core ctx = s.bodyIndex core ctx := by
  simp only [State.bodyIndex, State.bodyStarts, h.bodySearch, h.sameWorkspaces.cxAt, h.ctxAt]

theorem SameContexts.noteBody (before : List Nat) (len : Nat) : SameContexts (s.noteBody before len) (t.noteBody before len) := by
  have hnote : t.noteBody before len =
      t.setCtxAt s.cur.core s.cur.ctx { s.myCtx with body := some (s.cx cxREPB, before ++ [s.pc, s.pc + 4 * len]) } := by
    rw [State.noteBody, State.setMyCtx, h.myCtx, h.sameWorkspaces.cx, h.sameWorkspaces.pc, h.sameWorkspaces.cur]
  rw [hnote]
  refine ⟨?_, fun core => ?_, fun core => ?_⟩
  · obtain ⟨⟨cores, rfl⟩, -, -⟩ := h
    exact ⟨_, rfl⟩
  · rw [State.noteBody, State.setMyCtx, core_setCtxAt, core_setCtxAt]
    split_ifs
    · simp only [h.ctxs]
    · exact h.ctxs core
  · rw [State.noteBody, State.setMyCtx, core_setCtxAt, core_setCtxAt]
    split_ifs
    · exact h.act s.cur.core
    · exact h.act core

theorem SameContexts.placeIn : t.placeIn = s.placeIn := by
  simp only [State.placeIn, h.bodyIndex, h.sameWorkspaces.cx, h.sameWorkspaces.cur, h.myCtx]

end

/-! ### The instruction that is ready (R41, R46, R95) -/

section
variable {s : State} {core ctx n k : Nat} {ws before : List Nat} {i : Instr}

/-- Without the limit of R208 and a failed fetch, what is ready is what decoding finds. -/
theorem ready_eq_decodeHere (hover : ctx = 1 → (s.executing core ctx 1 false).overrun = false)
    (hbad : (s.executing core ctx 1 false).myCtx.badFetch = none) :
    s.ready core ctx = (s.executing core ctx 1 false).decodeHere := by
  unfold State.ready
  dsimp only
  split_ifs with hend
  · rw [Bool.and_eq_true, beq_iff_eq] at hend
    exact absurd ((hover hend.1).symm.trans hend.2) Bool.false_ne_true
  · split
    · next hfetch => cases hbad.symm.trans hfetch
    · rfl

/-- Words that are at hand are decoded at a place in the program or in the body of a REP. -/
theorem decodeHere_of_words (hplace : s.placeIn = .outside ∨ s.placeIn = .inside k before)
    (hws : s.instrWords s.cur.core s.cur.ctx s.pc = .ok ws) :
    s.decodeHere = (s.executing s.cur.core s.cur.ctx 1 false).decodeAt s.placeIn ws := by
  unfold State.decodeHere
  rcases hplace with hplace | hplace <;> rw [hplace, hws] <;> rfl

/-- An instruction that its context may execute, and that reads no poisoned register, passes the checks. -/
theorem checked_eq_ok {w : Nat} (hstart : ¬ (isStart i = true ∧ s.myCtx.twin = true))
    (hpriv : ¬ (privileged i = true ∧ s.cur.ctx ≠ 0)) (hpoison : s.readsPoison i = false) :
    s.checked i w = .ok (i, s.fillFor i) := by
  rw [State.checked, if_neg hstart, if_neg hpriv, if_neg (by rw [hpoison]; exact Bool.false_ne_true)]

theorem placeIn_outside (h : s.cx cxREPS % 2 = 0) : s.placeIn = .outside := by
  have hbit : bitOf (s.cx cxREPS) 0 = false := by simp [bitOf, h]
  rw [State.placeIn, hbit]
  rfl

/-- By how many places the pass under way of a REP renumbers (R31). -/
def State.renumbering (s : State) : Nat := bits (s.cx cxREPS) 63 32 * bits (s.cx cxREPS) 26 24

/-- The state in which a context executes the instruction at place `k` of the body of a REP (R95). -/
def State.inPass (s : State) (k : Nat) (before : List Nat) (len : Nat) : State :=
  (s.noteBody before len).executing s.cur.core s.cur.ctx len (k == bits (s.cx cxREPS) 23 20)

theorem cx_inPass (s : State) (off : Nat) : (s.inPass k before n).cx off = s.cx off := by
  refine SameWorkspaces.cx (s := s) (t := s.noteBody before n) ⟨rfl, rfl, fun c x => ?_⟩ off
  rw [State.noteBody, State.setMyCtx, ctxAt_setCtxAt]
  split_ifs with hc
  · rw [hc.1, hc.2]
    rfl
  · rfl

theorem twin_inPass (s : State) : (s.inPass k before n).myCtx.twin = s.myCtx.twin := by
  change (s.noteBody before n).myCtx.twin = s.myCtx.twin
  rw [State.myCtx, State.noteBody, State.setMyCtx, ctxAt_setCtxAt, if_pos ⟨rfl, rfl⟩]

theorem inBody_eq_ok {w : Nat} (hbody : repForbidden i = false) (hok : (renameInstr s.renumbering i).groupsOk = true) :
    s.inBody i w = .ok (renameInstr s.renumbering i) := by
  rw [State.inBody, if_neg (by rw [hbody]; exact Bool.false_ne_true)]
  exact if_pos hok

theorem decodeAt_outside (hdec : decodeWords ws = .ok (i, n)) :
    s.decodeAt .outside ws = (s.executing s.cur.core s.cur.ctx n false).checked i (ws.getLastD 0) := by
  simp only [State.decodeAt, hdec]
  rfl

theorem decodeAt_inside (hdec : decodeWordsIn s.renumbering ws = .ok (i, n)) (hbody : repForbidden i = false)
    (hok : (renameInstr s.renumbering i).groupsOk = true) :
    s.decodeAt (.inside k before) ws = (s.inPass k before n).checked (renameInstr s.renumbering i) (ws.getLastD 0) := by
  have hshift : (s.inPass k before n).renumbering = s.renumbering := by rw [State.renumbering, cx_inPass]; rfl
  have hin : (s.inPass k before n).inBody i (ws.getLastD 0) = .ok (renameInstr s.renumbering i) := by
    rw [← hshift] at hok ⊢
    exact inBody_eq_ok hbody hok
  unfold State.decodeAt
  unfold State.renumbering at hdec
  dsimp only
  rw [hdec]
  dsimp only
  split
  · next herror => cases hin.symm.trans herror
  · next hj =>
    cases hin.symm.trans hj
    rfl

end

section
variable {s v : State} {core ctx n k : Nat} {ws before : List Nat} {i : Instr}
variable (hv : s.executing core ctx 1 false = v) (hover : ctx = 1 → v.overrun = false) (hbad : v.myCtx.badFetch = none)
  (hws : v.instrWords core ctx v.pc = .ok ws)
include hv hover hbad hws

theorem ready_outside (hplace : v.placeIn = .outside) (hdec : decodeWords ws = .ok (i, n))
    (hstart : ¬ (isStart i = true ∧ v.myCtx.twin = true)) (hpriv : ¬ (privileged i = true ∧ ctx ≠ 0))
    (hpoison : (s.executing core ctx n false).readsPoison i = false) :
    s.ready core ctx = .ok (i, (s.executing core ctx n false).fillFor i) := by
  subst hv
  rw [ready_eq_decodeHere hover hbad, decodeHere_of_words (k := 0) (before := []) (.inl hplace) hws, hplace, decodeAt_outside hdec]
  exact checked_eq_ok hstart hpriv hpoison

theorem ready_inside (hplace : v.placeIn = .inside k before) (hdec : decodeWordsIn v.renumbering ws = .ok (i, n))
    (hbody : repForbidden i = false) (hok : (renameInstr v.renumbering i).groupsOk = true)
    (hstart : ¬ (isStart (renameInstr v.renumbering i) = true ∧ v.myCtx.twin = true))
    (hpriv : ¬ (privileged (renameInstr v.renumbering i) = true ∧ ctx ≠ 0))
    (hpoison : (v.inPass k before n).readsPoison (renameInstr v.renumbering i) = false) :
    s.ready core ctx = .ok (renameInstr v.renumbering i, (v.inPass k before n).fillFor (renameInstr v.renumbering i)) := by
  subst hv
  rw [ready_eq_decodeHere hover hbad, decodeHere_of_words (.inr hplace) hws, hplace]
  refine (decodeAt_inside hdec hbody hok).trans (checked_eq_ok ?_ hpriv hpoison)
  rw [twin_inPass]
  exact hstart

end

/-! ### The step that issues it (R18) -/

/-- An instruction executed in the state that it is ready in, with what follows every instruction (R34, R208, R370). -/
noncomputable def executed (i : Instr) (s : State) : Host.Outcome State Fault Refusal :=
  match exec i s with
  | .next t => .next ((t.countHandler.pruneAhead).toComparator s)
  | o => o

section
variable {s : State} {core ctx : Nat} {cyc : Bool} {i : Instr} {t : State → State}

theorem attempt_of_ready (h : s.ready core ctx = .ok (i, t s)) : attempt core ctx s = executed i (t s) := by
  simp only [attempt, executed, h]
  cases exec i (t s) <;> rfl

/-- A choice whose context has an instruction ready, with its issue recorded and without. -/
theorem stepIssue_of_ready (hpick : (s.probe core).pick core = some (ctx, cyc))
    (hready : ∀ x, SameContexts (s.probe core) x → x.ready core ctx = .ok (i, t x)) :
    stepIssue core s = match executed i (t ((s.probe core).noteIssue core ctx cyc)) with
      | .next w => if w.waits core ctx then executed i (t (s.probe core)) else .next w
      | o => o := by
  rw [stepIssue, hpick]
  dsimp only
  rewrite [State.issueOf, attempt_of_ready (hready _ (sameContexts_noteIssue _ core ctx cyc)), attempt_of_ready (hready _ (.refl _))]
  cases executed i (t ((s.probe core).noteIssue core ctx cyc)) <;> rfl

theorem step_issue {rest : List Move} (hagenda : s.agenda = .issue core :: rest) (hcore : core < 4096) :
    step s = match stepIssue core { s with agenda := rest } with
      | .next t => .next t.settleWaits
      | o => o := by
  rw [step, hagenda]
  dsimp only
  rewrite [stepMove, if_pos hcore]
  cases stepIssue core { s with agenda := rest } <;> rfl

end

/-- Settles O9: the record of the issue changes nothing that the fetch and the checks read, so the instruction is ready with its issue
recorded and without. -/
theorem stepRunsDecoded : Obligations.StepRunsDecoded := by
  intro s core ctx cyc rest ws i n hagenda hcore at_ u v hpick hover hbad hws shift runs
  have hsame {x : State} (hx : SameContexts u x) : SameContexts v (x.executing core ctx 1 false) := hx.executing core ctx 1 false
  have hover' {x : State} (hx : SameContexts u x) (hc : ctx = 1) : (x.executing core ctx 1 false).overrun = false :=
    (hsame hx).overrun.trans (hover hc)
  have hbad' {x : State} (hx : SameContexts u x) : (x.executing core ctx 1 false).myCtx.badFetch = none := by
    rwa [(hsame hx).myCtx]
  have hws' {x : State} (hx : SameContexts u x) :
      (x.executing core ctx 1 false).instrWords core ctx (x.executing core ctx 1 false).pc = .ok ws := by
    rwa [(hsame hx).instrWords, (hsame hx).sameWorkspaces.pc]
  have hruns (j : Instr) (t : State → State) (hready : ¬ (isStart j = true ∧ v.myCtx.twin = true) →
      ¬ (privileged j = true ∧ ctx ≠ 0) → (t u).readsPoison j = false →
      ∀ x, SameContexts u x → x.ready core ctx = .ok (j, (t x).fillFor j)) : runs j t := by
    intro hstart hpriv hpoison one
    have hone (x : State) : executed j ((t x).fillFor j) = one x := by
      dsimp only [one]
      rewrite [executed]
      cases exec j ((t x).fillFor j) <;> rfl
    rewrite [step_issue hagenda hcore, stepIssue_of_ready (t := fun x => (t x).fillFor j) hpick (hready hstart hpriv hpoison),
      hone, hone]
    clear_value one
    generalize one (u.noteIssue core ctx cyc) = noted, one u = plain
    rfl
  refine ⟨fun hreps hdec => hruns i (fun x => at_ x n false) fun hstart hpriv hpoison x hx => ?_,
    fun k before hplace hdec hbody hok => hruns (renameInstr shift i)
      (fun x => at_ ((at_ x 1 false).noteBody before n) n (k == bits (v.cx cxREPS) 23 20)) fun hstart hpriv hpoison x hx => ?_⟩
  · exact ready_outside rfl (hover' hx) (hbad' hx) (hws' hx) ((hsame hx).placeIn.trans (placeIn_outside hreps)) hdec
      (by rwa [(hsame hx).myCtx]) hpriv (((hx.executing core ctx n false).readsPoison i).trans hpoison)
  · have hreps := (hsame hx).sameWorkspaces.cx cxREPS
    have hshift : (x.executing core ctx 1 false).renumbering = shift := by rw [State.renumbering, hreps]
    have hpass : (x.executing core ctx 1 false).inPass k before n =
      at_ ((at_ x 1 false).noteBody before n) n (k == bits (v.cx cxREPS) 23 20) := by rw [State.inPass, hreps]; rfl
    have hsame' := ((hsame hx).noteBody before n).executing core ctx n (k == bits (v.cx cxREPS) 23 20)
    have h := ready_inside (i := i) (n := n) rfl (hover' hx) (hbad' hx) (hws' hx) ((hsame hx).placeIn.trans hplace)
    rw [hshift, hpass, (hsame hx).myCtx] at h
    exact h hdec hbody hok hstart hpriv ((hsame'.readsPoison _).trans hpoison)

end Sys2Proof.Machine

/-! # Rounding, order and widening of the number formats (O6)

What a magnitude code means is said once, as a rational number that rises with the code (`mag_strictMono`). The model's rounding then
takes one of the two codes around the exact value (`round_eq`), which is what the statements on rounding, overflow and widening rest on;
the order of FP32 encodings is the order of signed codes. -/

namespace Sys2Proof.Machine

/-! ### Magnitude codes and their values (R56, R58, R63, R64, R67) -/

/-- The magnitude of a finite value. -/
def FVal.mag : FVal → ℚ
  | .fin _ m e => m * 2 ^ e
  | _ => 0

/-- The exponent of the least positive value of a format. -/
def FFmt.ulpMin (f : FFmt) : ℤ := 1 - (f.bias : ℤ) - f.fracBits

/-- The value of a magnitude code. A code above `maxCode` counts on in the same way, as the unbounded exponent range of R58 has it. -/
def FFmt.mag (f : FFmt) (k : ℕ) : ℚ := (f.magVal false k).mag

section
variable (f : FFmt) {neg : Bool} {j k n r : ℕ}

theorem magVal_eq_fin (neg : Bool) (k : ℕ) : ∃ m e, f.magVal neg k = .fin neg m e ∧ (m : ℚ) * 2 ^ e = f.mag k := by
  by_cases h : k / 2 ^ f.fracBits = 0
  · exact ⟨_, _, if_pos h, by rw [FFmt.mag, FFmt.magVal, if_pos h]; rfl⟩
  · exact ⟨_, _, if_neg h, by rw [FFmt.mag, FFmt.magVal, if_neg h]; rfl⟩

theorem mag_subnormal (hk : k < 2 ^ f.fracBits) : f.mag k = k * 2 ^ f.ulpMin := by
  rw [FFmt.mag, FFmt.magVal, if_pos (Nat.div_eq_of_lt hk), Nat.mod_eq_of_lt hk]
  rfl

theorem mag_normal (hr : r < 2 ^ f.fracBits) :
    f.mag ((j + 1) * 2 ^ f.fracBits + r) = ((r + 2 ^ f.fracBits : ℕ) : ℚ) * 2 ^ (f.ulpMin + j) := by
  have hdiv : ((j + 1) * 2 ^ f.fracBits + r) / 2 ^ f.fracBits = j + 1 := by
    rw [Nat.add_comm, Nat.add_mul_div_right _ _ (by positivity), Nat.div_eq_of_lt hr, Nat.zero_add]
  have hmod : ((j + 1) * 2 ^ f.fracBits + r) % 2 ^ f.fracBits = r := by
    rw [Nat.add_comm, Nat.add_mul_mod_self_right, Nat.mod_eq_of_lt hr]
  have hexp : ((j + 1 : ℕ) : ℤ) - f.bias - f.fracBits = f.ulpMin + j := by
    rw [FFmt.ulpMin]; push_cast; ring
  rw [FFmt.mag, FFmt.magVal, hdiv, hmod, if_neg (Nat.succ_ne_zero j), hexp]
  rfl

/-- `n` units of a binade's size, the binade's upper end included. -/
theorem mag_units (hn : n ≤ 2 ^ (f.fracBits + 1)) (hj : j = 0 ∨ 2 ^ f.fracBits ≤ n) :
    f.mag (j * 2 ^ f.fracBits + n) = n * 2 ^ (f.ulpMin + j) := by
  rw [pow_succ] at hn
  rcases lt_or_ge n (2 ^ f.fracBits) with hlow | hhigh
  · obtain rfl : j = 0 := hj.resolve_right (by omega)
    simpa using mag_subnormal f hlow
  · obtain ⟨r, rfl⟩ := Nat.exists_eq_add_of_le' hhigh
    rcases (show r ≤ 2 ^ f.fracBits by omega).lt_or_eq with hr | rfl
    · rw [← mag_normal f hr]
      congr 1
      ring
    · have h := mag_normal f (j := j + 1) (r := 0) (by positivity)
      rw [show j * 2 ^ f.fracBits + (2 ^ f.fracBits + 2 ^ f.fracBits) = (j + 1 + 1) * 2 ^ f.fracBits + 0 by ring, h]
      push_cast
      rw [← add_assoc, zpow_add_one₀ (by norm_num)]
      ring

theorem exists_units (k : ℕ) :
    ∃ j n, k = j * 2 ^ f.fracBits + n ∧ n < 2 ^ (f.fracBits + 1) ∧ (j = 0 ∨ 2 ^ f.fracBits ≤ n) := by
  rw [pow_succ]
  by_cases hk : k < 2 ^ f.fracBits
  · exact ⟨0, k, by simp, by omega, .inl rfl⟩
  · have hpos : 0 < k / 2 ^ f.fracBits := Nat.div_pos (by omega) (by positivity)
    have hmod : k % 2 ^ f.fracBits < 2 ^ f.fracBits := Nat.mod_lt _ (by positivity)
    refine ⟨k / 2 ^ f.fracBits - 1, k % 2 ^ f.fracBits + 2 ^ f.fracBits, ?_, by omega, .inr (by omega)⟩
    have hsplit := Nat.div_add_mod' k (2 ^ f.fracBits)
    obtain ⟨i, hi⟩ := Nat.exists_eq_add_of_lt hpos
    rw [hi] at hsplit ⊢
    rw [Nat.add_sub_cancel]
    linarith

theorem mag_strictMono : StrictMono f.mag := by
  refine strictMono_nat_of_lt_succ fun k => ?_
  obtain ⟨j, n, rfl, hn, hj⟩ := exists_units f k
  rw [mag_units f hn.le hj, add_assoc, mag_units f hn (hj.imp_right (·.trans n.le_succ))]
  have hpos : (0 : ℚ) < 2 ^ (f.ulpMin + j) := by positivity
  gcongr
  exact n.lt_succ_self

@[simp] theorem mag_zero : f.mag 0 = 0 := by simp [mag_subnormal f (k := 0) (by positivity)]

end

/-! ### The code that an exact value is rounded to (R58) -/

/-- The code that a value from `v c` up to `v (c + 1)` is rounded to. -/
def roundedCode (v : ℕ → ℚ) (mode : RoundMode) (neg : Bool) (x : ℚ) (c : ℕ) : ℕ :=
  c + (roundsUp mode neg (c % 2 == 1) (decide (v c ≠ x)) (cmp x ((v c + v (c + 1)) / 2))).toNat

theorem roundsUp_inward {mode : RoundMode} {neg odd inexact : Bool} {half : Ordering}
    (h : mode = .rtz ∨ (mode = .rdn ∧ neg = false) ∨ (mode = .rup ∧ neg = true)) : roundsUp mode neg odd inexact half = false := by
  rcases h with rfl | ⟨rfl, rfl⟩ | ⟨rfl, rfl⟩ <;> rfl

theorem roundsUp_outward {mode : RoundMode} {neg odd inexact : Bool} {half : Ordering}
    (h : (mode = .rup ∧ neg = false) ∨ (mode = .rdn ∧ neg = true)) : roundsUp mode neg odd inexact half = inexact := by
  rcases h with ⟨rfl, rfl⟩ | ⟨rfl, rfl⟩ <;> rfl

section
variable {v : ℕ → ℚ} {x : ℚ} {c k : ℕ} {mode : RoundMode} {neg : Bool}

theorem roundedCode_inward (h : mode = .rtz ∨ (mode = .rdn ∧ neg = false) ∨ (mode = .rup ∧ neg = true)) :
    roundedCode v mode neg x c = c := by rw [roundedCode, roundsUp_inward h]; rfl

theorem roundedCode_outward (h : (mode = .rup ∧ neg = false) ∨ (mode = .rdn ∧ neg = true)) :
    roundedCode v mode neg x c = if v c = x then c else c + 1 := by
  rw [roundedCode, roundsUp_outward h]
  by_cases hx : v c = x <;> simp [hx]

variable (hv : StrictMono v)
include hv

theorem le_iff_of_between (hlo : v c ≤ x) (hhi : x < v (c + 1)) : v k ≤ x ↔ k ≤ c :=
  ⟨fun h => Nat.lt_succ_iff.1 (hv.lt_iff_lt.1 (h.trans_lt hhi)), fun h => (hv.monotone h).trans hlo⟩

theorem eq_of_between (hlo : v c ≤ x) (hhi : x < v (c + 1)) (h : v k = x) : k = c :=
  ((le_iff_of_between hv hlo hhi).1 h.le).antisymm (hv.le_iff_le.1 (hlo.trans h.ge))

theorem dist_of_le (hlo : v c ≤ x) (hk : k ≤ c) : |v k - x| = x - v k := by
  rw [abs_sub_comm, abs_of_nonneg (sub_nonneg.2 ((hv.monotone hk).trans hlo))]

theorem dist_of_succ_le (hhi : x < v (c + 1)) (hk : c + 1 ≤ k) : |v k - x| = v k - x :=
  abs_of_pos (sub_pos.2 (hhi.trans_le (hv.monotone hk)))

/-- No other code up to `c` is as near as `c`. -/
theorem dist_lt_of_lt (hlo : v c ≤ x) (hk : k < c) : |v c - x| < |v k - x| := by
  rw [dist_of_le hv hlo le_rfl, dist_of_le hv hlo hk.le]
  exact sub_lt_sub_left (hv hk) x

/-- No other code from `c + 1` on is as near as `c + 1`. -/
theorem dist_lt_of_succ_lt (hhi : x < v (c + 1)) (hk : c + 1 < k) : |v (c + 1) - x| < |v k - x| := by
  rw [dist_of_succ_le hv hhi le_rfl, dist_of_succ_le hv hhi hk.le]
  exact sub_lt_sub_right (hv hk) x

/-- Of all codes the two around `x` are the nearest. -/
theorem dist_of_between (hlo : v c ≤ x) (hhi : x < v (c + 1)) (k : ℕ) :
    k = c ∨ k = c + 1 ∨ |v c - x| < |v k - x| ∨ |v (c + 1) - x| < |v k - x| := by
  rcases lt_trichotomy k c with h | h | h
  · exact .inr (.inr (.inl (dist_lt_of_lt hv hlo h)))
  · exact .inl h
  · rcases (Nat.succ_le_of_lt h).eq_or_lt with h | h
    · exact .inr (.inl h.symm)
    · exact .inr (.inr (.inr (dist_lt_of_succ_lt hv hhi h)))

theorem cmp_mid (hlo : v c ≤ x) (hhi : x < v (c + 1)) :
    cmp x ((v c + v (c + 1)) / 2) = cmp |v c - x| |v (c + 1) - x| := by
  rw [dist_of_le hv hlo le_rfl, dist_of_succ_le hv hhi le_rfl]
  rcases lt_trichotomy x ((v c + v (c + 1)) / 2) with h | h | h
  · rw [h.cmp_eq_lt, LT.lt.cmp_eq_lt (by linarith)]
  · rw [h.cmp_eq_eq, Eq.cmp_eq_eq (by linarith)]
  · rw [h.cmp_eq_gt, LT.lt.cmp_eq_gt (by linarith)]

/-- The nearer of the two codes around `x`, which is even where both are as near, is the nearest of all. -/
theorem nearest_of_nearer {b o : ℕ} (hbo : b = c ∧ o = c + 1 ∨ b = c + 1 ∧ o = c) (hlo : v c ≤ x) (hhi : x < v (c + 1))
    (hle : |v b - x| ≤ |v o - x|) (heven : |v o - x| = |v b - x| → b % 2 = 0) (k : ℕ) :
    |v b - x| ≤ |v k - x| ∧ (k ≠ b → |v k - x| = |v b - x| → b % 2 = 0) := by
  have hk : k = b ∨ k = o ∨ |v b - x| < |v k - x| := by
    rcases hbo with ⟨rfl, rfl⟩ | ⟨rfl, rfl⟩ <;> rcases dist_of_between hv hlo hhi k with h | h | h | h
    exacts [.inl h, .inr (.inl h), .inr (.inr h), .inr (.inr (hle.trans_lt h)), .inr (.inl h), .inl h, .inr (.inr (hle.trans_lt h)),
      .inr (.inr h)]
  rcases hk with rfl | rfl | hk
  · exact ⟨le_rfl, fun hne => absurd rfl hne⟩
  · exact ⟨hle, fun _ => heven⟩
  · exact ⟨hk.le, fun _ heq => absurd heq hk.ne'⟩

/-- Rounding to nearest delivers the nearest code, and of two that are as near the even one. -/
theorem roundedCode_nearest (hlo : v c ≤ x) (hhi : x < v (c + 1)) (k : ℕ) :
    |v (roundedCode v .rne neg x c) - x| ≤ |v k - x| ∧
    (k ≠ roundedCode v .rne neg x c → |v k - x| = |v (roundedCode v .rne neg x c) - x| → roundedCode v .rne neg x c % 2 = 0) := by
  have nearer {b o : ℕ} (hbo) := nearest_of_nearer hv (b := b) (o := o) hbo hlo hhi (k := k)
  rw [roundedCode, cmp_mid hv hlo hhi]
  rcases lt_trichotomy |v c - x| |v (c + 1) - x| with h | h | h
  · rw [h.cmp_eq_lt]
    exact nearer (.inl ⟨rfl, rfl⟩) h.le fun heq => absurd heq h.ne'
  · rw [h.cmp_eq_eq]
    rcases Nat.mod_two_eq_zero_or_one c with hc | hc <;> rw [roundsUp, hc]
    · exact nearer (.inl ⟨rfl, rfl⟩) h.le fun _ => hc
    · exact nearer (.inr ⟨rfl, rfl⟩) h.ge fun _ => Nat.succ_mod_two_eq_zero_iff.2 hc
  · rw [h.cmp_eq_gt]
    exact nearer (.inr ⟨rfl, rfl⟩) h.le fun heq => absurd heq h.ne'

theorem roundedCode_of_exact (h : v c = x) : roundedCode v mode neg x c = c := by
  have hmid : cmp x ((v c + v (c + 1)) / 2) = .lt := LT.lt.cmp_eq_lt (by linarith [hv c.lt_succ_self])
  rw [roundedCode, hmid, decide_eq_false (not_not.2 h)]
  cases mode <;> cases neg <;> rfl

/-- What is delivered is exact only where the code below is. -/
theorem roundedCode_exact_iff (hlo : v c ≤ x) (hhi : x < v (c + 1)) : v (roundedCode v mode neg x c) = x ↔ v c = x := by
  refine ⟨fun h => ?_, fun h => by rwa [roundedCode_of_exact hv h]⟩
  rwa [eq_of_between hv hlo hhi h] at h

end

/-! ### The model's rounding by the two codes around the exact value (R58, R59, R62) -/

section
variable {f : FFmt} {m n : ℕ} {e q : ℤ} {t : ℚ}

/-- A quotient and its remainder as a whole number of units and a fraction of one. -/
theorem units_of_quotient (m k : ℕ) : (m : ℚ) = ((m / 2 ^ k : ℕ) + (m % 2 ^ k : ℕ) / 2 ^ k) * 2 ^ k := by
  rw [add_mul, div_mul_cancel₀ _ (by positivity)]
  exact_mod_cast (Nat.div_add_mod' m (2 ^ k)).symm

theorem ite_eq_cmp {α : Type} [LinearOrder α] (a b : α) :
    (if a < b then Ordering.lt else if a = b then .eq else .gt) = cmp a b := by
  rcases lt_trichotomy a b with h | h | h
  · rw [if_pos h, h.cmp_eq_lt]
  · rw [if_neg h.not_lt, if_pos h, h.cmp_eq_eq]
  · rw [if_neg h.not_gt, if_neg h.ne', h.cmp_eq_gt]

theorem cmp_half_units {k : ℕ} (hk : 0 < k) (r : ℕ) : cmp r (2 ^ (k - 1)) = cmp ((r : ℚ) / 2 ^ k) (1 / 2) := by
  have hhalf : (1 : ℚ) / 2 = ((2 ^ (k - 1) : ℕ) : ℚ) / 2 ^ k := by
    rw [div_eq_div_iff (by norm_num) (by positivity), one_mul]
    exact_mod_cast (pow_sub_one_mul hk.ne' 2).symm
  rw [hhalf]
  exact (((strictMono_div_right_of_pos (a := (2 ^ k : ℚ)) (by positivity)).comp Nat.strictMono_cast).cmp_map_eq _ _).symm

theorem zpow_log2_le (hm : 0 < m) (e : ℤ) : (2 : ℚ) ^ (e + Nat.log2 m) ≤ m * 2 ^ e := by
  rw [add_comm, zpow_add₀ two_ne_zero, zpow_natCast]
  gcongr
  exact_mod_cast Nat.log2_self_le hm.ne'

theorem lt_zpow_log2 (m : ℕ) (e : ℤ) : (m * 2 ^ e : ℚ) < 2 ^ (e + Nat.log2 m + 1) := by
  rw [show e + Nat.log2 m + 1 = ((Nat.log2 m + 1 : ℕ) : ℤ) + e by push_cast; ring, zpow_add₀ two_ne_zero, zpow_natCast]
  gcongr
  exact_mod_cast Nat.lt_log2_self

/-- An exact value of `n + t` units of the exponent that the rounding works at lies between two codes. -/
theorem mag_of_units (hm : 0 < m) (hq : q = max (e + Nat.log2 m - f.fracBits) f.ulpMin) (hx : (m : ℚ) * 2 ^ e = (n + t) * 2 ^ q)
    (h0 : 0 ≤ t) (h1 : t < 1) :
    f.mag ((q - f.ulpMin).toNat * 2 ^ f.fracBits + n) = n * 2 ^ q ∧
    f.mag ((q - f.ulpMin).toNat * 2 ^ f.fracBits + n + 1) = (n + 1) * 2 ^ q := by
  have hunit : (0 : ℚ) < 2 ^ q := by positivity
  have hn : n < 2 ^ (f.fracBits + 1) := by
    have h : (n : ℚ) * 2 ^ q < 2 ^ (f.fracBits + 1) * 2 ^ q := by
      calc (n : ℚ) * 2 ^ q ≤ m * 2 ^ e := by rw [hx]; gcongr; linarith
        _ < 2 ^ (e + Nat.log2 m + 1) := lt_zpow_log2 m e
        _ ≤ 2 ^ (((f.fracBits + 1 : ℕ) : ℤ) + q) := zpow_le_zpow_right₀ (by norm_num) (by push_cast; omega)
        _ = 2 ^ (f.fracBits + 1) * 2 ^ q := by rw [zpow_add₀ (by norm_num), zpow_natCast]
    exact_mod_cast lt_of_mul_lt_mul_right h hunit.le
  have hj : (q - f.ulpMin).toNat = 0 ∨ 2 ^ f.fracBits ≤ n := by
    by_cases hmin : q ≤ f.ulpMin
    · exact .inl (by omega)
    · have h : 2 ^ f.fracBits * 2 ^ q ≤ ((n : ℚ) + t) * 2 ^ q := by
        rw [← hx, ← zpow_natCast, ← zpow_add₀ (by norm_num), show (f.fracBits : ℤ) + q = e + Nat.log2 m by omega]
        exact zpow_log2_le hm e
      have h' : (2 ^ f.fracBits : ℚ) < n + 1 := (le_of_mul_le_mul_right h hunit).trans_lt (by linarith)
      exact .inr (Nat.lt_succ_iff.1 (by exact_mod_cast h'))
  have hexp : f.ulpMin + ((q - f.ulpMin).toNat : ℤ) = q := by omega
  rw [add_assoc, mag_units f hn.le hj, mag_units f hn (hj.imp_right (·.trans n.le_succ)), hexp]
  exact ⟨rfl, by push_cast; rfl⟩

/-- `n + t` units of the exponent that the rounding works at, by the two codes around them. -/
theorem roundedCode_units (hp : 1 ≤ f.fracBits) (hm : 0 < m) (hq : q = max (e + Nat.log2 m - f.fracBits) f.ulpMin)
    (hx : (m : ℚ) * 2 ^ e = (n + t) * 2 ^ q) (h0 : 0 ≤ t) (h1 : t < 1) {c : ℕ} (hc : (q - f.ulpMin).toNat * 2 ^ f.fracBits + n = c)
    (mode : RoundMode) (neg : Bool) :
    f.mag c ≤ m * 2 ^ e ∧ m * 2 ^ e < f.mag (c + 1) ∧ decide (f.mag c ≠ m * 2 ^ e) = decide (t ≠ 0) ∧
    roundedCode f.mag mode neg (m * 2 ^ e) c = c + (roundsUp mode neg (n % 2 == 1) (decide (t ≠ 0)) (cmp t (1 / 2))).toNat := by
  obtain ⟨hlo, hhi⟩ := mag_of_units hm hq hx h0 h1
  rw [hc] at hlo hhi
  have hunit : (0 : ℚ) < 2 ^ q := by positivity
  have hodd : c % 2 = n % 2 := by
    rw [← hc, Nat.add_mod, Nat.mul_mod, Nat.pow_mod, Nat.mod_self, Nat.zero_pow hp]
    simp
  have hexact : decide (f.mag c ≠ m * 2 ^ e) = decide (t ≠ 0) := by
    rw [decide_eq_decide, hlo, hx, ne_eq, mul_left_inj' hunit.ne']
    simp
  have hhalf : cmp (m * 2 ^ e : ℚ) ((f.mag c + f.mag (c + 1)) / 2) = cmp t (1 / 2) := by
    rw [hlo, hhi, hx, show ((n : ℚ) * 2 ^ q + (n + 1) * 2 ^ q) / 2 = (n + 1 / 2) * 2 ^ q by ring, cmp_mul_pos_right hunit, cmp_add_left]
  refine ⟨?_, ?_, hexact, by rw [roundedCode, hexact, hhalf, hodd]⟩
  · rw [hlo, hx]
    gcongr
    linarith
  · rw [hhi, hx]
    gcongr

/-- The one rounding: of the two codes around the exact value the one that the mode selects, or R59's where that exceeds the largest. -/
theorem round_eq (hp : 1 ≤ f.fracBits) (hm : 0 < m) (sat neg : Bool) (mode : RoundMode) (e : ℤ) :
    ∃ c, f.mag c ≤ m * 2 ^ e ∧ m * 2 ^ e < f.mag (c + 1) ∧
      f.round sat mode neg m e false = if f.maxCode < roundedCode f.mag mode neg (m * 2 ^ e) c
        then (f.signBit neg + f.overflowCode sat mode neg, { of := true, nx := true })
        else (f.signBit neg + roundedCode f.mag mode neg (m * 2 ^ e) c,
          { nx := decide (f.mag c ≠ m * 2 ^ e),
            uf := decide (f.mag c ≠ m * 2 ^ e) && decide (e + Nat.log2 m < 1 - (f.bias : ℤ)) }) := by
  obtain ⟨q, hq⟩ : ∃ q, q = max (e + Nat.log2 m - f.fracBits) f.ulpMin := ⟨_, rfl⟩
  have hq' : max (e + Nat.log2 m - f.fracBits) (1 - (f.bias : ℤ) - f.fracBits) = q := hq.symm
  rw [FFmt.round, if_neg hm.ne']
  simp only [hq', Bool.not_false, Bool.and_true, Bool.or_false, decide_eq_true_eq]
  by_cases hqe : q ≤ e
  · have hx : (m : ℚ) * 2 ^ e = ((m * 2 ^ (e - q).toNat : ℕ) + 0) * 2 ^ q := by
      rw [add_zero, Nat.cast_mul, Nat.cast_pow, mul_assoc, ← zpow_natCast, Nat.cast_ofNat, ← zpow_add₀ (by norm_num)]
      congr
      omega
    obtain ⟨hlo, hhi, hexact, hcode⟩ := roundedCode_units hp hm hq hx le_rfl zero_lt_one rfl mode neg
    refine ⟨_, hlo, hhi, ?_⟩
    rw [hcode, hexact, LT.lt.cmp_eq_lt (by norm_num : (0 : ℚ) < 1 / 2)]
    simp only [if_pos hqe, ← add_assoc, ne_eq, not_true_eq_false, decide_false]
    rfl
  · have hk : 0 < (q - e).toNat := by omega
    have hx : (m : ℚ) * 2 ^ e = ((m / 2 ^ (q - e).toNat : ℕ) + (m % 2 ^ (q - e).toNat : ℕ) / 2 ^ (q - e).toNat) * 2 ^ q := by
      conv_lhs => rw [units_of_quotient m (q - e).toNat]
      rw [mul_assoc, ← zpow_natCast 2 (q - e).toNat, ← zpow_add₀ (by norm_num)]
      congr
      omega
    obtain ⟨hlo, hhi, hexact, hcode⟩ := roundedCode_units hp hm hq hx (by positivity)
      ((div_lt_one (by positivity)).2 (by exact_mod_cast Nat.mod_lt m (by positivity))) rfl mode neg
    refine ⟨_, hlo, hhi, ?_⟩
    have hzero : decide (((m % 2 ^ (q - e).toNat : ℕ) / 2 ^ (q - e).toNat : ℚ) ≠ 0) = (m % 2 ^ (q - e).toNat != 0) := by
      rw [Bool.eq_iff_iff]
      simp
    rw [hcode, hexact, ← cmp_half_units hk, ← ite_eq_cmp, hzero]
    simp only [if_neg hqe, ← add_assoc]
    rfl

end

theorem fracBits_pos : ∀ f ∈ [fp32, bf16, e4m3, e5m2, e2m1], 1 ≤ f.fracBits := by decide

theorem roundingIsCorrect : Claims.RoundingIsCorrect := by
  intro f hf sat neg mode m e hm r x val down up hof
  have hval (k : ℕ) : val k = f.mag k := by rfl
  clear_value val
  obtain rfl : val = f.mag := funext hval
  have hv := mag_strictMono f
  obtain ⟨c, hlo, hhi, hround⟩ := round_eq (fracBits_pos f hf) hm sat neg mode e
  replace hround : r = _ := hround
  split_ifs at hround with hover
  · rw [hround] at hof
    cases hof
  · rw [hround]
    refine ⟨_, not_lt.1 hover, rfl, ?_, ?_, fun h => ?_, fun h => ?_⟩
    · rw [decide_eq_true_iff, not_iff_not]
      exact (roundedCode_exact_iff hv hlo hhi).symm
    · rintro rfl k -
      exact roundedCode_nearest hv hlo hhi k
    · rw [roundedCode_inward h]
      exact ⟨hlo, fun k _ hk => hv.monotone ((le_iff_of_between hv hlo hhi).1 hk)⟩
    · rw [roundedCode_outward h]
      split_ifs with hx
      · exact ⟨hx.ge, fun k _ hk => hx.trans_le hk⟩
      · exact ⟨hhi.le, fun k _ hk => hv.monotone (hv.lt_iff_lt.1 ((lt_of_le_of_ne hlo hx).trans_le hk))⟩

theorem overflowCode_eq (f : FFmt) (sat neg : Bool) (mode : RoundMode) :
    f.overflowCode sat mode neg =
      if f.hasInf && !sat && (mode == .rne || (mode == .rup && !neg) || (mode == .rdn && neg)) then f.maxCode + 1 else f.maxCode := by
  unfold FFmt.overflowCode
  cases f.hasInf && !sat
  · rfl
  · cases mode <;> cases neg <;> rfl

theorem overflowRule : Claims.OverflowRule := by
  intro f hf sat neg mode m e hm r hof
  obtain ⟨c, -, -, hround⟩ := round_eq (fracBits_pos f hf) hm sat neg mode e
  replace hround : r = _ := hround
  split_ifs at hround with hover
  · rw [hround, ← overflowCode_eq]
    exact ⟨rfl, rfl, rfl, rfl⟩
  · rw [hround] at hof
    cases hof

/-! ### Widening (R56, R63 to R65, R67) -/

section
variable {f : FFmt} {neg : Bool} {m k : ℕ} {e : ℤ}

/-- A value that the format holds is delivered as it is. -/
theorem round_of_mag_eq (hp : 1 ≤ f.fracBits) (hm : 0 < m) (hk : k ≤ f.maxCode) (h : f.mag k = m * 2 ^ e) (sat neg : Bool)
    (mode : RoundMode) : f.round sat mode neg m e false = (f.signBit neg + k, {}) := by
  obtain ⟨c, hlo, hhi, hround⟩ := round_eq hp hm sat neg mode e
  obtain rfl := eq_of_between (mag_strictMono f) hlo hhi h
  rw [hround, roundedCode_of_exact (mag_strictMono f) h, if_neg hk.not_gt, decide_eq_false (not_not.2 h)]
  rfl

/-- Every multiple of a format's least value that fits its fraction has a code. -/
theorem exists_mag_eq (f : FFmt) (j : ℕ) (m : ℕ) (hm : m ≤ 2 ^ (f.fracBits + 1)) : ∃ k, f.mag k = m * 2 ^ (f.ulpMin + j) := by
  induction j generalizing m with
  | zero => exact ⟨_, mag_units f hm (.inl rfl)⟩
  | succ j ih =>
    by_cases h : 2 ^ f.fracBits ≤ m
    · exact ⟨_, mag_units f hm (.inr h)⟩
    · obtain ⟨k, hk⟩ := ih (2 * m) (by rw [pow_succ]; omega)
      refine ⟨k, hk.trans ?_⟩
      push_cast
      rw [← add_assoc, zpow_add_one₀ (by norm_num)]
      ring

/-- The sign and the magnitude code of an encoding are read back. -/
theorem decode_signBit_add (hk : k < 2 ^ (f.expBits + f.fracBits)) :
    f.decode (f.signBit neg + k) = if k ≤ f.maxCode then f.magVal neg k
      else if f.hasInf && k == f.maxCode + 1 then .inf neg
      else .nan (f.hasInf && k / 2 ^ (f.fracBits - 1) % 2 == 0) := by
  have hpos : 0 < 2 ^ (f.expBits + f.fracBits) := by positivity
  have hdiv : (f.signBit neg + k) / 2 ^ (f.expBits + f.fracBits) = neg.toNat := by
    rw [FFmt.signBit, Nat.add_comm, Nat.add_mul_div_right _ _ hpos, Nat.div_eq_of_lt hk, Nat.zero_add]
  have hmod : (f.signBit neg + k) % 2 ^ (f.expBits + f.fracBits) = k := by
    rw [FFmt.signBit, Nat.add_comm, Nat.add_mul_mod_self_right, Nat.mod_eq_of_lt hk]
  have hneg : (neg.toNat % 2 == 1) = neg := by cases neg <;> rfl
  rw [FFmt.decode, hdiv, hmod, hneg]

theorem decode_signBit_inf (hinf : f.hasInf = true) (hw : f.maxCode + 1 < 2 ^ (f.expBits + f.fracBits)) :
    f.decode (f.signBit neg + (f.maxCode + 1)) = .inf neg := by
  rw [decode_signBit_add hw, if_neg (Nat.not_succ_le_self _), if_pos (by simp [hinf])]

/-- Every encoding is a sign and a magnitude code. -/
theorem exists_signBit_add {c : ℕ} (f : FFmt) (hc : c < 2 ^ (f.expBits + f.fracBits + 1)) :
    ∃ neg k, k < 2 ^ (f.expBits + f.fracBits) ∧ c = f.signBit neg + k := by
  rw [pow_succ] at hc
  by_cases h : c < 2 ^ (f.expBits + f.fracBits)
  · exact ⟨false, c, h, by simp [FFmt.signBit]⟩
  · exact ⟨true, c - 2 ^ (f.expBits + f.fracBits), by omega, by simp only [FFmt.signBit, Bool.toNat_true, one_mul]; omega⟩

theorem magVal_bounds {neg' : Bool} (h : f.magVal neg k = .fin neg' m e) (hk : k < 2 ^ (f.expBits + f.fracBits)) :
    m < 2 ^ (f.fracBits + 1) ∧ f.ulpMin ≤ e ∧ e < 2 ^ f.expBits + f.ulpMin := by
  have hmod : k % 2 ^ f.fracBits < 2 ^ f.fracBits := Nat.mod_lt _ (by positivity)
  have hdiv : ((k / 2 ^ f.fracBits : ℕ) : ℤ) < 2 ^ f.expBits := by
    exact_mod_cast Nat.div_lt_of_lt_mul (by rwa [← pow_add, Nat.add_comm])
  rw [FFmt.magVal] at h
  unfold FFmt.ulpMin
  rw [pow_succ]
  generalize k / 2 ^ f.fracBits = d at h hdiv
  split_ifs at h with hexp <;> obtain ⟨-, rfl, rfl⟩ := h <;> omega

/-- The mantissa and the exponent of the value of any encoding. -/
theorem decode_bounds {c : ℕ} (h : f.decode c = .fin neg m e) :
    m < 2 ^ (f.fracBits + 1) ∧ f.ulpMin ≤ e ∧ e < 2 ^ f.expBits + f.ulpMin := by
  rw [FFmt.decode] at h
  split_ifs at h
  exact magVal_bounds h (Nat.mod_lt _ (by positivity))

end

/-- That two values are the same number, of either form. -/
def FVal.Same (v w : FVal) : Prop :=
  match v, w with
  | .fin n m e, .fin n' m' e' => n = n' ∧ (m : ℚ) * 2 ^ e = m' * 2 ^ e'
  | .inf n, .inf n' => n = n'
  | _, _ => False

theorem same_magVal {f g : FFmt} {k l : ℕ} (neg : Bool) (h : f.mag k = g.mag l) : (f.magVal neg k).Same (g.magVal neg l) := by
  obtain ⟨m, e, hf, hm⟩ := magVal_eq_fin f neg k
  obtain ⟨m', e', hg, hm'⟩ := magVal_eq_fin g neg l
  rw [hf, hg]
  exact ⟨rfl, by rw [hm, h, hm']⟩

theorem mag_fp32_shift (k : ℕ) : fp32.mag (k * 2 ^ 16) = bf16.mag k := by
  obtain ⟨j, n, rfl, hn, hj⟩ := exists_units bf16 k
  have hb : bf16.mag (j * 2 ^ 7 + n) = n * 2 ^ (-133 + j : ℤ) := mag_units bf16 hn.le hj
  have hs : fp32.mag (j * 2 ^ 23 + n * 2 ^ 16) = (n * 2 ^ 16 : ℕ) * 2 ^ (-149 + j : ℤ) :=
    mag_units fp32 (by change n < 2 ^ 8 at hn; change _ ≤ 2 ^ 24; omega)
      (hj.imp_right fun h => by change 2 ^ 7 ≤ n at h; change 2 ^ 23 ≤ _; omega)
  change fp32.mag ((j * 2 ^ 7 + n) * 2 ^ 16) = bf16.mag (j * 2 ^ 7 + n)
  rw [hb, show (j * 2 ^ 7 + n) * 2 ^ 16 = j * 2 ^ 23 + n * 2 ^ 16 by ring, hs, show (-133 + j : ℤ) = 16 + (-149 + j) by ring,
    zpow_add₀ two_ne_zero 16]
  push_cast
  rw [mul_assoc]

theorem decode_fp32_of_le {neg : Bool} {k : ℕ} (hk : k ≤ fp32.maxCode) : fp32.decode (fp32.signBit neg + k) = fp32.magVal neg k := by
  rw [decode_signBit_add (hk.trans_lt (by decide)), if_pos hk]

/-- R56: sixteen zero bits appended to a BF16 encoding give the FP32 encoding of the same value. -/
theorem same_decode_shift {c : ℕ} (hc : c < 2 ^ 16) (hnan : (bf16.decode c).isNan = false) :
    (fp32.decode (c * 2 ^ 16)).Same (bf16.decode c) := by
  obtain ⟨neg, k, hk, rfl⟩ := exists_signBit_add bf16 hc
  change k < 2 ^ 15 at hk
  have hshift : (bf16.signBit neg + k) * 2 ^ 16 = fp32.signBit neg + k * 2 ^ 16 := by
    change (neg.toNat * 2 ^ 15 + k) * 2 ^ 16 = neg.toNat * 2 ^ 31 + k * 2 ^ 16
    ring
  rw [hshift]
  by_cases hfin : k ≤ bf16.maxCode
  · rw [decode_signBit_add (f := bf16) hk, if_pos hfin, decode_fp32_of_le (by change k ≤ 0x7F7F at hfin; change k * 2 ^ 16 ≤ 0x7F7FFFFF; omega)]
    exact same_magVal neg (mag_fp32_shift k)
  · by_cases hinf : k = bf16.maxCode + 1
    · rw [hinf, decode_signBit_inf rfl (by decide)]
      rw [show (bf16.maxCode + 1) * 2 ^ 16 = fp32.maxCode + 1 from rfl, decode_signBit_inf rfl (by decide)]
      rfl
    · rw [decode_signBit_add hk, if_neg hfin, if_neg (by simpa using fun _ => hinf)] at hnan
      cases hnan

/-- FP32 holds every value of at most 24 bits within its range, and widening gives its encoding. -/
theorem same_widen_fin {m : ℕ} {e : ℤ} (neg : Bool) (hm : m < 2 ^ 24) (hmin : -149 ≤ e) (hmax : e ≤ 100) :
    (fp32.decode (widen (.fin neg m e))).Same (.fin neg m e) := by
  rcases m.eq_zero_or_pos with rfl | hpos
  · have hround : widen (.fin neg 0 e) = fp32.signBit neg + 0 := by rw [widen, FFmt.narrow, FFmt.round, if_pos rfl, Nat.add_zero]
    rw [hround, decode_fp32_of_le (Nat.zero_le _)]
    exact ⟨rfl, by simp⟩
  · obtain ⟨k, hk⟩ := exists_mag_eq fp32 (e + 149).toNat m hm.le
    rw [show fp32.ulpMin + ((e + 149).toNat : ℤ) = e by change -149 + ((e + 149).toNat : ℤ) = e; omega] at hk
    have hinf : fp32.mag (fp32.maxCode + 1) = 2 ^ 23 * 2 ^ (105 : ℤ) := by
      have h := mag_normal fp32 (j := 254) (r := 0) (by decide)
      rw [Nat.zero_add, Nat.cast_pow] at h
      exact h
    have hmax : k ≤ fp32.maxCode := by
      refine Nat.lt_succ_iff.1 ((mag_strictMono fp32).lt_iff_lt.1 ?_)
      have hpow : (2 : ℚ) ^ e ≤ 2 ^ (100 : ℤ) := zpow_le_zpow_right₀ one_le_two hmax
      have hm' : (m : ℚ) < 2 ^ 24 := by exact_mod_cast hm
      rw [hk, hinf]
      calc (m : ℚ) * 2 ^ e ≤ 2 ^ 24 * 2 ^ (100 : ℤ) := by gcongr
        _ < _ := by norm_num
    have hround : widen (.fin neg m e) = fp32.signBit neg + k :=
      congrArg Prod.fst (round_of_mag_eq (by decide) hpos hmax hk false neg .rne)
    obtain ⟨m', e', hval, hmag⟩ := magVal_eq_fin fp32 neg k
    rw [hround, decode_fp32_of_le hmax, hval]
    exact ⟨rfl, hmag.trans hk⟩

theorem decode_widen_inf (neg : Bool) : fp32.decode (widen (.inf neg)) = .inf neg := by
  rw [widen, FFmt.narrow, FFmt.deliver, if_pos (by decide), Nat.add_assoc]
  exact decode_signBit_inf rfl (by decide)

theorem widen_of_isNan {v : FVal} (h : v.isNan = true) : widen v = 0x7FC00000 := by
  cases v with
  | nan s => rfl
  | inf neg => cases h
  | fin neg m e => cases h

theorem narrow_bounds : ∀ p ∈ [(e4m3, 8), (e5m2, 8), (e2m1, 4)],
    p.1.fracBits + 1 ≤ 24 ∧ -149 ≤ p.1.ulpMin ∧ 2 ^ p.1.expBits + p.1.ulpMin ≤ 100 := by decide

/-- R65: every number of a format within FP32's range widens to the FP32 encoding of the same value. -/
theorem same_widen_decode {f : FFmt} {c : ℕ} (hfrac : f.fracBits + 1 ≤ 24) (hmin : -149 ≤ f.ulpMin)
    (hmax : 2 ^ f.expBits + f.ulpMin ≤ 100) (hnan : ¬ (f.decode c).isNan = true) :
    (fp32.decode (widen (f.decode c))).Same (f.decode c) := by
  cases hval : f.decode c with
  | nan s => exact absurd (hval ▸ rfl) hnan
  | inf neg =>
    rw [decode_widen_inf]
    rfl
  | fin neg m e =>
    obtain ⟨hm, he, he'⟩ := decode_bounds hval
    exact same_widen_fin neg (hm.trans_le (Nat.pow_le_pow_right two_pos hfrac)) (hmin.trans he) (by omega)

theorem wideningIsExact : Claims.WideningIsExact := by
  refine ⟨fun c hc hnan => same_decode_shift hc hnan, fun p hp c hc => ?_⟩
  obtain ⟨hfrac, hmin, hmax⟩ := narrow_bounds p hp
  split_ifs with hnan
  · exact widen_of_isNan hnan
  · exact same_widen_decode hfrac hmin hmax hnan

/-! ### The order of FP32 encodings (R87, R88) -/

/-- A magnitude with a sign. -/
def signed {α : Type} [Neg α] (neg : Bool) (x : α) : α := if neg then -x else x

theorem dyOf_at {neg : Bool} {m : ℕ} {e k : ℤ} (h : k ≤ e) : ((dyOf neg m e).at k : ℚ) * 2 ^ k = signed neg ((m : ℚ) * 2 ^ e) := by
  have hpow : (2 : ℚ) ^ (e - k).toNat * 2 ^ k = 2 ^ e := by
    rw [← zpow_natCast, ← zpow_add₀ two_ne_zero]
    congr
    omega
  cases neg <;> simp [Dy.at, dyOf, signed, mul_assoc, hpow]

theorem lt_fin {n n' : Bool} {m m' : ℕ} {e e' : ℤ} :
    (FVal.fin n m e).lt (.fin n' m' e') = true ↔ signed n ((m : ℚ) * 2 ^ e) < signed n' ((m' : ℚ) * 2 ^ e') := by
  rw [FVal.lt, decide_eq_true_iff, ← dyOf_at (min_le_left e e'), ← dyOf_at (min_le_right e e'),
    mul_lt_mul_iff_left₀ (by positivity), Int.cast_lt]

theorem eq_fin {n n' : Bool} {m m' : ℕ} {e e' : ℤ} :
    (FVal.fin n m e).eq (.fin n' m' e') = true ↔ signed n ((m : ℚ) * 2 ^ e) = signed n' ((m' : ℚ) * 2 ^ e') := by
  rw [FVal.eq, decide_eq_true_iff, ← dyOf_at (min_le_left e e'), ← dyOf_at (min_le_right e e'),
    mul_left_inj' (by positivity), Int.cast_inj]

/-- The values of the signed codes of a format. -/
def FFmt.signedMag (f : FFmt) (z : ℤ) : ℚ := if z < 0 then -f.mag z.natAbs else f.mag z.natAbs

theorem signedMag_strictMono (f : FFmt) : StrictMono f.signedMag := by
  refine strictMono_of_odd_strictMonoOn_nonneg (fun z => ?_) fun y hy z hz hyz => ?_
  · rcases lt_trichotomy z 0 with h | rfl | h
    · simp [FFmt.signedMag, h, h.not_gt]
    · simp [FFmt.signedMag]
    · simp [FFmt.signedMag, h, h.not_gt]
  · rw [Set.mem_Ici] at hy hz
    rw [FFmt.signedMag, FFmt.signedMag, if_neg hy.not_gt, if_neg hz.not_gt]
    exact mag_strictMono f (by omega)

theorem signedMag_signed (f : FFmt) (neg : Bool) (k : ℕ) : f.signedMag (signed neg (k : ℤ)) = signed neg (f.mag k) := by
  rcases k.eq_zero_or_pos with rfl | hk
  · cases neg <;> simp [FFmt.signedMag, signed]
  · cases neg
    · simp [FFmt.signedMag, signed]
    · simp [FFmt.signedMag, signed, hk]

theorem lt_magVal {f : FFmt} {n n' : Bool} {k l : ℕ} :
    (f.magVal n k).lt (f.magVal n' l) = true ↔ signed n (k : ℤ) < signed n' (l : ℤ) := by
  obtain ⟨m, e, hk, hm⟩ := magVal_eq_fin f n k
  obtain ⟨m', e', hl, hm'⟩ := magVal_eq_fin f n' l
  rw [hk, hl, lt_fin, hm, hm', ← signedMag_signed, ← signedMag_signed, (signedMag_strictMono f).lt_iff_lt]

theorem eq_magVal {f : FFmt} {n n' : Bool} {k l : ℕ} :
    (f.magVal n k).eq (f.magVal n' l) = true ↔ signed n (k : ℤ) = signed n' (l : ℤ) := by
  obtain ⟨m, e, hk, hm⟩ := magVal_eq_fin f n k
  obtain ⟨m', e', hl, hm'⟩ := magVal_eq_fin f n' l
  rw [hk, hl, eq_fin, hm, hm', ← signedMag_signed, ← signedMag_signed, (signedMag_strictMono f).injective.eq_iff]

/-- An FP32 encoding up to infinity's is a finite value or an infinity. -/
theorem decode_fp32_number {n : Bool} {k : ℕ} (hk : ¬ 0x7F800000 < k) :
    k < 0x7F800000 ∧ fp32.decode (fp32.signBit n + k) = fp32.magVal n k ∨
    k = 0x7F800000 ∧ fp32.decode (fp32.signBit n + k) = .inf n := by
  rcases (not_lt.1 hk).lt_or_eq with h | rfl
  · exact .inl ⟨h, decode_fp32_of_le (Nat.lt_succ_iff.1 h)⟩
  · exact .inr ⟨rfl, decode_signBit_inf (f := fp32) rfl (by decide)⟩

/-- An FP32 encoding above infinity's is a NaN, signalling where its top fraction bit is clear. -/
theorem decode_fp32_nan {n : Bool} {k : ℕ} (hk : k < 2 ^ 31) (h : 0x7F800000 < k) :
    fp32.decode (fp32.signBit n + k) = .nan (decide (k < 0x7FC00000)) := by
  have hquiet : (k / 2 ^ 22 % 2 == 0) = decide (k < 0x7FC00000) := by
    rw [Bool.eq_iff_iff, beq_iff_eq, decide_eq_true_iff]
    omega
  have hinf : ¬ (fp32.hasInf && k == fp32.maxCode + 1) = true := by
    rw [Bool.and_eq_true, beq_iff_eq]
    exact fun hc => h.ne' hc.2
  rw [decode_signBit_add (f := fp32) hk, if_neg (by change ¬ k ≤ 0x7F7FFFFF; omega), if_neg hinf, ← hquiet]
  rfl

theorem decode_fp32_fin_or_inf {n : Bool} {k : ℕ} (hk : ¬ 0x7F800000 < k) :
    (∃ m e, fp32.decode (fp32.signBit n + k) = .fin n m e) ∨ fp32.decode (fp32.signBit n + k) = .inf n := by
  obtain ⟨m, e, hm, -⟩ := magVal_eq_fin fp32 n k
  exact (decode_fp32_number hk).imp (fun h => ⟨m, e, h.2.trans hm⟩) And.right

theorem lt_of_isNan {v w : FVal} (h : v.isNan = true ∨ w.isNan = true) : v.lt w = false := by
  cases v with
  | nan s => rfl
  | inf n | fin n m e =>
    cases w with
    | nan s => rfl
    | inf n' | fin n' m' e' => exact absurd h (by simp [FVal.isNan])

theorem eq_of_isNan {v w : FVal} (h : v.isNan = true ∨ w.isNan = true) : v.eq w = false := by
  cases v with
  | nan s => rfl
  | inf n | fin n m e =>
    cases w with
    | nan s => rfl
    | inf n' | fin n' m' e' => exact absurd h (by simp [FVal.isNan])

section
variable {n n' : Bool} {k l : ℕ}

theorem signed_lt_of_lt (h : k < l) : signed n (k : ℤ) < signed n' (l : ℤ) ↔ n' = false := by
  cases n <;> cases n' <;> simp [signed] <;> omega

theorem lt_signed_of_lt (h : k < l) : signed n (l : ℤ) < signed n' (k : ℤ) ↔ n = true := by
  cases n <;> cases n' <;> simp [signed] <;> omega

theorem signed_ne_of_lt (h : k < l) : signed n (k : ℤ) ≠ signed n' (l : ℤ) := by
  cases n <;> cases n' <;> simp [signed] <;> omega

theorem signed_lt_signed_self (h : 0 < k) : signed n (k : ℤ) < signed n' (k : ℤ) ↔ n = true ∧ n' = false := by
  cases n <;> cases n' <;> simp [signed]
  omega

theorem signed_eq_signed_self (h : 0 < k) : signed n (k : ℤ) = signed n' (k : ℤ) ↔ n = n' := by
  cases n <;> cases n' <;> simp [signed]
  all_goals omega

variable (hk : k < 2 ^ 31) (hl : l < 2 ^ 31)

include hk in
theorem isNan_fp32 : (fp32.decode (fp32.signBit n + k)).isNan = true ↔ 0x7F800000 < k := by
  by_cases hnan : 0x7F800000 < k
  · rw [decode_fp32_nan hk hnan]
    exact iff_of_true rfl hnan
  · rcases decode_fp32_fin_or_inf (n := n) hnan with ⟨m, e, hd⟩ | hd <;> rw [hd] <;> exact iff_of_false Bool.false_ne_true hnan

include hk in
theorem isSig_fp32 : (fp32.decode (fp32.signBit n + k)).isSig = true ↔ 0x7F800000 < k ∧ k < 0x7FC00000 := by
  by_cases hnan : 0x7F800000 < k
  · rw [decode_fp32_nan hk hnan, and_iff_right hnan]
    exact decide_eq_true_iff
  · rcases decode_fp32_fin_or_inf (n := n) hnan with ⟨m, e, hd⟩ | hd <;> rw [hd] <;>
      exact iff_of_false Bool.false_ne_true fun h => hnan h.1

theorem neg_fp32 (hnan : ¬ 0x7F800000 < k) : (fp32.decode (fp32.signBit n + k)).neg = n := by
  rcases decode_fp32_fin_or_inf (n := n) hnan with ⟨m, e, hd⟩ | hd <;> rw [hd] <;> rfl

theorem lt_fp32_number (hnan : ¬ 0x7F800000 < k) (hnan' : ¬ 0x7F800000 < l) :
    (fp32.decode (fp32.signBit n + k)).lt (fp32.decode (fp32.signBit n' + l)) = true ↔ signed n (k : ℤ) < signed n' (l : ℤ) := by
  obtain ⟨m, e, hm, -⟩ := magVal_eq_fin fp32 n k
  obtain ⟨m', e', hm', -⟩ := magVal_eq_fin fp32 n' l
  rcases decode_fp32_number (n := n) hnan with ⟨h, hd⟩ | ⟨h, hd⟩ <;>
    rcases decode_fp32_number (n := n') hnan' with ⟨h', hd'⟩ | ⟨h', hd'⟩ <;> rw [hd, hd']
  · exact lt_magVal
  · simp [hm, FVal.lt, signed_lt_of_lt (h.trans_eq h'.symm)]
  · simp [hm', FVal.lt, lt_signed_of_lt (h'.trans_eq h.symm)]
  · rw [h, h', signed_lt_signed_self (by decide)]
    simp [FVal.lt]

theorem eq_fp32_number (hnan : ¬ 0x7F800000 < k) (hnan' : ¬ 0x7F800000 < l) :
    (fp32.decode (fp32.signBit n + k)).eq (fp32.decode (fp32.signBit n' + l)) = true ↔ signed n (k : ℤ) = signed n' (l : ℤ) := by
  obtain ⟨m, e, hm, -⟩ := magVal_eq_fin fp32 n k
  obtain ⟨m', e', hm', -⟩ := magVal_eq_fin fp32 n' l
  rcases decode_fp32_number (n := n) hnan with ⟨h, hd⟩ | ⟨h, hd⟩ <;>
    rcases decode_fp32_number (n := n') hnan' with ⟨h', hd'⟩ | ⟨h', hd'⟩ <;> rw [hd, hd']
  · exact eq_magVal
  · simp [hm, FVal.eq, signed_ne_of_lt (h.trans_eq h'.symm)]
  · simp [hm', FVal.eq, (signed_ne_of_lt (h'.trans_eq h.symm)).symm]
  · rw [h, h', signed_eq_signed_self (by decide)]
    simp [FVal.eq]

/-- The order of FMIN and FMAX, by a key that puts −0 below +0. -/
theorem below_fp32 (hnan : ¬ 0x7F800000 < k) (hnan' : ¬ 0x7F800000 < l) :
    (fp32.decode (fp32.signBit n + k)).below (fp32.decode (fp32.signBit n' + l)) = true ↔
      signed n (k : ℤ) - n.toNat < signed n' (l : ℤ) - n'.toNat := by
  rw [FVal.below, Bool.or_eq_true, Bool.and_eq_true, Bool.and_eq_true, lt_fp32_number hnan hnan', eq_fp32_number hnan hnan', neg_fp32 hnan,
    neg_fp32 hnan']
  cases n <;> cases n' <;> simp [signed] <;> omega

include hk hl

theorem lt_fp32 : (fp32.decode (fp32.signBit n + k)).lt (fp32.decode (fp32.signBit n' + l)) = true ↔
    ¬ 0x7F800000 < k ∧ ¬ 0x7F800000 < l ∧ signed n (k : ℤ) < signed n' (l : ℤ) := by
  rw [← and_assoc, ← not_or]
  by_cases hnan : 0x7F800000 < k ∨ 0x7F800000 < l
  · simp [lt_of_isNan (hnan.imp (isNan_fp32 (n := n) hk).2 (isNan_fp32 (n := n') hl).2), hnan]
  · rw [and_iff_right hnan]
    exact lt_fp32_number (fun h => hnan (.inl h)) fun h => hnan (.inr h)

theorem eq_fp32 : (fp32.decode (fp32.signBit n + k)).eq (fp32.decode (fp32.signBit n' + l)) = true ↔
    ¬ 0x7F800000 < k ∧ ¬ 0x7F800000 < l ∧ signed n (k : ℤ) = signed n' (l : ℤ) := by
  rw [← and_assoc, ← not_or]
  by_cases hnan : 0x7F800000 < k ∨ 0x7F800000 < l
  · simp [eq_of_isNan (hnan.imp (isNan_fp32 (n := n) hk).2 (isNan_fp32 (n := n') hl).2), hnan]
  · rw [and_iff_right hnan]
    exact eq_fp32_number (fun h => hnan (.inl h)) fun h => hnan (.inr h)

end

theorem magVal_fp32_class (n : Bool) (k : ℕ) :
    ∃ m e, fp32.magVal n k = .fin n m e ∧ (m = 0 ↔ k = 0) ∧ (m < 2 ^ 23 ↔ k < 2 ^ 23) := by
  change ∃ m e, (if k / 2 ^ 23 = 0 then _ else _) = _ ∧ _
  split_ifs with h
  · exact ⟨_, _, rfl, by change k % 2 ^ 23 = 0 ↔ _; omega, by change k % 2 ^ 23 < _ ↔ _; omega⟩
  · exact ⟨_, _, rfl, by change k % 2 ^ 23 + 2 ^ 23 = 0 ↔ _; omega, by change k % 2 ^ 23 + 2 ^ 23 < _ ↔ _; omega⟩

/-- The class mask of a value (R88). -/
def FVal.classMask : FVal → ℕ
  | .nan s => if s then 2 ^ 8 else 2 ^ 9
  | .inf n => if n then 2 ^ 0 else 2 ^ 7
  | .fin n m _ =>
    if m = 0 then (if n then 2 ^ 3 else 2 ^ 4)
    else if m < 2 ^ 23 then (if n then 2 ^ 2 else 2 ^ 5)
    else (if n then 2 ^ 1 else 2 ^ 6)

theorem fClass_eq_classMask (a : ℕ) : fClass a = (fp32.decode a).classMask := by
  rw [fClass]
  cases fp32.decode a <;> rfl

theorem fClass_fp32 {n : Bool} {k : ℕ} (hk : k < 2 ^ 31) : fClass (fp32.signBit n + k) =
    if 0x7F800000 < k ∧ k < 0x7FC00000 then 2 ^ 8 else if 0x7F800000 < k then 2 ^ 9
    else if k = 0x7F800000 then (if n then 2 ^ 0 else 2 ^ 7)
    else if k = 0 then (if n then 2 ^ 3 else 2 ^ 4)
    else if k < 2 ^ 23 then (if n then 2 ^ 2 else 2 ^ 5)
    else (if n then 2 ^ 1 else 2 ^ 6) := by
  rw [fClass_eq_classMask]
  by_cases hnan : 0x7F800000 < k
  · rw [decode_fp32_nan hk hnan]
    by_cases hsig : k < 0x7FC00000
    · rw [if_pos ⟨hnan, hsig⟩, decide_eq_true hsig]
      rfl
    · rw [if_neg fun h => hsig h.2, if_pos hnan, decide_eq_false hsig]
      rfl
  · rw [if_neg fun h => hnan h.1, if_neg hnan]
    rcases decode_fp32_number (n := n) hnan with ⟨h, hd⟩ | ⟨h, hd⟩
    · obtain ⟨m, e, hm, hzero, hsub⟩ := magVal_fp32_class n k
      rw [if_neg h.ne, hd, hm, FVal.classMask]
      simp only [hzero, hsub]
    · rw [if_pos h, hd]
      rfl

section
variable {n : Bool} {k : ℕ} (hk : k < 2 ^ 31)
include hk

theorem signBit_fp32_mod : (fp32.signBit n + k) % 2 ^ 31 = k := by
  change (n.toNat * 2 ^ 31 + k) % 2 ^ 31 = k
  omega

theorem signBit_fp32_lt : fp32.signBit n + k < 2 ^ 31 ↔ n = false := by
  change n.toNat * 2 ^ 31 + k < 2 ^ 31 ↔ _
  cases n
  · simpa using hk
  · simp

end

/-! ### FMIN and FMAX (R87) -/

section
variable {low : Bool} {a b : ℕ}

theorem fMinMax_flags (low : Bool) (a b : ℕ) :
    (fMinMax low a b).2 = { nv := (fp32.decode a).isSig || (fp32.decode b).isSig } := by
  unfold fMinMax
  dsimp only
  split_ifs <;> rfl

theorem fMinMax_of_nans (ha : (fp32.decode a).isNan = true) (hb : (fp32.decode b).isNan = true) : (fMinMax low a b).1 = 0x7FC00000 := by
  rw [fMinMax, ha, hb]
  rfl

theorem fMinMax_of_nan_left (ha : (fp32.decode a).isNan = true) (hb : ¬ (fp32.decode b).isNan = true) : (fMinMax low a b).1 = b := by
  rw [fMinMax, ha, Bool.eq_false_iff.2 hb]
  rfl

theorem fMinMax_of_nan_right (ha : ¬ (fp32.decode a).isNan = true) (hb : (fp32.decode b).isNan = true) : (fMinMax low a b).1 = a := by
  rw [fMinMax, Bool.eq_false_iff.2 ha, hb]
  rfl

theorem fMinMax_of_numbers (ha : ¬ (fp32.decode a).isNan = true) (hb : ¬ (fp32.decode b).isNan = true) :
    (fMinMax low a b).1 = if (if low then (fp32.decode b).below (fp32.decode a) else (fp32.decode a).below (fp32.decode b)) then b else a := by
  rw [fMinMax, Bool.eq_false_iff.2 ha, Bool.eq_false_iff.2 hb]
  cases low <;> rfl

end

/-! ### The order of encodings -/

/-- An FP32 encoding as its sign and its magnitude code put it in order, both zeros equal. -/
def fpKey (x : ℕ) : ℤ := if x < 2 ^ 31 then (x % 2 ^ 31 : ℕ) else -((x % 2 ^ 31 : ℕ) : ℤ)

/-- The same with −0 below +0. -/
def fpTotal (x : ℕ) : ℤ := if x < 2 ^ 31 then (x % 2 ^ 31 : ℕ) else -((x % 2 ^ 31 : ℕ) : ℤ) - 1

theorem fpKey_signBit {n : Bool} {k : ℕ} (hk : k < 2 ^ 31) : fpKey (fp32.signBit n + k) = signed n (k : ℤ) := by
  simp only [fpKey, signBit_fp32_mod hk, signBit_fp32_lt hk]
  cases n <;> rfl

theorem fpTotal_signBit {n : Bool} {k : ℕ} (hk : k < 2 ^ 31) : fpTotal (fp32.signBit n + k) = signed n (k : ℤ) - n.toNat := by
  simp only [fpTotal, signBit_fp32_mod hk, signBit_fp32_lt hk]
  cases n <;> simp [signed]

theorem fpTotal_injective {x y : ℕ} (hx : x < 2 ^ 32) (hy : y < 2 ^ 32) (h : fpTotal x = fpTotal y) : x = y := by
  unfold fpTotal at h
  split_ifs at h <;> omega

/-- Whether an encoding is a NaN, by its bits. -/
abbrev FpNan (x : ℕ) : Prop := 0x7F800000 < x % 2 ^ 31

section
variable {x y : ℕ} (hx : x < 2 ^ 32) (hy : y < 2 ^ 32)

include hx in
theorem isNan_decode : (fp32.decode x).isNan = true ↔ FpNan x := by
  obtain ⟨n, k, hk, rfl⟩ := exists_signBit_add fp32 hx
  rw [FpNan, signBit_fp32_mod hk]
  exact isNan_fp32 hk

include hx in
theorem isSig_decode : (fp32.decode x).isSig = true ↔ FpNan x ∧ x % 2 ^ 31 < 0x7FC00000 := by
  obtain ⟨n, k, hk, rfl⟩ := exists_signBit_add fp32 hx
  rw [FpNan, signBit_fp32_mod hk]
  exact isSig_fp32 hk

include hx hy

theorem lt_decode : (fp32.decode x).lt (fp32.decode y) = true ↔ ¬ FpNan x ∧ ¬ FpNan y ∧ fpKey x < fpKey y := by
  obtain ⟨n, k, hk, rfl⟩ := exists_signBit_add fp32 hx
  obtain ⟨n', l, hl, rfl⟩ := exists_signBit_add fp32 hy
  rw [FpNan, FpNan, signBit_fp32_mod hk, signBit_fp32_mod hl, fpKey_signBit hk, fpKey_signBit hl]
  exact lt_fp32 hk hl

theorem eq_decode : (fp32.decode x).eq (fp32.decode y) = true ↔ ¬ FpNan x ∧ ¬ FpNan y ∧ fpKey x = fpKey y := by
  obtain ⟨n, k, hk, rfl⟩ := exists_signBit_add fp32 hx
  obtain ⟨n', l, hl, rfl⟩ := exists_signBit_add fp32 hy
  rw [FpNan, FpNan, signBit_fp32_mod hk, signBit_fp32_mod hl, fpKey_signBit hk, fpKey_signBit hl]
  exact eq_fp32 hk hl

theorem below_decode (hnan : ¬ FpNan x) (hnan' : ¬ FpNan y) :
    (fp32.decode x).below (fp32.decode y) = true ↔ fpTotal x < fpTotal y := by
  obtain ⟨n, k, hk, rfl⟩ := exists_signBit_add fp32 hx
  obtain ⟨n', l, hl, rfl⟩ := exists_signBit_add fp32 hy
  rw [FpNan, signBit_fp32_mod hk] at hnan
  rw [FpNan, signBit_fp32_mod hl] at hnan'
  rw [fpTotal_signBit hk, fpTotal_signBit hl]
  exact below_fp32 hnan hnan'

theorem fMinMax_numbers (low : Bool) (hnan : ¬ FpNan x) (hnan' : ¬ FpNan y) :
    (fMinMax low x y).1 = if fpTotal x ≤ fpTotal y then (if low then x else y) else (if low then y else x) := by
  rw [fMinMax_of_numbers (mt (isNan_decode hx).1 hnan) (mt (isNan_decode hy).1 hnan')]
  cases low
  · rcases lt_trichotomy (fpTotal x) (fpTotal y) with h | h | h
    · simp [h.le, (below_decode hx hy hnan hnan').2 h]
    · simp [fpTotal_injective hx hy h]
    · simp [h.not_ge, mt (below_decode hx hy hnan hnan').1 h.not_gt]
  · by_cases h : fpTotal x ≤ fpTotal y
    · simp [h, mt (below_decode hy hx hnan' hnan).1 h.not_gt]
    · simp [h, (below_decode hy hx hnan' hnan).2 (not_le.1 h)]

end

theorem fClass_bits {x : ℕ} (hx : x < 2 ^ 32) : fClass x =
    if FpNan x ∧ x % 2 ^ 31 < 0x7FC00000 then 2 ^ 8 else if FpNan x then 2 ^ 9
    else if x % 2 ^ 31 = 0x7F800000 then (if x < 2 ^ 31 then 2 ^ 7 else 2 ^ 0)
    else if x % 2 ^ 31 = 0 then (if x < 2 ^ 31 then 2 ^ 4 else 2 ^ 3)
    else if x % 2 ^ 31 < 2 ^ 23 then (if x < 2 ^ 31 then 2 ^ 5 else 2 ^ 2)
    else (if x < 2 ^ 31 then 2 ^ 6 else 2 ^ 1) := by
  obtain ⟨n, k, hk, rfl⟩ := exists_signBit_add fp32 hx
  rw [fClass_fp32 hk]
  simp only [signBit_fp32_lt hk, FpNan, signBit_fp32_mod hk]
  cases n <;> rfl

theorem floatOrderRules : Claims.FloatOrderRules := by
  intro x y hx hy mag nan sig key total
  refine ⟨eq_decode hx hy, lt_decode hx hy, ?_, ?_, fun low => ⟨?_, ?_⟩, fun low h h' => ?_, fun low h h' => ?_, fun low h h' => ?_,
    fMinMax_numbers hx hy true, fMinMax_numbers hx hy false, fClass_bits hx⟩
  · rw [fCmpLe, Bool.or_eq_true, lt_decode hx hy, eq_decode hx hy, ← and_or_left, ← and_or_left, ← le_iff_lt_or_eq]
    exact Iff.rfl
  · rw [fCmpUn, Bool.or_eq_true, isNan_decode hx, isNan_decode hy]
  · rw [fMinMax_flags, Bool.or_eq_true, isSig_decode hx, isSig_decode hy]
  · rw [fMinMax_flags]
  · exact fMinMax_of_nans ((isNan_decode hx).2 h) ((isNan_decode hy).2 h')
  · exact fMinMax_of_nan_left ((isNan_decode hx).2 h) (mt (isNan_decode hy).1 h')
  · exact fMinMax_of_nan_right (mt (isNan_decode hx).1 h) ((isNan_decode hy).2 h')

/-- Settles O6: the order of encodings is that of signed codes, and whatever is delivered is one of the two codes around the exact
value. -/
theorem floatRounding : Obligations.FloatRounding := ⟨floatOrderRules, roundingIsCorrect, overflowRule, wideningIsExact⟩

end Sys2Proof.Machine

/-! # Block-scaled conversion, reductions and scans (O14) -/

namespace Sys2Proof.Machine

theorem bitOf_eq_testBit (v n : ℕ) : bitOf v n = v.testBit n := by
  rw [bitOf, Nat.testBit_eq_decide_div_mod_eq]
  rfl

/-! ### What the shared completions write (R97, R108) -/

theorem doneV_writesV (s : State) (d : VReg) (m : MReg) {f g : ℕ → ℕ} (h : ∀ i, i < 16 → (s.mN m).testBit i = true → f i = g i) :
    WritesV s (.next (s.doneV d m f)) d (s.mN m) g := by
  obtain ⟨t, ht, hpc, hreps, hbytes, hlanes⟩ := setV_writesV s d (s.mN m) f
  refine ⟨t, ht, hpc, hreps, hbytes, fun i hi => ?_⟩
  rw [hlanes i hi]
  split_ifs with hm
  · rw [h i hi (by rwa [← bitOf_eq_testBit])]
  · rfl

theorem doneAll_writesV (s : State) (d : VReg) {v w : ℕ} (h : v = w) : WritesV s (.next (s.doneAll d v)) d 0xFFFF fun _ => w :=
  h ▸ setV_writesV s d 0xFFFF fun _ => v

/-! ### Block-scaled conversion (R74, R107) -/

/-- Codes of four bits put together from the last one, by their places. -/
theorem foldr_base16 (cs : List ℕ) :
    cs.foldr (fun c acc => c + 16 * acc) 0 = (List.range cs.length).foldl (fun acc j => acc + cs.getD j 0 * 16 ^ j) 0 := by
  have hsum (n : ℕ) (g : ℕ → ℕ) : (List.range n).foldl (fun acc j => acc + g j) 0 = ((List.range n).map g).sum := by
    rw [List.sum_eq_foldl, List.foldl_map]
  rw [hsum]
  induction cs with
  | nil => rfl
  | cons c cs ih =>
    rw [List.foldr_cons, ih, List.length_cons, List.range_succ_eq_map, List.map_cons, List.sum_cons, List.map_map, ← List.sum_map_mul_left]
    simp [pow_succ', Function.comp_def, mul_left_comm]

theorem quantBlock_length (mode : RoundMode) (band : ℕ) (xs : List ℕ) : (quantBlock mode band xs).1.length = xs.length := by
  simp [quantBlock]

/-- What VCVTFB4 makes of two quantised blocks, lane by lane (R107). -/
def blockLanes (q0 q1 : List ℕ × ℕ) (i : ℕ) : ℕ :=
  let word (cs : List ℕ) := cs.foldr (fun c acc => c + 16 * acc) 0
  if i = 0 then word q0.1 else if i = 1 then word q1.1 else if i = 2 then q0.2 + q1.2 * 2 ^ 8 else 0

theorem exec_vcvtfb4 {s : State} {d a b : VReg} {m : MReg} (h : badBand (s.laneN b 0 % 2 ^ 16) = false) :
    exec (.vcvtfb4 d a b m) s = .next (s.doneV d m
      (blockLanes (quantBlock s.rm (s.laneN b 0 % 2 ^ 16) ((List.range 8).map (s.laneN a)))
        (quantBlock s.rm (s.laneN b 0 % 2 ^ 16) ((List.range 8).map (fun i => s.laneN a (8 + i)))))) :=
  if_neg (by rw [h]; exact Bool.false_ne_true)

theorem blockScaleConversion : Claims.BlockScaleConversion := by
  intro s d a b m rm band block word
  refine ⟨fun hbad => if_pos hbad, fun hgood => ?_⟩
  have hword (k : ℕ) : (block k).1.foldr (fun c acc => c + 16 * acc) 0 = word (block k).1 := by
    rw [foldr_base16, quantBlock_length, List.length_map, List.length_range]
  have hblock : quantBlock s.rm band ((List.range 8).map (s.laneN a)) = block 0 := by
    simp only [block, Nat.mul_zero, Nat.zero_add]
    rfl
  rw [exec_vcvtfb4 hgood, hblock]
  refine doneV_writesV s d m fun i _ _ => ?_
  have hlanes : i = 0 ∨ i = 1 ∨ 2 ≤ i := by omega
  rcases hlanes with rfl | rfl | hi
  · exact hword 0
  · exact hword 1
  · rw [blockLanes, if_neg (by omega), if_neg (by omega), if_neg (show ¬ i < 2 by omega)]
    rfl

/-! ### The active lanes (R108, R109) -/

theorem active_eq (s : State) (a : VReg) (m : MReg) :
    s.active a m = ((List.range 16).filter (fun i => (s.mN m).testBit i)).map (fun i => (i, s.laneN a i)) := by
  simp only [State.active, bitOf_eq_testBit]

section
variable {g : ℕ → ℕ} {xs : List ℕ} {mode : RoundMode}

/-- The sum of the numbered items that a test on their numbers keeps. -/
theorem foldl_filter_eq_sum (p : ℕ → Bool) (g : ℕ → ℕ) (xs : List ℕ) :
    ((xs.map fun i => (i, g i)).filter fun x => p x.1).foldl (fun acc x => acc + x.2) 0 = ((xs.filter p).map g).sum := by
  rw [List.filter_map, List.foldl_map, List.sum_eq_foldl, List.foldl_map]
  rfl

theorem extreme_eq (low : Bool) (dflt : ℕ) (g : ℕ → ℕ) (xs : List ℕ) :
    extreme low dflt (xs.map fun i => (i, g i)) = match xs.map g with
      | [] => dflt
      | x :: t => canonNan (t.foldl (fun acc y => (fMinMax low acc y).1) x) := by
  cases xs with
  | nil => rfl
  | cons i xs =>
    simp only [List.map_cons, extreme, List.foldl_map]

/-! ### The tree of VREDFADD (R108) -/

/-- One node of the tree: a lane that is not active adds nothing. -/
def plusActive (mode : RoundMode) (x y : Option ℕ) : Option ℕ :=
  match x, y with
  | none, y => y
  | x, none => x
  | some x, some y => some (fAdd mode x y).1

/-- Node `j` of a level of the tree over the lanes `g`. -/
def treeNode (mode : RoundMode) (g : ℕ → Option ℕ) : ℕ → ℕ → Option ℕ
  | 0, j => g j
  | l + 1, j => plusActive mode (treeNode mode g l (2 * j)) (treeNode mode g l (2 * j + 1))

theorem treeLevel_pairs (n : ℕ) (g : ℕ → Option ℕ) :
    treeLevel mode ((List.range (2 * n)).map g) = (List.range n).map fun j => plusActive mode (g (2 * j)) (g (2 * j + 1)) := by
  induction n generalizing g with
  | zero => rfl
  | succ n ih =>
    have hpairs : (List.range (2 * (n + 1))).map g = g 0 :: g 1 :: (List.range (2 * n)).map fun i => g (i + 2) := by
      rw [show 2 * (n + 1) = 2 * n + 1 + 1 by ring, List.range_succ_eq_map, List.range_succ_eq_map]
      simp [Function.comp_def]
    rw [hpairs]
    change plusActive mode (g 0) (g 1) :: treeLevel mode _ = _
    rw [ih, List.range_succ_eq_map, List.map_cons, List.map_map]
    rfl

theorem treeSum_eq_root (mode : RoundMode) (g : ℕ → Option ℕ) : treeSum mode ((List.range 16).map g) = match treeNode mode g 4 0 with
    | none => 0
    | some v => canonNan v := by
  have hlevel (l n : ℕ) : treeLevel mode ((List.range (2 * n)).map (treeNode mode g l)) = (List.range n).map (treeNode mode g (l + 1)) :=
    treeLevel_pairs n (treeNode mode g l)
  have hroot : treeLevel mode (treeLevel mode (treeLevel mode (treeLevel mode ((List.range 16).map g)))) = [treeNode mode g 4 0] :=
    calc _ = treeLevel mode (treeLevel mode (treeLevel mode ((List.range 8).map (treeNode mode g 1)))) := by rw [← hlevel 0 8]; rfl
      _ = treeLevel mode (treeLevel mode ((List.range 4).map (treeNode mode g 2))) := by rw [← hlevel 1 4]
      _ = treeLevel mode ((List.range 2).map (treeNode mode g 3)) := by rw [← hlevel 2 2]
      _ = [treeNode mode g 4 0] := hlevel 3 1
  rw [treeSum, hroot]
  cases treeNode mode g 4 0 <;> rfl

/-! ### A delivered NaN is canonical (R57) -/

theorem overflowCode_le (f : FFmt) (sat neg : Bool) (mode : RoundMode) : f.overflowCode sat mode neg ≤ f.maxCode + 1 := by
  rw [overflowCode_eq]
  split_ifs
  · exact le_rfl
  · exact Nat.le_succ _

theorem code_or_overflow (f : FFmt) (sat neg : Bool) (mode : RoundMode) {code : ℕ} {fl fl' : FFlags} :
    ∃ k, k ≤ f.maxCode + 1 ∧
      (if code > f.maxCode then (f.signBit neg + f.overflowCode sat mode neg, fl) else (f.signBit neg + code, fl')).1 = f.signBit neg + k := by
  split_ifs with h
  · exact ⟨_, overflowCode_le f sat neg mode, rfl⟩
  · exact ⟨_, (not_lt.1 h).trans (Nat.le_succ _), rfl⟩

/-- What a rounding delivers is a sign and a magnitude code up to infinity's. -/
theorem round_code (f : FFmt) (sat neg : Bool) (mode : RoundMode) (m : ℕ) (e : ℤ) (st : Bool) :
    ∃ k, k ≤ f.maxCode + 1 ∧ (f.round sat mode neg m e st).1 = f.signBit neg + k := by
  rw [FFmt.round]
  by_cases hm : m = 0
  · exact ⟨0, Nat.zero_le _, by rw [if_pos hm, Nat.add_zero]⟩
  · rw [if_neg hm]
    exact code_or_overflow f sat neg mode

theorem canonNan_code {n : Bool} {k : ℕ} (hk : k ≤ fp32.maxCode + 1) : canonNan (fp32.signBit n + k) = fp32.signBit n + k := by
  have hnan : ¬ 0x7F800000 < k := hk.not_gt
  exact if_neg (mt (isNan_fp32 (hk.trans_lt (by decide))).1 hnan)

/-- The result of an FP32 operation is canonical where it is a NaN (R57). -/
theorem canonNan_f32 (mode : RoundMode) (r : FRes) : canonNan (f32 mode r).1 = (f32 mode r).1 := by
  cases r with
  | nan fl => exact ite_self _
  | inf n fl =>
    have hinf : (f32 mode (.inf n fl)).1 = fp32.signBit n + (fp32.maxCode + 1) := by
      rw [f32, FFmt.deliver, if_pos (by decide), Nat.add_assoc]
    rw [hinf, canonNan_code le_rfl]
  | fin n m e st =>
    obtain ⟨k, hk, hround⟩ := round_code fp32 false n mode m e st
    have hfin : (f32 mode (.fin n m e st)).1 = fp32.signBit n + k := hround
    rw [hfin, canonNan_code hk]

/-! ### The running sums of VSCANF (R109) -/

theorem filter_le_cons_self {i : ℕ} (hsorted : (i :: xs).Pairwise (· < ·)) : (i :: xs).filter (fun j => decide (j ≤ i)) = [i] := by
  rw [List.filter_cons_of_pos (by simp), List.filter_eq_nil_iff.2]
  exact fun j hj => by simpa using List.rel_of_pairwise_cons hsorted hj

/-- The running sum at a lane, from the sum before the first lane. -/
theorem lookupId_scanF_some {i r : ℕ} (hsorted : xs.Pairwise (· < ·)) (hi : i ∈ xs) :
    lookupId i (scanF mode (some r) (xs.map fun i => (i, g i))) =
      some (canonNan (((xs.filter fun j => decide (j ≤ i)).map g).foldl (fun acc y => (fAdd mode acc y).1) r)) := by
  induction xs generalizing r with
  | nil => cases hi
  | cons j xs ih =>
    rw [List.map_cons, scanF, lookupId]
    split_ifs with hj
    · subst hj
      rw [filter_le_cons_self hsorted]
      exact congrArg some (canonNan_f32 _ _).symm
    · have hmem : i ∈ xs := (List.mem_cons.1 hi).resolve_left (Ne.symm hj)
      rw [ih hsorted.of_cons hmem, List.filter_cons_of_pos (by simpa using (List.rel_of_pairwise_cons hsorted hmem).le)]
      rfl

/-- The running sum at a lane: of the lanes up to it, from the first one on. -/
theorem lookupId_scanF_none {i : ℕ} (hsorted : xs.Pairwise (· < ·)) (hi : i ∈ xs) :
    lookupId i (scanF mode none (xs.map fun i => (i, g i))) = some (match (xs.filter fun j => decide (j ≤ i)).map g with
      | [] => 0
      | x :: t => canonNan (t.foldl (fun acc y => (fAdd mode acc y).1) x)) := by
  cases xs with
  | nil => cases hi
  | cons j xs =>
    rw [List.map_cons, scanF, lookupId]
    split_ifs with hj
    · subst hj
      rw [filter_le_cons_self hsorted]
      rfl
    · have hmem : i ∈ xs := (List.mem_cons.1 hi).resolve_left (Ne.symm hj)
      rw [lookupId_scanF_some hsorted.of_cons hmem, List.filter_cons_of_pos (by simpa using (List.rel_of_pairwise_cons hsorted hmem).le)]
      rfl

end

theorem vectorReductionResults : Claims.VectorReductionResults := by
  intro s d a m rm on act canon all lanes plus node n8 n4 n2 sum
  have hact : s.active a m = act.map fun i => (i, s.laneN a i) := active_eq s a m
  have hsum (p : ℕ → Bool) : ((s.active a m).filter fun x => p x.1).foldl (fun acc x => acc + x.2) 0 = sum p := by
    rw [hact, foldl_filter_eq_sum]
  have hsorted : act.Pairwise (· < ·) := List.pairwise_lt_range.filter _
  refine ⟨doneAll_writesV s d ?_, doneAll_writesV s d ?_, fun low => ?_, doneV_writesV s d m fun i _ _ => hsum fun j => decide (j ≤ i),
    doneV_writesV s d m fun i _ _ => hsum fun j => decide (j < i), doneV_writesV s d m fun i hi hon => ?_⟩
  · rw [← hsum, List.filter_true]
  · simp only [bitOf_eq_testBit]
    exact treeSum_eq_root rm node
  · cases low <;> exact doneAll_writesV s d (by rw [hact, extreme_eq]; rfl)
  · have hmem : i ∈ act := List.mem_filter.2 ⟨List.mem_range.2 hi, hon⟩
    rw [hact, lookupId_scanF_none hsorted hmem]
    rfl

/-- Settles O14: both say the same sums and packings, the model by folds over the active lanes and the statement by the lanes. -/
theorem vectorConversions : Obligations.VectorConversions := ⟨blockScaleConversion, vectorReductionResults⟩

end Sys2Proof.Machine

/-! # Scalar instructions: integers, bits, immediates, branches and floating point (O1 to O5) -/

namespace Sys2Proof.Machine

/-! ### Results as words (R78 to R80) -/

section
variable (p q : Word)

/-- A word with the bits of a number below 2^64 is that number. -/
theorem word_of_toNat {p : Word} {n : ℕ} (h : p.toNat = n) : p = BitVec.ofNat 64 n := by
  rw [← h, BitVec.ofNat_toNat, BitVec.setWidth_eq]

theorem word_of_toInt {p : Word} {n : ℤ} (h : p.toInt = n) : p = BitVec.ofInt 64 n := by
  rw [← h, BitVec.ofInt_toInt]

theorem word_eq_zero_iff : p = 0 ↔ p.toNat = 0 := by
  rw [← BitVec.toNat_inj]
  rfl

theorem ofNat_add_word (n : ℕ) : BitVec.ofNat 64 n + q = BitVec.ofNat 64 (n + q.toNat) := by
  rw [BitVec.ofNat_add, BitVec.ofNat_toNat, BitVec.setWidth_eq]

theorem word_add : p + q = BitVec.ofNat 64 (p.toNat + q.toNat) := by
  rw [← ofNat_add_word, BitVec.ofNat_toNat, BitVec.setWidth_eq]

theorem word_mul : p * q = BitVec.ofNat 64 (p.toNat * q.toNat) := by
  rw [BitVec.ofNat_mul, BitVec.ofNat_toNat, BitVec.ofNat_toNat, BitVec.setWidth_eq, BitVec.setWidth_eq]

theorem word_sub : p - q = BitVec.ofInt 64 (p.toNat - q.toNat) := by
  refine BitVec.eq_of_toInt_eq ?_
  rw [BitVec.toInt_sub, BitVec.toInt_ofInt, BitVec.toInt_eq_toNat_bmod, BitVec.toInt_eq_toNat_bmod, Int.sub_bmod_bmod, Int.bmod_sub_bmod]

theorem word_and : p &&& q = BitVec.ofNat 64 (p.toNat &&& q.toNat) := word_of_toNat (BitVec.toNat_and p q)
theorem word_or : p ||| q = BitVec.ofNat 64 (p.toNat ||| q.toNat) := word_of_toNat (BitVec.toNat_or p q)
theorem word_xor : p ^^^ q = BitVec.ofNat 64 (p.toNat ^^^ q.toNat) := word_of_toNat (BitVec.toNat_xor p q)

theorem word_andn : p &&& ~~~q = BitVec.ofNat 64 (p.toNat &&& (2 ^ 64 - 1 - q.toNat)) :=
  word_of_toNat (by rw [BitVec.toNat_and, BitVec.toNat_not])

theorem word_shl (n : ℕ) : p <<< n = BitVec.ofNat 64 (p.toNat * 2 ^ n) := by
  refine BitVec.eq_of_toNat_eq ?_
  rw [BitVec.toNat_shiftLeft, Nat.shiftLeft_eq, BitVec.toNat_ofNat]

theorem word_shr (n : ℕ) : p >>> n = BitVec.ofNat 64 (p.toNat / 2 ^ n) :=
  word_of_toNat (by rw [BitVec.toNat_ushiftRight, Nat.shiftRight_eq_div_pow])

theorem word_sra (n : ℕ) : p.sshiftRight n = BitVec.ofInt 64 (p.toInt / 2 ^ n) :=
  word_of_toInt (by rw [BitVec.toInt_sshiftRight, Int.shiftRight_eq_div_pow, Nat.cast_pow, Nat.cast_ofNat])

/-- A number shifted left and cut at 64 bits leaves room for `n` low bits, which the other part of a rotation fills. -/
theorem shl_mod_or (x : ℕ) {n r : ℕ} (hn : n ≤ 64) (hr : r < 2 ^ n) : (x * 2 ^ n) % 2 ^ 64 ||| r = (x * 2 ^ n + r) % 2 ^ 64 := by
  have hcut : x * 2 ^ n % 2 ^ 64 = 2 ^ n * (x % 2 ^ (64 - n)) := by
    rw [Nat.mul_comm, ← Nat.mul_mod_mul_left, ← Nat.pow_add, Nat.add_sub_cancel' hn]
  have hsum : x * 2 ^ n % 2 ^ 64 + r < 2 ^ 64 := calc
    _ < 2 ^ n * (x % 2 ^ (64 - n)) + 2 ^ n := by omega
    _ = 2 ^ n * (x % 2 ^ (64 - n) + 1) := by ring
    _ ≤ 2 ^ n * 2 ^ (64 - n) := Nat.mul_le_mul_left _ (Nat.mod_lt _ (Nat.two_pow_pos _))
    _ = 2 ^ 64 := by rw [← Nat.pow_add, Nat.add_sub_cancel' hn]
  rw [← Nat.mod_add_mod, Nat.mod_eq_of_lt hsum, hcut, Nat.two_pow_add_eq_or_of_lt hr]

theorem word_rol {n : ℕ} (hn : n < 64) : p.rotateLeft n = BitVec.ofNat 64 (p.toNat * 2 ^ n + p.toNat / 2 ^ (64 - n)) := by
  have hlow : p.toNat / 2 ^ (64 - n) < 2 ^ n := by
    rw [Nat.div_lt_iff_lt_mul (Nat.two_pow_pos _), ← Nat.pow_add, Nat.add_sub_cancel' hn.le]
    exact p.isLt
  refine BitVec.eq_of_toNat_eq ?_
  rw [BitVec.toNat_rotateLeft, Nat.mod_eq_of_lt hn, Nat.shiftLeft_eq, Nat.shiftRight_eq_div_pow, shl_mod_or _ hn.le hlow, BitVec.toNat_ofNat]

theorem word_ror {n : ℕ} (hn : n < 64) : p.rotateRight n = BitVec.ofNat 64 (p.toNat / 2 ^ n + p.toNat * 2 ^ (64 - n)) := by
  have hlow : p.toNat / 2 ^ n < 2 ^ (64 - n) := by
    rw [Nat.div_lt_iff_lt_mul (Nat.two_pow_pos _), ← Nat.pow_add, Nat.sub_add_cancel hn.le]
    exact p.isLt
  refine BitVec.eq_of_toNat_eq ?_
  rw [BitVec.toNat_rotateRight, Nat.mod_eq_of_lt hn, Nat.shiftLeft_eq, Nat.shiftRight_eq_div_pow, Nat.or_comm,
    shl_mod_or _ (Nat.sub_le _ _) hlow, Nat.add_comm, BitVec.toNat_ofNat]

theorem word_min : (if p.slt q then p else q) = BitVec.ofInt 64 (min p.toInt q.toInt) := by
  simp only [min_def_lt, BitVec.slt_iff_toInt_lt, apply_ite (BitVec.ofInt 64), BitVec.ofInt_toInt]
theorem word_max : (if p.slt q then q else p) = BitVec.ofInt 64 (max p.toInt q.toInt) := by
  simp only [max_def_lt, BitVec.slt_iff_toInt_lt, apply_ite (BitVec.ofInt 64), BitVec.ofInt_toInt]
theorem word_minu : (if p.ult q then p else q) = BitVec.ofNat 64 (min p.toNat q.toNat) := by
  simp only [min_def_lt, BitVec.ult_iff_toNat_lt, apply_ite (BitVec.ofNat 64), BitVec.ofNat_toNat, BitVec.setWidth_eq]
theorem word_maxu : (if p.ult q then q else p) = BitVec.ofNat 64 (max p.toNat q.toNat) := by
  simp only [max_def_lt, BitVec.ult_iff_toNat_lt, apply_ite (BitVec.ofNat 64), BitVec.ofNat_toNat, BitVec.setWidth_eq]

theorem word_div : p.sdiv q = if p.toInt = -2 ^ 63 ∧ q.toInt = -1 then BitVec.ofInt 64 (-2 ^ 63) else BitVec.ofInt 64 (p.toInt.tdiv q.toInt) := by
  have hdiv : p.sdiv q = BitVec.ofInt 64 (p.toInt.tdiv q.toInt) := BitVec.eq_of_toInt_eq (by rw [BitVec.toInt_sdiv, BitVec.toInt_ofInt])
  split_ifs with h
  · rw [hdiv, h.1, h.2]; rfl
  · exact hdiv

theorem word_rem : p.srem q = if p.toInt = -2 ^ 63 ∧ q.toInt = -1 then 0 else BitVec.ofInt 64 (p.toInt - p.toInt.tdiv q.toInt * q.toInt) := by
  have hrem : p.srem q = BitVec.ofInt 64 (p.toInt - p.toInt.tdiv q.toInt * q.toInt) :=
    word_of_toInt (by rw [BitVec.toInt_srem, Int.tmod_def, mul_comm])
  split_ifs with h
  · rw [hrem, h.1, h.2]; rfl
  · exact hrem

theorem word_divu : p / q = BitVec.ofNat 64 (p.toNat / q.toNat) := word_of_toNat BitVec.toNat_udiv

theorem word_remu : p % q = BitVec.ofNat 64 (p.toNat - p.toNat / q.toNat * q.toNat) :=
  word_of_toNat (by rw [BitVec.toNat_umod, Nat.mod_eq_sub_div_mul])

theorem wordOf_beq : wordOf (p == q) = if p.toNat = q.toNat then 1 else 0 := by
  simp only [wordOf, beq_iff_eq, BitVec.toNat_inj]
theorem wordOf_bne : wordOf (p != q) = if p.toNat = q.toNat then 0 else 1 := by
  simp only [wordOf, bne_iff_ne, ne_eq, BitVec.toNat_inj, ite_not]
theorem wordOf_slt : wordOf (p.slt q) = if p.toInt < q.toInt then 1 else 0 := by
  simp only [wordOf, BitVec.slt_iff_toInt_lt]
theorem wordOf_sle : wordOf (p.sle q) = if p.toInt ≤ q.toInt then 1 else 0 := by
  simp only [wordOf, BitVec.sle_iff_toInt_le]
theorem wordOf_ult : wordOf (p.ult q) = if p.toNat < q.toNat then 1 else 0 := by
  simp only [wordOf, BitVec.ult_iff_toNat_lt]
theorem wordOf_ule : wordOf (p.ule q) = if p.toNat ≤ q.toNat then 1 else 0 := by
  simp only [wordOf, BitVec.ule_iff_toNat_le]
end

/-! ### Counts, reversals and fields by the bits of a number (R81, R82) -/

theorem clz64_le (x : ℕ) : clz64 x ≤ 64 := by
  unfold clz64
  split_ifs <;> omega

theorem testBit_of_lt_clz64 {x i : ℕ} (h : i < clz64 x) : x.testBit (63 - i) = false := by
  unfold clz64 at h
  split_ifs at h with hx
  · rw [hx, Nat.zero_testBit]
  · exact Nat.testBit_lt_two_pow (Nat.lt_log2_self.trans_le (Nat.pow_le_pow_right two_pos (by omega)))

theorem testBit_clz64 {x : ℕ} (hx : x < 2 ^ 64) (h : clz64 x < 64) : x.testBit (63 - clz64 x) = true := by
  have h0 : x ≠ 0 := fun h0 => by simp [clz64, h0] at h
  have hlog : x.log2 < 64 := (Nat.log2_lt h0).2 hx
  rw [clz64, if_neg h0, Nat.sub_sub_self (Nat.le_of_lt_succ hlog)]
  exact Nat.testBit_log2 h0

/-- The first one bit is found where all bits below it are zero, or there is none among the 64. -/
theorem ctz64_spec (x : ℕ) : ctz64 x ≤ 64 ∧ (∀ i, i < ctz64 x → x.testBit i = false) ∧ (ctz64 x < 64 → x.testBit (ctz64 x) = true) := by
  unfold ctz64
  simp only [bitOf_eq_testBit]
  cases hfind : (List.range 64).find? x.testBit with
  | none =>
    simp only [List.find?_range_eq_none, Bool.not_eq_true'] at hfind
    exact ⟨le_rfl, hfind, fun h => absurd h (lt_irrefl _)⟩
  | some n =>
    simp only [List.find?_range_eq_some, List.mem_range, Bool.not_eq_true'] at hfind
    obtain ⟨hbit, hn, hlow⟩ := hfind
    exact ⟨hn.le, hlow, fun _ => hbit⟩

theorem popc64_eq_countP (x : ℕ) : popc64 x = (List.range 64).countP x.testBit := by
  simp only [popc64, bitOf_eq_testBit, List.countP_eq_length_filter]

/-- Bits put together from the first one on stand in reverse order. -/
theorem testBit_foldl_bits (f : ℕ → Bool) (n i : ℕ) :
    ((List.range n).foldl (fun acc j => 2 * acc + (f j).toNat) 0).testBit i = (decide (i < n) && f (n - 1 - i)) := by
  induction n generalizing i with
  | zero => exact Nat.zero_testBit i
  | succ n ih =>
    rw [List.range_succ, List.foldl_append, List.foldl_cons, List.foldl_nil]
    cases i with
    | zero => cases h : f n <;> simp [Nat.testBit_zero, h]
    | succ i =>
      have hhalf (m : ℕ) : (2 * m + (f n).toNat) / 2 = m := by have := Bool.toNat_le (f n); omega
      rw [Nat.testBit_succ, hhalf, ih, show n + 1 - 1 - (i + 1) = n - 1 - i by omega]
      simp only [Nat.add_lt_add_iff_right]

theorem testBit_brev64 (x : ℕ) {i : ℕ} (hi : i < 64) : (brev64 x).testBit i = x.testBit (63 - i) := by
  rw [brev64, testBit_foldl_bits, decide_eq_true hi, Bool.true_and, bitOf_eq_testBit]

/-- The bytes of a number put together, byte by byte. -/
theorem natOf_shiftRight_mod (bs : List Byte) (j : ℕ) : (natOf bs >>> (8 * j)) % 2 ^ 8 = (bs.getD j 0).toNat := by
  induction bs generalizing j with
  | nil => simp [natOf]
  | cons b bs ih =>
    have hb := b.isLt
    cases j with
    | zero => exact (Nat.add_mul_mod_self_left _ _ _).trans (Nat.mod_eq_of_lt hb)
    | succ j =>
      rw [natOf, Nat.mul_succ, Nat.add_comm (8 * j), Nat.shiftRight_add, List.getD_cons_succ, ← ih j]
      rw [show (b.toNat + 256 * natOf bs) >>> 8 = natOf bs by rw [Nat.shiftRight_eq_div_pow]; omega]

theorem getD_bytesOf (n v : ℕ) {j : ℕ} (hj : j < n) : ((bytesOf n v).getD j 0).toNat = v >>> (8 * j) % 2 ^ 8 := by
  induction n generalizing v j with
  | zero => cases hj
  | succ n ih =>
    cases j with
    | zero => simp [bytesOf]
    | succ j =>
      rw [bytesOf, List.getD_cons_succ, ih _ (Nat.lt_of_succ_lt_succ hj), Nat.mul_succ, Nat.add_comm (8 * j), Nat.shiftRight_add,
        Nat.shiftRight_eq_div_pow v 8]

theorem natOf_reverse_bytesOf (x : ℕ) {j : ℕ} (hj : j < 8) :
    (natOf (bytesOf 8 x).reverse >>> (8 * j)) % 2 ^ 8 = x >>> (8 * (7 - j)) % 2 ^ 8 := by
  have hrev : (bytesOf 8 x).reverse.getD j 0 = (bytesOf 8 x).getD (7 - j) 0 := by
    rw [List.getD_eq_getElem?_getD, List.getElem?_reverse (by simpa using hj), bytesOf_length, List.getD_eq_getElem?_getD]
  rw [natOf_shiftRight_mod, hrev, getD_bytesOf 8 x (by omega)]

theorem bits_pos (desc : ℕ) : bits desc 5 0 = desc % 64 := by simp [bits]
theorem bits_len (desc : ℕ) : bits desc 14 8 = desc / 2 ^ 8 % 128 := rfl

theorem testBit_fieldMask (desc i : ℕ) : (fieldMask desc).testBit i = decide (i < desc / 2 ^ 8 % 128 ∧ desc % 64 + i < 64) := by
  rw [fieldMask, bits_pos, bits_len, Nat.testBit_two_pow_sub_one]
  exact decide_eq_decide.2 (by omega)

theorem testBit_bextOf (a desc i : ℕ) :
    (bextOf a desc).testBit i = (decide (i < desc / 2 ^ 8 % 128 ∧ desc % 64 + i < 64) && a.testBit (desc % 64 + i)) := by
  rw [bextOf, Nat.testBit_and, testBit_fieldMask, Nat.testBit_shiftRight, bits_pos, Bool.and_comm]

theorem fieldMask_shiftLeft_lt (desc : ℕ) : fieldMask desc <<< (desc % 64) < 2 ^ 64 := by
  refine Nat.lt_pow_two_of_testBit _ fun i hi => ?_
  rw [Nat.testBit_shiftLeft, testBit_fieldMask]
  simp only [ge_iff_le, Bool.and_eq_false_imp, decide_eq_true_eq, decide_eq_false_iff_not]
  omega

/-- A field inserted: its bits inside, the register's own outside. -/
theorem testBit_binsOf (d a desc : ℕ) {i : ℕ} (hi : i < 64) :
    (binsOf d a desc).testBit i =
      if desc % 64 ≤ i ∧ i < desc % 64 + desc / 2 ^ 8 % 128 then a.testBit (i - desc % 64) else d.testBit i := by
  have hmask : (fieldMask desc <<< (desc % 64)).testBit i = decide (desc % 64 ≤ i ∧ i < desc % 64 + desc / 2 ^ 8 % 128) := by
    rw [Nat.testBit_shiftLeft, testBit_fieldMask, ← Bool.decide_and]
    exact decide_eq_decide.2 (by omega)
  rw [binsOf, bits_pos, Nat.shiftLeft_and_distrib, Nat.testBit_or, Nat.testBit_and, Nat.testBit_and, hmask, Nat.sub_sub, Nat.add_comm 1,
    Nat.testBit_two_pow_sub_succ (fieldMask_shiftLeft_lt desc), hmask, Nat.testBit_shiftLeft]
  by_cases hfield : desc % 64 ≤ i ∧ i < desc % 64 + desc / 2 ^ 8 % 128
  · rw [if_pos hfield, decide_eq_true hfield, decide_eq_true hfield.1]
    simp
  · rw [if_neg hfield, decide_eq_false hfield, decide_eq_true hi]
    simp

/-! ### A result in a general register (R21, R77) -/

theorem gN_lt (s : State) (r : GReg) : s.gN r < 2 ^ 64 := by
  unfold State.gN State.gAt
  split_ifs
  · exact Nat.two_pow_pos 64
  · exact wsGet_lt s _ _ _ 8

theorem toNat_g (s : State) (r : GReg) : (s.g r).toNat = s.gN r := by
  rw [State.g, BitVec.toNat_ofNat, Nat.mod_eq_of_lt (gN_lt s r)]

theorem getLsbD_g (s : State) (r : GReg) (i : ℕ) : (s.g r).getLsbD i = (s.gN r).testBit i := by
  rw [← BitVec.testBit_toNat, toNat_g]

section
variable {s : State} {o : Host.Outcome State Fault Refusal} {d : GReg}

/-- An instruction that completes with a word completes with every form of that word. -/
theorem writesG_of_done {v w : Word} (ho : o = .next (s.done d v)) (h : v = w) : WritesG s o d w := by
  rw [ho, ← h]
  exact done_writesG s d v

theorem writesF_of_doneF {r q : Nat × FFlags} (ho : o = .next (s.doneF d r)) (h : r = q) : WritesF s o d q := by
  rw [ho, ← h]
  exact doneF_writesF s d r

end

/-! ### Integer arithmetic (O1) -/

theorem integerResults : Claims.IntegerResults := by
  intro s d a b
  simp only [← toNat_g]
  have hn : amount (s.g b) < 64 := Nat.mod_lt _ (by decide)
  exact ⟨writesG_of_done rfl (word_add _ _), writesG_of_done rfl (word_sub _ _), writesG_of_done rfl (word_and _ _),
    writesG_of_done rfl (word_or _ _), writesG_of_done rfl (word_xor _ _), writesG_of_done rfl (word_andn _ _),
    writesG_of_done rfl (word_shl _ _), writesG_of_done rfl (word_shr _ _), writesG_of_done rfl (word_sra _ _),
    writesG_of_done rfl (word_rol _ hn), writesG_of_done rfl (word_ror _ hn), writesG_of_done rfl (word_min _ _),
    writesG_of_done rfl (word_max _ _), writesG_of_done rfl (word_minu _ _), writesG_of_done rfl (word_maxu _ _)⟩

theorem multiplyDivideResults : Claims.MultiplyDivideResults := by
  intro s d a b
  simp only [← toNat_g]
  refine ⟨writesG_of_done rfl (word_mul _ _), writesG_of_done rfl rfl, writesG_of_done rfl rfl, fun hy => ?_, fun hy => ?_⟩
  · have hb : s.g b ≠ 0 := mt (word_eq_zero_iff _).1 hy
    exact ⟨writesG_of_done (if_neg hb) (word_div _ _), writesG_of_done (if_neg hb) (word_rem _ _),
      writesG_of_done (if_neg hb) (word_divu _ _), writesG_of_done (if_neg hb) (word_remu _ _)⟩
  · have hb : s.g b = 0 := (word_eq_zero_iff _).2 hy
    simp only [List.forall_mem_cons, List.not_mem_nil, false_implies, implies_true, and_true]
    exact ⟨if_pos hb, if_pos hb, if_pos hb, if_pos hb⟩

theorem compareMoveResults : Claims.CompareMoveResults := by
  intro s d a b
  simp only [← toNat_g]
  exact ⟨writesG_of_done rfl (wordOf_beq _ _), writesG_of_done rfl (wordOf_bne _ _), writesG_of_done rfl (wordOf_slt _ _),
    writesG_of_done rfl (wordOf_ult _ _), writesG_of_done rfl (wordOf_sle _ _), writesG_of_done rfl (wordOf_ule _ _),
    writesG_of_done rfl (by simp only [word_eq_zero_iff]), writesG_of_done rfl (by simp only [word_eq_zero_iff])⟩

/-- Settles O1: each result is the model's word, read as the number or the integer that its bits denote. -/
theorem integerArithmetic : Obligations.IntegerArithmetic := ⟨integerResults, multiplyDivideResults, compareMoveResults⟩

/-! ### Bit instructions (O2) -/

/-- The bits of a register that an instruction completes with. -/
theorem writesG_bits {s : State} {o : Host.Outcome State Fault Refusal} {d : GReg} {n : ℕ} {p : ℕ → Bool}
    (ho : o = .next (s.done d (BitVec.ofNat 64 n))) (h : ∀ i, i < 64 → n.testBit i = p i) :
    ∃ v : Word, WritesG s o d v ∧ ∀ i, i < 64 → v.getLsbD i = p i :=
  ⟨_, writesG_of_done ho rfl, fun i hi => by rw [BitVec.getLsbD_ofNat, decide_eq_true hi, Bool.true_and, h i hi]⟩

/-- The low bits of a word, extended by their sign. -/
theorem word_sext (p : Word) {n : ℕ} (hn : n ≤ 64) : (p.truncate n).signExtend 64 = BitVec.ofInt 64 (p.extractLsb' 0 n).toInt := by
  rw [BitVec.signExtend, BitVec.truncate, BitVec.setWidth_eq_extractLsb' hn]

theorem word_zext (p : Word) (n : ℕ) : (p.truncate n).zeroExtend 64 = BitVec.ofNat 64 (p.toNat % 2 ^ n) := by
  rw [← BitVec.toNat_setWidth, BitVec.ofNat_toNat]

/-- A byte of a word. -/
theorem extractLsb'_byte (p : Word) (k : ℕ) : p.extractLsb' k 8 = BitVec.ofNat 8 (p.toNat >>> k % 2 ^ 8) :=
  BitVec.eq_of_toNat_eq (by rw [BitVec.extractLsb'_toNat, BitVec.toNat_ofNat, Nat.mod_mod])

theorem natOf_reverse_lt (x : ℕ) : natOf (bytesOf 8 x).reverse < 2 ^ 64 := by
  have := natOf_lt (bytesOf 8 x).reverse
  rwa [List.length_reverse, bytesOf_length] at this

theorem bitCountResults : Claims.BitCountResults := by
  intro s d a
  simp only [getLsbD_g, ← popc64_eq_countP]
  obtain ⟨hctz, hlow, hone⟩ := ctz64_spec (s.gN a)
  refine ⟨⟨_, clz64_le _, writesG_of_done rfl rfl, fun i => testBit_of_lt_clz64, testBit_clz64 (gN_lt s a)⟩,
    ⟨_, hctz, writesG_of_done rfl rfl, hlow, hone⟩, writesG_of_done rfl rfl, writesG_bits rfl fun i => testBit_brev64 _,
    ⟨_, writesG_of_done rfl rfl, fun j hj => ?_⟩, writesG_of_done rfl (word_sext _ (by decide)), writesG_of_done rfl (word_sext _ (by decide)),
    writesG_of_done rfl (word_sext _ (by decide)), ?_, ?_, ?_⟩
  · rw [extractLsb'_byte, extractLsb'_byte, BitVec.toNat_ofNat, Nat.mod_eq_of_lt (natOf_reverse_lt _), natOf_reverse_bytesOf _ hj, toNat_g]
  all_goals
    rw [← toNat_g]
    exact writesG_of_done rfl (word_zext _ _)

theorem bitFieldResults : Claims.BitFieldResults := by
  intro s d a b
  simp only [getLsbD_g]
  exact ⟨writesG_bits rfl fun i _ => testBit_bextOf _ _ i, writesG_bits rfl fun i => testBit_binsOf _ _ _⟩

/-- Settles O2: the model's counts, reversals and masks, bit by bit. -/
theorem bitInstructions : Obligations.BitInstructions := ⟨bitCountResults, bitFieldResults⟩

/-! ### Immediate forms (O3) -/

/-- Settles O3: the same words as the register forms, with the immediate or the shift count in place of gB. -/
theorem immediateResults : Obligations.ImmediateResults := by
  intro s d a imm sh
  simp only [← toNat_g]
  exact ⟨writesG_of_done rfl (word_add _ _), writesG_of_done rfl (word_and _ _), writesG_of_done rfl (word_or _ _),
    writesG_of_done rfl (word_xor _ _), writesG_of_done rfl (wordOf_beq _ _), writesG_of_done rfl (wordOf_slt _ _),
    writesG_of_done rfl (wordOf_ult _ _), writesG_of_done rfl (ofNat_add_word _ _), writesG_of_done rfl (word_mul _ _),
    writesG_of_done rfl (word_shl _ _), writesG_of_done rfl (word_shr _ _), writesG_of_done rfl (word_sra _ _),
    writesG_of_done rfl (word_ror _ sh.isLt)⟩

/-! ### Branches, jumps and LOOPNZ (O4) -/

/-- An address and a displacement in words from it. -/
theorem toNat_add_words (p q : Word) : (p + 4 * q).toNat = (p.toNat + 4 * q.toNat) % 2 ^ 64 := by
  rw [BitVec.toNat_add, BitVec.toNat_mul, Nat.add_mod_mod]
  rfl

theorem target_eq (s : State) (imm : Imm) : s.target imm = s.wordTarget imm := by
  rw [State.target, toNat_add_words, BitVec.toNat_ofNat, Nat.mod_add_mod]
  rfl

theorem target_aligned (s : State) (imm : Imm) : s.target imm % 2 ^ 64 / 4 * 4 = s.wordTarget imm := by
  rw [target_eq]
  simp only [State.wordTarget, State.pc]
  omega

theorem setPC_jumps (s : State) {v t : ℕ} (h : v % 2 ^ 64 / 4 * 4 = t) : Jumps s (.next (s.setPC v)) t [] (fun _ => True) :=
  ⟨_, rfl, (pc_setPC s v).trans h, setPC_bytesOnly s v, trivial⟩

theorem advance_completes (s : State) : Completes s (.next s.advance) [] (fun _ => True) :=
  completes_of_apart (BytesOnly.refl [] s) (apart_nil s) fun _ _ => trivial

/-- A branch jumps on its condition and completes without it (R90). -/
theorem branch_jumpsIf {s : State} {o : Host.Outcome State Fault Refusal} {imm : Imm} {b : Bool} {c : Prop}
    (ho : o = .next (s.branch b imm)) (hb : b = true ↔ c) :
    (c → Jumps s o (s.wordTarget imm) [] (fun _ => True)) ∧ (¬ c → Completes s o [] (fun _ => True)) := by
  rw [← hb, ho]
  cases b with
  | true => exact ⟨fun _ => setPC_jumps s (target_aligned s imm), fun h => absurd rfl h⟩
  | false => exact ⟨fun h => Bool.noConfusion h, fun _ => advance_completes s⟩

theorem setG_eq_setGN (s : State) (d : GReg) (v : Word) : s.setG d v = s.setGN d v.toNat := by
  rw [State.setG, State.setGN, Nat.mod_eq_of_lt v.isLt]

theorem gN_setPC (s : State) (v : ℕ) (r : GReg) : (s.setPC v).gN r = s.gN r :=
  (setPC_bytesOnly s v).gN r fun x hx y hy => by
    have hr := r.isLt
    have hpc := cxRange_inWs s cxPC
    have hreg := gRange_inWs s r y hy
    rw [List.mem_singleton.1 hx, hpc, hreg]
    simp only [cxPC]
    omega

/-- A jump that writes CX.PC and then a general register, as JAL and JALR do (R91, R92). -/
theorem setPC_setGN_jumps (s : State) (d : GReg) {v w t : ℕ} (h : v % 2 ^ 64 / 4 * 4 = t) :
    Jumps s (.next ((s.setPC v).setGN d w)) t (s.gRange d) (fun u => u.gN d = if d = 0 then 0 else w % 2 ^ 64) := by
  have hpc := setPC_bytesOnly s v
  have hreg := setGN_bytesOnly (s.setPC v) d w
  refine ⟨_, rfl, ?_, ?_, gN_setGN _ d w⟩
  · rw [State.pc, hreg.cx_of_apart (gRange_apart _ d) cxPC (.inl rfl)]
    exact (pc_setPC s v).trans h
  · rw [State.gRange, hpc.cur, hpc.wsLoc] at hreg
    exact hpc.trans hreg

/-- A jump that writes a general register and then CX.PC, as LOOPNZ does (R93). -/
theorem setGN_setPC_jumps (s : State) (d : GReg) {v w t : ℕ} (h : v % 2 ^ 64 / 4 * 4 = t) :
    Jumps s (.next ((s.setGN d w).setPC v)) t (s.gRange d) (fun u => u.gN d = if d = 0 then 0 else w % 2 ^ 64) := by
  have hreg := setGN_bytesOnly s d w
  have hpc := setPC_bytesOnly (s.setGN d w) v
  refine ⟨_, rfl, (pc_setPC _ v).trans h, ?_, (gN_setPC _ v d).trans (gN_setGN s d w)⟩
  rw [State.cxRange, hreg.cur, hreg.wsLoc] at hpc
  exact (hreg.trans hpc).mono fun r hr => List.mem_append.2 (List.mem_append.1 hr).symm

/-- JALR jumps to an aligned target and traps at any other (R92). -/
theorem jalr_spec (s : State) (d a : GReg) (imm : Imm) {t : ℕ} (ht : (s.gN a + 4 * imm.val.toNat) % 2 ^ 64 = t) :
    (t % 4 = 0 → Jumps s (exec (.jalr d a imm) s) t (s.gRange d) (fun u => u.gN d = if d = 0 then 0 else s.nextPC % 2 ^ 64)) ∧
    (t % 4 ≠ 0 → exec (.jalr d a imm) s = .next (s.takeTrap 0x004 t 0)) := by
  rw [← toNat_g, ← toNat_add_words] at ht
  have hlt : t < 2 ^ 64 := ht ▸ (s.g a + 4 * imm.val).isLt
  subst ht
  refine ⟨fun haligned => ?_, fun hmis => if_pos hmis⟩
  have hexec : exec (.jalr d a imm) s = .next ((s.setPC (s.g a + 4 * imm.val).toNat).setGN d s.nextPC) := if_neg (not_not.2 haligned)
  rw [hexec]
  exact setPC_setGN_jumps s d (by omega)

/-- LOOPNZ counts down and jumps while the count is not zero, also where gD is g0 (R93). -/
theorem loopnz_jumps (s : State) (d : GReg) (imm : Imm) {n : ℕ} (hn : (s.gN d + (2 ^ 64 - 1)) % 2 ^ 64 = n) :
    Jumps s (exec (.loopnz d imm) s) (if n = 0 then s.nextPC % 2 ^ 64 else s.wordTarget imm) (s.gRange d)
      (fun u => u.gN d = if d = 0 then 0 else n) := by
  have hcount : (s.g d - 1).toNat = n := by
    rw [BitVec.toNat_sub, toNat_g, ← hn, Nat.add_comm]
    rfl
  have hzero : s.g d - 1 = 0 ↔ n = 0 := by rw [word_eq_zero_iff, hcount]
  have hexec : exec (.loopnz d imm) s = .next ((s.setGN d n).setPC (if n = 0 then s.nextPC else s.target imm)) := by
    rw [← hcount, ← setG_eq_setGN, hcount]
    simp only [← hzero]
    exact congrArg _ ((ite_not ..).trans (apply_ite ..).symm)
  rw [hexec]
  have hjump := setGN_setPC_jumps s d (w := n) (v := if n = 0 then s.nextPC else s.target imm) rfl
  have hlt : n < 2 ^ 64 := hn ▸ Nat.mod_lt _ (Nat.two_pow_pos 64)
  rw [Nat.mod_eq_of_lt hlt, apply_ite (fun v => v % 2 ^ 64 / 4 * 4), nextPC_aligned, target_aligned] at hjump
  exact hjump

/-- Settles O4: a branch by its condition, and the jumps by the two writes that each makes. -/
theorem branchResults : Obligations.BranchResults := by
  intro s d a b imm tgt sx sy jumpsIf link
  have hlt : (s.g a).slt (s.g b) = true ↔ sx < sy := BitVec.slt_iff_toInt_lt
  have hltu : (s.g a).ult (s.g b) = true ↔ s.gN a < s.gN b := by rw [BitVec.ult_iff_toNat_lt, toNat_g, toNat_g]
  have heq : s.g a = s.g b ↔ s.gN a = s.gN b := by rw [← BitVec.toNat_inj, toNat_g, toNat_g]
  exact ⟨branch_jumpsIf rfl (beq_iff_eq.trans heq), branch_jumpsIf rfl (bne_iff_ne.trans heq.not), branch_jumpsIf rfl hlt,
    branch_jumpsIf rfl (by rw [Bool.not_eq_true', ← Bool.not_eq_true, hlt, not_lt]), branch_jumpsIf rfl hltu,
    branch_jumpsIf rfl (by rw [Bool.not_eq_true', ← Bool.not_eq_true, hltu, not_lt]), setPC_setGN_jumps s d (target_aligned s imm),
    jalr_spec s d a imm rfl, loopnz_jumps s d imm rfl⟩

/-! ### Scalar floating point (O5) -/

theorem fNeg_eq_xor {x : ℕ} (hx : x < 2 ^ 32) : fNeg x = x ^^^ 2 ^ 31 := by
  have hlow : (x ^^^ 2 ^ 31) % 2 ^ 31 = x % 2 ^ 31 := by rw [Nat.xor_mod_two_pow, Nat.mod_self, Nat.xor_zero]
  have hhigh : (x ^^^ 2 ^ 31) / 2 ^ 31 = x / 2 ^ 31 ^^^ 1 := by rw [Nat.xor_div_two_pow, Nat.div_self (Nat.two_pow_pos 31)]
  have hflip : x / 2 ^ 31 ^^^ 1 = 1 - x / 2 ^ 31 % 2 := by
    have hsign : x / 2 ^ 31 = 0 ∨ x / 2 ^ 31 = 1 := by omega
    rcases hsign with h | h <;> rw [h] <;> rfl
  rw [fNeg, ← hflip, ← hhigh, ← hlow, Nat.mul_comm, Nat.mod_add_div]

theorem fCopys_eq {y : ℕ} (x : ℕ) (hy : y < 2 ^ 32) : fCopys x y = x % 2 ^ 31 + y / 2 ^ 31 * 2 ^ 31 := by
  rw [fCopys, Nat.mod_eq_of_lt (show y / 2 ^ 31 < 2 by omega)]

theorem boolRes_eq (b : Bool) (fl : FFlags) : boolRes (b, fl) = (boolNat b, fl) := by cases b <;> rfl

theorem f_lt (s : State) (r : GReg) : s.f r < 2 ^ 32 := Nat.mod_lt _ (Nat.two_pow_pos 32)

theorem scalarFloatResults : Claims.ScalarFloatResults := by
  intro s d a b x y vx vy vd rm rounded
  exact ⟨writesF_of_doneF rfl rfl, writesF_of_doneF rfl rfl, writesF_of_doneF rfl rfl, writesF_of_doneF rfl rfl, writesF_of_doneF rfl rfl,
    writesF_of_doneF rfl rfl, writesF_of_doneF rfl rfl, writesF_of_doneF rfl rfl, writesF_of_doneF rfl rfl, writesF_of_doneF rfl rfl,
    writesF_of_doneF rfl (congrArg (·, _) (fNeg_eq_xor (f_lt s a))), writesF_of_doneF rfl (congrArg (·, _) (fCopys_eq _ (f_lt s b))),
    writesF_of_doneF rfl (boolRes_eq _ _), writesF_of_doneF rfl (boolRes_eq _ _), writesF_of_doneF rfl (boolRes_eq _ _),
    writesF_of_doneF rfl (boolRes_eq _ _), writesF_of_doneF rfl rfl⟩

/-! ### Conversions (O5) -/

theorem toSigned_gN (s : State) (r : GReg) : toSigned (s.gN r) 64 = (s.g r).toInt := by
  have h := gN_lt s r
  rw [BitVec.toInt_eq_toNat_cond, toNat_g, toSigned, Nat.mod_eq_of_lt h]
  split_ifs <;> omega

theorem ofSigned_eq (v : ℤ) : ofSigned v 64 = (BitVec.ofInt 64 v).toNat := (BitVec.toNat_ofInt v).symm

theorem conversionResults : Claims.ConversionResults := by
  intro s d a rc inf g v m wide
  have hm : s.rmOf rc = m := by cases rc <;> rfl
  clear_value m
  subst hm
  exact ⟨writesF_of_doneF rfl (by rw [toSigned_gN]), writesF_of_doneF rfl rfl, writesF_of_doneF rfl (congrArg (·, _) (ofSigned_eq _)),
    writesF_of_doneF rfl (congrArg (·, _) (ofSigned_eq _)), writesF_of_doneF rfl rfl, writesF_of_doneF rfl rfl, writesF_of_doneF rfl rfl,
    writesF_of_doneF rfl rfl, writesF_of_doneF rfl rfl, writesF_of_doneF rfl rfl, writesF_of_doneF rfl rfl, writesF_of_doneF rfl rfl⟩

/-- Settles O5: the model forms the same exact result and delivers it once, by the mode that the statement reads from CX.STATUS or RC. -/
theorem scalarFloating : Obligations.ScalarFloating := ⟨scalarFloatResults, conversionResults⟩

end Sys2Proof.Machine

/-! # Vector arithmetic, compares, permutes, conversions and moves (O12, O13) -/

namespace Sys2Proof.Machine

/-! ### Lanes as signed numbers (R97, R103) -/

theorem toSigned_laneN (s : State) (r : VReg) (i : ℕ) : toSigned (s.laneN r i) 32 = (s.lane r i).toInt := by
  have h := laneN_lt s r i
  rw [State.lane, BitVec.toInt_eq_toNat_cond, BitVec.toNat_ofNat, toSigned, Nat.mod_eq_of_lt h]
  split_ifs <;> omega

theorem lane_toInt_emod (s : State) (r : VReg) (i : ℕ) : (s.lane r i).toInt % 2 ^ 32 = s.laneN r i % 2 ^ 32 := by
  rw [← toSigned_laneN, toSigned]
  split_ifs <;> omega

theorem ofSigned_emod (z : ℤ) : (ofSigned z 32 : ℤ) % 2 ^ 32 = z % 2 ^ 32 := by
  rw [ofSigned]
  omega

theorem sat32_eq (z : ℤ) : sat32 z = ofSigned (if z < -2 ^ 31 then -2 ^ 31 else if 2 ^ 31 - 1 < z then 2 ^ 31 - 1 else z) 32 := by
  rw [sat32]
  congr 1
  split_ifs <;> omega

/-! ### Completions whose results the statements say in other words -/

section
variable {s : State} {o : Host.Outcome State Fault Refusal} {d : VReg} {e m : MReg} {f g : ℕ → ℕ} {p q : ℕ → Bool}

theorem writesV_of_doneV (ho : o = .next (s.doneV d m f)) (h : ∀ i, f i = g i) : WritesV s o d (s.mN m) g := by
  rw [ho]
  exact doneV_writesV s d m fun i _ _ => h i

/-- A lane-wise result told by an integer modulo 2^32 (R103). -/
theorem writesV_of_doneV_int {z : ℕ → ℤ} (ho : o = .next (s.doneV d m f)) (h : ∀ i, (f i : ℤ) % 2 ^ 32 = z i % 2 ^ 32) :
    WritesV s o d (s.mN m) fun i => (BitVec.ofInt 32 (z i)).toNat := by
  obtain ⟨t, ht, hpc, hreps, hbytes, hlanes⟩ := setV_writesV s d (s.mN m) f
  refine ⟨t, ho.trans ht, hpc, hreps, hbytes, fun i hi => ?_⟩
  have hmod : (BitVec.ofInt 32 (z i)).toNat = f i % 2 ^ 32 := by
    have hi := h i
    rw [BitVec.toNat_ofInt]
    omega
  simp only [hlanes i hi, hmod, Nat.mod_mod]

/-- A compare lies within its governing mask (R104). -/
theorem writesM_of_doneM (ho : o = .next (s.doneM e fun i => bitOf (s.mN m) i && p i)) (h : ∀ i, p i = q i) :
    WritesM s o e fun i => (s.mN m).testBit i && q i := by
  rw [ho]
  simp only [← h, ← bitOf_eq_testBit]
  exact doneM_writesM s e _

/-- A mask register written with the low bits of a number (R104, R111). -/
theorem writesM_of_setMN {v : ℕ} (ho : o = .next (s.setMN e v).advance) (h : ∀ i, i < 16 → v.testBit i = p i) :
    WritesM s o e p := by
  obtain ⟨t, ht, hpc, hreps, hbytes, hmask⟩ := setMN_completes s e v
  refine ⟨t, ho.trans ht, hpc, hreps, hbytes, fun i hi => ?_⟩
  rw [hmask, bitOf_eq_testBit]
  split_ifs
  · exact (Nat.testBit_two_pow_sub_one 16 i).trans (decide_eq_true hi)
  · rw [Nat.testBit_mod_two_pow, decide_eq_true hi, Bool.true_and, h i hi]

end

theorem mN_lt (s : State) (r : MReg) : s.mN r < 2 ^ 16 := by
  unfold State.mN
  split_ifs
  · decide
  · exact wsGet_lt s _ _ _ 2

/-! ### Vector arithmetic (O12) -/

/-- VMIN and VMAX choose a lane by its signed value (R103). -/
theorem lane_min_emod (s : State) (a b : VReg) (i : ℕ) :
    ((if (s.lane a i).toInt < (s.lane b i).toInt then s.laneN a i else s.laneN b i : ℕ) : ℤ) % 2 ^ 32 =
      min (s.lane a i).toInt (s.lane b i).toInt % 2 ^ 32 := by
  rcases lt_or_ge (s.lane a i).toInt (s.lane b i).toInt with h | h
  · rw [if_pos h, min_eq_left h.le, lane_toInt_emod]
  · rw [if_neg h.not_gt, min_eq_right h, lane_toInt_emod]

theorem lane_max_emod (s : State) (a b : VReg) (i : ℕ) :
    ((if (s.lane a i).toInt < (s.lane b i).toInt then s.laneN b i else s.laneN a i : ℕ) : ℤ) % 2 ^ 32 =
      max (s.lane a i).toInt (s.lane b i).toInt % 2 ^ 32 := by
  rcases lt_or_ge (s.lane a i).toInt (s.lane b i).toInt with h | h
  · rw [if_pos h, max_eq_right h.le, lane_toInt_emod]
  · rw [if_neg h.not_gt, max_eq_left h, lane_toInt_emod]

/-- R101 by the two BF16 halves of each lane. -/
theorem bfmaLane_eq (rm : RoundMode) (a b d : ℕ) : bfmaLane rm a b d = (fp32.deliver false rm (sumVals (decide (rm = .rdn))
    [some (fp32.decode d), mulFin (bf16.decode (a / 2 ^ (16 * 0) % 2 ^ 16)) (bf16.decode (b / 2 ^ (16 * 0) % 2 ^ 16)),
      mulFin (bf16.decode (a / 2 ^ (16 * 1) % 2 ^ 16)) (bf16.decode (b / 2 ^ (16 * 1) % 2 ^ 16))])).1 := by
  simp only [Nat.mul_zero, Nat.pow_zero, Nat.div_one]
  rfl

theorem vectorFloatResults : Claims.VectorFloatResults := by
  intro s d a b m rm A B D lanes rounded near
  have same {j : Instr} {f : ℕ → ℕ} (hj : exec j s = .next (s.doneV d m f)) : lanes j f := writesV_of_doneV hj fun _ => rfl
  exact ⟨same rfl, same rfl, same rfl, same rfl, same rfl, same rfl, same rfl, same rfl, same rfl, same rfl,
    writesV_of_doneV rfl fun i => fNeg_eq_xor (laneN_lt s a i), same rfl, same rfl, same rfl, same rfl,
    writesV_of_doneV rfl fun i => bfmaLane_eq _ _ _ _⟩

theorem vectorIntegerResults : Claims.VectorIntegerResults := by
  intro s d a b m x y sx sy n lanes sat
  have hx (i : ℕ) : toSigned (s.laneN a i) 32 = sx i := toSigned_laneN s a i
  have hy (i : ℕ) : toSigned (s.laneN b i) 32 = sy i := toSigned_laneN s b i
  have same {j : Instr} {f : ℕ → ℕ} (hj : exec j s = .next (s.doneV d m f)) : lanes j fun i => f i :=
    writesV_of_doneV_int hj fun _ => rfl
  have signed {j : Instr} {f : ℕ → ℕ} {z : ℕ → ℤ} (hj : exec j s = .next (s.doneV d m f)) (h : ∀ i, f i = ofSigned (z i) 32) :
      lanes j z := writesV_of_doneV_int hj fun i => by rw [h, ofSigned_emod]
  refine ⟨writesV_of_doneV_int rfl fun i => by rw [Nat.cast_add], writesV_of_doneV_int rfl fun i => ?_,
    writesV_of_doneV_int rfl fun i => by rw [Nat.cast_mul], signed rfl fun i => by rw [hx, hy],
    writesV_of_doneV_int rfl fun i => ?_, writesV_of_doneV_int rfl fun i => ?_, same rfl, same rfl, same rfl, same rfl, same rfl,
    writesV_of_doneV_int rfl fun i => by push_cast; rfl, same rfl, signed rfl fun i => by rw [hx],
    signed rfl fun i => by rw [sat32_eq, hx, hy], signed rfl fun i => by rw [sat32_eq, hx, hy]⟩
  · have hlt := laneN_lt s b i
    simp only [x, y]
    omega
  · rw [hx, hy]
    exact lane_min_emod s a b i
  · rw [hx, hy]
    exact lane_max_emod s a b i

/-- Settles O12: the model forms each lane by the operation that the statement names, and integer lanes agree modulo 2^32. -/
theorem vectorArithmetic : Obligations.VectorArithmetic := ⟨vectorFloatResults, vectorIntegerResults⟩

/-! ### Compares, masks and moves (O13) -/

/-- R110 by the order of the operands' values: a candidate is kept when it is a number that is not below its threshold. -/
theorem pruneKeep_eq (c t : ℕ) : pruneKeep c t =
    (!(fp32.decode c).isNan && ((fp32.decode t).isNan || !(fp32.decode c).lt (fp32.decode t))) := by
  cases hc : (fp32.decode c).isNan <;> cases ht : (fp32.decode t).isNan <;> simp [pruneKeep, hc, ht]

theorem vectorCompareResults : Claims.VectorCompareResults := by
  intro s d a b m e f g A B on within
  refine ⟨writesM_of_doneM rfl fun i => rfl, writesM_of_doneM rfl fun i => rfl, writesM_of_doneM rfl fun i => rfl,
    writesM_of_doneM rfl fun i => rfl, writesM_of_doneM rfl fun i => ?_, writesM_of_doneM rfl fun i => rfl,
    writesM_of_doneM rfl fun i => pruneKeep_eq _ _, ?_, writesM_of_setMN rfl fun i _ => Nat.testBit_and _ _ i,
    writesM_of_setMN rfl fun i _ => Nat.testBit_or _ _ i, writesM_of_setMN rfl fun i _ => Nat.testBit_xor _ _ i,
    writesM_of_setMN rfl fun i hi => ?_⟩
  · rw [toSigned_laneN, toSigned_laneN]
  · simp only [on, ← bitOf_eq_testBit]
    exact setV_writesV s d 0xFFFF _
  · rw [show 0xFFFF - s.mN f = 2 ^ 16 - (s.mN f + 1) by omega, Nat.testBit_two_pow_sub_succ (mN_lt s f), decide_eq_true hi,
      Bool.true_and]

theorem vectorMoveResults : Claims.VectorMoveResults := by
  intro s d a b m e r q rm A lanes byte pack bf
  have same {j : Instr} {f : ℕ → ℕ} (hj : exec j s = .next (s.doneV d m f)) : lanes j f := writesV_of_doneV hj fun _ => rfl
  have zipped {x y : ℕ → ℕ} (i : ℕ) :
      (if i % 2 = 0 then x (i / 2) else y ((i - 1) / 2)) = if i % 2 = 0 then x (i / 2) else y (i / 2) := by
    split_ifs with hi
    · rfl
    · rw [show (i - 1) / 2 = i / 2 by omega]
  exact ⟨same rfl, writesV_of_doneV rfl fun i => by rw [Nat.add_mod_mod], writesV_of_doneV rfl (zipped (x := s.laneN a)),
    writesV_of_doneV rfl (zipped (x := fun k => s.laneN a (8 + k)) (y := fun k => s.laneN b (8 + k))),
    writesV_of_doneV rfl fun i => by rw [toSigned_laneN]; rfl, writesV_of_doneV rfl fun i => (BitVec.toNat_ofInt _).symm, same rfl,
    same rfl, same rfl, same rfl, same rfl, same rfl, same rfl, same rfl, setV_writesV s d _ _, writesG_of_done rfl rfl,
    writesG_of_done rfl rfl, writesM_of_setMN rfl fun _ _ => rfl⟩

/-- Settles O13: compares and mask logic bit by bit, permutes, conversions and moves lane by lane. -/
theorem vectorComparesAndMoves : Obligations.VectorComparesAndMoves := ⟨vectorCompareResults, vectorMoveResults⟩

end Sys2Proof.Machine

/-! # Local accesses: loads, and a store into a workspace that is not aligned (O17)

`localLoads` is the half of O17 that holds; the half about stores is refuted. -/

namespace Sys2Proof.Machine

/-! ### Loads of local targets (R34, R112, R117, R119, R229) -/

theorem sameWorkspaces_acquire (s : State) : SameWorkspaces s s.acquire :=
  ⟨rfl, rfl, fun core ctx => by
    rw [State.acquire, State.dropAhead, State.dropAheadAt, ctxAt_setCtxAt]
    split_ifs with hc
    · rw [hc.1, hc.2]
    · rfl⟩

theorem BytesOnly.acquire {rs : List Range} {s t : State} (h : BytesOnly rs s t) : BytesOnly rs s.acquire t.acquire :=
  ⟨by conv_lhs => rw [h.rest]
      rfl, h.byte, h.healed, h.kept⟩

theorem acquire_acquire (s : State) : s.acquire.acquire = s.acquire := by
  have hme : s.acquire.ctxAt s.cur.core s.cur.ctx = { s.ctxAt s.cur.core s.cur.ctx with ahead := [] } :=
    (ctxAt_setCtxAt s s.cur.core s.cur.ctx _ s.cur.core s.cur.ctx).trans (if_pos ⟨rfl, rfl⟩)
  change s.acquire.setCtxAt s.cur.core s.cur.ctx { s.acquire.ctxAt s.cur.core s.cur.ctx with ahead := [] } = _
  rw [hme]
  exact setCtxAt_setCtxAt s s.cur.core s.cur.ctx _ _

/-- A completed instruction acquires when it asks for it, or when it has read what a release wrote. -/
theorem completed_acquireIf (s : State) (acq saw : Bool) :
    (s.completed acq).acquireIf saw = if acq = true ∨ saw = true then s.advance.acquire else s.advance := by
  cases acq <;> cases saw <;> simp [State.completed, State.acquireIf, acquire_acquire]

/-- Registers are written and the instruction completes, with acquire effect or not. -/
theorem completesOver_acquire {s t : State} {rs : List Range} {p : State → Prop} {c : Prop} [Decidable c] (h : BytesOnly rs s t)
    (hr : s.apart rs) (hp : ∀ u, SameRegisters t u → p u) :
    CompletesOver s (if c then s.acquire else s) (.next (if c then t.advance.acquire else t.advance)) rs p := by
  obtain ⟨u, hu, hpc, hreps, hbytes, hregs⟩ := completes_of_apart (p := SameRegisters t) h hr fun u hu =>
    ⟨gN_onRanges h hu, laneN_onRanges h hu⟩
  obtain rfl : t.advance = u := Host.Outcome.next.inj hu
  split_ifs
  · have hsw := sameWorkspaces_acquire t.advance
    exact ⟨_, rfl, hsw.pc.trans hpc, (hsw.cx _).trans hreps, hbytes.acquire,
      hp _ ⟨fun r => (hsw.gN r).trans (hregs.gN r), fun r i hi => (hsw.laneN r i).trans (hregs.laneN r i hi)⟩⟩
  · exact ⟨_, rfl, hpc, hreps, hbytes, hp _ hregs⟩

theorem finishLoad_eq (s : State) (d : GReg) (h : Hint) (bs : List Byte) :
    s.finishLoad d h bs = (s.setGN d (natOf bs)).completed (h == .order) := by cases h <;> rfl

theorem natOf_append (xs ys : List Byte) : natOf (xs ++ ys) = natOf xs + 2 ^ (8 * xs.length) * natOf ys := by
  induction xs with
  | nil => simp [natOf]
  | cons x xs ih =>
    rw [List.cons_append, natOf, natOf, ih, List.length_cons, Nat.mul_succ, pow_add]
    ring

theorem Memory.read_add (m : Memory) (a k n : ℕ) : m.read a (k + n) = m.read a k ++ m.read (a + k) n := by
  simp only [Memory.read_eq_map, List.range_add, List.map_append, List.map_map, Function.comp_def, Nat.add_assoc]

/-- One lane of 64 bytes is read by itself (R112). -/
theorem natOf_read_lane (m : Memory) (loc : ℕ) {i : ℕ} (hi : i < 16) :
    natOf (m.read loc 64) / 2 ^ (32 * i) % 2 ^ 32 = natOf (m.read (loc + 4 * i) 4) := by
  have hbelow := natOf_lt (m.read loc (4 * i))
  have hlane := natOf_lt (m.read (loc + 4 * i) 4)
  rw [Memory.read_length] at hbelow hlane
  rw [show 64 = 4 * i + (4 + (60 - 4 * i)) by omega, Memory.read_add, Memory.read_add, natOf_append, natOf_append, Memory.read_length,
    Memory.read_length, show 32 * i = 8 * (4 * i) by omega, Nat.add_mul_div_left _ _ (Nat.two_pow_pos _), Nat.div_eq_of_lt hbelow,
    Nat.zero_add, Nat.add_mul_mod_self_left, Nat.mod_eq_of_lt hlane]

section
variable {s : State} {o : Host.Outcome State Fault Refusal} {ea n cl u off : ℕ} {k : Kont} {fin : State → List Byte → State}

/-- A load from a local target that waits, or of poisoned data (R112, R117, R366). -/
theorem loadFrom_stops (ho : o = .next (s.loadFrom ea n n k fin)) :
    (s.checkAddr .load ea n n = .ok (.unit cl u off) ∧ s.isLocal .load (.unit cl u off) = true →
      s.localWait .load cl u off n ea = true → Stalls s s o .retry) ∧
    (s.checkAddr .load ea n n = .ok (.unit cl u off) ∧ s.isLocal .load (.unit cl u off) = true →
      ¬ s.localWait .load cl u off n ea = true → s.tainted (nearLoc cl u off) n = true → o = .next (s.takeTrap 0x1C0 ea 0)) := by
  subst ho
  refine ⟨fun ⟨hp, hl⟩ hwait => ?_, fun ⟨hp, hl⟩ hwait hbad => ?_⟩
  · simp only [State.loadFrom, hp, hl, hwait, if_true]
    exact (SameWorkspaces.refl s).stalls .retry
  · simp only [State.loadFrom, hp, hl, hwait, hbad, if_true]
    rfl

/-- A load from a local target that its instruction finishes by writing registers (R34, R119, R229). -/
theorem loadFrom_reads {acq : Bool} {t : State} {rs : List Range} {p : State → Prop} (ho : o = .next (s.loadFrom ea n n k fin))
    (hfin : fin s (s.handlerView.rd (nearLoc cl u off) n) = t.completed acq) (ht : BytesOnly rs s t) (hr : s.apart rs)
    (hregs : ∀ v, SameRegisters t v → p v)
    (hplace : s.checkAddr .load ea n n = .ok (.unit cl u off) ∧ s.isLocal .load (.unit cl u off) = true)
    (hwait : ¬ s.localWait .load cl u off n ea = true) (hclean : s.tainted (nearLoc cl u off) n = false) :
    CompletesOver s (if acq = true ∨ s.sawRelease (nearLoc cl u off) n = true then s.acquire else s) o rs p := by
  have hload : s.loadFrom ea n n k fin = (t.completed acq).acquireIf (s.sawRelease (nearLoc cl u off) n) := by
    simp only [State.loadFrom, hplace, hwait, hclean, if_true, if_false, Bool.false_eq_true]
    rw [← hfin]
    rfl
  rw [ho, hload, completed_acquireIf]
  exact completesOver_acquire ht hr hregs

end

/-- Sixteen lanes loaded from 64 bytes (R112). -/
theorem laneN_loaded (s : State) (d : VReg) (m : Memory) (loc : ℕ) {i : ℕ} (hi : i < 16) :
    (s.setV d 0xFFFF fun i => bits (natOf (m.read loc 64)) (32 * i + 31) (32 * i)).laneN d i = natOf (m.read (loc + 4 * i) 4) := by
  have hmask : bitOf 0xFFFF i = true := by interval_cases i <;> rfl
  have hlt := natOf_lt (m.read loc 64)
  rw [Memory.read_length] at hlt
  have hbits := bits_lane (natOf (m.read loc 64)) i hi
  rw [Nat.mod_eq_of_lt hlt] at hbits
  rw [laneN_setV s d _ _ i hi, if_pos hmask, hbits, natOf_read_lane m loc hi]

theorem localLoads : Claims.LocalLoads := by
  intro s d a v off h w cl u o hgo base place waits reads stops loads
  have scalar {i : Instr} {n : ℕ} (hn : n ≤ 8) (hi : exec i s = s.loadScalar n d a off h w) : loads i n := by
    have ho : exec i s = .next (s.loadFrom (s.memEa a off n) n n (.load d.val (h == .order)) fun t bs => t.finishLoad d h bs) := by
      rw [hi, State.loadScalar, wGate_of_goesOn hgo, ea_eq_memEa]
    refine ⟨loadFrom_stops ho, fun ⟨hplace, hwait, hclean⟩ => ?_⟩
    have hlt : natOf (s.handlerView.rd (nearLoc cl u o) n) < 2 ^ 64 :=
      (natOf_lt _).trans_le (Nat.pow_le_pow_right (by decide) (by rw [State.rd, Memory.read_length]; omega))
    have hread := loadFrom_reads ho (finishLoad_eq s d h _) (setGN_bytesOnly s d _) (gRange_apart s d)
      (fun t ht => (ht.gN d).trans (gN_setGN s d _)) hplace hwait hclean
    simp only [beq_iff_eq, Nat.mod_eq_of_lt hlt] at hread
    exact hread
  have vector : exec (.vld v a off h w) s = .next (s.loadFrom (s.memEa a off 64) 64 64 (.vload v.val (h == .order))
      fun t bs => t.finishVload v (h == .order) bs) := by
    rw [← ea_eq_memEa]
    exact wGate_of_goesOn hgo _
  refine ⟨scalar (by decide) rfl, scalar (by decide) rfl, scalar (by decide) rfl, fun hd => scalar (by decide) ?_, loadFrom_stops vector,
    fun ⟨hplace, hwait, hclean⟩ => ?_⟩
  · exact if_neg fun hno => hd.elim (fun h0 => h0 hno.1) (fun h1 => hno.2 h1)
  · have hread := loadFrom_reads vector rfl (setV_bytesOnly s v _ _) (vRange_apart s v)
      (p := fun t => ∀ i, i < 16 → t.laneN v i = natOf (s.handlerView.rd (nearLoc cl u o + 4 * i) 4)) (fun t ht i hi => ?_)
      hplace hwait hclean
    · simp only [beq_iff_eq] at hread
      exact hread
    · rw [ht.laneN v i hi]
      exact laneN_loaded s v (s.handlerView.mem) _ hi

/-! ### A store into a workspace that is not aligned -/

/-- The bytes at a location in the next state, where there is one. -/
def bytesAfter (o : Host.Outcome State Fault Refusal) (loc n : ℕ) : Option (List Byte) :=
  match o with
  | .next t => some (t.rd loc n)
  | _ => none

theorem rd_of_bytesAfter {o : Host.Outcome State Fault Refusal} {t : State} {loc n : ℕ} {bs : List Byte} (hnext : o = .next t)
    (h : bytesAfter o loc n = some bs) : t.rd loc n = bs := by
  rw [hnext] at h
  exact Option.some.inj h

/-- The self-window address of the last byte of CX.STATUS of context 3 of `misaligned`, as an offset from g0. -/
def statusLastByte : Imm := { pfx := 0, val := 0x0900000000032E20 }

/-- STB of g0 at that address, by the control context of core 0. -/
def storeByte : Instr := .stb 0 0 statusLastByte .plain ⟨false, false⟩

/-- The store puts the context's number into the low byte of CX.STATUS (R22), at 0x32E19. -/
theorem storeByte_sets_ctx : bytesAfter (exec storeByte misaligned) (nearLoc 0 0 0x32E19) 1 = some [0x30] := by decide +kernel

/-- Refutes O17: a store into the context words of a current workspace may change the whole words that it lies in, but
`State.storeRange` counts those words from offset 0 of the PM, and the model holds the words of a workspace at offsets from CX.WP.
The statement does not ask for R24, by which CX.WP lies on a slot; in `misaligned` it does not, and a word that the store reaches
begins before the range. -/
theorem not_localAccesses : ¬ Obligations.LocalAccesses := by
  rintro ⟨-, stores⟩
  obtain ⟨stb, -⟩ := stores misaligned 0 0 0 0 statusLastByte .plain ⟨false, false⟩ false false 0 0 0x32E20 (by decide)
  obtain ⟨t, hnext, -, -, hframe, -⟩ := stb (by decide +kernel) (by unfold State.goesOn; decide +kernel)
  have hafter : t.rd (nearLoc 0 0 0x32E19) 1 = [0x30] := rd_of_bytesAfter hnext storeByte_sets_ctx
  have hsame : t.mem.get (nearLoc 0 0 0x32E19) = misaligned.mem.get (nearLoc 0 0 0x32E19) := hframe.byte _ (by decide +kernel)
  have hbefore : misaligned.mem.get (nearLoc 0 0 0x32E19) = 0 := by decide +kernel
  exact absurd (List.head_eq_of_cons_eq hafter) (by rw [hsame, hbefore]; decide)

end Sys2Proof.Machine

/-! # Prefetches, and a scatter over workspaces that overlap (O20)

`prefetchRule` is the half of O20 that holds; the half about gathers and scatters is refuted by a scatter. -/

namespace Sys2Proof.Machine

/-! ### Prefetches (R123) -/

theorem prefetchRule : Claims.PrefetchRule := by
  intro s a off stream h w p hh hgo hp base
  have hpref : CompletesOver s base (s.prefetch a off w) [] (fun _ => True) := by
    rw [State.prefetch, wGate_of_goesOn hgo, ea_eq_memEa]
    simp only [hp]
    cases p with
    | global => exact (sameWorkspaces_launchFlight s _).completesOver (.refl [] _) (apart_nil _) fun _ _ => trivial
    | unit cl u o => exact advance_completes s
    | away k => exact advance_completes s
  exact ⟨hpref, by rw [show exec (.ldd 0 a off h w) s = s.prefetch a off w from if_pos ⟨rfl, hh⟩]; exact hpref⟩

/-! ### A scatter over workspaces that overlap -/

/-- Partition 0 runs on cluster 0, whose core 0 executes its control context. The workspace of context 2 begins at 0x32E00, off the
slots (R24), within that of context 3: CX.STATUS of context 3, which is EMPTY, lies in the register g3 of context 2, and its CX.CAUSE in
the register g5. Lanes 0 and 1 of v1 lead from g1 to those two words, m1 sets the two lanes, and v2 holds 1 and 17. -/
def overlapping : State :=
  let s : State := { State.reset with
    parts := [(0, { Part.reset with status := .running, clusters := [0] })]
    cores := [(0, { CoreState.reset with ctxs := [(2, { Ctx.reset 2 with wp := 0x32E00 })] })] }
  ((((s.setGN 1 0x0900000000032E18).setMN 1 3).setLaneN 1 1 16).setLaneN 2 0 1).setLaneN 2 1 17

/-- The store of lane 0 makes context 3 READY, so that the check of R26 fails on lane 1 when its turn comes, and CX.CAUSE keeps its
bytes. -/
theorem scatter_skips_lane : bytesAfter (exec (.vscat 2 1 1 1) overlapping) (nearLoc 0 0 0x32E28) 4 = some [0, 0, 0, 0] := by
  decide +kernel

theorem overlapping_lanes : (List.range 16).filter (fun i => overlapping.mN 1 / 2 ^ i % 2 == 1) = [0, 1] := by decide +kernel

/-- At issue both lanes pass the checks of R116 and are local stores that nothing holds up, off the words of the control context's
workspace and, as `State.inWords` sees it, of any other. -/
theorem overlapping_at_issue : ∀ i ∈ [0, 1],
    let ea := (((overlapping.gN 1 : ℤ) + (BitVec.ofNat 32 (overlapping.laneN 1 i)).toInt) % 2 ^ 64).toNat
    let off := 0x32E18 + 16 * i
    overlapping.checkAddr .store ea 4 4 = .ok (.unit 0 0 off) ∧ overlapping.localWait .store 0 0 off 4 ea = false ∧
      apartFrom (nearLoc 0 0 off, 4) (overlapping.wsLoc 0 0 0, 0xC00) ∧ overlapping.inWords 0 0 off 4 = none := by decide +kernel

/-- Refutes O20: a scatter's lanes are checked again one by one as they are stored, and the statement takes the checks at issue.
They differ when one lane stores to a state word that the check of a later lane reads (R26). The statement keeps lanes off state words by
`State.inWords`, which looks in one workspace alone, and does not ask for R24, by which workspaces do not overlap; in `overlapping` the
state word of one context is a register of another. -/
theorem not_prefetchGatherScatter : ¬ Obligations.PrefetchGatherScatter := by
  rintro ⟨-, gatherScatter⟩
  obtain ⟨-, -, -, scatter⟩ := gatherScatter overlapping 2 1 1 1
  have lanes {i : ℕ} (hi : i ∈ (List.range 16).filter (fun i => overlapping.mN 1 / 2 ^ i % 2 == 1)) : i ∈ [0, 1] := overlapping_lanes ▸ hi
  obtain ⟨t, hnext, -, -, -, -, hstored⟩ := scatter (by decide)
    (fun i hi => ⟨_, (overlapping_at_issue i (lanes hi)).1⟩)
    (fun i hi => ⟨fun _ hload => absurd hload (by decide), fun _ cl u o hc => by
      obtain ⟨hcheck, hwait, -⟩ := overlapping_at_issue i (lanes hi)
      cases Except.ok.inj (hcheck.symm.trans hc)
      exact hwait⟩)
    (fun i hi => by
      obtain ⟨hcheck, -, hapart, hwords⟩ := overlapping_at_issue i (lanes (List.mem_filter.1 hi).1)
      refine ⟨by dsimp only; rw [hcheck]; exact hapart, fun cl u o hc => ?_⟩
      cases Except.ok.inj (hcheck.symm.trans hc)
      exact hwords)
    (by decide +kernel) (by decide +kernel)
  have hstored := hstored 1 (by decide +kernel) (by decide +kernel)
  dsimp only at hstored
  rw [(overlapping_at_issue 1 (by decide)).1, rd_of_bytesAfter hnext scatter_skips_lane] at hstored
  exact absurd hstored (by decide +kernel)

end Sys2Proof.Machine

/-! # What the agents of atomics make of the bytes they find (O19) -/

namespace Sys2Proof.Machine

theorem toSigned_eq_toInt {v : ℕ} (hv : v < 2 ^ 64) : toSigned v 64 = (BitVec.ofNat 64 v).toInt := by
  rw [BitVec.toInt_eq_toNat_cond, BitVec.toNat_ofNat, toSigned, Nat.mod_eq_of_lt hv]
  split_ifs <;> omega

/-- Numbers of 64 bits are told apart by their signed values. -/
theorem eq_of_toSigned_eq {v w : ℕ} (hv : v < 2 ^ 64) (hw : w < 2 ^ 64) (h : toSigned v 64 = toSigned w 64) : v = w := by
  simp only [toSigned, Nat.mod_eq_of_lt hv, Nat.mod_eq_of_lt hw] at h
  split_ifs at h <;> omega

/-- The first of two values in an order is their minimum, and the second their maximum (R126). -/
theorem apply_min_max {x b : ℕ} (hx : x < 2 ^ 64) (hb : b < 2 ^ 64) :
    (toSigned x 64 ≤ toSigned b 64 → AOp.min.apply x b = x ∧ AOp.max.apply x b = b) ∧
    (toSigned b 64 ≤ toSigned x 64 → AOp.min.apply x b = b ∧ AOp.max.apply x b = x) := by
  refine ⟨fun hle => ?_, fun hle => ?_⟩
  · rcases hle.lt_or_eq with hlt | heq
    · exact ⟨if_pos hlt, if_pos hlt⟩
    · obtain rfl := eq_of_toSigned_eq hx hb heq
      exact ⟨ite_self x, ite_self x⟩
  · exact ⟨if_neg hle.not_gt, if_neg hle.not_gt⟩

theorem natOf_take (bs : List Byte) (n : ℕ) (h : n ≤ bs.length) : natOf (bs.take n) = natOf bs % 2 ^ (8 * n) := by
  have hlow := natOf_lt (bs.take n)
  have hsplit := natOf_append (bs.take n) (bs.drop n)
  rw [List.length_take_of_le h] at hlow hsplit
  rw [List.take_append_drop] at hsplit
  rw [hsplit, Nat.add_mul_mod_self_left, Nat.mod_eq_of_lt hlow]

/-- Settles O19: `MemOp.run` reads the old bytes as a number, and the minimum and maximum go by signed or unsigned order. -/
theorem agentOperations : Obligations.AgentOperations := by
  intro old b hlen hb x makes signed
  have hx : x < 2 ^ 64 := by
    have hlt := natOf_lt old
    rwa [hlen] at hlt
  have of_apply {op : AOp} {v : ℕ} (hw : op.width = 8) (hv : op.apply x b = v) : makes op v := by
    simp only [makes, MemOp.run, hw, ← hv, x]
  obtain ⟨hfirst, hlast⟩ := apply_min_max hx hb
  simp only [toSigned_eq_toInt hx, toSigned_eq_toInt hb] at hfirst hlast
  refine ⟨of_apply rfl rfl, of_apply rfl rfl, of_apply rfl rfl, of_apply rfl rfl, of_apply rfl rfl,
    fun h => ⟨of_apply rfl (hfirst h).1, of_apply rfl (hfirst h).2⟩, fun h => ⟨of_apply rfl (hlast h).1, of_apply rfl (hlast h).2⟩,
    fun h => ⟨of_apply rfl (Nat.min_eq_left h), of_apply rfl (Nat.max_eq_right h)⟩,
    fun h => ⟨of_apply rfl (Nat.min_eq_right h), of_apply rfl (Nat.max_eq_left h)⟩, ?fadd, fun n _ => rfl, fun c => ⟨rfl, rfl⟩⟩
  case fadd =>
    simp only [MemOp.run, AOp.width, AOp.apply, natOf_take old 4 (by omega)]
    rfl

end Sys2Proof.Machine

/-! # What reset leaves (O54) -/

namespace Sys2Proof.Machine

/-- The low bits of a byte that nothing has written, where CX.STATUS.STATE lies, are clear (R22; log entry 2). -/
theorem resetByte_state (loc : ℕ) : (resetByte loc).toNat % 2 ^ 4 = 0 := by
  unfold resetByte
  split_ifs
  · rw [BitVec.toNat_ofNat]
    omega
  · rfl

/-- Every context is EMPTY (R310; log entry 2). -/
theorem stateAt_reset (core ctx : ℕ) : State.reset.stateAt core ctx = 0 := by
  have hlow := resetByte_state (State.reset.wsLoc core ctx cxSTATUS)
  change natOf (resetByte (State.reset.wsLoc core ctx cxSTATUS) :: _) / 2 ^ 0 % 2 ^ 4 = 0
  rw [natOf]
  omega

theorem bits_zero (hi lo : ℕ) : bits 0 hi lo = 0 := by simp [bits]

/-- The control fields from 0x0800 on are those of ports and of routes (R323). -/
theorem fieldValue_of_ge {s : State} {core ctx n : ℕ} (hn : 0x0800 ≤ n) : s.fieldValue core ctx n =
    if 0x1000 ≤ n then Tbl.get 0 s.routes (n - 0x1000)
    else if 0x0900 ≤ n then (s.port (n - 0x0900)).lclass
    else (s.port (n - 0x0800)).lretry := by
  unfold State.fieldValue
  extract_lets
  split <;> omega

/-- Settles O54: field by field from the records that `State.reset` lists. -/
theorem resetState : Obligations.ResetState := by
  unfold Obligations.ResetState
  extract_lets s fields
  refine ⟨⟨rfl, rfl⟩, rfl, fun core _ => ⟨?_, fun port hport => ⟨?_, ?_⟩, fun pkg hpkg => ?_, fun ctx _ => stateAt_reset core ctx⟩,
    fun key => rfl, fun p => rfl, rfl⟩
  · repeat refine List.forall_mem_cons.2 ⟨rfl, ?_⟩
    refine List.forall_mem_cons.2 ⟨bits_zero 63 0, List.forall_mem_cons.2 ⟨bits_zero 79 64, ?_⟩⟩
    repeat refine List.forall_mem_cons.2 ⟨rfl, ?_⟩
    refine List.forall_mem_cons.2 ⟨bits_zero 63 0, List.forall_mem_cons.2 ⟨bits_zero 79 64, ?_⟩⟩
    repeat refine List.forall_mem_cons.2 ⟨rfl, ?_⟩
    exact List.forall_mem_nil _
  · rw [fieldValue_of_ge (by omega), if_neg (by omega), if_neg (by omega)]
    rfl
  · rw [fieldValue_of_ge (by omega), if_neg (by omega), if_pos (by omega)]
    rfl
  · rw [fieldValue_of_ge (by omega), if_pos (by omega)]
    rfl

end Sys2Proof.Machine

/-! # An atomic on a page table entry that is poisoned (O33) -/

namespace Sys2Proof.Machine

/-- AADD of 1 at virtual address 8 of partition 0, translated to the page table entry at 0x10008 of memory. -/
def addToPte : MemReq :=
  { part := 0, va := 8, near := none, op := .atomic .add 1, back := .ctx 0 0, seq := some (0, 0), stage := .ready 0x10008 false 0,
    refused := none, rel := false, again := false }

/-- The leaf of the page at 0x10000: V, a leaf of 64 KiB, and W, and D clear (R332). -/
def selfMap : TlbEnt := { slice := 0, part := 0, vbase := 0, size := 0, pte := 0x10013, pteLoc := 0x10008 }

/-- Partition 0 runs on cluster 0. The page at 0x10000 holds the page table entry that maps it, whose word is poisoned. -/
def selfMapped : State :=
  { State.reset with
    parts := [(0, { Part.reset with status := .running, clusters := [0] })]
    mem := [(0x10008, 0x13), (0x1000A, 0x01)]
    poisoned := [0x10008]
    tlb := [selfMap]
    flights := [(0, .mem addToPte)] }

theorem selfMapped_translates : selfMapped.tlbFor 0 0 8 .write = some selfMap ∧ selfMapped.tainted 0x10000 64 = true := by
  decide +kernel

/-- Setting D writes the whole word of the entry, which heals it (R365), so that the atomic finds its line sound and answers with data. -/
theorem addToPte_answers : (selfMapped.atomicAtSlice 0).flights = [(0, .reply (.ctx 0 0) (.data 0x10093))] := by decide +kernel

/-- Refutes O33: an atomic whose line is poisoned is to fail, and the model sets D in the page table entry before it looks for poison.
The statement does not keep the entry off the atomic's line; in `selfMapped` the poisoned word is the entry itself, and writing D
clears the poison. -/
theorem not_globalAccesses : ¬ Obligations.GlobalAccesses := by
  intro h
  obtain ⟨-, -, atAgent⟩ := h selfMapped 0 addToPte rfl rfl rfl rfl rfl
  obtain ⟨htlb, hpoison⟩ := selfMapped_translates
  obtain ⟨-, fails, -⟩ := atAgent 0x10008 false 0 .add 1 0 0 rfl rfl rfl
  obtain ⟨t, hnext, hflights, -⟩ := fails selfMap rfl (by decide) htlb hpoison
  obtain rfl : selfMapped.atomicAtSlice 0 = t := Host.Outcome.next.inj hnext
  exact absurd (addToPte_answers.symm.trans hflights) (by decide +kernel)

end Sys2Proof.Machine


/-! # The barrier instructions (O22) -/

namespace Sys2Proof.Machine

/-! ### Completing, and waiting on all counters -/

section
variable {s t : State}

theorem SameWorkspaces.gRange (h : SameWorkspaces s t) (d : GReg) : t.gRange d = s.gRange d := by
  rw [State.gRange, h.wsLoc, h.cur]
  rfl

theorem SameWorkspaces.advance_completes (h : SameWorkspaces s t) : CompletesOver s t (.next t.advance) [] (fun _ => True) :=
  h.completesOver (.refl [] t) (apart_nil t) fun _ _ => trivial

theorem gN_setG (s : State) (d : GReg) (v : Word) : (s.setG d v).gN d = if d = 0 then 0 else v.toNat := by
  have h := gN_setGN s d v.toNat
  rwa [State.setGN, Nat.mod_eq_of_lt v.isLt] at h

/-- An instruction that writes one general register, over a state with the same workspaces. -/
theorem SameWorkspaces.done_completes (h : SameWorkspaces s t) (d : GReg) {v : ℕ} (hv : v < 2 ^ 64) :
    CompletesOver s t (.next (t.done d (BitVec.ofNat 64 v))) (s.gRange d) (fun u => u.gN d = if d = 0 then 0 else v) := by
  have hb := setG_bytesOnly t d (BitVec.ofNat 64 v)
  rw [← h.gRange]
  refine h.completesOver hb (gRange_apart t d) fun u hu => ?_
  rw [gN_onRanges hb hu d, gN_setG, BitVec.toNat_ofNat, Nat.mod_eq_of_lt hv]

/-- An instruction that completes with acquire effect (R34). -/
theorem advance_acquire_completes (s : State) : CompletesOver s s.acquired (.next s.advance.acquire) [] (fun _ => True) := by
  have h := completesOver_acquire (c := True) (p := fun _ => True) (.refl [] s) (apart_nil s) fun _ _ => trivial
  rwa [if_pos trivial, if_pos trivial] at h

theorem sameWorkspaces_msync (s : State) : SameWorkspaces s s.msync := by
  unfold State.msync State.releaseWhere
  extract_lets c hit
  split
  · exact ⟨rfl, rfl, fun _ _ => rfl⟩
  · exact .refl s

/-- The wait on all counters releases the context's wedge members as it begins (R244). -/
theorem waitAll_stalls (s : State) : Stalls s s.msync (.next s.waitAll) .retry := (sameWorkspaces_msync s).stalls .retry

end

/-! ### The bits of a barrier object (R135) -/

theorem or_two_pow_of_clear {a n : ℕ} (h : a / 2 ^ n % 2 = 0) : a ||| 2 ^ n = a + 2 ^ n := by
  have hlow : a % 2 ^ (n + 1) < 2 ^ n := by
    rw [Nat.mod_pow_succ, h, Nat.mul_zero, Nat.add_zero]
    exact Nat.mod_lt _ (Nat.two_pow_pos n)
  have hpow : 2 ^ (n + 1) = 2 ^ n + 2 ^ n := by ring
  conv_lhs => rw [← Nat.div_add_mod a (2 ^ (n + 1))]
  rw [Nat.two_pow_add_eq_or_of_lt (by omega), Nat.or_assoc, Nat.or_two_pow_eq_add_of_lt hlow,
    ← Nat.two_pow_add_eq_or_of_lt (by omega), ← Nat.add_assoc, Nat.div_add_mod]

section
variable {b : Barrier} (hw : b.word < 2 ^ 64)

theorem Barrier.expect_eq (b : Barrier) : b.expect = b.word % 2 ^ 16 := by simp [Barrier.expect, bits]

theorem Barrier.countMode_iff (b : Barrier) : b.countMode = true ↔ b.word / 2 ^ 16 % 2 = 1 := beq_iff_eq

include hw

theorem Barrier.gen_eq : b.gen = b.word / 2 ^ 48 := by
  simp only [Barrier.gen, bits]
  omega

/-- An arrival counts one, or sets the member's bit (R137). -/
def Barrier.nowArrived (b : Barrier) (n : ℕ) : ℕ := if b.word / 2 ^ 16 % 2 = 1 then (b.arrived + 1) % 2 ^ 16 else b.arrived + 2 ^ n

/-- What an arrival leaves, by the bits of R135. -/
theorem Barrier.arrive_eq {n : ℕ} (hn : n < 8) (clock : ℕ) (hfree : b.word / 2 ^ 16 % 2 = 1 ∨ b.arrived / 2 ^ n % 2 = 0) :
    b.arrive n clock = if b.nowArrived n = b.word % 2 ^ 16
      then { word := (b.word / 2 ^ 48 + 1) % 2 ^ 16 * 2 ^ 48 + b.word % 2 ^ 32, start := none, timedOut := false }
      else { b with word := b.word / 2 ^ 48 * 2 ^ 48 + b.nowArrived n * 2 ^ 32 + b.word % 2 ^ 32, start := some (b.start.getD clock) } := by
  have hbits : b.arrived < 2 ^ 16 := Nat.mod_lt _ (by decide)
  have hnow : (if b.countMode then (b.arrived + 1) % 2 ^ 16 else b.arrived ||| 2 ^ n) = b.nowArrived n := by
    rw [Barrier.nowArrived]
    refine if_ctx_congr b.countMode_iff (fun _ => rfl) fun hmask => or_two_pow_of_clear (hfree.resolve_left hmask)
  have hlt : b.nowArrived n < 2 ^ 16 := by
    rw [← hnow]
    split
    · exact Nat.mod_lt _ (by decide)
    · exact Nat.or_lt_two_pow hbits (Nat.pow_lt_pow_right (by decide) (by omega))
  unfold Barrier.arrive
  extract_lets arrived
  rw [show arrived = b.nowArrived n from hnow, Barrier.expect_eq, Barrier.gen_eq hw]
  refine if_congr Iff.rfl ?_ ?_
  · congr 1
    simp only [setBits]
    omega
  · congr 1
    simp only [setBits]
    omega

end

/-! ### The instructions -/

/-- The configurations that BARARM refuses (R136). -/
theorem badConfig_iff (lvl : Level) (v : ℕ) : badConfig lvl v = true ↔
    2 ^ 17 ≤ v ∨ v % 2 ^ 16 = 0 ∨ (v / 2 ^ 16 % 2 = 0 ∧ (lvl = .die ∨ lvl = .package)) ∨
      (v / 2 ^ 16 % 2 = 0 ∧ lvl = .quad ∧ 2 ^ 4 ≤ v % 2 ^ 16) ∨ (v / 2 ^ 16 % 2 = 0 ∧ lvl = .cluster ∧ 2 ^ 8 ≤ v % 2 ^ 16) := by
  simp [badConfig, bits, bitOf, or_assoc, and_assoc]

theorem sameWorkspaces_setBarrier (s : State) (key : ℕ) (b : Barrier) : SameWorkspaces s (s.setBarrier key b) :=
  ⟨rfl, rfl, fun _ _ => rfl⟩

/-- A release finds nothing outstanding, and no fault logged that it would raise (R132, R137). -/
def State.releaseDone (s : State) : Prop :=
  s.quietAt s.cur.core s.cur.ctx = true ∧ s.raiseLogged (coversOf true ⟨false, false⟩) = none

section
variable {s : State} {lvl : Level} {obj : Fin 16} {a d : GReg}

/-- BARRIVE after its wait. -/
theorem barrive_of_releaseDone (h : s.releaseDone) : exec (.barrive lvl obj d) s =
    if !s.barMine lvl obj then s.trap cPROTECTION 0 0
    else if !(s.barrier (s.myBarKey lvl obj)).countMode && !bitOf (s.barrier (s.myBarKey lvl obj)).expect (memberBit lvl s.cur.core) then
      s.trap cBARRIER_MEMBER 0 0
    else if !(s.barrier (s.myBarKey lvl obj)).countMode && bitOf (s.barrier (s.myBarKey lvl obj)).arrived (memberBit lvl s.cur.core) then
      s.trap cBARRIER_OVER 0 0
    else .next ((s.setBarrier (s.myBarKey lvl obj) ((s.barrier (s.myBarKey lvl obj)).arrive (memberBit lvl s.cur.core) s.clock)).done d
      (BitVec.ofNat 64 (s.barrier (s.myBarKey lvl obj)).gen)) :=
  orderGate_of_goesOn (rel := true) (w := ⟨false, false⟩) ⟨by simp [State.mustWait, h.1], .inl h.2⟩ _

theorem barrive_of_busy (h : s.quietAt s.cur.core s.cur.ctx = false) : exec (.barrive lvl obj d) s = .next s.waitAll :=
  if_pos (by rw [h]; rfl)

/-- Every barrier instruction traps on an object of another partition (R136), BARRIVE once its wait is over (log entry 110). -/
theorem barrier_other_traps (hctx : s.cur.ctx ≠ 1) (hmine : ¬ s.barMine lvl obj = true) :
    exec (.bararm lvl obj a) s = .next (s.takeTrap 0x088 0 0) ∧
    (s.releaseDone → exec (.barrive lvl obj d) s = .next (s.takeTrap 0x088 0 0)) ∧
    exec (.barwait lvl obj a) s = .next (s.takeTrap 0x088 0 0) ∧ exec (.barq lvl obj d) s = .next (s.takeTrap 0x088 0 0) := by
  have hother : (!s.barMine lvl obj) = true := by simpa using hmine
  exact ⟨if_pos hother, fun hr => (barrive_of_releaseDone hr).trans (if_pos hother), (if_neg hctx).trans (if_pos hother), if_pos hother⟩

end

/-- Settles O22: the objects' bits are read by `Barrier.arrive_eq` and `badConfig_iff`, and each instruction has one branch for each
clause. -/
theorem barrierInstructions : Obligations.BarrierInstructions := by
  unfold Obligations.BarrierInstructions
  intro s lvl obj a d
  extract_lets unit key b gen arrived counts expect n v want masks bad traps mine ready now b'
  intro hword hctx
  have hkey : s.myBarKey lvl obj = key := by cases lvl <;> rfl
  have hn : memberBit lvl s.cur.core = n := by cases lvl <;> rfl
  have hn8 : n < 8 := by cases lvl <;> simp only [n] <;> omega
  have hgen : b.gen = gen := Barrier.gen_eq hword
  have harrived : b.arrived = arrived := rfl
  have hexpect : b.expect = expect := b.expect_eq
  have hbad : badConfig lvl v = true ↔ bad := badConfig_iff lvl v
  have hmode : b.countMode = true ↔ counts := b.countMode_iff
  have hmasks (hm : ¬ counts) : b.countMode = false := Bool.eq_false_iff.2 (mt hmode.1 hm)
  have arm (hmine : mine) : exec (.bararm lvl obj a) s = if badConfig lvl v then s.trap cBARRIER_CONFIG 0 0
      else if b.arrived ≠ 0 ∧ !b.timedOut then s.trap cBARRIER_BUSY 0 0
      else .next (s.setBarrier key { word := b.gen * 2 ^ 48 + v, start := none, timedOut := false }).advance := by
    rw [← hkey]
    exact if_neg (by simpa using hmine)
  have wait (hmine : mine) : exec (.barwait lvl obj a) s = if b.gen ≠ v % 2 ^ 16 then .next s.advance.acquire
      else if b.timedOut then s.trap cBARRIER_TIMEOUT 0 b.word
      else .next (s.stall (.barrier key (v % 2 ^ 16) s.cur)) := by
    rw [← hkey]
    exact (if_neg hctx).trans (if_neg (by simpa using hmine))
  have arrive (hready : ready) (hmine : mine) : exec (.barrive lvl obj d) s =
      if !b.countMode && !bitOf b.expect n then s.trap cBARRIER_MEMBER 0 0
      else if !b.countMode && bitOf b.arrived n then s.trap cBARRIER_OVER 0 0
      else .next ((s.setBarrier key (b.arrive n s.clock)).done d (BitVec.ofNat 64 b.gen)) := by
    rw [← hkey, ← hn]
    exact (barrive_of_releaseDone hready).trans (if_neg (by simpa using hmine))
  refine ⟨barrier_other_traps hctx, ?badConfig, ?busy, ?arms, ?waits, ?stranger, ?again, ?arrives, ?passes, ?timedOut, ?stays, ?reads⟩
  case badConfig => exact fun hmine hb => (arm hmine).trans (if_pos (hbad.2 hb))
  case busy =>
    intro hmine hb harr hto
    exact (arm hmine).trans ((if_neg (mt hbad.1 hb)).trans (if_pos ⟨harr, by rw [hto]; rfl⟩))
  case arms =>
    intro hmine hb hfree
    have hidle : ¬ (b.arrived ≠ 0 ∧ (!b.timedOut) = true) := fun ⟨h0, hto⟩ => hfree.elim h0 fun h => by simp [h] at hto
    rw [(arm hmine).trans ((if_neg (mt hbad.1 hb)).trans (if_neg hidle)), hgen]
    exact (sameWorkspaces_setBarrier s key _).advance_completes
  case waits =>
    intro hbusy
    rw [barrive_of_busy hbusy]
    exact waitAll_stalls s
  case stranger =>
    intro hready hmine hmask hclear
    exact (arrive hready hmine).trans (if_pos (by simp [hmasks hmask, hexpect, bitOf, hclear]))
  case again =>
    intro hready hmine hmask hset hdone
    refine (arrive hready hmine).trans ((if_neg ?_).trans (if_pos ?_))
    · simp [hexpect, bitOf, hset]
    · simp [hmasks hmask, harrived, bitOf, hdone]
  case arrives =>
    intro hready hmine hok
    have hfree : counts ∨ b.arrived / 2 ^ n % 2 = 0 := hok.imp_right fun h => h.2
    have hb' : b.arrive n s.clock = b' := Barrier.arrive_eq hword hn8 s.clock hfree
    have hmember : ¬ (!b.countMode && !bitOf b.expect n) = true := by
      rcases hok with hc | ⟨hset, -⟩
      · simp [hmode.2 hc]
      · simp [hexpect, bitOf, hset]
    have hfirst : ¬ (!b.countMode && bitOf b.arrived n) = true := by
      rcases hfree with hc | hclear
      · simp [hmode.2 hc]
      · simp [bitOf, hclear]
    rw [(arrive hready hmine).trans ((if_neg hmember).trans (if_neg hfirst)), hb', hgen]
    exact (sameWorkspaces_setBarrier s key b').done_completes d (by simp only [gen]; omega)
  case passes =>
    intro hmine hne
    rw [(wait hmine).trans (if_pos (hgen ▸ hne))]
    exact advance_acquire_completes s
  case timedOut =>
    intro hmine heq hto
    exact (wait hmine).trans ((if_neg (by rw [hgen, heq]; simp)).trans (if_pos hto))
  case stays =>
    intro hmine heq hto
    rw [(wait hmine).trans ((if_neg (by rw [hgen, heq]; simp)).trans (if_neg (by simp [hto]))), ← heq]
    exact (SameWorkspaces.refl s).stalls _
  case reads =>
    intro hmine
    have hread : exec (.barq lvl obj d) s = .next (s.done d (BitVec.ofNat 64 (s.barrier (s.myBarKey lvl obj)).word)) :=
      if_neg (by simpa using hmine)
    rw [hread, hkey]
    exact done_writesG s d _

end Sys2Proof.Machine

/-! # WAIT, FENCE and CWAIT (O21) -/

namespace Sys2Proof.Machine

section
variable {s t : State}

/-- What completes in a state completes in one with the same workspaces. -/
theorem SameWorkspaces.completesOver_of {b : State} {o : Host.Outcome State Fault Refusal} {rs : List Range} {p : State → Prop}
    (h : SameWorkspaces s t) (hc : CompletesOver t b o rs p) : CompletesOver s b o rs p := by
  rwa [CompletesOver, h.pcAfter, h.repsAfter, h.onRanges] at hc

theorem sameWorkspaces_undrain (s : State) : SameWorkspaces s s.undrain := by
  unfold State.undrain
  split
  · refine ⟨rfl, rfl, fun core ctx => ?_⟩
    rw [State.setMyCtx, ctxAt_setCtxAt]
    split_ifs with hc
    · rw [hc.1, hc.2]
      rfl
    · rfl
  · exact .refl s

/-- A context that goes on has nothing fetched ahead after an acquire, and no drain to wait for. -/
theorem undrain_acquire (s : State) : s.undrain.acquire = s.setMyCtx { s.myCtx with ahead := [], draining := false } := by
  unfold State.undrain
  split_ifs with hd
  · have hme : (s.setMyCtx { s.myCtx with draining := false }).ctxAt s.cur.core s.cur.ctx = { s.myCtx with draining := false } :=
      (ctxAt_setCtxAt s s.cur.core s.cur.ctx _ s.cur.core s.cur.ctx).trans (if_pos ⟨rfl, rfl⟩)
    change (s.setMyCtx { s.myCtx with draining := false }).setCtxAt s.cur.core s.cur.ctx
      { (s.setMyCtx { s.myCtx with draining := false }).ctxAt s.cur.core s.cur.ctx with ahead := [] } = _
    rw [hme]
    exact setCtxAt_setCtxAt s s.cur.core s.cur.ctx _ _
  · have hfalse : s.myCtx.draining = false := by simpa using hd
    rw [← hfalse]
    rfl

/-- CWAIT writes the object's word and completes with acquire effect (R147). -/
theorem undrain_setGN_completes (s : State) (d : GReg) {v : ℕ} (hv : v < 2 ^ 64) :
    CompletesOver s (s.setMyCtx { s.myCtx with ahead := [], draining := false }) (.next (s.undrain.setGN d v).advance.acquire) (s.gRange d)
      (fun t => t.gN d = if d = 0 then 0 else v) := by
  have hsw := sameWorkspaces_undrain s
  have h := completesOver_acquire (c := True) (p := fun t => t.gN d = if d = 0 then 0 else v) (setGN_bytesOnly s.undrain d v)
    (gRange_apart s.undrain d) fun t ht => by rw [ht.gN, gN_setGN, Nat.mod_eq_of_lt hv]
  rw [if_pos trivial, if_pos trivial, hsw.gRange, undrain_acquire] at h
  exact hsw.completesOver_of h

theorem within_iff (s : State) (c : Cnt) (imm : Fin 32) : s.within c imm = true ↔ ¬ (imm.val < 31 ∧ imm.val < s.cnt c) := by
  have hlt := imm.isLt
  simp only [State.within, Bool.or_eq_true, beq_iff_eq, decide_eq_true_eq]
  omega

/-- All five counters of the executing context are zero (R133). -/
theorem quiet_iff (s : State) : s.quietAt s.cur.core s.cur.ctx = true ↔
    s.cnt .sn = 0 ∧ s.cnt .sg = 0 ∧ s.cnt .cp = 0 ∧ s.cnt .tl = 0 ∧ s.cnt .at_ = 0 := by
  simp [State.quietAt, State.cnt, and_assoc]

/-- A place in a near unit is that of a near or self-window address (R116 step 3). -/
theorem region_of_place {core ea cl u o : ℕ} (h : s.place core ea = .ok (.unit cl u o)) : bits ea 59 56 = 8 ∨ bits ea 59 56 = 9 := by
  by_contra hno
  rw [not_or] at hno
  rw [State.place, if_neg hno.1, if_neg hno.2] at h
  split_ifs at h
  cases h

theorem mapped_of_place {core ea cl u o : ℕ} (hea : ea < 2 ^ 60) (h : s.place core ea = .ok (.unit cl u o)) : unmapped ea = false := by
  have hr := region_of_place h
  have hhigh : bits ea 63 60 = 0 := by
    simp only [bits]
    omega
  rw [unmapped, hhigh, decide_eq_false (by omega)]
  rfl

/-- CWAIT on an object of the context's own memory that is sound (R145, R147). -/
theorem cwait_of_object {d a : GReg} {cl u o : ℕ} (hctx : s.cur.ctx ≠ 1) (hcan : s.cur.ctx = 0 ∨ bits (s.cx cxSTATUS) 9 9 = 0)
    (hea : s.gN a < 2 ^ 60) (halign : s.gN a % 16 = 0) (hplace : s.place s.cur.core (s.gN a) = .ok (.unit cl u o))
    (hcl : cl = s.cur.core / 8) (hobj : (u = s.cur.core % 8 ∧ o < 0x30000) ∨ (u = 8 ∧ o < 0x3F8000 ∧ s.bankMode cl o = 0))
    (hclean : s.tainted (nearLoc cl u o) 16 = false) :
    (natOf (s.rd (nearLoc cl u o) 8) = 0 → exec (.cwait d a) s =
      .next (s.undrain.setGN d (natOf (s.rd (nearLoc cl u o + 8) 8))).advance.acquire) ∧
    (natOf (s.rd (nearLoc cl u o) 8) ≠ 0 → s.myCtx.task = none → exec (.cwait d a) s =
      .next (({ s with cwaits := s.cwaits ++ [(nearLoc cl u o, false, s.cur.core, s.cur.ctx)] } : State).stall
        (.object d.val (nearLoc cl u o) s.cur))) := by
  have hgo : ¬ (2 ≤ s.cur.ctx ∧ s.status 9 9 = 1) := fun ⟨h2, h1⟩ => by
    rcases hcan with h0 | h0
    · omega
    · rw [State.status, h0] at h1
      omega
  have hloc : s.objLoc (s.gN a) = some (nearLoc cl u o) := by
    simp only [State.objLoc, hplace]
    rw [if_neg (by omega), if_pos ⟨hcl, hobj⟩]
  have hexec : exec (.cwait d a) s = execCwait d a s := rfl
  rw [hexec, execCwait, if_neg hctx, if_neg hgo]
  simp only [mapped_of_place hea hplace, hplace, hloc, hclean, Bool.false_eq_true, if_false]
  refine ⟨fun h0 => if_pos (by simp [State.objIdle, h0]), fun h0 htask => ?_⟩
  rw [if_neg (by simp [State.objIdle, h0]), htask]

end

/-- Settles O21: each instruction has one branch for each clause, and its waits are those of the counters. -/
theorem waitFenceCwait : Obligations.WaitFenceCwait := by
  intro s at_ tl cp sg sn scope d a cl u o above waits covers free wait fence all quiet ea loc cwait
  have hwaits : (s.within .at_ at_ && s.within .tl tl && s.within .cp cp && s.within .sg sg && s.within .sn sn) = true ↔ ¬ waits := by
    simp only [Bool.and_eq_true, within_iff, waits, above, not_or, and_assoc]
  have hcovers : (fun c => (c == 0 && sn.val != 31) || (c == 1 && sg.val != 31) || (c == 2 && at_.val != 31)) = covers := by
    funext c
    have h1 := sn.isLt
    have h2 := sg.isLt
    have h3 := at_.isLt
    rw [Bool.eq_iff_iff]
    simp only [covers, Bool.or_eq_true, Bool.and_eq_true, beq_iff_eq, bne_iff_ne, decide_eq_true_eq]
    omega
  have hquiet : s.quietAt s.cur.core s.cur.ctx = true ↔ quiet := quiet_iff s
  refine ⟨fun h1 => ⟨if_pos h1, if_pos h1, if_pos h1⟩, fun hctx => ?_⟩
  have wait_on (h : ¬ waits) (hnot : ¬ free) : wait = match s.raiseLogged covers with
      | some t => .next t
      | none => .next s.advance := by
    rw [← hcovers]
    exact (if_neg hctx).trans ((if_pos (hwaits.2 h)).trans (if_neg hnot))
  have fence_on (h : quiet) : fence = match s.raiseLogged all with
      | some t => .next t
      | none => if scope = .system ∧ s.myCtx.away ≠ 0 then .next (s.stall .retry) else .next s.advance.acquire :=
    (if_neg hctx).trans (if_neg (by simp [hquiet.2 h]))
  refine ⟨?stall, ?raise, ?complete, ?fenceStall, ?fenceRaise, ?fenceComplete, ?fenceAway, ?cancel, ?object⟩
  case stall =>
    intro h
    have hwait : wait = .next ((if s.within .tl tl then s else s.msync).stall .retry) :=
      (if_neg hctx).trans (if_neg (mt hwaits.1 (not_not_intro h)))
    have htl : s.within .tl tl = true ↔ s.cnt .tl ≤ tl.val ∨ tl.val = 31 := by
      have hlt := tl.isLt
      rw [within_iff]
      omega
    rw [hwait, if_congr htl rfl rfl]
    split
    · exact (SameWorkspaces.refl s).stalls .retry
    · exact (sameWorkspaces_msync s).stalls .retry
  case raise =>
    intro t h hnot hraise
    rw [wait_on h hnot, hraise]
  case complete =>
    intro h hor
    have hwait : wait = .next s.advance := by
      by_cases hfree : free
      · exact (if_neg hctx).trans ((if_pos (hwaits.2 h)).trans (if_pos hfree))
      · rw [wait_on h hfree, hor.resolve_left hfree]
    rw [hwait]
    exact advance_completes s
  case fenceStall =>
    intro h
    have hfence : fence = .next s.waitAll := (if_neg hctx).trans (if_pos (by simpa using mt hquiet.1 h))
    rw [hfence]
    exact waitAll_stalls s
  case fenceRaise =>
    intro t h hraise
    rw [fence_on h, hraise]
  case fenceComplete =>
    intro h hnone hfar
    rw [fence_on h, hnone]
    simp only
    rw [if_neg fun ⟨hs, ha⟩ => hfar.elim (fun h => h hs) ha]
    exact advance_acquire_completes s
  case fenceAway =>
    intro h hnone hs ha
    rw [fence_on h, hnone]
    simp only
    rw [if_pos ⟨hs, ha⟩]
    exact (SameWorkspaces.refl s).stalls .retry
  case cancel => exact fun h2 h9 => (if_neg hctx).trans (if_pos ⟨h2, h9⟩)
  case object =>
    intro hcan hea halign hplace hcl hobj hclean
    obtain ⟨hidle, hbusy⟩ := cwait_of_object (d := d) hctx hcan hea halign hplace hcl hobj hclean
    refine ⟨fun h0 => ?_, fun h0 htask => ?_⟩
    · have hlt := natOf_lt (s.rd (loc + 8) 8)
      rw [State.rd, Memory.read_length] at hlt
      simp only [cwait]
      rw [hidle h0]
      exact undrain_setGN_completes s d hlt
    · simp only [cwait]
      rw [hbusy h0 htask]
      exact SameWorkspaces.stalls ⟨rfl, rfl, fun _ _ => rfl⟩ _

end Sys2Proof.Machine

/-! # What an access waits for, and the faults that its wait raises (O16) -/

namespace Sys2Proof.Machine

/-! ### The waits (R120, R121, R128, R132) -/

section
variable {s : State} {rel : Bool} {w : WaitSel} {k : Host.Outcome State Fault Refusal}

/-- Every access is what it does after its wait, behind the gate of its ordering fields. -/
theorem exec_eq_orderGate {i : Instr} (h : orderFields i = some (rel, w)) (s : State) : ∃ k, exec i s = s.orderGate rel w k := by
  cases i with
  | ldb | ldh | ldw | vld | pref | stb | sth | stw | std | vst | stn | axchg | aadd | aand | aor | axor | amin | amax | aminu | amaxu | afadd
  | cas | casp | axchgPost | aaddPost | aandPost | aorPost | axorPost | aminPost | amaxPost | aminuPost | amaxuPost | afaddPost =>
    cases h
    exact ⟨_, rfl⟩
  | ldd d a off hint =>
    cases h
    by_cases hpref : d = 0 ∧ hint ≠ .order
    · exact ⟨_, if_pos hpref⟩
    · exact ⟨_, if_neg hpref⟩
  | _ => cases h

theorem orderGate_stalls (h : s.mustWait rel w) : Stalls s (if rel then s.msync else s) (s.orderGate rel w k) .retry := by
  cases rel with
  | true =>
    have hbusy : s.quietAt s.cur.core s.cur.ctx = false := h
    rw [State.orderGate, if_pos rfl, State.relGate, hbusy]
    exact waitAll_stalls s
  | false =>
    have hwait : ((w.sn && s.cnt .sn != 0) || (w.sg && s.cnt .sg != 0)) = true := by simpa [State.mustWait] using h
    have hnamed : ¬ (!w.sn && !w.sg) = true := fun hno => by
      simp only [Bool.and_eq_true, Bool.not_eq_true'] at hno
      simp [hno.1, hno.2] at hwait
    rw [State.orderGate, if_neg Bool.false_ne_true, State.wGate, if_neg hnamed, if_pos hwait]
    exact (SameWorkspaces.refl s).stalls .retry

theorem orderGate_raises {t : State} (h : ¬ s.mustWait rel w) (hnamed : rel = true ∨ w.sn = true ∨ w.sg = true)
    (hraise : s.raiseLogged (coversOf rel w) = some t) : s.orderGate rel w k = .next t := by
  cases rel with
  | true =>
    have hquiet : s.quietAt s.cur.core s.cur.ctx = true := by simpa [State.mustWait] using h
    have hraise : s.raiseLogged (fun c => decide (c ≤ 2)) = some t := hraise
    rw [State.orderGate, if_pos rfl, State.relGate, hquiet, hraise]
    rfl
  | false =>
    have hover : ¬ ((w.sn && s.cnt .sn != 0) || (w.sg && s.cnt .sg != 0)) = true := by simpa [State.mustWait] using h
    have hsome : ¬ (!w.sn && !w.sg) = true := by
      rcases hnamed with h0 | h0 | h0
      · cases h0
      · simp [h0]
      · simp [h0]
    have hraise : s.raiseLogged (fun c => (w.sn && c == 0) || (w.sg && c == 1)) = some t := hraise
    rw [State.orderGate, if_neg Bool.false_ne_true, State.wGate, if_neg hsome, if_neg hover, hraise]

end

theorem waitsBeforeAccess : Claims.WaitsBeforeAccess := by
  intro s i rel w h
  obtain ⟨k, hk⟩ := exec_eq_orderGate h s
  rw [hk]
  refine ⟨orderGate_stalls, fun t hover hnamed hraise => orderGate_raises hover hnamed hraise, fun hrel => ?_⟩
  rw [State.mustWait, if_pos hrel, ← quiet_iff, Bool.not_eq_true]

/-! ### The log of deferred faults (R22, R132) -/

/-- Bytes read back from the middle of those written. -/
theorem Memory.read_write_part (m : Memory) (a : ℕ) (xs ys zs : List Byte) :
    (m.write a (xs ++ ys ++ zs)).read (a + xs.length) ys.length = ys := by
  have h := m.read_write_same a (xs ++ ys ++ zs)
  rw [List.length_append, List.length_append, Memory.read_add, Memory.read_add] at h
  exact List.append_inj_right (List.append_inj_left h (by simp)) (by simp)

/-- Parts of one length that are written side by side are read back one by one. -/
theorem Memory.read_write_flatten (m : Memory) (a k : ℕ) (parts : List (List Byte)) (hk : ∀ p ∈ parts, p.length = k) {j : ℕ}
    (hj : j < parts.length) : (m.write a parts.flatten).read (a + k * j) k = parts[j] := by
  have hlen : (parts.take j).flatten.length = k * j := by
    rw [List.length_flatten, List.map_congr_left (g := fun _ => k) fun p hp => hk p (List.mem_of_mem_take hp)]
    simp [Nat.min_eq_left hj.le, Nat.mul_comm]
  have hsplit : parts.flatten = (parts.take j).flatten ++ parts[j] ++ (parts.drop (j + 1)).flatten := by
    rw [List.append_assoc, ← List.flatten_cons, ← List.drop_eq_getElem_cons hj, ← List.flatten_append, List.take_append_drop]
  have h := m.read_write_part a (parts.take j).flatten parts[j] (parts.drop (j + 1)).flatten
  rwa [← hsplit, hlen, hk _ (List.getElem_mem hj)] at h

/-- The numbers below `n` but for one keep their order. -/
theorem filter_ne_range {n i : ℕ} (hi : i < n) : (List.range n).filter (fun j => j != i) = (List.range n).eraseIdx i := by
  have herase := List.nodup_range.erase_getElem (l := List.range n) (i := i) (by simpa using hi)
  rw [← herase, List.nodup_range.erase_eq_filter, List.getElem_range]

/-- An entry of the executing context's log, as a number. -/
def State.logEntry (s : State) (i : ℕ) : ℕ := natOf (s.rd (s.wsLoc s.cur.core s.cur.ctx (cxLOG + 24 * i)) 24)

/-- The bytes of a log of `n` entries without one of them, and with an empty one at the end. -/
def State.logWithout (s : State) (n i : ℕ) : List (List Byte) :=
  ((List.range n).filter (fun j => j != i)).map (fun j => bytesOf 24 (s.logEntry j)) ++ [bytesOf 24 0]

section
variable (s : State) {n i : ℕ} (hi : i < n)

theorem logEntry_lt (j : ℕ) : s.logEntry j < 2 ^ (8 * 24) := by
  have h := natOf_lt (s.rd (s.wsLoc s.cur.core s.cur.ctx (cxLOG + 24 * j)) 24)
  rwa [State.rd, Memory.read_length] at h

theorem logWithout_parts (n i : ℕ) : ∀ p ∈ s.logWithout n i, p.length = 24 := by
  intro p hp
  rcases List.mem_append.1 hp with hp | hp
  · obtain ⟨j, -, rfl⟩ := List.mem_map.1 hp
    exact bytesOf_length 24 _
  · rw [List.mem_singleton.1 hp, bytesOf_length]

include hi

theorem logWithout_length : (s.logWithout n i).length = n := by
  rw [State.logWithout, filter_ne_range hi, List.length_append, List.length_map, List.length_eraseIdx_of_lt (by simpa using hi)]
  simp
  omega

theorem logWithout_getElem {j : ℕ} (hj : j + 1 < n) (h : j < (s.logWithout n i).length) :
    (s.logWithout n i)[j] = bytesOf 24 (s.logEntry (if j < i then j else j + 1)) := by
  have hlen : ((List.range n).eraseIdx i).length = n - 1 := by
    rw [List.length_eraseIdx_of_lt (by simpa using hi), List.length_range]
  simp only [State.logWithout, filter_ne_range hi]
  rw [List.getElem_append_left (by simp [hlen]; omega), List.getElem_map, List.getElem_eraseIdx]
  simp only [List.getElem_range]
  split_ifs <;> rfl

end

/-- The executing context with an entry of its log of `n` taken out of the bytes, and out of the count. -/
def State.logCut (s : State) (n i : ℕ) : State := s.cacheWr s.cur.core s.cur.ctx cxLOG (s.logWithout n i).flatten
def State.logTaken (s : State) (n i : ℕ) : State := (s.logCut n i).setStatus 23 19 (n - 1)

section
variable (s : State) {n i : ℕ} (hi : i < n)

theorem logCut_mem (n i : ℕ) : (s.logCut n i).mem = s.mem.write (s.wsLoc s.cur.core s.cur.ctx cxLOG) (s.logWithout n i).flatten := rfl

include hi

theorem logCut_bytesOnly : BytesOnly [(s.wsLoc s.cur.core s.cur.ctx cxLOG, 24 * n)] s (s.logCut n i) := by
  have hlen : (s.logWithout n i).flatten.length = 24 * n := by
    rw [List.length_flatten, List.map_congr_left (g := fun _ => 24) (logWithout_parts s n i)]
    simp [logWithout_length s hi, Nat.mul_comm]
  have h := BytesOnly.cacheWr s s.cur.core s.cur.ctx cxLOG (s.logWithout n i).flatten
  rwa [hlen] at h

theorem logTaken_bytesOnly :
    BytesOnly [s.cxRange cxSTATUS, (s.wsLoc s.cur.core s.cur.ctx cxLOG, 24 * n)] s (s.logTaken n i) := by
  have hcut := logCut_bytesOnly s hi
  have hst := setCx_bytesOnly (s.logCut n i) cxSTATUS (setBits ((s.logCut n i).cx cxSTATUS) 23 19 (n - 1))
  rw [State.cxRange, hcut.cur, hcut.wsLoc] at hst
  exact (hcut.trans hst).mono fun r hr => List.mem_append.2 (List.mem_append.1 hr).symm

theorem logTaken_status : (s.logTaken n i).cx cxSTATUS = setBits (s.cx cxSTATUS) 23 19 (n - 1) := by
  have hkeep : (s.logCut n i).cx cxSTATUS = s.cx cxSTATUS := by
    refine (logCut_bytesOnly s hi).cx cxSTATUS (List.forall_mem_singleton.2 (.inl ?_))
    rw [wsLoc_eq s _ _ cxSTATUS, wsLoc_eq s _ _ cxLOG]
    simp only [cxSTATUS, cxLOG]
    omega
  have hlt := cx_lt s cxSTATUS
  rw [State.logTaken, State.setStatus, cx_setCx, hkeep, Nat.mod_eq_of_lt]
  simp only [setBits]
  omega

/-- The entries that are left keep their order (R132). -/
theorem logTaken_entry {j : ℕ} (hj : j + 1 < n) :
    natOf ((s.logTaken n i).rd (s.wsLoc s.cur.core s.cur.ctx (cxLOG + 24 * j)) 24) = s.logEntry (if j < i then j else j + 1) := by
  have hin : j < (s.logWithout n i).length := by
    rw [logWithout_length s hi]
    omega
  have hcut := logCut_bytesOnly s hi
  have hcount : (s.logTaken n i).wsGet s.cur.core s.cur.ctx (cxLOG + 24 * j) 24 =
      (s.logCut n i).wsGet s.cur.core s.cur.ctx (cxLOG + 24 * j) 24 :=
    wsGet_wsSet_ne (s.logCut n i) s.cur.core s.cur.ctx cxSTATUS 8
      (setBits ((s.logCut n i).cx cxSTATUS) 23 19 (n - 1)) (cxLOG + 24 * j) 24 (.inr (by simp only [cxSTATUS, cxLOG]; omega))
  have hpart := s.mem.read_write_flatten (s.wsLoc s.cur.core s.cur.ctx cxLOG) 24 _ (logWithout_parts s n i) hin
  rw [logWithout_getElem s hi hj] at hpart
  have hread : (s.logCut n i).wsGet s.cur.core s.cur.ctx (cxLOG + 24 * j) 24 = s.logEntry (if j < i then j else j + 1) := by
    rw [State.wsGet, hcut.wsLoc, wsLoc_eq s _ _ (cxLOG + 24 * j), ← Nat.add_assoc, ← wsLoc_eq s _ _ cxLOG, State.rd, logCut_mem, hpart,
      natOf_bytesOf, Nat.mod_eq_of_lt (logEntry_lt s _)]
  rw [← (logTaken_bytesOnly s hi).wsLoc]
  exact hcount.trans hread

end

theorem loggedFaults : Claims.LoggedFaults := by
  intro s covers n ent hit
  have hfind (i : ℕ) : (List.range n).find? (fun i => covers (bits (ent s i) 138 137)) = some i ↔
      i < n ∧ hit i ∧ ∀ j, j < i → ¬ hit j := by
    rw [List.find?_range_eq_some]
    simp only [List.mem_range, Bool.not_eq_true', hit, Bool.not_eq_true]
    tauto
  have hnone : (List.range n).find? (fun i => covers (bits (ent s i) 138 137)) = none ↔ ∀ i, i < n → ¬ hit i := by
    rw [List.find?_range_eq_none]
    simp only [Bool.not_eq_true', hit, Bool.not_eq_true]
  refine ⟨fun i hi hhit hfirst _ => ?_, fun hno hover => ?_, fun hno hclear => ?_⟩
  · refine ⟨s.logTaken n i, ?_, logTaken_bytesOnly s hi, logTaken_status s hi, fun j hj => ?_, fun j hij hj => ?_⟩
    · unfold State.raiseLogged
      extract_lets core ctx m ent'
      have hsome : (List.range m).find? (fun i => covers (bits (ent' i) 138 137)) = some i := (hfind i).2 ⟨hi, hhit, hfirst⟩
      rw [hsome]
      simp only [State.logTaken, State.logCut, State.logWithout, List.flatten_append, List.flatten_singleton]
      rfl
    · exact (logTaken_entry s hi (by omega)).trans (congrArg s.logEntry (if_pos hj))
    · exact (logTaken_entry s hi hj).trans (congrArg s.logEntry (if_neg (by omega)))
  · refine ⟨s.setStatus 24 24 0, ?_, setCx_bytesOnly s cxSTATUS _, ?_⟩
    · unfold State.raiseLogged
      extract_lets core ctx m ent'
      have hempty : (List.range m).find? (fun i => covers (bits (ent' i) 138 137)) = none := hnone.2 hno
      rw [hempty]
      exact if_pos hover
    · have hlt := cx_lt s cxSTATUS
      rw [State.setStatus, cx_setCx]
      simp only [bits, setBits] at hover ⊢
      omega
  · unfold State.raiseLogged
    extract_lets core ctx m ent'
    have hempty : (List.range m).find? (fun i => covers (bits (ent' i) 138 137)) = none := hnone.2 hno
    rw [hempty]
    exact if_neg (by rw [State.status, hclear]; decide)

/-- Settles O16: the gate of every access has one branch for each clause, and the log is written back without the entry raised. -/
theorem accessOrdering : Obligations.AccessOrdering := ⟨waitsBeforeAccess, loggedFaults⟩

end Sys2Proof.Machine

/-! # The checks on an address (O15) -/

namespace Sys2Proof.Machine

/-! ### The checks in their order (R116, R382) -/

section
variable {s : State} {k : Kind} {ea n align : ℕ}

/-- The region of an address below 2^64 is in its top byte (R116 step 1). -/
theorem unmapped_eq (hea : ea < 2 ^ 64) : unmapped ea = decide (10 ≤ ea / 2 ^ 56) := by
  rw [Bool.eq_iff_iff]
  simp only [unmapped, Bool.or_eq_true, bne_iff_ne, decide_eq_true_eq]
  simp only [bits]
  omega

theorem region_eq (hea : ea / 2 ^ 56 < 10) : bits ea 59 56 = ea / 2 ^ 56 := by
  simp only [bits]
  omega

/-- An address with a region, aligned, is judged by its place (R116 steps 1 and 2). -/
theorem checkAddr_of_place (hea : ea < 2 ^ 64) (hr : ea / 2 ^ 56 < 10) (ha : ea % align = 0) :
    (∀ c, s.place s.cur.core ea = .error c → s.checkAddr k ea n align = .error c) ∧
    (s.place s.cur.core ea = .ok .global → s.checkAddr k ea n align = .ok .global) ∧
    (∀ cl u off, s.place s.cur.core ea = .ok (.unit cl u off) → s.checkAddr k ea n align =
      if !s.systemAreaOk s.cur.core s.cur.ctx k cl u off n then .error cPROTECTION
      else if u = 8 ∧ cl = clusterOf s.cur.core ∧ s.bankMode cl off = 1 then .error cBANK_CONFLICT
      else if (k = .atomic ∧ 8 ≤ u) ∨ (k = .nibble ∧ (u = 9 ∨ (u = 8 ∧ cl = clusterOf s.cur.core ∧ s.bankMode cl off ≠ 0))) then
        .error cATOMIC_TARGET
      else if k = .load ∧ u = 8 ∧ !s.queueOk k cl off then .error cPROTECTION else .ok (.unit cl u off)) := by
  have hmap : unmapped ea = false := by
    rw [unmapped_eq hea]
    simpa using hr
  refine ⟨fun c hp => ?_, fun hp => ?_, fun cl u off hp => ?_⟩
  · simp only [State.checkAddr, State.addrR116, hmap, ha, hp, Bool.false_eq_true, ne_eq, not_true, if_false]
  · simp only [State.checkAddr, State.addrR116, hmap, ha, hp, Bool.false_eq_true, ne_eq, not_true, if_false]
  · simp only [State.checkAddr, State.addrR116, hmap, ha, hp, Bool.false_eq_true, ne_eq, not_true, if_false]
    split_ifs with h1 h2 h3 h4
    · rfl
    · rfl
    · rfl
    · exact if_pos h4
    · exact if_neg h4

/-- The place of a near address (R116 step 3, R382). -/
theorem place_near (core : ℕ) (hr : ea / 2 ^ 56 = 8) : s.place core ea =
    if 10 ≤ ea / 2 ^ 33 % 16 then .error cNEAR_ABSENT
    else if unitSize (ea / 2 ^ 33 % 16) ≤ ea % 2 ^ 33 then .error cNEAR_RANGE
    else if ea / 2 ^ 46 % 1024 ≠ s.pkgId then
      (if s.routeOpen (s.partOf core) (ea / 2 ^ 46 % 1024) then .ok (.away (ea / 2 ^ 46 % 1024)) else .error cNEAR_ABSENT)
    else if !s.reaches (core / 8) (ea / 2 ^ 44 % 4 * 128 + ea / 2 ^ 37 % 128) then .error cNEAR_ABSENT
    else .ok (.unit (ea / 2 ^ 44 % 4 * 128 + ea / 2 ^ 37 % 128) (ea / 2 ^ 33 % 16) (ea % 2 ^ 33)) := by
  have hoff : bits ea 32 0 = ea % 2 ^ 33 := by simp [bits]
  rw [State.place, region_eq (by omega), if_pos hr, hoff]
  rfl

/-- The place of an address in the self window (R116 step 3). -/
theorem place_self (core : ℕ) (hr : ea / 2 ^ 56 = 9) : s.place core ea =
    if 0x40000 ≤ ea % 2 ^ 56 then .error cNEAR_RANGE else .ok (.unit (core / 8) (core % 8) (ea % 2 ^ 56)) := by
  have hoff : bits ea 55 0 = ea % 2 ^ 56 := by simp [bits]
  rw [State.place, region_eq (by omega), if_neg (by omega), if_pos hr, hoff]
  rfl

/-- With no cluster fenced, a global address has its home slice within reach (R382). -/
theorem place_global (core : ℕ) (hr : ea / 2 ^ 56 < 8) (hlive : ∀ c ∈ s.clusters, c.2.fenced = false) :
    s.place core ea = .ok .global := by
  have hnone : s.clusters.any (fun c => c.2.fenced) = false := by simpa using hlive
  have hreach (a b : ℕ) : s.reaches a b = true := by
    rw [State.reaches, hnone]
    rfl
  rw [State.place, region_eq (by omega), if_neg (by omega), if_neg (by omega), hreach]
  rfl

/-- Outside the PM system area step 4 stops nothing (R116). -/
theorem systemAreaOk_of_below {core ctx cl u off : ℕ} (h : 8 ≤ u ∨ off + n ≤ 0x30000) : s.systemAreaOk core ctx k cl u off n = true :=
  if_pos h

/-- The system area of another core, and of any core to a task (R24). -/
theorem systemAreaOk_of_foreign {core ctx cl u off : ℕ} (hu : u < 8) (hoff : 0x30000 < off + n) (h : coreOfUnit cl u ≠ core ∨ 2 ≤ ctx) :
    s.systemAreaOk core ctx k cl u off n = false := by
  unfold State.systemAreaOk
  rw [if_neg (by omega)]
  rcases h with h | h
  · exact if_pos h
  · rw [if_neg (show ¬ ctx = 0 by omega), if_neg (show ¬ ctx = 1 by omega), ite_self]

end

theorem addressChecks : Claims.AddressChecks := by
  intro s k ea n align hea region unit off own cl size cached near fails
  refine ⟨fun hr => ?unmapped, fun hr ha => ?misaligned, fun hr ha => ?_⟩
  case unmapped =>
    have hmap : unmapped ea = true := by
      rw [unmapped_eq hea]
      exact decide_eq_true hr
    simp only [fails, State.checkAddr, State.addrR116, hmap, if_true]
    rfl
  case misaligned =>
    have hmap : unmapped ea = false := by
      rw [unmapped_eq hea]
      exact decide_eq_false (Nat.not_le.2 hr)
    simp only [fails, State.checkAddr, State.addrR116, hmap, Bool.false_eq_true, if_false, ne_eq, ha, not_false_eq_true, if_true]
    rfl
  obtain ⟨of_error, of_global, of_unit⟩ := checkAddr_of_place (s := s) (k := k) (n := n) hea hr ha
  have inside (h : off < size unit) : ¬ unitSize (ea / 2 ^ 33 % 16) ≤ ea % 2 ^ 33 := Nat.not_le.2 h
  have place_own (h8 : region = 8) (ho : own) (hu : unit < 10) (hoff : off < size unit) (hn : near) :
      s.place s.cur.core ea = .ok (.unit cl unit off) := by
    have hreach : s.reaches (s.cur.core / 8) (ea / 2 ^ 44 % 4 * 128 + ea / 2 ^ 37 % 128) = true := hn
    rw [place_near _ h8, if_neg (Nat.not_le.2 hu), if_neg (inside hoff), if_neg (not_not_intro ho), hreach]
    rfl
  have hself (h9 : region = 9) (hoff : ea % 2 ^ 56 < 0x40000) :
      s.place s.cur.core ea = .ok (.unit (s.cur.core / 8) (s.cur.core % 8) (ea % 2 ^ 56)) := by
    rw [place_self _ h9, if_neg (Nat.not_le.2 hoff)]
  refine ⟨fun h8 hu => of_error _ ?absent, fun h8 hu hoff => of_error _ ?range, fun h9 hoff => of_error _ ?selfRange,
    fun h8 ho hu hoff hn => of_error _ ?unreached, ?foreign, ?task, ?cached, ?atomic, fun h8 hlive => of_global (place_global _ h8 hlive),
    ?self, ?pm⟩
  case absent => rw [place_near _ h8, if_pos hu]; rfl
  case range =>
    have hout : unitSize (ea / 2 ^ 33 % 16) ≤ ea % 2 ^ 33 := hoff
    rw [place_near _ h8, if_neg (Nat.not_le.2 hu), if_pos hout]
    rfl
  case selfRange => rw [place_self _ h9, if_pos hoff]; rfl
  case unreached =>
    have hfar : s.reaches (s.cur.core / 8) (ea / 2 ^ 44 % 4 * 128 + ea / 2 ^ 37 % 128) = false := Bool.eq_false_iff.2 hn
    rw [place_near _ h8, if_neg (Nat.not_le.2 hu), if_neg (inside hoff), if_neg (not_not_intro ho), hfar]
    rfl
  case foreign =>
    intro h8 ho hn hu hoff hend hwho
    have hin : off < size unit := by simpa only [size, if_pos hu]
    refine (of_unit _ _ _ (place_own h8 ho (by omega) hin hn)).trans ?_
    rw [systemAreaOk_of_foreign hu hend hwho]
    rfl
  case task =>
    intro h9 hoff hend hctx
    refine (of_unit _ _ _ (hself h9 hoff)).trans ?_
    rw [systemAreaOk_of_foreign (Nat.mod_lt _ (by decide)) hend (.inr hctx)]
    rfl
  case cached =>
    intro h8 ho hn hu hoff hcl hc
    have hin : off < size unit := by
      rw [hu]
      exact hoff
    refine (of_unit _ _ _ (place_own h8 ho (by omega) hin hn)).trans ?_
    rw [systemAreaOk_of_below (.inl hu.ge), if_neg (by decide), if_pos ⟨hu, hcl, hc⟩]
    rfl
  case atomic =>
    intro h8 ho hn hu hu' hin hk hnot
    refine (of_unit _ _ _ (place_own h8 ho hu' hin hn)).trans ?_
    rw [systemAreaOk_of_below (.inl hu), if_neg (by decide),
      if_neg fun ⟨h1, h2, h3⟩ => hnot ⟨h2, h1, h3⟩, if_pos (.inl ⟨hk, hu⟩)]
    rfl
  case self =>
    intro h9 hend
    have hu := Nat.mod_lt s.cur.core (show 0 < 8 by decide)
    refine (of_unit _ _ _ (hself h9 (by omega))).trans ?_
    rw [systemAreaOk_of_below (.inr hend), if_neg (by decide), if_neg (by omega), if_neg (by omega),
      if_neg (by omega)]
  case pm =>
    intro h8 ho hn hu hend
    have hin : off < size unit := by
      simp only [size, if_pos hu]
      omega
    refine (of_unit _ _ _ (place_own h8 ho (by omega) hin hn)).trans ?_
    rw [systemAreaOk_of_below (.inr hend), if_neg (by decide), if_neg (by omega),
      if_neg (by omega), if_neg (by omega)]

/-! ### The traps of accesses that fail them (R116, R123; log entry 108) -/

/-- The answer `o` of an access that is judged by `chk` and goes no further when that fails. -/
structure State.Faults (s : State) (chk : Except ℕ Dest) (k : Kind) (ea : ℕ) (o : Host.Outcome State Fault Refusal) : Prop where
  fails : ∀ c, chk = .error c → k ≠ .atomic ∨ s.cur.ctx ≠ 1 → o = .next (s.takeTrap c ea 0)
  handler : k = .atomic → s.cur.ctx = 1 → o = .next (s.takeTrap 0x143 0 0)

section
variable {s : State} {rel : Bool} {w : WaitSel} (hg : s.goesOn rel w)

theorem loadScalar_faults (hg : s.goesOn false w) (n : ℕ) (d a : GReg) (off : Imm) (h : Hint) :
    s.Faults (s.checkAddr .load (s.memEa a off n) n n) .load (s.memEa a off n) (s.loadScalar n d a off h w) := by
  refine ⟨fun c hc _ => ?_, fun hk => nomatch hk⟩
  rw [State.loadScalar, wGate_of_goesOn hg, ea_eq_memEa]
  simp only [State.loadFrom, hc]

theorem vld_faults (hg : s.goesOn false w) (d : VReg) (a : GReg) (off : Imm) (h : Hint) :
    s.Faults (s.checkAddr .load (s.memEa a off 64) 64 64) .load (s.memEa a off 64) (execVld d a off h w s) := by
  refine ⟨fun c hc _ => ?_, fun hk => nomatch hk⟩
  rw [execVld, wGate_of_goesOn hg, ea_eq_memEa]
  simp only [State.loadFrom, hc]

theorem prefetch_faults (hg : s.goesOn false w) (a : GReg) (off : Imm) :
    s.Faults (s.addrR116 .load (s.memEa a off 8) 8 8) .load (s.memEa a off 8) (s.prefetch a off w) := by
  refine ⟨fun c hc _ => ?_, fun hk => nomatch hk⟩
  rw [State.prefetch, wGate_of_goesOn hg, ea_eq_memEa]
  simp only [hc]
  rfl

include hg

theorem storeTo_faults {k : Kind} {ea n : ℕ} {op : MemOp} (hk : k ≠ .atomic) (hn : op.size = n) :
    s.Faults (s.checkAddr k ea n n) k ea (s.orderGate rel w (.next (s.storeTo k ea n op rel))) := by
  subst hn
  refine ⟨fun c hc _ => ?_, fun h => absurd h hk⟩
  rw [orderGate_of_goesOn hg]
  simp only [State.storeTo, hc]

theorem atomicValue_faults {ea n : ℕ} {op : MemOp} {k : Kont} (hn : op.size = n) :
    s.Faults (s.checkAddr .atomic ea n n) .atomic ea (s.orderGate rel w (.next (s.atomicValue ea n op rel k))) := by
  subst hn
  rw [orderGate_of_goesOn hg]
  refine ⟨fun c hc hor => ?_, fun _ hctx => ?_⟩
  · have hctx : s.cur.ctx ≠ 1 := hor.resolve_left (not_not_intro rfl)
    simp only [State.atomicValue, hctx, if_false, hc]
  · rw [State.atomicValue, if_pos hctx]
    rfl

theorem atomicPosted_faults {op : AOp} {n : ℕ} (a b : GReg) (hn : op.width = n) :
    s.Faults (s.checkAddr .atomic (s.gN a) n n) .atomic (s.gN a) (s.orderGate rel w (.next (s.atomicPosted op a b rel))) := by
  subst hn
  rw [orderGate_of_goesOn hg]
  refine ⟨fun c hc hor => ?_, fun _ hctx => ?_⟩
  · have hctx : s.cur.ctx ≠ 1 := hor.resolve_left (not_not_intro rfl)
    simp only [State.atomicPosted, hctx, if_false, hc]
  · rw [State.atomicPosted, if_pos hctx]
    rfl

omit hg in
theorem storeScalar_faults {h : Hint} (hg : s.goesOn (h == .order) w) (n : ℕ) (d a : GReg) (off : Imm) :
    s.Faults (s.checkAddr .store (s.memEa a off n) n n) .store (s.memEa a off n) (s.storeScalar n d a off h w) := by
  rw [State.storeScalar, ea_eq_memEa]
  exact storeTo_faults hg (fun hk => nomatch hk) (bytesOf_length n _)

omit hg in
theorem vst_faults {h : Hint} (hg : s.goesOn (h == .order) w) (d : VReg) (a : GReg) (off : Imm) :
    s.Faults (s.checkAddr .store (s.memEa a off 64) 64 64) .store (s.memEa a off 64) (execVst d a off h w s) := by
  rw [execVst, ea_eq_memEa]
  exact storeTo_faults hg (fun hk => nomatch hk) (lanes_length _)

/-- Every access of one address stops at its checks. -/
theorem access_faults {i : Instr} {k : Kind} {ea n align : ℕ} (ha : accessOf s i = some (k, ea, n, align))
    (ho : orderFields i = some (rel, w)) :
    s.Faults (if prefetches i then s.addrR116 k ea n align else s.checkAddr k ea n align) k ea (exec i s) := by
  cases i with
  | ldb d a off h | ldh d a off h | ldw d a off h =>
    cases ha
    cases ho
    exact loadScalar_faults hg _ d a off h
  | ldd d a off h =>
    cases ha
    cases ho
    by_cases hpref : d = 0 ∧ h ≠ .order
    · rw [if_pos (by simp [prefetches, hpref]), show exec (.ldd d a off h w) s = s.prefetch a off w from if_pos hpref]
      exact prefetch_faults hg a off
    · rw [if_neg (by simpa [prefetches] using hpref), show exec (.ldd d a off h w) s = s.loadScalar 8 d a off h w from if_neg hpref]
      exact loadScalar_faults hg 8 d a off h
  | pref a off =>
    cases ha
    cases ho
    exact prefetch_faults hg a off
  | vld d a off h =>
    cases ha
    cases ho
    exact vld_faults hg d a off h
  | stb d a off | sth d a off | stw d a off | std d a off =>
    cases ha
    cases ho
    exact storeScalar_faults hg _ d a off
  | vst d a off =>
    cases ha
    cases ho
    exact vst_faults hg d a off
  | stn =>
    cases ha
    cases ho
    exact storeTo_faults hg (fun hk => nomatch hk) rfl
  | axchg | aadd | aand | aor | axor | amin | amax | aminu | amaxu | afadd | cas | casp =>
    cases ha
    cases ho
    exact atomicValue_faults hg rfl
  | axchgPost a b | aaddPost a b | aandPost a b | aorPost a b | axorPost a b | aminPost a b | amaxPost a b | aminuPost a b | amaxuPost a b
  | afaddPost a b =>
    cases ha
    cases ho
    exact atomicPosted_faults hg a b rfl
  | _ => cases ho

end

theorem accessFaults : Claims.AccessFaults := by
  intro s i k ea n align c rel w ha ho hg
  have h := access_faults hg ha ho
  exact ⟨h.fails c, h.handler⟩

/-- Settles O15: the checks of an address by its place, and every access by the shared operation that makes it. -/
theorem accessChecking : Obligations.AccessChecking := ⟨addressChecks, accessFaults⟩

end Sys2Proof.Machine


/-! # Messages and system activations (O35) -/

namespace Sys2Proof.Machine

/-! ### Answers and inboxes -/

/-- What takes a numbered item's place is found under its number. -/
theorem lookupId_putId {α : Type} {id : ℕ} {x : α} (y : α) {xs : List (ℕ × α)} (h : lookupId id xs = some x) :
    lookupId id (putId id y xs) = some y := by
  induction xs with
  | nil => cases h
  | cons a xs ih =>
    obtain ⟨k, z⟩ := a
    by_cases hk : k = id
    · simp [putId, lookupId, hk]
    · rw [lookupId, if_neg hk] at h
      rw [putId, List.map_cons, if_neg hk, lookupId, if_neg hk]
      exact ih h

/-- With no partner to hear of it, an answer takes its request's place (R119, R370). -/
theorem answer_eq_inPlace {s : State} (ha : s.aliases = []) {back : Back} (hb : back.heard = true) (id va : ℕ) (a : Answer) :
    s.answer id back va a = s.inPlace id back va a := by
  obtain ⟨f, hf, hplace⟩ : ∃ f, back.carrier va a = some f ∧ s.inPlace id back va a = s.become id f := by
    cases back with
    | ctx => exact ⟨_, rfl, rfl⟩
    | count => cases a <;> exact ⟨_, rfl, rfl⟩
    | _ => cases hb
  have halias : (s.become id f).aliases = [] := ha
  rw [hplace, State.answer, hf]
  simp only [halias, List.filterMap_nil, List.append_nil, List.filter_nil]
  rw [← halias]

section
variable (s : State) (id : ℕ) (back : Back) (va : ℕ) (a : Answer)
@[simp] theorem core_inPlace (k : ℕ) : (s.inPlace id back va a).core k = s.core k := rfl
@[simp] theorem rd_inPlace (loc n : ℕ) : (s.inPlace id back va a).rd loc n = s.rd loc n := rfl
@[simp] theorem mem_inPlace : (s.inPlace id back va a).mem = s.mem := rfl
end

theorem pmLoc_add (core off k : ℕ) : pmLoc core (off + k) = pmLoc core off + k := by
  simp only [pmLoc, nearLoc]
  omega

/-- The lowest free slot of an inbox (R204). -/
theorem inboxSlot_eq {s : State} {core n : ℕ} (hn : n < 32) (hfree : ∀ e ∈ (s.core core).inbox, e.slot ≠ n)
    (hlow : ∀ j, j < n → ∃ e ∈ (s.core core).inbox, e.slot = j) : s.inboxSlot core = n := by
  have hfind : (List.range 32).find? (fun n => (s.core core).inbox.all (fun e => e.slot != n)) = some n := by
    rw [List.find?_range_eq_some]
    refine ⟨by simpa using hfree, List.mem_range.2 hn, fun j hj => ?_⟩
    obtain ⟨e, he, hslot⟩ := hlow j hj
    simpa using ⟨e, he, hslot⟩
  rw [State.inboxSlot, hfind]
  rfl

/-- The words of a message in its slot (R204). -/
def slotWords (hpc word seq : ℕ) (pay : List ℕ) : List ℕ :=
  [hpc, word, seq, 0, 0, 0, 0, 0] ++ (List.range 8).map (fun i => pay.getD i 0)

theorem slotWords_bytes (hpc word seq : ℕ) (pay : List ℕ) :
    bytesOf 8 hpc ++ bytesOf 8 word ++ bytesOf 8 seq ++ List.replicate 40 0 ++
      ((List.range 8).map (fun i => bytesOf 8 (pay.getD i 0))).flatten = ((slotWords hpc word seq pay).map (bytesOf 8)).flatten := rfl

section
variable {s : State} {core src part hpc word seq n : ℕ} {sys : SysOp} {pay : List ℕ} (hslot : s.inboxSlot core = n)
include hslot

theorem inboxPut_mem : (s.inboxPut core src sys part hpc word seq pay).mem =
    s.mem.write (pmLoc core (0x3B000 + 128 * n)) ((slotWords hpc word seq pay).map (bytesOf 8)).flatten := by
  rw [← slotWords_bytes, ← hslot]
  rfl

theorem inboxPut_inbox : ((s.inboxPut core src sys part hpc word seq pay).core core).inbox =
    (s.core core).inbox ++ [{ slot := n, sys := sys, part := part, tries := 0 }] := by
  subst hslot
  unfold State.inboxPut
  rw [core_wr, core_setCore, if_pos rfl]

/-- A word of the message, read back in its slot. -/
theorem inboxPut_word {j : ℕ} (hj : j < 16) :
    natOf ((s.inboxPut core src sys part hpc word seq pay).rd (pmLoc core (0x3B000 + 128 * n + 8 * j)) 8) =
      (slotWords hpc word seq pay).getD j 0 % 2 ^ 64 := by
  have hj' : j < ((slotWords hpc word seq pay).map (bytesOf 8)).length := by simpa [slotWords] using hj
  have hpart := s.mem.read_write_flatten (pmLoc core (0x3B000 + 128 * n)) 8 ((slotWords hpc word seq pay).map (bytesOf 8))
    (fun p hp => by obtain ⟨v, -, rfl⟩ := List.mem_map.1 hp; exact bytesOf_length 8 v) hj'
  rw [State.rd, inboxPut_mem hslot, pmLoc_add core _ (8 * j), hpart, List.getElem_map, natOf_bytesOf, List.getD_eq_getElem]

end

/-- A message at an inbox that is full is refused, and tried again later (R206, R384). -/
theorem inboxMsg_full {s : State} {id core : ℕ} {m : Msg} (hfull : 32 ≤ (s.core core).inbox.length) (hcore : m.target % 4096 = core)
    (hflight : lookupId id s.flights = some (.msg m)) :
    ((s.inboxMsg id m).core core).inbox = (s.core core).inbox ∧ (s.inboxMsg id m).mem = s.mem ∧
      lookupId id (s.inboxMsg id m).flights = some (.msg { m with refused := some s.clock }) := by
  have hno : s.admits core (m.word % 2 ^ 22) = false := by
    simp [State.admits, Nat.sub_eq_zero_of_le hfull]
  subst hcore
  have hplace := lookupId_putId (Flight.msg { m with refused := some s.clock }) hflight
  simp only [State.inboxMsg, hno, Bool.false_eq_true, if_false, State.noteRefusal]
  split_ifs
  · exact ⟨rfl, rfl, hplace⟩
  · refine ⟨?_, rfl, hplace⟩
    rw [core_setCore, if_pos rfl]
    rfl

/-- A message that comes to its turn at its target (R206, R308). -/
theorem msgArrive_eq {s : State} {id core : ℕ} {m : Msg} {again : Bool} (hflight : lookupId id s.flights = some (.msg m))
    (hb : m.back.heard = true) (horder : s.inOrder id = true) (htarget : m.target = s.pkgId * 4096 + core) (hcore : core < 4096)
    (hpkg : s.pkgId < 1024) (hfence : (s.cluster (core / 8)).fenced = false) (hguard : s.guard (core / 8) m.part = .deliver)
    (hagain : m.refused.isSome = again) (hdue : s.retryDue m.refused = true) : s.msgArrive id again = s.inboxMsg id m := by
  have hhere : s.farPkg (.msg m) = none := by
    have hdest : bits m.target 21 12 = s.pkgId := by
      simp only [bits]
      omega
    simp [State.farPkg, hdest]
  have hback : m.back ≠ .none := fun h0 => by simp [h0, Back.heard] at hb
  have hmod : m.target % 4096 = core := by omega
  simp only [State.msgArrive, hflight, hhere, hagain, hdue, hback, if_false, horder, hmod, clusterOf, State.guarded, hfence, hguard]
  simp

/-- The near address of a core of this package (R327, R346). -/
theorem coreVa_eq {pkg core : ℕ} (hcore : core < 4096) (hpkg : pkg < 1024) :
    coreVa (pkg * 4096 + core) = pmLoc core 0 + pkg * 2 ^ 46 := by
  simp only [coreVa, pmLoc, nearLoc, bits]
  omega

/-- A message at an inbox with room takes the lowest free slot, with its words, and is acknowledged (R204, R206). -/
theorem inboxMsg_taken {s : State} {id core n : ℕ} {m : Msg} (ha : s.aliases = []) (hb : m.back.heard = true)
    (hroom : (s.core core).inbox.length < 32) (hrefusals : (s.core core).refusals = []) (hslot : s.inboxSlot core = n)
    (hcore : m.target % 4096 = core) (hword : m.word / 2 ^ 30 = 0) :
    ((s.inboxMsg id m).core core).inbox = (s.core core).inbox ++ [{ slot := n, sys := .handler, part := m.part, tries := 0 }] ∧
    (s.inboxMsg id m).flights = (s.inPlace id m.back (coreVa m.target) (.data 0)).flights ∧
    ∀ j, j < 16 → natOf ((s.inboxMsg id m).rd (pmLoc core (0x3B000 + 128 * n + 8 * j)) 8) =
      (slotWords m.hpc m.word 0 m.pay).getD j 0 % 2 ^ 64 := by
  have hyes : s.admits core (m.word % 2 ^ 22) = true := by
    simp [State.admits, hrefusals]
    omega
  have hsys : m.sys = .handler := if_neg (by omega)
  subst hcore
  have hput : s.inboxMsg id m = (s.inboxPut (m.target % 4096) (m.word % 2 ^ 22) .handler m.part m.hpc m.word 0 m.pay).inPlace id m.back
      (coreVa m.target) (.data 0) := by
    rw [← answer_eq_inPlace (by exact ha) hb, ← hsys]
    exact if_pos hyes
  rw [hput]
  refine ⟨?_, rfl, fun j hj => ?_⟩
  · rw [core_inPlace, inboxPut_inbox hslot]
  · rw [rd_inPlace, inboxPut_word hslot hj]

/-! ### Activations (R207, R211) -/

/-- An inbox gives its oldest message while its core lets activations start (R207). -/
theorem nextMessage_of_free {s : State} {core : ℕ} (hempty : s.stateAt core 1 = 0) (hact : (s.core core).act = none)
    (hruns : s.clusterRuns (core / 8) = true) (hfence : (s.cluster (core / 8)).fenced = false)
    (hout : ∀ f ∈ s.flights, f.1 ∉ (s.core core).outbox) : s.nextMessage core = (s.core core).inbox.head? := by
  have hoff : s.flights.any (fun f => (s.core core).outbox.contains f.1) = false := by simpa using hout
  simp only [State.nextMessage, hempty, hact, clusterOf, hfence, hoff, hruns, stEMPTY]
  rfl

/-- The bytes outside the workspace of a context and the record of every core are as before. -/
structure InSlot (core ctx : ℕ) (s t : State) : Prop where
  cores : t.cores = s.cores
  byte : ∀ x, x < s.wsLoc core ctx 0 ∨ s.wsLoc core ctx 0 + 0xC00 ≤ x → t.mem.get x = s.mem.get x

section
variable {s t : State} {core ctx : ℕ} (h : InSlot core ctx s t)

theorem InSlot.refl (core ctx : ℕ) (s : State) : InSlot core ctx s s := ⟨rfl, fun _ _ => rfl⟩

include h

theorem InSlot.ctxAt (c x : ℕ) : t.ctxAt c x = s.ctxAt c x := by rw [State.ctxAt, State.core, h.cores]; rfl
theorem InSlot.wsLoc (off : ℕ) : t.wsLoc core ctx off = s.wsLoc core ctx off := by rw [State.wsLoc, h.ctxAt]; rfl

theorem InSlot.put {u : State} {off : ℕ} {bs : List Byte} (hc : u.cores = t.cores) (hm : u.mem = t.mem.write (t.wsLoc core ctx off) bs)
    (hin : off + bs.length ≤ 0xC00) : InSlot core ctx s u := by
  refine ⟨hc.trans h.cores, fun x hx => ?_⟩
  rw [hm, Memory.get_write, h.wsLoc, wsLoc_eq s, if_neg (by omega), h.byte x hx]

theorem InSlot.wsSet {off n v : ℕ} (hin : off + n ≤ 0xC00) : InSlot core ctx s (t.wsSet core ctx off n v) :=
  h.put rfl rfl (by rwa [bytesOf_length])

theorem InSlot.setCxAt {off v : ℕ} (hin : off + 8 ≤ 0xC00 := by decide) : InSlot core ctx s (t.setCxAt core ctx off v) := h.wsSet hin

theorem InSlot.setGAt {r v : ℕ} (hr : r < 64) : InSlot core ctx s (t.setGAt core ctx r v) := by
  unfold State.setGAt
  split
  · exact h
  · exact h.wsSet (by omega)

theorem InSlot.freeWs {off n : ℕ} (hin : off + n ≤ 0xC00) : InSlot core ctx s (t.freeWs core ctx off n) :=
  h.put rfl rfl (by simpa [State.undefinedBytes] using hin)

theorem InSlot.freeCx {off lo hi : ℕ} (hin : off + 8 ≤ 0xC00 := by decide) : InSlot core ctx s (t.freeCx core ctx off lo hi) :=
  h.put (u := t.freeCx core ctx off lo hi) rfl rfl (by rwa [bytesOf_length])

theorem InSlot.freeRegs : InSlot core ctx s (t.freeRegs core ctx) :=
  (((((h.freeWs (by decide)).freeWs (by decide)).freeCx.freeCx).freeCx.freeCx).freeCx)

theorem InSlot.startWords {pc fut pri : ℕ} : InSlot core ctx s (t.startWords core ctx pc fut pri) :=
  h.setCxAt.setCxAt.setCxAt.setCxAt.setCxAt.setCxAt

end

section
variable (s : State) (core ctx : ℕ)

theorem cxAt_setCxAt (off v : ℕ) : (s.setCxAt core ctx off v).cxAt core ctx off = v % 2 ^ 64 := wsGet_wsSet s core ctx off 8 v

theorem cxAt_setCxAt_ne {off off' : ℕ} (v : ℕ) (h : off' + 8 ≤ off ∨ off + 8 ≤ off') :
    (s.setCxAt core ctx off v).cxAt core ctx off' = s.cxAt core ctx off' := cxAt_wsSet s core ctx off 8 v off' h

/-- The words of a context that starts (R202, R207). -/
theorem startWords_words (pc fut pri : ℕ) :
    (s.startWords core ctx pc fut pri).cxAt core ctx cxPC = pc / 4 * 4 % 2 ^ 64 ∧
    (s.startWords core ctx pc fut pri).cxAt core ctx cxFUT = fut % 2 ^ 64 ∧
    (s.startWords core ctx pc fut pri).cxAt core ctx cxCNT = 0 ∧ (s.startWords core ctx pc fut pri).cxAt core ctx cxREPS = 0 ∧
    (s.startWords core ctx pc fut pri).cxAt core ctx cxSTATUS = setBits (setBits (pri * 2 ^ 10 % 2 ^ 64) 3 0 1) 7 4 ctx % 2 ^ 64 := by
  refine ⟨?_, ?_, ?_, ?_, ?_⟩ <;>
    simp (disch := decide) only [State.startWords, State.setStateAt, cxAt_setCxAt_ne, cxAt_setCxAt]
  all_goals rfl

end

end Sys2Proof.Machine

namespace Sys2Proof.Machine

/-! ### A message that comes to its turn (R204, R206) -/

section
variable {s : State} {id core : ℕ} {m : Msg} {again : Bool}
  (hflight : lookupId id s.flights = some (.msg m)) (hb : m.back.heard = true) (horder : s.inOrder id = true)
  (htarget : m.target = s.pkgId * 4096 + core) (hcore : core < 4096) (hpkg : s.pkgId < 1024)
  (hfence : (s.cluster (core / 8)).fenced = false) (hguard : s.guard (core / 8) m.part = .deliver)
  (hagain : m.refused.isSome = again) (hdue : s.retryDue m.refused = true)
include hflight hb horder htarget hcore hpkg hfence hguard hagain hdue

/-- A message whose turn has come at a full inbox is refused. -/
theorem msgArrive_full (hfull : 32 ≤ (s.core core).inbox.length) :
    ((s.msgArrive id again).core core).inbox = (s.core core).inbox ∧ (s.msgArrive id again).mem = s.mem ∧
      lookupId id (s.msgArrive id again).flights = some (.msg { m with refused := some s.clock }) := by
  rw [msgArrive_eq hflight hb horder htarget hcore hpkg hfence hguard hagain hdue]
  exact inboxMsg_full hfull (by omega) hflight

/-- A message whose turn has come at an inbox with room is taken into the lowest free slot, with its words. -/
theorem msgArrive_taken {n : ℕ} (ha : s.aliases = []) (hroom : (s.core core).inbox.length < 32)
    (hrefusals : (s.core core).refusals = []) (hn : n < 32) (hfree : ∀ e ∈ (s.core core).inbox, e.slot ≠ n)
    (hlow : ∀ j, j < n → ∃ e ∈ (s.core core).inbox, e.slot = j) (hword : m.word / 2 ^ 30 = 0) (hpay : ∀ v ∈ m.pay, v < 2 ^ 64)
    (hhpc : m.hpc < 2 ^ 64) :
    ((s.msgArrive id again).core core).inbox =
        (s.core core).inbox ++ [{ slot := n, sys := .handler, part := m.part, tries := 0 }] ∧
      (s.msgArrive id again).flights = (s.inPlace id m.back (pmLoc core 0 + s.pkgId * 2 ^ 46) (.data 0)).flights ∧
      natOf ((s.msgArrive id again).rd (pmLoc core (0x3B000 + 128 * n)) 8) = m.hpc ∧
      natOf ((s.msgArrive id again).rd (pmLoc core (0x3B008 + 128 * n)) 8) = m.word ∧
      ∀ i, i < 8 → natOf ((s.msgArrive id again).rd (pmLoc core (0x3B040 + 128 * n + 8 * i)) 8) = m.pay.getD i 0 := by
  rw [msgArrive_eq hflight hb horder htarget hcore hpkg hfence hguard hagain hdue]
  obtain ⟨hinbox, hflights, hwords⟩ :=
    inboxMsg_taken ha hb hroom hrefusals (inboxSlot_eq hn hfree hlow) (by omega : m.target % 4096 = core) hword (id := id)
  rw [htarget, coreVa_eq hcore hpkg] at hflights
  have hat (off j : ℕ) (hj : j < 16) (hoff : off = 0x3B000 + 128 * n + 8 * j) :
      natOf ((s.inboxMsg id m).rd (pmLoc core off) 8) = (slotWords m.hpc m.word 0 m.pay).getD j 0 % 2 ^ 64 := hoff ▸ hwords j hj
  refine ⟨hinbox, hflights, ?_, ?_, fun i hi => ?_⟩
  · exact (hat _ 0 (by decide) (by omega)).trans (Nat.mod_eq_of_lt hhpc)
  · exact (hat _ 1 (by decide) (by omega)).trans (Nat.mod_eq_of_lt (by change m.word < _; omega))
  · have hword : (slotWords m.hpc m.word 0 m.pay).getD (8 + i) 0 = m.pay.getD i 0 := by
      simp only [slotWords, List.getD_eq_getElem?_getD]
      rw [List.getElem?_append_right (by simp)]
      simp [hi]
    have hlt : m.pay.getD i 0 < 2 ^ 64 := by
      rw [List.getD_eq_getElem?_getD]
      cases hget : m.pay[i]? with
      | none => decide
      | some v => exact hpay v (List.mem_of_getElem? hget)
    rw [hat _ (8 + i) (by omega) (by omega), hword, Nat.mod_eq_of_lt hlt]

end

end Sys2Proof.Machine

namespace Sys2Proof.Machine

/-! ### The activation of a handler (R207) -/

/-- A payload word of the message in an inbox slot. -/
def State.payWord (s : State) (core slot i : ℕ) : ℕ := natOf (s.rd (pmLoc core (0x3B040 + 128 * slot) + 8 * i) 8)

/-- The registers with which the handler of a message starts (R207). -/
def State.handlerRegs (s : State) (core slot : ℕ) : State :=
  ((((((s.freeRegs core 1).startWords core 1 (s.msgHpc core slot) 0 0).setGAt core 1 3 (0x09 * 2 ^ 56 + 0x3B000 + 128 * slot)).setGAt
    core 1 4 (s.payWord core slot 0)).setGAt core 1 5 (s.payWord core slot 1)).setGAt core 1 6 (s.payWord core slot 2)).setGAt core 1 7
    (s.payWord core slot 3)

/-- The activation of a slot's message, with poisoned payload words, on the registers that it starts with (R207, R365). -/
def State.activated (t : State) (core slot loc : ℕ) (bad : List ℕ) : State :=
  let u := t.poisonAt loc bad
  let v := u.setCtxAt core 1 { Ctx.reset 1 with wp := (u.ctxAt core 1).wp, away := (u.ctxAt core 1).away }
  v.setCore core { v.core core with act := some { slot := slot, count := 0, sends := 0, stores := 0, buf := [], out := [], futs := [] } }

theorem activate_eq {s : State} {core : ℕ} {e : InboxEntry} (hnext : s.nextMessage core = some e) (hsys : e.sys = .handler) :
    s.activate core =
      (s.handlerRegs core e.slot).activated core e.slot ((s.handlerRegs core e.slot).wsLoc core 1 32)
        (s.badAt (pmLoc core (0x3B040 + 128 * e.slot)) 32) := by
  simp only [State.activate, hnext, hsys]
  rfl

section
variable (t : State) (core slot loc : ℕ) (bad : List ℕ)

theorem sameWorkspaces_activated : SameWorkspaces t (t.activated core slot loc bad) := by
  refine ⟨rfl, rfl, fun c x => ?_⟩
  have hset (v : State) (d : Ctx) (a : Option Activation) :
      ((v.setCtxAt core 1 d).setCore core { (v.setCtxAt core 1 d).core core with act := a }).ctxAt c x = (v.setCtxAt core 1 d).ctxAt c x := by
    unfold State.ctxAt
    rw [core_setCore]
    split_ifs with h
    · rw [h]
    · rfl
  unfold State.activated
  rw [hset, ctxAt_setCtxAt]
  split_ifs with h
  · obtain ⟨rfl, rfl⟩ := h
    rfl
  · rfl

theorem core_activated : (t.activated core slot loc bad).core core =
    { t.core core with
      ctxs := Tbl.set (Ctx.reset 1) (t.core core).ctxs 1 { Ctx.reset 1 with wp := (t.ctxAt core 1).wp, away := (t.ctxAt core 1).away },
      act := some { slot := slot, count := 0, sends := 0, stores := 0, buf := [], out := [], futs := [] } } := by
  unfold State.activated
  rw [core_setCore, if_pos rfl, core_setCtxAt, if_pos rfl]
  rfl

end

section
variable (s : State) (core ctx : ℕ)

theorem gAt_setGAt_ne {r q : ℕ} (v : ℕ) (h : q ≠ r) : (s.setGAt core ctx r v).gAt core ctx q = s.gAt core ctx q := by
  unfold State.gAt State.setGAt
  split_ifs
  · rfl
  · rfl
  · exact wsGet_wsSet_ne s core ctx (8 * r) 8 v (8 * q) 8 (by omega)

/-- The context words are not among the general registers. -/
theorem cxAt_setGAt {r off : ℕ} (v : ℕ) (h : 8 * r + 8 ≤ off) : (s.setGAt core ctx r v).cxAt core ctx off = s.cxAt core ctx off := by
  unfold State.setGAt
  split_ifs
  · rfl
  · exact cxAt_wsSet s core ctx (8 * r) 8 v off (.inr h)

end

section
variable (s : State) (core slot : ℕ)

theorem handlerRegs_inSlot : InSlot core 1 s (s.handlerRegs core slot) :=
  ((InSlot.refl core 1 s).freeRegs.startWords.setGAt (by decide)).setGAt (by decide) |>.setGAt (by decide) |>.setGAt (by decide)
    |>.setGAt (by decide)

/-- The context words of a handler are those of a context that starts. -/
theorem cxAt_handlerRegs {off : ℕ} (h : 64 ≤ off) : (s.handlerRegs core slot).cxAt core 1 off =
    ((s.freeRegs core 1).startWords core 1 (s.msgHpc core slot) 0 0).cxAt core 1 off := by
  unfold State.handlerRegs
  simp (disch := omega) only [cxAt_setGAt]

theorem gAt_handlerRegs_slot (hslot : slot < 32) :
    (s.handlerRegs core slot).gAt core 1 3 = 0x09 * 2 ^ 56 + 0x3B000 + 128 * slot := by
  unfold State.handlerRegs
  simp (disch := decide) only [gAt_setGAt_ne, gAt_setGAt, if_neg]
  omega

theorem gAt_handlerRegs_pay {i : ℕ} (hi : i < 4) : (s.handlerRegs core slot).gAt core 1 (4 + i) = s.payWord core slot i := by
  have hlt (j : ℕ) : s.payWord core slot j % 2 ^ 64 = s.payWord core slot j := Nat.mod_eq_of_lt (by
    have h := natOf_lt (s.rd (pmLoc core (0x3B040 + 128 * slot) + 8 * j) 8)
    rwa [State.rd, Memory.read_length] at h)
  unfold State.handlerRegs
  interval_cases i <;> simp (disch := decide) only [gAt_setGAt_ne, gAt_setGAt, if_neg, hlt]

end

/-- The activation of an inbox's oldest message puts its handler, with its registers and state words, in the handler context (R207). -/
theorem activation_starts {s : State} {core : ℕ} {e : InboxEntry} (hnext : s.nextMessage core = some e) (hsys : e.sys = .handler)
    (hslot : e.slot < 32) :
    let t := s.activate core
    let ws := s.wsLoc core 1 0
    let word (o : ℕ) := natOf (s.rd (pmLoc core (0x3B000 + 128 * e.slot + o)) 8)
    (t.core core).act = some { slot := e.slot, count := 0, sends := 0, stores := 0, buf := [], out := [], futs := [] } ∧
      (t.core core).inbox = (s.core core).inbox ∧ t.cxAt core 1 cxPC = word 0 / 4 * 4 ∧ t.cxAt core 1 cxSTATUS = 0x11 ∧
      t.cxAt core 1 cxFUT = 0 ∧ t.cxAt core 1 cxCNT = 0 ∧ t.cxAt core 1 cxREPS = 0 ∧
      t.gAt core 1 3 = 0x09 * 2 ^ 56 + 0x3B000 + 128 * e.slot ∧ (∀ i, i < 4 → t.gAt core 1 (4 + i) = word (0x40 + 8 * i)) ∧
      ∀ x : ℕ, x < ws ∨ ws + 0xC00 ≤ x → t.mem.get x = s.mem.get x := by
  intro t ws word
  let u := s.handlerRegs core e.slot
  have hu : InSlot core 1 s u := handlerRegs_inSlot s core e.slot
  have ht : t = u.activated core e.slot _ _ := activate_eq hnext hsys
  have hsame : SameWorkspaces u t := ht ▸ sameWorkspaces_activated u core e.slot _ _
  have hcore : u.core core = s.core core := by rw [State.core, hu.cores]; rfl
  obtain ⟨hpc, hfut, hcnt, hreps, hstatus⟩ := startWords_words (s.freeRegs core 1) core 1 (s.msgHpc core e.slot) 0 0
  have hcx {off : ℕ} (h : 64 ≤ off) : t.cxAt core 1 off = _ := (hsame.cxAt core 1 off).trans (cxAt_handlerRegs s core e.slot h)
  have hword : s.msgHpc core e.slot < 2 ^ 64 := by
    simpa [State.msgHpc, State.rd] using natOf_lt (s.rd (pmLoc core (0x3B000 + 128 * e.slot)) 8)
  refine ⟨?_, ?_, ?_, ?_, ?_, ?_, ?_, ?_, fun i hi => ?_, fun x hx => ?_⟩
  · rw [ht, core_activated]
  · rw [ht, core_activated, hcore]
  · rw [hcx (by decide), hpc]
    exact Nat.mod_eq_of_lt ((Nat.div_mul_le_self _ _).trans_lt hword)
  · rw [hcx (by decide), hstatus]
    rfl
  · rw [hcx (by decide), hfut]
    rfl
  · rw [hcx (by decide), hcnt]
  · rw [hcx (by decide), hreps]
  · rw [hsame.gAt, gAt_handlerRegs_slot s core e.slot hslot]
  · have hoff : 0x3B040 + 128 * e.slot + 8 * i = 0x3B000 + 128 * e.slot + (0x40 + 8 * i) := by omega
    rw [hsame.gAt, gAt_handlerRegs_pay s core e.slot hi, State.payWord, ← pmLoc_add, hoff]
  · rw [hsame.mem]
    exact hu.byte x hx

end Sys2Proof.Machine

namespace Sys2Proof.Machine

/-! ### System activations (R211) -/

/-- Whether an operation is a nibble store, which SYSTEM_NIBBLE_STORE performs and SYSTEM_ATOMIC does not (R211). -/
def MemOp.isNibble : MemOp → Bool
  | .nibble _ _ => true
  | _ => false

/-- What is in flight, the partners that share an answer, and every inbox are as before. -/
structure SameMail (s t : State) : Prop where
  flights : t.flights = s.flights
  aliases : t.aliases = s.aliases
  inbox : ∀ k, (t.core k).inbox = (s.core k).inbox

theorem SameMail.refl (s : State) : SameMail s s := ⟨rfl, rfl, fun _ => rfl⟩

theorem SameMail.trans {s t u : State} (h : SameMail s t) (g : SameMail t u) : SameMail s u :=
  ⟨g.flights.trans h.flights, g.aliases.trans h.aliases, fun k => (g.inbox k).trans (h.inbox k)⟩

section
variable {s : State} {cl u off : ℕ}

theorem sameMail_setCtxAt (s : State) (core ctx : ℕ) (c : Ctx) : SameMail s (s.setCtxAt core ctx c) := by
  refine ⟨rfl, rfl, fun k => ?_⟩
  rw [core_setCtxAt]
  split_ifs with h
  · rw [h]
  · rfl

/-- Noting a release changes no byte and nothing that travels or waits (R229). -/
theorem noteRelease_keeps (s : State) (id : ℕ) (r : MemReq) (loc : ℕ) (t : State) :
    SameMail t (s.noteRelease id r loc t) ∧ (s.noteRelease id r loc t).mem = t.mem := by
  let keeps (v : State) : Prop := SameMail t v ∧ v.mem = t.mem
  have hmark : keeps (if r.rel then t.markReleased loc r.op.size else t) := by
    split_ifs
    · exact ⟨⟨rfl, rfl, fun _ => rfl⟩, rfl⟩
    · exact ⟨.refl t, rfl⟩
  unfold State.noteRelease
  extract_lets saw v
  split_ifs with hsaw
  · refine foldl_keeps (p := keeps) hmark fun w hw back => ?_
    cases back with
    | ctx c x => exact ⟨hw.1.trans (sameMail_setCtxAt w c x _), hw.2⟩
    | _ => exact hw
  · exact hmark

/-- The location of a byte that lies in a current workspace is the byte's own (R20). -/
theorem wsLoc_of_wsAt {x o : ℕ} (hu : u < 8) (h : s.wsAt (coreOfUnit cl u) off = some (x, o)) :
    s.wsLoc (coreOfUnit cl u) x o = nearLoc cl u off := by
  obtain ⟨y, hfind, hy⟩ := Option.map_eq_some_iff.1 h
  obtain ⟨rfl, rfl⟩ := Prod.mk.inj hy
  have hin := List.find?_some hfind
  simp only [Bool.and_eq_true, decide_eq_true_eq] at hin
  have hcl : coreOfUnit cl u / 8 = cl := by unfold coreOfUnit; omega
  have hun : coreOfUnit cl u % 8 = u := by unfold coreOfUnit; omega
  rw [State.wsLoc, pmLoc, hcl, hun, Nat.add_sub_cancel' hin.1]

/-- Bytes stored outside the context words are written where they are (R25). -/
theorem nearWr_keeps {bs : List Byte} (h : s.inWords cl u off bs.length = none) :
    SameMail s (s.nearWr cl u off bs) ∧ (s.nearWr cl u off bs).mem = s.mem.write (nearLoc cl u off) bs := by
  unfold State.nearWr
  by_cases hu : u < 8
  · rw [if_pos hu]
    rw [State.inWords, if_pos hu] at h
    cases hat : s.wsAt (coreOfUnit cl u) off with
    | none => exact ⟨⟨rfl, rfl, fun _ => rfl⟩, rfl⟩
    | some w =>
      obtain ⟨x, o⟩ := w
      have hout : o + bs.length ≤ cxPC ∨ cxLOG ≤ o := by
        by_contra hin
        rw [hat, Option.filter_some, if_pos (by simp only [Bool.and_eq_true, decide_eq_true_eq]; omega)] at h
        cases h
      simp only [hout, if_true, ← wsLoc_of_wsAt hu hat]
      exact ⟨⟨rfl, rfl, fun _ => rfl⟩, rfl⟩
  · rw [if_neg hu]
    exact ⟨⟨rfl, rfl, fun _ => rfl⟩, rfl⟩

/-- An indivisible operation that writes, writes as many bytes as it finds (R126). -/
theorem run_length {op : MemOp} (hop : op.indivisible = true) (old : List Byte) (hwrites : (op.run old).1 ≠ []) :
    (op.run old).1.length = op.size := by
  cases op with
  | nibble hi v => rfl
  | atomic o b => exact bytesOf_length _ _
  | cas len e n =>
    simp only [MemOp.run] at hwrites ⊢
    split_ifs at hwrites ⊢
    · exact bytesOf_length _ _
    · exact absurd rfl hwrites
  | _ => cases hop

/-- What an indivisible operation at a near unit leaves: its new bytes, and every other byte and all that travels or waits as before. -/
theorem nearRun_keeps {op : MemOp} (hop : op.indivisible = true) (h : s.inWords cl u off op.size = none) :
    let x := op.run (s.rd (nearLoc cl u off) op.size)
    let t := (s.nearRun cl u off op).1
    SameMail s t ∧ (x.1 ≠ [] → t.rd (nearLoc cl u off) op.size = x.1) ∧
      ∀ y, y < nearLoc cl u off ∨ nearLoc cl u off + op.size ≤ y → t.mem.get y = s.mem.get y := by
  intro x t
  by_cases hx : x.1 = []
  · have ht : t = s := if_pos hx
    rw [ht]
    exact ⟨.refl s, fun hne => absurd hx hne, fun y _ => rfl⟩
  · have ht : t = s.nearWr cl u off x.1 := if_neg hx
    have hlen : x.1.length = op.size := run_length hop _ hx
    obtain ⟨hmail, hmem⟩ := nearWr_keeps (hlen ▸ h)
    rw [ht]
    refine ⟨hmail, fun _ => ?_, fun y hy => ?_⟩
    · rw [State.rd, hmem, ← hlen, Memory.read_write_same]
    · rw [hmem, Memory.get_write, hlen, if_neg (by omega)]

theorem nearParts_pmLoc {core off : ℕ} (hcore : core < 4096) (hoff : off < 2 ^ 33) :
    nearParts (pmLoc core off) = (core / 8, core % 8, off) := by
  simp only [nearParts, pmLoc, nearLoc, bits, Prod.mk.injEq]
  omega

end

section
variable {s : State} {core id off slot part tries : ℕ} {rest : List InboxEntry} {r : MemReq}
  (hnext : s.nextMessage core = some { slot := slot, sys := .access id r, part := part, tries := tries })
  (hrun : s.running = []) (hcore : core < 4096) (hnear : r.near = some (pmLoc core off)) (hoff : off + r.op.size ≤ 0x30000)
  (hseq : r.seq = none) (hclean : s.tainted (pmLoc core off) r.op.size = false)
include hnext hrun hcore hnear hoff hseq hclean

/-- A system activation performs its request at the core's private memory, answers it and frees its slot. -/
theorem systemAccess_eq {nibble : Bool} (hnib : r.op.isNibble = nibble) :
    s.systemAccess core nibble =
      (((s.noteRelease id r (pmLoc core off) (s.nearRun (core / 8) (core % 8) off r.op).1).answer id r.back r.va
        (.data (r.op.run (s.rd (pmLoc core off) r.op.size)).2)).freeInbox core slot) := by
  have hheld : s.accessHeld r = false := by
    simp [State.accessHeld, hnear, State.nearHeld, State.engHeld, hrun]
  have hparts := nearParts_pmLoc hcore (off := off) (by omega)
  have hclean' : s.tainted (nearLoc (core / 8) (core % 8) off) r.op.size = false := hclean
  subst hnib
  unfold State.systemAccess
  rw [hnext]
  refine (if_neg (not_or.2 ⟨not_not.2 rfl, by simp [hheld]⟩)).trans ?_
  simp only [hnear, Option.getD_some, hparts, State.onceAt, hseq, hclean', Bool.and_false, Bool.false_eq_true, if_false]
  rfl

/-- What a system activation leaves (R211, R126). -/
theorem systemAccess_performs {nibble : Bool} (hnib : r.op.isNibble = nibble)
    (ha : s.aliases = []) (hb : r.back.heard = true) (hop : r.op.indivisible = true)
    (hwords : s.inWords (core / 8) (core % 8) off r.op.size = none)
    (hinbox : (s.core core).inbox = { slot := slot, sys := .access id r, part := part, tries := tries } :: rest) :
    let t := s.systemAccess core nibble
    let x := r.op.run (s.rd (pmLoc core off) r.op.size)
    (t.core core).inbox = rest.filter (fun y => y.slot != slot) ∧ t.flights = (s.inPlace id r.back r.va (.data x.2)).flights ∧
      (x.1 ≠ [] → t.rd (pmLoc core off) r.op.size = x.1) ∧
      ∀ y : ℕ, y < pmLoc core off ∨ pmLoc core off + r.op.size ≤ y → t.mem.get y = s.mem.get y := by
  intro t x
  obtain ⟨hmail, hbytes, hframe⟩ := nearRun_keeps hop hwords
  obtain ⟨hnoted, hmem⟩ := noteRelease_keeps s id r (pmLoc core off) (s.nearRun (core / 8) (core % 8) off r.op).1
  generalize hu : s.noteRelease id r (pmLoc core off) (s.nearRun (core / 8) (core % 8) off r.op).1 = u at hnoted hmem
  have hsame := hmail.trans hnoted
  have ht : t = (u.inPlace id r.back r.va (.data x.2)).freeInbox core slot := by
    rw [← answer_eq_inPlace (hsame.aliases.trans ha) hb, ← hu]
    exact systemAccess_eq hnext hrun hcore hnear hoff hseq hclean hnib
  have htmem : t.mem = (s.nearRun (core / 8) (core % 8) off r.op).1.mem := by rw [ht, ← hmem]; rfl
  refine ⟨?_, ?_, fun hx => ?_, fun y hy => ?_⟩
  · rw [ht, State.freeInbox, core_setCore, if_pos rfl, core_inPlace, hsame.inbox, hinbox]
    simp
  · rw [ht]
    change (u.inPlace id r.back r.va (.data x.2)).flights = _
    unfold State.inPlace
    rw [hsame.flights]
  · rw [State.rd, htmem]
    exact hbytes hx
  · rw [htmem]
    exact hframe y hy

end

end Sys2Proof.Machine

namespace Sys2Proof.Machine

/-- Settles O35: the taken message's words, the handler's registers and the system activation, each read back from the state that its event leaves. -/
theorem messageEvents : Obligations.MessageEvents := by
  intro s id core m hcore hpkg ha hrun c due takes full free ws
  have hends {again : Bool} (hdue : due) (hagain : m.refused.isSome = again) (hretry : s.retryDue m.refused = true) {i : Instr}
      (hi : exec i s = .next (s.msgArrive id again)) : takes i ∧ full i := by
    obtain ⟨hflight, hb, horder, htarget, hfence, hguard⟩ := hdue
    refine ⟨fun n hroom hrefusals hn hslots hlow hword _ hpay _ hhpc => ⟨_, hi, ?_⟩, fun hfull => ⟨_, hi, ?_⟩⟩
    · exact msgArrive_taken hflight hb horder htarget hcore hpkg hfence hguard hagain hretry ha hroom hrefusals hn hslots hlow hword hpay hhpc
    · exact msgArrive_full hflight hb horder htarget hcore hpkg hfence hguard hagain hretry hfull
  have hnext {e : InboxEntry} {rest : List InboxEntry} (hfree : free) (hinbox : c.inbox = e :: rest) : s.nextMessage core = some e := by
    obtain ⟨hempty, hact, hruns, hfence, hout⟩ := hfree
    rw [nextMessage_of_free hempty hact hruns hfence hout]
    exact congrArg List.head? hinbox
  refine ⟨fun hdue hnew => ?arrival, fun hdue k hrefused hlater => ?retry, fun e rest hfree hinbox hsys hslot => ?activation,
    fun e rest r off hfree hinbox hsys _ hb hnear hoff hseq hwords hclean hop => ?system⟩
  case arrival => exact hends hdue (by rw [hnew]; rfl) (by rw [hnew]; rfl) rfl
  case retry => exact hends hdue (by rw [hrefused]; rfl) (by rw [hrefused]; simpa [State.retryDue] using hlater) rfl
  case activation =>
    intro word
    obtain ⟨hact, hrest⟩ := activation_starts (hnext hfree hinbox) hsys hslot
    exact ⟨_, rfl, ⟨_, hact, rfl, rfl, rfl, rfl, rfl, rfl, rfl⟩, hrest⟩
  case system =>
    intro isNib i x
    obtain ⟨slot, sys, part, tries⟩ := e
    obtain rfl : sys = .access id r := hsys
    have hstep : exec i s = .next (s.systemAccess core r.op.isNibble) := by
      cases hnib : r.op.isNibble with
      | true => exact congrArg (exec · s) (if_pos hnib)
      | false => exact congrArg (exec · s) (if_neg (ne_true_of_eq_false hnib))
    exact ⟨_, hstep, systemAccess_performs (hnext hfree hinbox) hrun hcore hnear hoff hseq hclean rfl ha hb hop hwords hinbox⟩

end Sys2Proof.Machine


/-! # Posts and waiters (O36) -/

namespace Sys2Proof.Machine

/-- A drain's wake whose handle lies beyond 64 bits: its low 64 bits have KIND 2, the whole has not. -/
def longHandle : ℕ := 2 ^ 64 + 2 ^ 63

/-- A package whose core 0, of a running partition, has that wake in its inbox. -/
def longDrained : State :=
  { State.reset with
    parts := [(0, { Part.reset with status := .running, clusters := [0] })],
    cores := [(0, { CoreState.reset with inbox := [{ slot := 0, sys := .drain longHandle 0, part := 0, tries := 0 }] })] }

/-- Its wake resolves a future: DRAIN_WAKE looks at the two bits of KIND alone (R159, R168). -/
theorem longDrained_wakes : (longDrained.drainWakeAt 0).flights.length = 1 := by decide +kernel

/-- Refutes O36: by the statement a drain's wake resolves a future only if `h / 2 ^ 62 = 2`, by the model if bits 63 and 62 of `h` are 2; the
two differ for a handle beyond 64 bits, which the statement does not exclude. -/
theorem not_postsAndWaiters : ¬ Obligations.PostsAndWaiters := by
  rintro ⟨-, hwaiters⟩
  obtain ⟨-, -, hdrain, -⟩ := hwaiters longDrained 0 0 0 0 0 { core := 0, ctx := 0, len := 1, last := false } .quad 0 0 rfl rfl
    (by decide) (by decide)
  have hfree : longDrained.stateAt 0 1 = 0 ∧ (longDrained.core 0).act = none ∧ longDrained.clusterRuns (0 / 8) = true ∧
      (longDrained.cluster (0 / 8)).fenced = false ∧ ∀ f ∈ longDrained.flights, f.1 ∉ (longDrained.core 0).outbox := by decide +kernel
  have hnext := hdrain _ [] longHandle 0 hfree rfl rfl
  rw [if_neg (by decide)] at hnext
  have hflights := congrArg (·.flights.length) (Host.Outcome.next.inj hnext)
  exact absurd (longDrained_wakes.symm.trans hflights) (by decide +kernel)

end Sys2Proof.Machine


/-! # Matrix and copy commands at issue (O23, O24) -/

namespace Sys2Proof.Machine

/-! ### Gates (R208, R369) -/

/-- An instruction of the engines or of the queues meets the gate of R208 and R369 before anything else. -/
theorem exec_of_usesUnits {i : Instr} (h : usesUnits i = true) (s : State) : ∃ k, exec i s = s.unitGate k := by
  cases i with
  | mquant t row0 nr dst q => cases q <;> exact ⟨_, rfl⟩
  | mfmt | malloc | mfree | mzero | mma | gmma | mdrain | msync | mrank | mthr | acct | tcopy | tgather | tscatter | tmcast | tfill
  | acc | accBf16 | rmerge | flushresAll | flushresRange | shelfput | shelfcloseAll | shelfcloseDie | launch | flood => exact ⟨_, rfl⟩
  | _ => exact Bool.noConfusion h

/-- The half of O24 that holds. -/
theorem unitGates : Claims.UnitGates := by
  intro s i hunits
  obtain ⟨k, hk⟩ := exec_of_usesUnits hunits s
  rw [hk]
  exact ⟨fun hctx => if_pos hctx, fun hctx htwin => (if_neg hctx).trans (if_pos htwin)⟩

/-! ### A completion object beside poison that fills no word -/

/-- Whether an outcome is a next state in which the word at a location is poisoned. -/
def poisonedAfter (o : Host.Outcome State Fault Refusal) (w : ℕ) : Bool :=
  match o with
  | .next t => t.poisoned.contains w
  | _ => false

/-- Queueing a command poisons nothing. -/
theorem queued_poisoned (s : State) (cw : CWord) (op : CmdOp) (bytes : ℕ) : (s.queued cw op bytes).poisoned = s.poisoned := by
  unfold State.queued
  split <;> rfl

/-- A command that poisons a word as it is queued does not issue as the statements say: they let completing change bytes alone. -/
theorem not_issues_of_poisonedAfter {s : State} {o : Host.Outcome State Fault Refusal} {cw : CWord} {op : CmdOp} {bytes l w : ℕ}
    (hobj : s.cwLoc cw = some (some l)) (hroom : ¬ s.noRoom op) (hcnt : s.cnt (cmdCnt op) < 63)
    (hfree : s.nearHeld l 16 = false ∧ apartFrom (l, 16) (s.wsLoc s.cur.core s.cur.ctx 0, 0xC00))
    (hsound : w ∉ s.poisoned) (hafter : poisonedAfter o w = true) : ¬ Issues s o cw op bytes := by
  rintro ⟨-, -, hissues⟩
  obtain ⟨t, rfl, -, -, hframe, -⟩ := hissues (some l) hobj hroom hcnt (by rintro _ ⟨⟩; exact hfree)
  have hbase := hframe.healed w (List.contains_iff_mem.1 hafter)
  rw [queued_poisoned] at hbase
  exact hsound hbase

/-- Core 0 of a running partition holds rows 0 to 15 of tile 0. Its control context's g1 names the first byte of its private memory as a
completion object, and the list of poisoned words has an entry that begins three bytes into the object's first word. -/
def strayPoison : State :=
  { State.reset with
    parts := [(0, { Part.reset with status := .running, clusters := [0] })]
    clusters := [(0, { Cluster.reset with groups := [(0, { RowGroup.reset with holder := some 0, mine := true })] })]
    mem := [(nearLoc 0 0 0x3000F, 0x09)]
    poisoned := [nearLoc 0 0 3] }

/-- The object of g1 passes the check of R145, is held by no engine, and lies off the context's workspace. -/
theorem strayPoison_object : strayPoison.cwLoc (.obj (strayPoison.gN 1)) = some (some (nearLoc 0 0 0)) ∧
    strayPoison.nearHeld (nearLoc 0 0 0) 16 = false ∧ apartFrom (nearLoc 0 0 0, 16) (strayPoison.wsLoc 0 0 0, 0xC00) := by decide +kernel

/-- The object's first word is computed from one that the stray entry meets, so that the model poisons all of it (R365). -/
theorem strayPoison_spreads :
    poisonedAfter (exec (.mzero 0 0 0 (.obj 1)) strayPoison) (nearLoc 0 0 0) = true ∧
    poisonedAfter (exec (.tfill 0 0 0 0 (.obj 1)) strayPoison) (nearLoc 0 0 0) = true := by decide +kernel

/-- A command on that object whose queue and counter are empty does not issue as the statements say. -/
theorem strayPoison_not_issues {i : Instr} {op : CmdOp} {bytes : ℕ} (hroom : ¬ strayPoison.noRoom op)
    (hcnt : strayPoison.cnt (cmdCnt op) < 63) (hafter : poisonedAfter (exec i strayPoison) (nearLoc 0 0 0) = true) :
    ¬ Issues strayPoison (exec i strayPoison) (.obj (strayPoison.gN 1)) op bytes :=
  not_issues_of_poisonedAfter strayPoison_object.1 hroom hcnt strayPoison_object.2 (by decide +kernel) hafter

/-- Refutes O23, by an MZERO with a completion object. The statement lets the object's first word change its bytes alone, and the model
also keeps its poison, which it enters in the list of poisoned words by the word's own location. The two agree where that list names whole
words, as `State.poisonAt` enters them; the statement does not ask for it, and in `strayPoison` an entry begins within a word. -/
theorem not_matrixCommands : ¬ Obligations.MatrixCommands := by
  intro h
  obtain ⟨-, -, -, -, -, -, -, hmzero, -⟩ := h strayPoison 0 0 0 0 0 0 0 0 0 0 0 0 0 0 0 false false .rne .sum .e4m3 .mem 0 0 0 0 0 0 0 (.obj 1)
    (by decide) (by decide +kernel)
  exact strayPoison_not_issues (by decide +kernel) (by decide +kernel) strayPoison_spreads.1 (hmzero (by decide) (by decide +kernel))

/-- Refutes O24, by a TFILL with a completion object, as `not_matrixCommands` does O23; the other half of O24 is `unitGates`. -/
theorem not_copyCommandsAndGates : ¬ Obligations.CopyCommandsAndGates := by
  rintro ⟨hcopy, -⟩
  obtain ⟨-, -, hfill, -⟩ := hcopy strayPoison 0 0 0 0 0 0 0 0 (.obj 1) 0 0 0 [] (by decide) (by decide +kernel)
  exact strayPoison_not_issues (by decide +kernel) (by decide +kernel) strayPoison_spreads.2 (hfill (by decide +kernel))

end Sys2Proof.Machine

/-! # The end of a command with a future (O41) -/

namespace Sys2Proof.Machine

/-- A fill of no bytes that core 0's control context issued with `longHandle` as its future. -/
def longFuture : Cmd :=
  { id := 0, core := 0, ctx := 0, pc := 0, part := 0, pri := 0, since := 0, cw := .fut longHandle, bytes := 0, fmt := .reset,
    op := .tfill 0 0 0 0, owner := .ctx, todo := [], failed := none, dmask := 0, wake := none, shelves := [], held := [] }

/-- The command is in execution, with nothing left to write, and counted in CP. -/
def longFutured : State := { State.reset with running := [(0, longFuture)] }.setCntAt 0 0 .cp 1

theorem longFutured_calm : longFutured.calm 0 := fun _ _ _ => ⟨Wait.noConfusion, fun _ => Wait.noConfusion⟩

/-- Its end resolves a future: the model looks at the two bits of KIND alone (R143, R168). -/
theorem longFutured_resolves : (longFutured.cmdComplete 0).flights.length = 1 := by decide +kernel

/-- Refutes O41: by the statement the end of a command makes the future `h` final only if `h / 2 ^ 62 = 2`, by the model if bits 63 and 62 of
`h` are 2. The two differ for a handle beyond 64 bits, which no register holds and the statement does not exclude. -/
theorem not_engineEvents : ¬ Obligations.EngineEvents := by
  rintro ⟨-, hcommands⟩
  obtain ⟨-, -, hend⟩ := hcommands longFutured 0 0 0 longFuture [] { cmd := 0, part := 0, va := 0, dest := 0, bytes := [], bad := [], loose := [] }
  obtain ⟨-, hdone, -⟩ := hend rfl rfl rfl longFutured_calm
  obtain ⟨-, hsound, -⟩ := hdone (by decide +kernel) rfl (by decide +kernel)
  obtain ⟨-, hfut, -⟩ := hsound rfl rfl
  obtain ⟨t, hnext, hframe, -⟩ := hfut longHandle rfl
  beta_reduce at hframe
  rw [if_neg (by decide)] at hframe
  obtain rfl : longFutured.cmdComplete 0 = t := Host.Outcome.next.inj hnext
  have hflights := congrArg (·.flights.length) hframe.rest
  exact absurd (longFutured_resolves.symm.trans hflights) (by decide +kernel)

end Sys2Proof.Machine

/-! # A future at its home: lookup, final states and their wakes (R168, R172, R176, R179 to R187) -/

namespace Sys2Proof.Machine

/-! ### Handles (R167) -/

theorem mkHandle_eq (pkg core slot gen part : ℕ) : mkHandle pkg core slot gen part =
    2 ^ 63 + pkg * 2 ^ 52 + core * 2 ^ 40 + slot * 2 ^ 30 + gen * 2 ^ 14 + part * 2 ^ 10 := by
  simp only [mkHandle]
  omega

theorem hPkg_mkHandle {pkg core slot gen part : ℕ} (hpkg : pkg < 1024) (hcore : core < 4096) (hslot : slot < 1024) (hgen : gen < 2 ^ 16)
    (hpart : part < 16) : hPkg (mkHandle pkg core slot gen part) = pkg := by
  simp only [hPkg, mkHandle, bits]
  omega

theorem hCore_mkHandle {core slot gen part : ℕ} (pkg : ℕ) (hcore : core < 4096) (hslot : slot < 1024) (hgen : gen < 2 ^ 16)
    (hpart : part < 16) : hCore (mkHandle pkg core slot gen part) = core := by
  simp only [hCore, mkHandle, bits]
  omega

theorem hSlot_mkHandle {slot gen part : ℕ} (pkg core : ℕ) (hslot : slot < 1024) (hgen : gen < 2 ^ 16) (hpart : part < 16) :
    hSlot (mkHandle pkg core slot gen part) = slot := by
  simp only [hSlot, mkHandle, bits]
  omega

theorem hGen_mkHandle {gen part : ℕ} (pkg core slot : ℕ) (hgen : gen < 2 ^ 16) (hpart : part < 16) :
    hGen (mkHandle pkg core slot gen part) = gen := by
  simp only [hGen, mkHandle, bits]
  omega

theorem hPart_mkHandle {part : ℕ} (pkg core slot gen : ℕ) (hpart : part < 16) : hPart (mkHandle pkg core slot gen part) = part := by
  simp only [hPart, mkHandle, bits]
  omega

/-! ### Entries of a future table (R169, R172) -/

section
variable (s : State) (core slot : ℕ) (e : FutEntry)

@[simp] theorem fut_setFut : (s.setFut core slot e).fut core slot = e := by
  rw [State.fut, State.setFut, core_setCore, if_pos rfl, Tbl.get_set, if_pos rfl]

theorem setCore_setCore (c d : CoreState) : (s.setCore core c).setCore core d = s.setCore core d :=
  congrArg (fun cores => { s with cores := cores }) (Tbl.set_set _ _ _ _ _)

theorem setFut_setFut (x : FutEntry) : (s.setFut core slot e).setFut core slot x = s.setFut core slot x := by
  rw [State.setFut, State.setFut, State.setFut, core_setCore, if_pos rfl, setCore_setCore, Tbl.set_set]

end

/-- A handle names an entry that its home's table holds, none of whose words is poisoned. -/
structure Homed (s : State) (h core slot : ℕ) (e : FutEntry) : Prop where
  atCore : hCore h = core
  atSlot : hSlot h = slot
  atGen : hGen h = e.gen
  entry : s.fut core slot = e
  live : e.state ≠ fFREE
  sound : e.bad = false

/-- A flight for each of some items, numbered in their order (R225). -/
theorem foldl_launchFlight {α : Type} (f : α → Flight) (l : List α) (s : State) :
    l.foldl (fun t x => t.launchFlight (f x)) s =
      { s with nextId := s.nextId + l.length, flights := s.flights ++ l.zipIdx.map (fun x => (s.nextId + x.2, f x.1)) } := by
  induction l generalizing s with
  | nil => simp
  | cons a l ih =>
    rw [List.foldl_cons, ih]
    simp only [State.launchFlight, List.zipIdx_cons', List.map_cons, List.map_map, List.length_cons, List.append_assoc, Nat.add_assoc,
      Nat.add_comm 1, Nat.add_zero, List.singleton_append]
    rfl

/-- A future with an entry made final: its waiters are woken with the value or the cause (R176). -/
def State.ended (s : State) (core slot h : ℕ) (e : FutEntry) (st v cause : ℕ) : State :=
  { s.setFut core slot (e.final st v cause) with
    nextId := s.nextId + e.waiters.length
    flights := s.flights ++ e.waiters.zipIdx.map (fun w => (s.nextId + w.2, .wake w.1 h st (if st = 2 then v else cause))) }

theorem sendWakes_eq (s : State) (h st v : ℕ) (ws : List ℕ) : s.sendWakes h st v ws =
    { s with nextId := s.nextId + ws.length, flights := s.flights ++ ws.zipIdx.map (fun w => (s.nextId + w.2, .wake w.1 h st v)) } :=
  foldl_launchFlight (fun w => .wake w h st v) ws s

section
variable {s : State} {core slot : ℕ} {e : FutEntry} (hentry : s.fut core slot = e) (hlive : e.state ≠ 0)
include hentry hlive

theorem futFind_sound (hsound : e.bad = false) : s.futFind core slot e.gen = .ok (s, some (.table, e)) := by
  have hhere : (s.fut core slot).state ≠ fFREE ∧ (s.fut core slot).gen = e.gen := by rw [hentry]; exact ⟨hlive, rfl⟩
  rw [State.futFind, if_pos hhere, hentry, hsound]
  rfl

/-- An entry with a poisoned word fails the operation (R366). -/
theorem futFind_bad (hbad : e.bad = true) : s.futFind core slot e.gen = .error (cUE, 0, 0) := by
  have hhere : (s.fut core slot).state ≠ fFREE ∧ (s.fut core slot).gen = e.gen := by rw [hentry]; exact ⟨hlive, rfl⟩
  rw [State.futFind, if_pos hhere, hentry, hbad]
  rfl

end

/-- The wakes of a future that is made final name it by its home, slot, generation and partition (R176). -/
theorem finishAt_pending_sound {s : State} {core slot : ℕ} {e : FutEntry} (hentry : s.fut core slot = e) (hstate : e.state = 1)
    (hsound : e.bad = false) (hroot : Tbl.get 0 s.roots (rootKey (s.partOf core) core slot e.gen) = 0) {st v : ℕ}
    (hv : st = 2 ∨ st = 3 ∨ v = 0) : s.finishAt core slot e.gen st v =
      .ok (s.ended core slot (mkHandle s.pkgId core slot e.gen e.part) e st (if st = 2 then v else 0) (if st = 3 then v else 0), true) := by
  have hcarried : (if st = 2 then (if st = 2 then v else 0) else if st = 3 then v else 0) = v := by
    split_ifs <;> omega
  have hput : s.futFinish core slot e.gen st v = .ok ((s.setFut core slot (e.final st (if st = 2 then v else 0) (if st = 3 then v else 0))).sendWakes
      (mkHandle s.pkgId core slot e.gen e.part) st v e.waiters, true) := by
    rw [State.futFinish, futFind_sound hentry (by omega) hsound]
    simp only [hstate, fPENDING, if_true, State.futPut]
    rfl
  rw [State.finishAt, hput, sendWakes_eq]
  simp only [State.ended, hcarried]
  exact congrArg (fun t => Except.ok (t, true)) (if_pos hroot)

theorem futApply_bad {s : State} {h core slot : ℕ} {e : FutEntry} (hcore : hCore h = core) (hslot : hSlot h = slot) (hgen : hGen h = e.gen)
    (hentry : s.fut core slot = e) (hlive : e.state ≠ 0) (hbad : e.bad = true) (op : FutOp) : s.futApply h op = (s, .fault cUE 0 0) := by
  simp only [State.futApply, hcore, hslot, hgen, futFind_bad hentry hlive hbad]

section
variable {s : State} {h core slot : ℕ} {e : FutEntry} (hh : Homed s h core slot e)
include hh

theorem Homed.find : s.futFind core slot e.gen = .ok (s, some (.table, e)) := futFind_sound hh.entry hh.live hh.sound

/-- A final future stays as it is (R176). -/
theorem Homed.finishAt_final (hstate : 2 ≤ e.state) (st v : ℕ) : s.finishAt core slot e.gen st v = .ok (s, false) := by
  have hfinal : ¬ e.state = fPENDING := by
    simp only [fPENDING]
    omega
  rw [State.finishAt, State.futFinish, hh.find]
  simp only [if_neg hfinal]

/-- A PENDING future of no launch is made final (R176, R180). -/
theorem Homed.finishAt_pending (hstate : e.state = 1) (hroot : Tbl.get 0 s.roots (rootKey (s.partOf core) core slot e.gen) = 0)
    (hhandle : mkHandle s.pkgId core slot e.gen e.part = h) {st v : ℕ} (hv : st = 2 ∨ st = 3 ∨ v = 0) :
    s.finishAt core slot e.gen st v = .ok (s.ended core slot h e st (if st = 2 then v else 0) (if st = 3 then v else 0), true) :=
  hhandle ▸ finishAt_pending_sound hh.entry hstate hh.sound hroot hv

/-! ### Operations at the home (R179 to R187, R306) -/

theorem Homed.futApply_touch (tok : Option ℕ) : s.futApply h (.touch tok) =
    if e.state = 1 then (match tok with
      | none => (s, .data (1 * 2 ^ 64))
      | some w => (s.setFut core slot { e with waiters := e.waiters ++ [w] }, .data (1 * 2 ^ 64)))
    else (s.setFut core slot { e with cons := true }, touchAnswer h e) := by
  simp only [State.futApply, hh.atCore, hh.atSlot, hh.atGen, hh.find, fPENDING]
  rfl

theorem Homed.futApply_ttouch : s.futApply h .ttouch =
    if e.state = 1 then (s, ttouchAnswer e) else (s.setFut core slot { e with cons := true }, ttouchAnswer e) := by
  simp only [State.futApply, hh.atCore, hh.atSlot, hh.atGen, hh.find, fPENDING]
  rfl

theorem Homed.futApply_stat : s.futApply h .stat = (s, .data (statWord .table e)) := by
  simp only [State.futApply, hh.atCore, hh.atSlot, hh.atGen, hh.find]

theorem Homed.futApply_finish {st v : ℕ} {t : State} {done : Bool} (hfinish : s.finishAt core slot e.gen st v = .ok (t, done)) :
    s.futApply h (.finish st v) = (t, .data done.toNat) := by
  simp only [State.futApply, hh.atCore, hh.atSlot, hh.atGen, hh.find, hfinish]

theorem Homed.futApply_free : s.futApply h .free =
    if e.state = 1 ∨ e.waiters ≠ [] then (s, .fault cFUT_IN_USE h 0)
    else (s.setFut core slot { FutEntry.reset with gen := (e.gen + 1) % 2 ^ 16 }, .data 0) := by
  simp only [State.futApply, hh.atCore, hh.atSlot, hh.atGen, hh.find, fPENDING]
  rfl

theorem Homed.futApply_join (l count done : ℕ) : s.futApply h (.join l count done) =
    if e.state = 1 ∧ !e.tied ∧ !s.joinTaken h then
      ({ s with launches := s.launches ++ [(l, { part := hPart h, count := count, got := 0, bad := 0, done := done, join := h, queue := none,
                                                 walker := none, joining := false })] }, .data 0)
    else (s, .fault cLAUNCH_BLOCK 0 0) := by
  simp only [State.futApply, hh.atCore, hh.atSlot, hh.atGen, hh.find, fPENDING]
  rfl

end

end Sys2Proof.Machine

/-! # Requests at the home of a future, and the replies to cancellations (O38) -/

namespace Sys2Proof.Machine

section
variable {s t : State} {id h core slot : ℕ} {e : FutEntry} {q : FutReq} {a : Answer}

/-- A future request at its home meets the protection unit of the home's cluster (R192, R308). -/
theorem futureRequest_of_fut (hflight : lookupId id s.flights = some (.fut q)) (hpkg : hPkg q.handle = s.pkgId) :
    s.futureRequest id = s.guarded id (clusterOf (hCore q.handle)) q.part (.fut q) (s.futAt id q) := by
  rw [State.futureRequest, hflight]
  exact if_neg (not_not_intro hpkg)

/-- What the operation of a request answers. -/
theorem futAt_of_apply (hop : ∀ tree, q.op ≠ .cancel tree) (hback : q.back.heard = true) (halias : t.aliases = [])
    (happly : s.futApply q.handle q.op = (t, a)) : s.futAt id q = t.inPlace id q.back q.handle a := by
  have hat : s.futAt id q = (s.futApply q.handle q.op).1.answer id q.back q.handle (s.futApply q.handle q.op).2 := by
    unfold State.futAt
    split
    · next tree hcancel => exact absurd hcancel (hop tree)
    · rfl
  rw [hat, happly]
  exact answer_eq_inPlace halias hback id q.handle a

theorem settleCancels_of_nil (hnone : s.cancels = []) : s.settleCancels = s := by
  simp [State.settleCancels, hnone]

/-- An answer at the home while no other cancellation is under way. -/
theorem answer_settled (halias : s.aliases = []) (hnone : s.cancels = []) {back : Back} (hback : back.heard = true) (va : ℕ) (a : Answer) :
    (s.answer id back va a).settleCancels = s.inPlace id back va a := by
  rw [answer_eq_inPlace halias hback]
  exact settleCancels_of_nil hnone

/-- An entry that is made final need not be marked first. -/
theorem ended_setFut (s : State) (core slot h : ℕ) (e x : FutEntry) (st v cause : ℕ) :
    (s.setFut core slot x).ended core slot h e st v cause = s.ended core slot h e st v cause := by
  rw [State.ended, State.ended, setFut_setFut]
  rfl

/-! ### A cancel request at the home (R184) -/

section
variable (hh : Homed s q.handle core slot e) (tree : Bool)
include hh

theorem Homed.cancelHome_final (halias : s.aliases = []) (hnone : s.cancels = []) (hback : q.back.heard = true) (hstate : 2 ≤ e.state) :
    s.cancelHome id q tree = s.inPlace id q.back q.handle (.data 0) := by
  have hfinal : e.state ≠ fPENDING := by
    simp only [fPENDING]
    omega
  simp only [State.cancelHome, hh.atCore, hh.atSlot, hh.atGen, hh.find, if_pos hfinal]
  exact answer_settled halias hnone hback q.handle (.data 0)

/-- The cancellation of a task's future asks the task's scheduler. -/
theorem Homed.cancelHome_tied (hnone : s.cancels = []) (hback : q.back.heard = true) (hstate : e.state = 1) (htied : e.tied = true) :
    s.cancelHome id q tree = { s with
      nextId := s.nextId + 1, cancels := [(q.root, q.back, none)]
      flights := dropId id s.flights ++ [(s.nextId, .cancelReq q.handle (e.value / 2 ^ 22 % 2 ^ 10)
        (e.value / 2 ^ 20 % 4 * 128 + e.value / 2 ^ 13 % 128) q.root tree)] } := by
  have hpending : ¬ e.state ≠ fPENDING := not_not_intro hstate
  have hfirst : q.back ≠ .none := fun h0 => by simp [h0, Back.heard] at hback
  have hpkg : tokPkg (e.value % 2 ^ 32) = e.value / 2 ^ 22 % 2 ^ 10 := by
    simp only [tokPkg, bits]
    omega
  have hcl : tokCluster (e.value % 2 ^ 32) = e.value / 2 ^ 20 % 4 * 128 + e.value / 2 ^ 13 % 128 := by
    simp only [tokCluster, bits]
    omega
  simp only [State.cancelHome, hh.atCore, hh.atSlot, hh.atGen, hh.find, if_neg hpending, htied, if_true, if_pos hfirst, hpkg, hcl]
  simp only [State.launchFlight, State.dropFlight, hnone, List.nil_append]

/-- The entry with the mark of a tree's cancellation, as it is before it is made final. -/
theorem Homed.marked (x : Bool) :
    Homed (s.setFut core slot { e with dcan := x }) q.handle core slot { e with dcan := x } :=
  ⟨hh.atCore, hh.atSlot, hh.atGen, fut_setFut s core slot _, hh.live, hh.sound⟩

theorem Homed.cancelHome_loose (halias : s.aliases = []) (hnone : s.cancels = []) (hback : q.back.heard = true) (hstate : e.state = 1)
    (htied : e.tied = false) (hroot : Tbl.get 0 s.roots (rootKey (s.partOf core) core slot e.gen) = 0)
    (hhandle : mkHandle s.pkgId core slot e.gen e.part = q.handle) :
    s.cancelHome id q tree =
      (s.ended core slot q.handle { e with dcan := e.dcan || tree } 4 0 0).inPlace id q.back q.handle (.data 4) := by
  have hpending : ¬ e.state ≠ fPENDING := not_not_intro hstate
  have hloose : ¬ e.tied = true := by simp [htied]
  have hfinish := (hh.marked (e.dcan || tree)).finishAt_pending hstate hroot hhandle (st := fCANCELLED) (v := 0) (.inr (.inr rfl))
  rw [ended_setFut] at hfinish
  simp only [State.cancelHome, hh.atCore, hh.atSlot, hh.atGen, hh.find, if_neg hpending, if_neg hloose, State.futPut, hfinish]
  exact answer_settled (by exact halias) (by exact hnone) hback q.handle (.data 4)

end

end

/-! ### A scheduler's reply to a cancel request (R184, R186) -/

section
variable {s t : State} {id h core slot cl code root : ℕ} {e : FutEntry} {back : Back} {tree : Bool}

theorem futureRequest_of_cancelRep (hflight : lookupId id s.flights = some (.cancelRep h cl code root tree)) (hpkg : hPkg h = s.pkgId)
    (hahead : s.finishAhead id h = false) : s.futureRequest id = s.cancelApply id h cl code root tree := by
  rw [State.futureRequest, hflight]
  exact if_neg (by simp [hpkg, hahead])

/-- A task that was not found: nothing changes. -/
theorem Homed.cancelTry_absent (hh : Homed s h core slot e) : s.cancelTry h 0 tree = .ok (s, 0, false) := by
  simp only [State.cancelTry, hh.atCore, hh.atSlot, hh.atGen, hh.find]
  exact if_pos (.inl trivial)

/-- A task that was found RUNNING or PARKED: a tree's cancellation leaves its mark. -/
theorem Homed.cancelTry_running (hh : Homed s h core slot e) : s.cancelTry h 3 tree =
    .ok (if tree then s.setFut core slot { e with dcan := e.dcan || tree } else s, 3, tree) := by
  have hfound : ¬ (3 = 0 ∨ (e.state ≠ fPENDING ∧ 3 ≠ 3)) := by simp
  simp only [State.cancelTry, hh.atCore, hh.atSlot, hh.atGen, hh.find]
  rw [if_neg hfound]
  cases tree with
  | false => rfl
  | true => simp [State.futPut]

/-- A task whose record was removed: its future is CANCELLED. -/
theorem Homed.cancelTry_removed (hh : Homed s h core slot e) (hcode : code = 1 ∨ code = 2) (hstate : e.state = 1)
    (hroot : Tbl.get 0 s.roots (rootKey (s.partOf core) core slot e.gen) = 0) (hhandle : mkHandle s.pkgId core slot e.gen e.part = h) :
    s.cancelTry h code tree = .ok (s.ended core slot h { e with dcan := e.dcan || tree } 4 0 0, code, tree) := by
  have hfound : ¬ (code = 0 ∨ (e.state ≠ fPENDING ∧ code ≠ 3)) := by
    simp only [hstate, fPENDING]
    omega
  have hgone : ¬ code = 3 := by omega
  simp only [State.cancelTry, hh.atCore, hh.atSlot, hh.atGen, hh.find]
  rw [if_neg hfound]
  cases tree with
  | false =>
    have hfinish := hh.finishAt_pending hstate hroot hhandle (st := fCANCELLED) (v := 0) (.inr (.inr rfl))
    simp only [Bool.false_eq_true, if_false, if_neg hgone, hfinish, Bool.or_false]
    rfl
  | true =>
    have hmark : Homed (s.setFut core slot { e with dcan := true }) h core slot { e with dcan := true } :=
      ⟨hh.atCore, hh.atSlot, hh.atGen, fut_setFut s core slot _, hh.live, hh.sound⟩
    have hfinish := hmark.finishAt_pending hstate hroot hhandle (st := fCANCELLED) (v := 0) (.inr (.inr rfl))
    rw [ended_setFut] at hfinish
    simp only [if_true, if_neg hgone, State.futPut, hfinish, Bool.or_true]
    rfl

theorem cancelApply_eq {more : Bool} {c place : ℕ} (htry : (s.dropFlight id).cancelTry h code tree = .ok (t, c, more)) :
    s.cancelApply id h place code root tree =
      ((if more then t.launchFlight (.treeCancel h (place / 512) (place % 512) root) else t).cancelCode root c).settleCancels := by
  rw [State.cancelApply, htry]

/-- The answer to the instruction that asked for a cancellation. -/
def cancelReply (back : Back) (code : ℕ) : Flight :=
  match back with
  | .ctx _ _ => .reply back (.data code)
  | _ => .ack back 0 0

/-- A cancellation that is over is answered, under its own number (R184, R370). -/
theorem answerCancel_eq (halias : s.aliases = []) (hback : back.heard = true) (hid : ∀ f ∈ s.flights, f.1 ≠ root)
    (hcancels : s.cancels = [(root, back, some code)]) :
    s.answerCancel root back (.data code) = { s with cancels := [], flights := s.flights ++ [(root, cancelReply back code)] } := by
  have hothers (g : Flight) : s.flights.map (fun x => if x.1 = root then (root, g) else x) = s.flights := by
    conv_rhs => rw [← List.map_id s.flights]
    exact List.map_congr_left fun x hx => if_neg (hid x hx)
  rw [State.answerCancel, answer_eq_inPlace (by exact halias) hback]
  cases back with
  | ctx | count =>
    simp only [State.inPlace, List.map_append, hothers, hcancels, cancelReply]
    simp
  | _ => cases hback

/-- A cancellation whose outcome is known, and for which nothing else works, is over. -/
theorem settle_answers (halias : s.aliases = []) (hback : back.heard = true) (hid : ∀ f ∈ s.flights, f.1 ≠ root)
    (hwork : ∀ f ∈ s.flights, f.2.cancels root = false) (hcancels : s.cancels = [(root, back, none)]) :
    (s.cancelCode root code).settleCancels = { s with cancels := [], flights := s.flights ++ [(root, cancelReply back code)] } := by
  have hknown : (s.cancelCode root code).cancels = [(root, back, some code)] := by simp [State.cancelCode, hcancels]
  have hdone : (s.cancelCode root code).flights.any (fun f => f.2.cancels root) = false := by
    rw [List.any_eq_false]
    intro f hf
    simp [hwork f hf]
  rw [State.settleCancels, hknown]
  simp only [List.foldl_cons, List.foldl_nil, hdone, Bool.false_eq_true, if_false]
  exact answerCancel_eq (by exact halias) hback hid hknown

/-- One that propagates is not. -/
theorem settle_waits (hcancels : s.cancels = [(root, back, none)]) (pkg c : ℕ) :
    ((s.launchFlight (.treeCancel h pkg c root)).cancelCode root code).settleCancels =
      { s with nextId := s.nextId + 1, cancels := [(root, back, some code)]
               flights := s.flights ++ [(s.nextId, .treeCancel h pkg c root)] } := by
  have hknown : ((s.launchFlight (.treeCancel h pkg c root)).cancelCode root code).cancels = [(root, back, some code)] := by
    simp [State.cancelCode, State.launchFlight, hcancels]
  have hwork : ((s.launchFlight (.treeCancel h pkg c root)).cancelCode root code).flights.any (fun f => f.2.cancels root) = true := by
    simp [State.cancelCode, State.launchFlight, Flight.cancels]
  rw [State.settleCancels, hknown]
  simp only [List.foldl_cons, List.foldl_nil, hwork, if_true]
  simp only [State.cancelCode, State.launchFlight, hcancels]
  simp

end

/-! ### The statement -/

section
variable {e : FutEntry} {h : ℕ}

theorem touchAnswer_resolved (h2 : e.state = 2) : touchAnswer h e = .data (2 * 2 ^ 64 + e.value) := if_pos h2
theorem touchAnswer_faulted (h3 : e.state = 3) : touchAnswer h e = .fault 0x102 h e.cause :=
  (if_neg (by simp [h3, fRESOLVED])).trans (if_pos h3)
theorem touchAnswer_cancelled (h4 : e.state = 4) : touchAnswer h e = .fault 0x103 h 0 :=
  (if_neg (by simp [h4, fRESOLVED])).trans (if_neg (by simp [h4, fFAULTED]))

theorem ttouchAnswer_pending (h1 : e.state = 1) : ttouchAnswer e = .data (1 * 2 ^ 64) := by
  simp [ttouchAnswer, h1, fRESOLVED, fFAULTED]
theorem ttouchAnswer_resolved (h2 : e.state = 2) : ttouchAnswer e = .data (2 * 2 ^ 64 + e.value) := by
  simp [ttouchAnswer, h2, fRESOLVED]
theorem ttouchAnswer_faulted (h3 : e.state = 3) : ttouchAnswer e = .data (3 * 2 ^ 64 + e.cause) := by
  simp [ttouchAnswer, h3, fRESOLVED, fFAULTED]
theorem ttouchAnswer_cancelled (h4 : e.state = 4) : ttouchAnswer e = .data (4 * 2 ^ 64) := by
  simp [ttouchAnswer, h4, fRESOLVED, fFAULTED]

/-- FSTAT's word of an entry in its table (R182). -/
theorem statWord_table (e : FutEntry) : statWord .table e = e.waiters.length * 2 ^ 32 + boolNat e.tied * 2 ^ 17 +
    (if e.state = 3 then e.cause else 0) * 2 ^ 5 + boolNat e.dcan * 2 ^ 4 + boolNat e.cons * 2 ^ 3 + e.state := by
  have hbool (b : Bool) : boolNat b = b.toNat := by cases b <;> rfl
  simp only [statWord, hbool, fFAULTED, reduceIte, Nat.zero_mul, Nat.add_zero]
  rfl

end

/-- Settles O38: what the operation does to the entry is said by `Homed.futApply_touch` and its companions, how a cancellation goes on by
`Homed.cancelHome_tied` and its companions, and what a scheduler's reply does by `State.cancelTry`'s three cases. -/
theorem futureAtHome : Obligations.FutureAtHome := by
  unfold Obligations.FutureAtHome
  intro s id core slot e q cl hentry hlive hgen hpart hcore hslot hpkg halias hids hroot
  extract_lets h go gives ended seen mine _ taken
  have hhandle : mkHandle s.pkgId core slot e.gen e.part = h := mkHandle_eq s.pkgId core slot e.gen e.part
  have hatPkg : hPkg h = s.pkgId := hhandle ▸ hPkg_mkHandle hpkg hcore hslot hgen hpart
  have hatCore : hCore h = core := hhandle ▸ hCore_mkHandle s.pkgId hcore hslot hgen hpart
  have hatSlot : hSlot h = slot := hhandle ▸ hSlot_mkHandle s.pkgId core hslot hgen hpart
  have hatGen : hGen h = e.gen := hhandle ▸ hGen_mkHandle s.pkgId core slot hgen hpart
  have hatPart : hPart h = e.part := hhandle ▸ hPart_mkHandle s.pkgId core slot e.gen hpart
  have homed (hbad : e.bad = false) : Homed s h core slot e := ⟨hatCore, hatSlot, hatGen, hentry, hlive, hbad⟩
  refine ⟨?request, ?reply⟩
  case request =>
    intro hflight hq hback
    have hgo : go = .next (s.guarded id (core / 8) q.part (.fut q) (s.futAt id q)) := by
      have hreq := futureRequest_of_fut hflight (by rw [hq, hatPkg])
      rw [hq, hatCore] at hreq
      exact congrArg Host.Outcome.next hreq
    have refused (a : Answer) : s.answer id q.back q.handle a = s.inPlace id q.back h a := hq ▸ answer_eq_inPlace halias hback id q.handle a
    have delivered (hfence : mine.fenced = false) (hguard : s.guard (core / 8) q.part = .deliver) : go = .next (s.futAt id q) := by
      rw [hgo, State.guarded, hguard]
      exact congrArg Host.Outcome.next (if_neg (ne_true_of_eq_false hfence))
    have answers (hfence : mine.fenced = false) (hguard : s.guard (core / 8) q.part = .deliver) {t : State} {a : Answer}
        (hop : ∀ tree, q.op ≠ .cancel tree) (happly : s.futApply h q.op = (t, a)) (ht : t.aliases = []) : gives t a := by
      rw [← hq] at happly
      simp only [gives, delivered hfence hguard, futAt_of_apply hop hback ht happly, hq]
    refine ⟨fun hfence => ?fenced, fun hfence hguard => ?refused, fun hfence hguard hbad hop => ?bad, fun hfence hguard hbad => ?sound⟩
    case fenced =>
      simp only [gives, hgo, ← refused]
      exact congrArg Host.Outcome.next ((if_pos hfence).trans (by rw [← hq]; rfl))
    case refused =>
      simp only [gives, hgo, ← refused]
      rw [State.guarded, hguard]
      exact congrArg Host.Outcome.next ((if_neg (ne_true_of_eq_false hfence)).trans (by rw [← hq]; rfl))
    case bad => exact answers hfence hguard hop (futApply_bad hatCore hatSlot hatGen hentry hlive hbad q.op) halias
    have hh := homed hbad
    replace answers {t : State} {a : Answer} := @answers hfence hguard t a
    replace delivered := delivered hfence hguard
    refine ⟨fun tok hop => ?touch, fun hop => ?ttouch, fun hop => ?stat, fun st v hop => ?finish, fun l count done hop => ?join,
      fun hop => ?free, fun tree hop hnone => ?cancel⟩
    case touch =>
      have hno (tree : Bool) : q.op ≠ .cancel tree := by simp [hop]
      have happly := hh.futApply_touch tok
      rw [← hop] at happly
      refine ⟨fun h1 w hw => ?_, fun h1 hw => ?_, fun h2 => ?_, fun h3 => ?_, fun h4 => ?_⟩
      · rw [if_pos h1, hw] at happly
        exact answers hno happly halias
      · rw [if_pos h1, hw] at happly
        exact answers hno happly halias
      · rw [if_neg (by omega), touchAnswer_resolved h2] at happly
        exact answers hno happly halias
      · rw [if_neg (by omega), touchAnswer_faulted h3] at happly
        exact answers hno happly halias
      · rw [if_neg (by omega), touchAnswer_cancelled h4] at happly
        exact answers hno happly halias
    case ttouch =>
      have hno (tree : Bool) : q.op ≠ .cancel tree := by simp [hop]
      have happly := hh.futApply_ttouch
      rw [← hop] at happly
      refine ⟨fun h1 => ?_, fun h2 => ?_, fun h3 => ?_, fun h4 => ?_⟩
      · rw [if_pos h1, ttouchAnswer_pending h1] at happly
        exact answers hno happly halias
      · rw [if_neg (by omega), ttouchAnswer_resolved h2] at happly
        exact answers hno happly halias
      · rw [if_neg (by omega), ttouchAnswer_faulted h3] at happly
        exact answers hno happly halias
      · rw [if_neg (by omega), ttouchAnswer_cancelled h4] at happly
        exact answers hno happly halias
    case stat =>
      refine answers (by simp [hop]) (hop ▸ hh.futApply_stat.trans ?_) halias
      rw [statWord_table]
    case finish =>
      have hno (tree : Bool) : q.op ≠ .cancel tree := by simp [hop]
      have hended {st v value cause : ℕ} (hop : q.op = .finish st v) (h1 : e.state = 1) (hv : st = 2 ∨ st = 3 ∨ v = 0)
          (hvalue : (if st = 2 then v else 0) = value) (hcause : (if st = 3 then v else 0) = cause) :
          gives (ended s e st value cause) (.data 1) := by
        have happly := hh.futApply_finish (hh.finishAt_pending h1 hroot hhandle hv)
        rw [← hop, hvalue, hcause] at happly
        exact answers hno happly halias
      refine ⟨fun h1 => ⟨fun hst => ?_, fun hst => ?_, fun hst hv => ?_⟩, fun h2 => ?_⟩
      · subst hst
        exact hended hop h1 (.inl rfl) rfl rfl
      · subst hst
        exact hended hop h1 (.inr (.inl rfl)) rfl rfl
      · subst hst hv
        exact hended hop h1 (.inr (.inr rfl)) rfl rfl
      · have happly := hh.futApply_finish (hh.finishAt_final h2 st v)
        rw [← hop] at happly
        exact answers hno happly halias
    case join =>
      have hno (tree : Bool) : q.op ≠ .cancel tree := by simp [hop]
      have happly := hh.futApply_join l count done
      rw [← hop] at happly
      refine ⟨fun h1 hloose hfree => ?_, fun hnot => ?_⟩
      · have htaken : s.joinTaken h = false := by
          rw [State.joinTaken, List.any_eq_false]
          intro x hx
          simp [hfree x hx]
        rw [if_pos ⟨h1, by simp [hloose], by simp [htaken]⟩, hatPart] at happly
        exact answers hno happly halias
      · rw [if_neg fun ⟨h1, hloose, _⟩ => hnot.elim (fun hn => hn h1) fun ht => by simp [ht] at hloose] at happly
        exact answers hno happly halias
    case free =>
      have hno (tree : Bool) : q.op ≠ .cancel tree := by simp [hop]
      have happly := hh.futApply_free
      rw [← hop] at happly
      refine ⟨fun huse => ?_, fun h2 hw => ?_⟩
      · rw [if_pos huse] at happly
        exact answers hno happly halias
      · rw [if_neg fun hor => hor.elim (by omega) (fun hne => hne hw)] at happly
        exact answers hno happly halias
    case cancel =>
      have hcancel : go = .next (s.cancelHome id q tree) := by
        rw [delivered, State.futAt, hop]
      have hhq : Homed s q.handle core slot e := hq ▸ hh
      refine ⟨fun h2 => ?_, fun h1 hloose => ?_, fun h1 htied => ?_⟩
      · simp only [gives, hcancel, hhq.cancelHome_final tree halias hnone hback h2, hq]
      · simp only [gives, hcancel, hhq.cancelHome_loose tree halias hnone hback h1 hloose hroot (hhandle.trans hq.symm), hq]
        rfl
      · rw [hcancel, hhq.cancelHome_tied tree hnone hback h1 htied, hq]
  case reply =>
    intro code root back tree hflight hahead hstate hbad hback hcancels hwork hid hlt
    extract_lets e' reply answered told
    have hh : Homed taken h core slot e := ⟨hatCore, hatSlot, hatGen, hentry, hlive, hbad⟩
    have applied {t : State} {c : ℕ} {more : Bool} (htry : taken.cancelTry h code tree = .ok (t, c, more)) : go = .next
        ((if more then t.launchFlight (.treeCancel h (cl / 512) (cl % 512) root) else t).cancelCode root c).settleCancels := by
      have hreq := (futureRequest_of_cancelRep hflight hatPkg hahead).trans (cancelApply_eq htry)
      exact congrArg Host.Outcome.next hreq
    have answers {t : State} (halias : t.aliases = []) (hcancels : t.cancels = [(root, back, none)])
        (hflights : ∀ f ∈ t.flights, f ∈ taken.flights ∨ ∃ i w h st v, f = (i, .wake w h st v) ∧ i ≠ root) :
        (t.cancelCode root code).settleCancels = answered t := by
      refine settle_answers halias hback (fun f hf => ?_) (fun f hf => ?_) hcancels
      · rcases hflights f hf with htaken | ⟨i, w, h, st, v, rfl, hi⟩
        · exact hid f (List.mem_filter.1 htaken).1
        · exact hi
      · rcases hflights f hf with htaken | ⟨i, w, h, st, v, rfl, hi⟩
        · obtain ⟨hs, hne⟩ := List.mem_filter.1 htaken
          exact hwork f hs (by simpa using hne)
        · rfl
    have tells {t : State} (halias : t.aliases = []) (hcancels : t.cancels = [(root, back, none)])
        (hflights : ∀ f ∈ t.flights, f ∈ taken.flights ∨ ∃ i w h st v, f = (i, .wake w h st v) ∧ i ≠ root) :
        ((if tree then t.launchFlight (.treeCancel h (cl / 512) (cl % 512) root) else t).cancelCode root code).settleCancels = told t := by
      by_cases htree : tree = true
      · simp only [told, if_pos htree]
        exact settle_waits hcancels (cl / 512) (cl % 512)
      · simp only [told, if_neg htree]
        exact answers halias hcancels hflights
    refine ⟨fun h0 => ?absent, fun h3 => ?running, fun h12 => ?removed⟩
    case absent =>
      subst h0
      rw [applied hh.cancelTry_absent]
      exact congrArg Host.Outcome.next (answers halias hcancels fun f hf => .inl hf)
    case running =>
      subst h3
      rw [applied hh.cancelTry_running]
      cases tree with
      | false => exact congrArg Host.Outcome.next (tells halias hcancels fun f hf => .inl hf)
      | true => exact congrArg Host.Outcome.next (tells halias hcancels fun f hf => .inl hf)
    case removed =>
      rw [applied (hh.cancelTry_removed h12 hstate hroot hhandle)]
      refine congrArg Host.Outcome.next (tells halias hcancels fun f hf => ?_)
      refine (List.mem_append.1 hf).imp_right fun hwake => ?_
      obtain ⟨w, -, rfl⟩ := List.mem_map.1 hwake
      exact ⟨_, _, _, _, _, rfl, by change s.nextId + w.2 ≠ root; omega⟩

end Sys2Proof.Machine

/-! # SPAWN, SPAWNT and CALLAT (O25) -/

namespace Sys2Proof.Machine

/-! ### The cluster of the lowest hint (R200) -/

theorem mem_insertNat {a x : ℕ} {xs : List ℕ} : x ∈ insertNat a xs ↔ x = a ∨ x ∈ xs := by
  simp only [insertNat, List.mem_append, List.mem_filter, List.mem_singleton, decide_eq_true_eq]
  have htri := Nat.lt_trichotomy x a
  tauto

theorem pairwise_insertNat {xs : List ℕ} (a : ℕ) (h : xs.Pairwise (· < ·)) : (insertNat a xs).Pairwise (· < ·) := by
  simp only [insertNat, List.pairwise_append, List.pairwise_singleton, List.mem_append, List.mem_filter, List.mem_singleton,
    decide_eq_true_eq, true_and]
  refine ⟨⟨h.filter _, fun x hx y hy => hy ▸ hx.2⟩, h.filter _, ?_⟩
  rintro x (hx | rfl) y hy
  · exact hx.2.trans hy.2
  · exact hy.2

theorem mem_rising {p : Part} {c : ℕ} : c ∈ p.rising ↔ c ∈ p.clusters := by
  have key (l acc : List ℕ) : c ∈ l.foldl (fun l c => insertNat c l) acc ↔ c ∈ acc ∨ c ∈ l := by
    induction l generalizing acc with
    | nil => simp
    | cons a l ih =>
      rw [List.foldl_cons, ih, mem_insertNat, List.mem_cons]
      tauto
  exact (key p.clusters []).trans (by simp)

theorem pairwise_rising (p : Part) : p.rising.Pairwise (· < ·) := by
  have key (l acc : List ℕ) (h : acc.Pairwise (· < ·)) : (l.foldl (fun l c => insertNat c l) acc).Pairwise (· < ·) := by
    induction l generalizing acc with
    | nil => exact h
    | cons a l ih => exact ih _ (pairwise_insertNat a h)
  exact key p.clusters [] .nil

theorem leastOf_mem {f : ℕ → ℕ} {l : List ℕ} {c : ℕ} (h : leastOf f l = some c) : c ∈ l := by
  induction l with
  | nil => cases h
  | cons a l ih =>
    rw [leastOf] at h
    split at h
    · obtain rfl := Option.some.inj h
      exact List.mem_cons_self
    · next d hd =>
      split at h
      · exact List.mem_cons_of_mem a (ih (hd.trans h))
      · obtain rfl := Option.some.inj h
        exact List.mem_cons_self

/-- Of clusters in rising order, the first of those with the lowest hint. -/
theorem leastOf_eq {f : ℕ → ℕ} {l : List ℕ} {c : ℕ} (hsorted : l.Pairwise (· < ·)) (hmem : c ∈ l)
    (hleast : ∀ d ∈ l, f c < f d ∨ (f c = f d ∧ c ≤ d)) : leastOf f l = some c := by
  induction l with
  | nil => cases hmem
  | cons a l ih =>
    obtain ⟨hhead, htail⟩ := List.pairwise_cons.1 hsorted
    have htails (d : ℕ) (hd : d ∈ l) := hleast d (List.mem_cons_of_mem a hd)
    rcases List.mem_cons.1 hmem with rfl | hin
    · rw [leastOf]
      cases hrest : leastOf f l with
      | none => rfl
      | some d =>
        have hno : ¬ f d < f c := by
          have := htails d (leastOf_mem hrest)
          omega
        simp only [if_neg hno]
    · have hlt : f c < f a := by
        have := hleast a List.mem_cons_self
        have := hhead c hin
        omega
      rw [leastOf, ih htail hin htails]
      simp only [if_pos hlt]

section
variable {s : State} {cl elig : ℕ} {twin : Bool}

/-- `.HERE` is the core's own cluster, and so is `.QUAD`, with the cores of the quad alone unless both members of a pair are to run. -/
theorem placeTask_quad : s.placeTask .quad twin =
    (s.cur.core / 8, if twin then 0xFF else if s.cur.core % 8 < 4 then 0x0F else 0xF0) := rfl

theorem leastOf_rising {f : ℕ → ℕ} {p : Part} (keep : ℕ → Bool) (hmem : cl ∈ p.clusters.filter keep)
    (hleast : ∀ c ∈ p.clusters.filter keep, f cl < f c ∨ (f cl = f c ∧ cl ≤ c)) : leastOf f (p.rising.filter keep) = some cl := by
  have hiff (c : ℕ) : c ∈ p.rising.filter keep ↔ c ∈ p.clusters.filter keep := by
    rw [List.mem_filter, List.mem_filter, mem_rising]
  exact leastOf_eq ((pairwise_rising p).filter keep) ((hiff cl).2 hmem) fun c hc => hleast c ((hiff c).1 hc)

theorem placeTask_die (h : leastOf (fun c => (s.cluster c).hintDie)
    ((s.part (s.partOf s.cur.core)).rising.filter (fun c => c / 128 == s.cur.core / 8 / 128)) = some cl) :
    s.placeTask .die twin = (cl, 0xFF) := by
  simp only [State.placeTask, clusterOf, h, Option.getD_some]

theorem placeTask_any (h : leastOf (fun c => (s.cluster c).hintPkg) (s.part (s.partOf s.cur.core)).rising = some cl) :
    s.placeTask .any twin = (cl, 0xFF) := by
  simp only [State.placeTask, h, Option.getD_some]

end

/-! ### The new future (R171) -/

/-- The entry of a future that a slot's generation makes (R169, R171). -/
def State.newEntry (s : State) (core slot part value parent : ℕ) (tied : Bool) : FutEntry :=
  { state := fPENDING, value := value, gen := (s.fut core slot).gen, part := part, cause := 0, cons := false, dcan := false,
    tied := tied, parent := parent, waiters := [], bad := false }

section
variable {s : State} {core slot part value parent : ℕ} {tied : Bool}

/-- The lowest FREE slot is taken. -/
theorem futNew_of_free (hlimit : slot < (s.core core).ftLimit) (hfree : (s.fut core slot).state = 0)
    (hlow : ∀ j, j < slot → (s.fut core j).state ≠ 0) : s.futNew core part value parent tied =
      .ok (s.setFut core slot (s.newEntry core slot part value parent tied), mkHandle s.pkgId core slot (s.fut core slot).gen part) := by
  have hfind : (List.range (s.core core).ftLimit).find? (fun i => (s.fut core i).state == fFREE) = some slot := by
    rw [List.find?_range_eq_some]
    exact ⟨by simp [hfree, fFREE], List.mem_range.2 hlimit, fun j hj => by simpa [fFREE] using hlow j hj⟩
  rw [State.futNew, State.futSlot]
  simp only [hfind]
  rfl

/-- With no FREE slot, and no spill area to make room in, there is none (R171). -/
theorem futNew_of_full (hfull : ∀ j, j < (s.core core).ftLimit → (s.fut core j).state ≠ 0) (hspill : (s.core core).ftSpEnt = 0) :
    s.futNew core part value parent tied = .error (cFUT_EXHAUSTED, 0, 0) := by
  have hfind : (List.range (s.core core).ftLimit).find? (fun i => (s.fut core i).state == fFREE) = none := by
    rw [List.find?_range_eq_none]
    exact fun j hj => by simpa [fFREE] using hfull j hj
  have hslot : s.futSlot core = .error (cFUT_EXHAUSTED, 0, 0) := by
    rw [State.futSlot]
    simp only [hfind, hspill, if_true]
    split <;> rfl
  rw [State.futNew, hslot]

end

/-- A change of what a core holds beside its contexts. -/
theorem sameWorkspaces_setCore (s : State) (n : ℕ) {c : CoreState} (hc : c.ctxs = (s.core n).ctxs) : SameWorkspaces s (s.setCore n c) :=
  ⟨rfl, rfl, fun core ctx => by
    rw [State.ctxAt, core_setCore]
    split_ifs with hn
    · rw [hc, hn]; rfl
    · rfl⟩

theorem sameWorkspaces_setFut (s : State) (core slot : ℕ) (e : FutEntry) : SameWorkspaces s (s.setFut core slot e) :=
  sameWorkspaces_setCore s core rfl

theorem sameWorkspaces_sendOut (s : State) (f : Flight) (fut : Option (ℕ × ℕ)) : SameWorkspaces s (s.sendOut f fut) := by
  unfold State.sendOut
  split
  · split
    · exact sameWorkspaces_setCore s _ rfl
    · exact sameWorkspaces_launchFlight s f
  · exact sameWorkspaces_launchFlight s f

/-- An instruction that writes one general register, over a state with the same workspaces. -/
theorem SameWorkspaces.setGN_completes {s t : State} (h : SameWorkspaces s t) (d : GReg) (v : ℕ) :
    CompletesOver s t (.next (t.setGN d v).advance) (s.gRange d) (fun u => u.gN d = if d = 0 then 0 else v % 2 ^ 64) := by
  have hb := setGN_bytesOnly t d v
  rw [← h.gRange]
  refine h.completesOver hb (gRange_apart t d) fun u hu => ?_
  rw [gN_onRanges hb hu d, gN_setGN]

/-! ### The gate, and the common steps (R178, R184, R208) -/

/-- The end of a `.REL` wait that finds nothing outstanding and raises nothing (R120, R132). -/
theorem relGate_of_releaseDone {s : State} (h : s.releaseDone) (k : Host.Outcome State Fault Refusal) : s.relGate k = k :=
  orderGate_of_goesOn (rel := true) (w := ⟨false, false⟩) ⟨by simp [State.mustWait, h.1], .inl h.2⟩ k

section
variable {s : State} {a : GReg} {k : Host.Outcome State Fault Refusal}

theorem spawnGate_of_spent {c : Activation} (hctx : s.cur.ctx = 1) (hact : s.me.act = some c) (hsends : 4 ≤ c.sends) :
    s.spawnGate a k = .next (s.takeTrap 0x141 0 0) :=
  if_pos (by simp [State.sendsSpent, hact, hctx, hsends])

/-- What a spawn finds when its wait is over and its activation may still send. -/
def State.spawnReady (s : State) : Prop :=
  s.quietAt s.cur.core s.cur.ctx = true ∧ s.raiseLogged (coversOf true ⟨false, false⟩) = none ∧
    (s.cur.ctx = 1 → ∃ c : Activation, s.me.act = some c ∧ c.sends < 4)

theorem spawnGate_of_ready (h : s.spawnReady) : s.spawnGate a k =
    if s.status 9 9 = 1 then .next (s.takeTrap 0x106 0 0)
    else if s.gN a % 4 ≠ 0 then .next (s.takeTrap 0x004 (s.gN a) 0) else k := by
  obtain ⟨hquiet, hlog, hact⟩ := h
  have hsends : s.sendsSpent = false := by
    unfold State.sendsSpent
    split
    · next c hc =>
      by_cases hctx : s.cur.ctx = 1
      · obtain ⟨d, hd, hlt⟩ := hact hctx
        obtain rfl : c = d := Option.some.inj (hc.symm.trans hd)
        simp only [hctx, beq_self_eq_true, Bool.true_and, decide_eq_false_iff_not]
        omega
      · simp [hctx]
    · rfl
  exact (if_neg (ne_true_of_eq_false hsends)).trans (relGate_of_releaseDone ⟨hquiet, hlog⟩ _)

theorem spawnGate_passes (h : s.spawnReady) (hcan : bits (s.cx cxSTATUS) 9 9 = 0) (halign : s.gN a % 4 = 0) : s.spawnGate a k = k := by
  have hno : ¬ s.status 9 9 = 1 := by
    rw [State.status, hcan]
    decide
  rw [spawnGate_of_ready h, if_neg hno, if_neg (not_not_intro halign)]

end

/-- The record that a spawn sends (R178, R195). -/
def State.spawnRecord (s : State) (a b : GReg) (pri handle : ℕ) (twin rst : Bool) (tiles : List ℕ) (elig : ℕ) : TaskRec :=
  { pc := s.gN a, pri := pri, handle := handle, twin := twin, rst := rst, args := (List.range 4).map (fun i => s.gN (regPlus b i)),
    tiles := tiles, elig := elig, pair := none }

section
variable {s : State} {d a b : GReg} {pri pkg cl elig slot : ℕ} {twin rst : Bool} {tiles : List ℕ}

theorem spawnTo_of_absent (hpkg : pkg = s.pkgId) (hfar : ¬ s.reaches (s.cur.core / 8) cl = true) :
    s.spawnTo d a b pri twin rst tiles pkg cl elig = s.takeTrap 0x082 0 0 :=
  if_pos ⟨hpkg, by simpa [clusterOf] using hfar⟩

theorem spawnTo_of_full (hnear : pkg = s.pkgId → s.reaches (s.cur.core / 8) cl = true)
    (hfull : ∀ j, j < s.me.ftLimit → (s.fut s.cur.core j).state ≠ 0) (hspill : s.me.ftSpEnt = 0) :
    s.spawnTo d a b pri twin rst tiles pkg cl elig = s.takeTrap 0x104 0 0 := by
  have hreach : ¬ (pkg = s.pkgId ∧ (!s.reaches (clusterOf s.cur.core) cl) = true) := fun ⟨hp, hno⟩ => by
    simp [clusterOf, hnear hp] at hno
  rw [State.spawnTo]
  simp only [if_neg hreach, futNew_of_full hfull hspill]
  rfl

/-- The package with the new future of a task that is to run on a cluster (R178). -/
def State.spawned (s : State) (slot pkg cl : ℕ) : State :=
  s.setFut s.cur.core slot (s.newEntry s.cur.core slot (s.partOf s.cur.core) (taskPlace pkg cl) (s.cx cxFUT) true)

/-- The handle of that future. -/
def State.spawnHandle (s : State) (slot : ℕ) : ℕ :=
  mkHandle s.pkgId s.cur.core slot (s.fut s.cur.core slot).gen (s.partOf s.cur.core)

/-- A slot is the lowest FREE one of the executing core's table. -/
def State.takesSlot (s : State) (slot : ℕ) : Prop :=
  slot < s.me.ftLimit ∧ (s.fut s.cur.core slot).state = 0 ∧ ∀ j, j < slot → (s.fut s.cur.core j).state ≠ 0

theorem spawnTo_of_free (hnear : pkg = s.pkgId → s.reaches (s.cur.core / 8) cl = true) (hfree : s.takesSlot slot) :
    let h := s.spawnHandle slot
    let f := Flight.record s.cur.core pkg cl (s.spawnRecord a b pri h twin rst tiles elig)
    s.spawnTo d a b pri twin rst tiles pkg cl elig =
      if pkg ≠ s.pkgId ∧ s.cur.ctx ≠ 1 then ((s.spawned slot pkg cl).launchFlight f).stall (.reply s.nextId (.spawned d.val h) s.cur)
      else (((s.spawned slot pkg cl).sendOut f (some (hSlot h, hGen h))).setGN d h).advance := by
  obtain ⟨hlimit, hstate, hlow⟩ := hfree
  have hreach : ¬ (pkg = s.pkgId ∧ (!s.reaches (clusterOf s.cur.core) cl) = true) := fun ⟨hp, hno⟩ => by
    simp [clusterOf, hnear hp] at hno
  rw [State.spawnTo]
  simp only [if_neg hreach, futNew_of_free hlimit hstate hlow]
  rfl

end

/-! ### The statement -/

/-- A new future is no part of an activation (R208). -/
theorem spawned_act (s : State) (slot pkg cl : ℕ) : (s.spawned slot pkg cl).me.act = s.me.act := by
  change ((s.spawned slot pkg cl).core s.cur.core).act = _
  rw [State.spawned, State.setFut, core_setCore, if_pos rfl]
  rfl

theorem taskPlace_eq (pkg cl : ℕ) : taskPlace pkg cl = 2 ^ 63 + pkg * 2 ^ 22 + cl / 128 * 2 ^ 20 + cl % 128 * 2 ^ 13 := by
  simp only [taskPlace, mkToken]
  omega

theorem spawnRules : Claims.SpawnRules := by
  intro s d a b plc pri twin rst slot cl elig
  extract_lets core part mine least placed ready e free made handle arg record sent spawns all target tpkg tcl near
  have hmade (pkg cl : ℕ) : made pkg cl = s.spawned slot pkg cl := by
    simp only [State.spawned, State.newEntry, taskPlace_eq]
    rfl
  have hhandle : s.spawnHandle slot = handle := mkHandle_eq _ _ _ _ _
  have hplace (h : placed) : s.placeTask plc twin = (cl, elig) := by
    cases hplc : plc with
    | here =>
      simp only [placed, hplc] at h
      rw [h.1, h.2]
      rfl
    | quad =>
      simp only [placed, hplc] at h
      rw [placeTask_quad, h.1, h.2]
    | die =>
      simp only [placed, hplc, least] at h
      obtain ⟨⟨hmem, hleast⟩, rfl⟩ := h
      have hdie : s.cur.core / 8 / 128 = core / 1024 := by simp only [core]; omega
      refine placeTask_die ?_
      rw [hdie]
      exact leastOf_rising _ hmem hleast
    | any =>
      simp only [placed, hplc, least] at h
      obtain ⟨⟨hmem, hleast⟩, rfl⟩ := h
      exact placeTask_any (leastOf_eq (pairwise_rising _) (mem_rising.2 hmem) fun c hc => hleast c (mem_rising.1 hc))
  have hsent (pkg cl : ℕ) (f : Flight) :
      sent (made pkg cl) f = (s.spawned slot pkg cl).sendOut f (some (hSlot handle, hGen handle)) := by
    have hact : (s.spawned slot pkg cl).me.act = s.me.act := spawned_act s slot pkg cl
    rw [hmade, State.sendOut, hact]
    cases hme : s.me.act with
    | none =>
      simp only [sent, hme]
      exact (ite_self _).symm
    | some c =>
      simp only [sent, hme]
      rfl
  have hspawns {i : Instr} {pkg cl : ℕ} {r : TaskRec} (hi : exec i s =
      .next (((s.spawned slot pkg cl).sendOut (.record core pkg cl r) (some (hSlot handle, hGen handle))).setGN d handle).advance) :
      spawns i pkg cl r := by
    simp only [spawns, hi, hsent]
    exact ((sameWorkspaces_setFut s _ _ _).trans (sameWorkspaces_sendOut _ _ _)).setGN_completes d handle
  have hgate (i : Instr) (hi : i ∈ all) : ∃ k, exec i s = s.spawnGate a k := by
    simp only [all, List.mem_cons, List.not_mem_nil, or_false] at hi
    obtain rfl | rfl | rfl := hi <;> exact ⟨_, rfl⟩
  have hready (h : ready) : s.spawnReady := h
  refine ⟨?cancelled, ?misaligned, ?spent, ?goes⟩
  case cancelled =>
    intro i hi h hcan
    obtain ⟨k, hk⟩ := hgate i hi
    rw [hk, spawnGate_of_ready (hready h)]
    exact if_pos hcan
  case misaligned =>
    intro i hi h hcan halign
    obtain ⟨k, hk⟩ := hgate i hi
    have hno : ¬ s.status 9 9 = 1 := by
      rw [State.status, hcan]
      decide
    rw [hk, spawnGate_of_ready (hready h), if_neg hno, if_pos halign]
  case spent =>
    intro i hi c hctx hact hsends
    obtain ⟨k, hk⟩ := hgate i hi
    rw [hk, spawnGate_of_spent hctx hact hsends]
  case goes =>
    intro h hcan halign
    replace hready := hready h
    have hfree (h : free) : s.takesSlot slot := h
    have hspawn (h : placed) : exec (.spawn d a b plc pri twin rst) s =
        .next (s.spawnTo d a b pri.val twin rst [] s.pkgId cl elig) := by
      have hexec : exec (.spawn d a b plc pri twin rst) s =
          .next (s.spawnTo d a b pri.val twin rst [] s.pkgId (s.placeTask plc twin).1 (s.placeTask plc twin).2) :=
        spawnGate_passes hready hcan halign
      rw [hexec, hplace h]
    have hspawnt (h : placed) : exec (.spawnt d a b plc pri twin rst) s =
        .next (s.spawnTo d a b pri.val twin rst [arg 4, arg 5, arg 6, arg 7] s.pkgId cl elig) := by
      have hexec : exec (.spawnt d a b plc pri twin rst) s =
          .next (s.spawnTo d a b pri.val twin rst [arg 4, arg 5, arg 6, arg 7] s.pkgId (s.placeTask plc twin).1 (s.placeTask plc twin).2) :=
        spawnGate_passes hready hcan halign
      rw [hexec, hplace h]
    have hcallat : exec (.callat d a b pri) s =
        if 2 ^ 22 ≤ target then s.trap cSPAWN_TARGET 0 0
        else if tpkg = s.pkgId then
          (if s.partOfCluster tcl ≠ some part then s.trap cSPAWN_TARGET 0 0
           else .next (s.spawnTo d a b pri.val false false [] tpkg tcl (2 ^ (target % 4096 % 8))))
        else if !s.routeOpen part tpkg then s.trap cNEAR_ABSENT 0 0
        else if s.routeClass tpkg ≠ 1 then s.trap cATOMIC_PATH 0 0
        else .next (s.spawnTo d a b pri.val false false [] tpkg tcl (2 ^ (target % 4096 % 8))) := by
      have hlow : bits (s.gN (regPlus b 4)) 11 0 = s.gN (regPlus b 4) % 4096 := by simp [bits]
      have hexec : exec (.callat d a b pri) s = _ := spawnGate_passes hready hcan halign
      simp only [hlow] at hexec
      exact hexec
    have helig : target % 4096 % 8 = target % 8 := by omega
    have sends {i : Instr} {twin rst : Bool} {tiles : List ℕ} {pkg cl elig : ℕ}
        (hi : exec i s = .next (s.spawnTo d a b pri.val twin rst tiles pkg cl elig))
        (hnear : pkg = s.pkgId → s.reaches (s.cur.core / 8) cl = true) (hfree : free) (hhere : pkg = s.pkgId ∨ s.cur.ctx = 1) :
        spawns i pkg cl (record twin rst tiles elig) := by
      refine hspawns (hi.trans ?_)
      rw [spawnTo_of_free hnear hfree, hhandle, if_neg (by tauto)]
      rfl
    refine ⟨fun hp hfar i hi => ?_, fun hf hp hn => ⟨sends (hspawn hp) (fun _ => hn) hf (.inl rfl), sends (hspawnt hp) (fun _ => hn) hf (.inl rfl)⟩,
      fun hbig => ?_, fun hin hhome hother => ?_, fun hin hhome hmine hfar => ?_, fun hin haway hclosed => ?_, fun hin haway hopen hclass => ?_,
      fun hf hin haway hopen hclass hctx => ?_, fun hf hin hhome hmine hn => ?_, fun hf hin haway hopen hclass hctx => ?_,
      fun hfull hspill hp hn => ?_⟩
    · simp only [List.mem_cons, List.not_mem_nil, or_false] at hi
      obtain rfl | rfl := hi
      · rw [hspawn hp, spawnTo_of_absent rfl hfar]
      · rw [hspawnt hp, spawnTo_of_absent rfl hfar]
    · exact hcallat.trans (if_pos hbig)
    · rw [hcallat, if_neg (by omega), if_pos hhome, if_pos hother]
      rfl
    · rw [hcallat, if_neg (by omega), if_pos hhome, if_neg (not_not_intro hmine), spawnTo_of_absent hhome hfar]
    · rw [hcallat, if_neg (by omega), if_neg haway, if_pos (by simp [hclosed])]
      rfl
    · rw [hcallat, if_neg (by omega), if_neg haway, if_neg (by simp [hopen]), if_pos hclass]
      rfl
    · have hexec := hcallat
      rw [if_neg (by omega), if_neg haway, if_neg (by simp [hopen]), if_neg (not_not_intro hclass), helig] at hexec
      exact sends hexec (fun h => absurd h haway) hf (.inr hctx)
    · have hexec := hcallat
      rw [if_neg (by omega), if_pos hhome, if_neg (not_not_intro hmine), helig] at hexec
      exact sends hexec (fun _ => hn) hf (.inl hhome)
    · rw [hcallat, if_neg (by omega), if_neg haway, if_neg (by simp [hopen]), if_neg (not_not_intro hclass), helig,
        spawnTo_of_free (fun h => absurd h haway) hf, if_pos ⟨haway, hctx⟩, hhandle, hmade]
      exact ((sameWorkspaces_setFut s _ _ _).trans (sameWorkspaces_launchFlight _ _)).stalls _
    · rw [hspawn hp, spawnTo_of_full (fun _ => hn) hfull hspill]

end Sys2Proof.Machine

/-! # CHKC, YIELD and TERM (O25) -/

namespace Sys2Proof.Machine

/-! ### A task that may leave its context (R30, R264) -/

section
variable {s : State} {core ctx pc : ℕ}

theorem leaveGate_leaves (hquiet : s.quietAt core ctx = true) (hsag : s.hasSag core ctx = false) : s.leaveGate core ctx pc = (s, true) := by
  rw [State.leaveGate]
  simp only [hquiet, hsag]
  exact if_pos (.inr rfl)

/-- A wait for the counters alone: nothing is left to flush, or what there was is being flushed. -/
theorem leaveGate_waits (hbusy : s.quietAt core ctx = false) (hsag : s.hasSag core ctx = false ∨ (s.ctxAt core ctx).draining = true) :
    s.leaveGate core ctx pc = (s.setCtxAt core ctx { s.ctxAt core ctx with draining := true }, false) := by
  have hflushed : ((s.ctxAt core ctx).draining = true ∧ ¬ (s.quietAt core ctx = true ∧ s.hasOwnSag core ctx = true)) ∨
      (!s.hasSag core ctx) = true :=
    hsag.symm.imp (fun hd => ⟨hd, by simp [hbusy]⟩) (fun hn => by simp [hn])
  refine (if_pos hflushed).trans ?_
  rw [hbusy]
  rfl

end

theorem sameWorkspaces_setMyCtx (s : State) {c : Ctx} (hwp : c.wp = s.myCtx.wp) : SameWorkspaces s (s.setMyCtx c) :=
  ⟨rfl, rfl, fun core ctx => by
    rw [State.setMyCtx, ctxAt_setCtxAt]
    split_ifs with hc
    · rw [hc.1, hc.2]; exact hwp
    · rfl⟩

/-! ### The record of a task (R194, R195) -/

/-- Where a cluster's store keeps a record of its queue region. -/
def recordLoc (cl rid : ℕ) : ℕ := nearLoc cl 8 (0x3F8000 + 64 * rid)

theorem setCluster_setCluster (s : State) (n : ℕ) (c d : Cluster) : (s.setCluster n c).setCluster n d = s.setCluster n d :=
  congrArg (fun clusters => { s with clusters := clusters }) (Tbl.set_set _ _ _ _ _)

/-- The first sixteen bytes of a record with a task's priority and stage (R195). -/
def stagedWord (w : ℕ) (k : Task) : ℕ := setBits (setBits w 1 0 k.pri) 71 69 k.stage

section
variable {s : State} {cl rid : ℕ} (hrid : rid < 512) (hsound : s.tainted (recordLoc cl rid) 16 = false)
include hrid hsound

theorem putStage_eq (k : Task) : s.putStage cl rid k =
    (s.setTask cl rid k).wr (recordLoc cl rid) (bytesOf 16 (stagedWord (natOf (s.rd (recordLoc cl rid) 16)) k)) := by
  have hread : (s.setTask cl rid k).recRead cl rid 0 16 = .ok (s.setTask cl rid k, s.rd (recordLoc cl rid) 16) :=
    (if_pos hrid).trans (if_neg (by rw [← Bool.not_eq_true] at hsound; exact hsound))
  have hwrite (bs : List Byte) (part : ℕ) : (s.setTask cl rid k).recWrite cl rid 0 bs part = .ok ((s.setTask cl rid k).wr (recordLoc cl rid) bs) :=
    if_pos hrid
  rw [State.putStage]
  simp only [hread, hwrite]
  rfl

/-- A task that enters READY behind those of its priority (R197, R201). -/
theorem makeReady_eq (k : Task) : s.makeReady cl rid k =
    (s.setCluster cl { s.cluster cl with
      ready := (s.cluster cl).ready.filter (fun x => x != rid) ++ [rid], queued := (s.cluster cl).queued.filter (fun x => x != rid)
      tasks := Tbl.set Task.reset (s.cluster cl).tasks rid { k with stage := 2, since := s.clock } }).wr (recordLoc cl rid)
        (bytesOf 16 (stagedWord (natOf (s.rd (recordLoc cl rid) 16)) { k with stage := 2, since := s.clock })) := by
  rw [State.makeReady]
  refine (putStage_eq hrid (by exact hsound) _).trans ?_
  rw [State.setTask, cluster_setCluster, if_pos rfl, setCluster_setCluster]
  rfl

end

/-- A record's words after its priority and stage are written: the first and the second. -/
theorem stagedWord_words (m : Memory) (l : ℕ) (k : Task) :
    natOf ((m.write l (bytesOf 16 (stagedWord (natOf (m.read l 16)) k))).read l 8) = setBits (natOf (m.read l 8)) 1 0 k.pri ∧
    natOf ((m.write l (bytesOf 16 (stagedWord (natOf (m.read l 16)) k))).read (l + 8) 8) = setBits (natOf (m.read (l + 8) 8)) 7 5 k.stage := by
  have hlow := natOf_lt (m.read l 8)
  have hhigh := natOf_lt (m.read (l + 8) 8)
  have hsplit : natOf (m.read l 16) = natOf (m.read l 8) + 2 ^ 64 * natOf (m.read (l + 8) 8) := by
    rw [m.read_add l 8 8, natOf_append, Memory.read_length]
  set n := m.write l (bytesOf 16 (stagedWord (natOf (m.read l 16)) k)) with hn
  have hlow' := natOf_lt (n.read l 8)
  have hboth : natOf (n.read l 8) + 2 ^ 64 * natOf (n.read (l + 8) 8) = stagedWord (natOf (m.read l 16)) k % 2 ^ 128 := by
    have hread := m.read_write_same l (bytesOf 16 (stagedWord (natOf (m.read l 16)) k))
    rw [bytesOf_length, ← hn, n.read_add l 8 8] at hread
    rw [← natOf_bytesOf 16, ← hread, natOf_append, Memory.read_length]
  rw [hsplit] at hboth
  simp only [Memory.read_length] at hlow hhigh hlow'
  generalize natOf (m.read l 8) = x at *
  generalize natOf (m.read (l + 8) 8) = y at *
  generalize natOf (n.read l 8) = x' at *
  generalize natOf (n.read (l + 8) 8) = y' at *
  simp only [stagedWord, setBits] at hboth ⊢
  constructor <;> omega

end Sys2Proof.Machine

namespace Sys2Proof.Machine

/-! ### A context that is given up (R16, R202) -/

section
variable (s : State) (core ctx : ℕ)

theorem stateAt_setStateAt {st : ℕ} (hst : st < 16) : (s.setStateAt core ctx st).stateAt core ctx = st := by
  rw [State.stateAt, State.setStateAt, cxAt_setCxAt]
  simp only [bits, setBits]
  omega

/-- What the core holds of a context that is EMPTY: where its workspace is, and what other packages have not acknowledged. -/
def State.emptied (s : State) (core ctx : ℕ) : Ctx := { Ctx.reset ctx with wp := (s.ctxAt core ctx).wp, away := (s.ctxAt core ctx).away }

theorem vacate_eq : s.vacate core ctx = (s.setCtxAt core ctx (s.emptied core ctx)).setStateAt core ctx stEMPTY := rfl

theorem ctxAt_vacate : (s.vacate core ctx).ctxAt core ctx = s.emptied core ctx :=
  (ctxAt_setCtxAt s core ctx (s.emptied core ctx) core ctx).trans (if_pos ⟨rfl, rfl⟩)

theorem stateAt_vacate : (s.vacate core ctx).stateAt core ctx = 0 := stateAt_setStateAt _ core ctx (by decide)

theorem wsLoc_setCtxAt_emptied (off : ℕ) : (s.setCtxAt core ctx (s.emptied core ctx)).wsLoc core ctx off = s.wsLoc core ctx off := by
  rw [State.wsLoc, ctxAt_setCtxAt, if_pos ⟨rfl, rfl⟩]
  rfl

/-- Of the workspace, it changes CX.STATUS alone. -/
theorem vacate_bytesOnly :
    BytesOnly [(s.wsLoc core ctx cxSTATUS, 8)] (s.setCtxAt core ctx (s.emptied core ctx)) (s.vacate core ctx) := by
  have h := wsSet_bytesOnly (s.setCtxAt core ctx (s.emptied core ctx)) core ctx cxSTATUS 8
    (setBits (setBits ((s.setCtxAt core ctx (s.emptied core ctx)).cxAt core ctx cxSTATUS) 3 0 stEMPTY) 7 4 ctx)
  rwa [wsLoc_setCtxAt_emptied] at h

/-- The word that CX.STATUS of a slot becomes when an EMPTY context has the slot (R22). -/
def State.emptyWord (s : State) (core ctx wp : ℕ) : ℕ :=
  setBits (setBits (natOf (s.rd (pmLoc core (wp + cxSTATUS)) 8)) 3 0 stEMPTY) 7 4 ctx

theorem mem_vacate : (s.vacate core ctx).mem =
    s.mem.write (s.wsLoc core ctx cxSTATUS) (bytesOf 8 (s.emptyWord core ctx (s.ctxAt core ctx).wp)) := by
  have hloc := wsLoc_setCtxAt_emptied s core ctx cxSTATUS
  rw [vacate_eq, State.setStateAt, State.setCxAt, wsSet_mem, State.cxAt, State.wsGet, hloc]
  rfl

theorem fut_setCtxAt (c : Ctx) (k n : ℕ) : (s.setCtxAt core ctx c).fut k n = s.fut k n := by
  rw [State.fut, core_setCtxAt]
  split_ifs with hk
  · rw [hk]; rfl
  · rfl

theorem fut_vacate (k n : ℕ) : (s.vacate core ctx).fut k n = s.fut k n := fut_setCtxAt s core ctx (s.emptied core ctx) k n

theorem task_vacate (cl rid : ℕ) : (s.vacate core ctx).task cl rid = s.task cl rid := rfl

end

/-! ### A task that is DONE (R197) -/

section
variable (s : State) (cl rid : ℕ)

/-- The slot of a workspace that a task leaves behind is free. -/
def State.unresident (s : State) (cl rid : ℕ) : State :=
  match (s.task cl rid).ws with
  | .resident c _ => s.setCore c { s.core c with resident := (s.core c).resident.filter (fun r => r.2 != (cl, rid)) }
  | _ => s

theorem fut_unresident (k n : ℕ) : (s.unresident cl rid).fut k n = s.fut k n := by
  unfold State.unresident
  split
  · rw [State.fut, core_setCore]
    split_ifs with hk
    · rw [hk]; rfl
    · rfl
  · rfl

theorem freeTask_eq : s.freeTask cl rid = (s.unresident cl rid).setCluster cl { (s.unresident cl rid).cluster cl with
    tasks := Tbl.set Task.reset ((s.unresident cl rid).cluster cl).tasks rid Task.reset
    queued := ((s.unresident cl rid).cluster cl).queued.filter (fun x => x != rid)
    ready := ((s.unresident cl rid).cluster cl).ready.filter (fun x => x != rid) } := rfl

theorem fut_freeTask (k n : ℕ) : (s.freeTask cl rid).fut k n = s.fut k n := (fut_unresident s cl rid k n)

theorem task_freeTask : (s.freeTask cl rid).task cl rid = Task.reset := by
  rw [freeTask_eq, State.task, cluster_setCluster, if_pos rfl, Tbl.get_set, if_pos rfl]

end

/-! ### TERM (R188, R360) -/

section
variable {s : State} {a : GReg} {cl rid : ℕ}

/-- TERM once its context may leave. -/
theorem term_of_leaves (hctx : 2 ≤ s.cur.ctx) (hquiet : s.quietAt s.cur.core s.cur.ctx = true) (hsag : s.hasSag s.cur.core s.cur.ctx = false)
    (hlog : s.raiseLogged (coversOf true ⟨false, false⟩) = none) : exec (.term a) s = .next (s.endFuture 2 (s.gN a)) := by
  have hlog' : s.raiseLogged (fun c => decide (c ≤ 2)) = none := hlog
  refine (if_neg (by omega)).trans ?_
  simp only [leaveGate_leaves hquiet hsag, hlog']
  rfl

/-- The end of a helper, or of a task without a future. -/
theorem endFuture_of_none (h : s.cx cxFUT = 0) (st v : ℕ) : s.endFuture st v = s.taskDone s.cur.core s.cur.ctx := by
  rw [State.endFuture]
  exact if_pos h

/-- The operation that makes a task's future final: CANCELLED when its cancellation has been requested (R185). -/
def State.endOp (s : State) (st v : ℕ) : FutOp := if s.status 9 9 = 1 then .finish 4 0 else .finish st v

theorem endFuture_of_reach (h : s.cx cxFUT ≠ 0)
    (hreach : (hPkg (s.cx cxFUT) ≠ s.pkgId ∨ hCore (s.cx cxFUT) ≠ s.cur.core) →
      s.handleReach (clusterOf s.cur.core) (s.partOf s.cur.core) (s.cx cxFUT) = none) (st v : ℕ) :
    s.endFuture st v = s.futureOp (s.cx cxFUT) (s.endOp st v) .ended := by
  have hgo : ¬ ((hPkg (s.cx cxFUT) ≠ s.pkgId ∨ hCore (s.cx cxFUT) ≠ s.cur.core) ∧
      (s.handleReach (clusterOf s.cur.core) (s.partOf s.cur.core) (s.cx cxFUT)).isSome = true) := fun ⟨haway, hsome⟩ => by
    simp [hreach haway] at hsome
  rw [State.endFuture, State.endOp]
  simp only [if_neg h, if_neg hgo]
  split_ifs <;> rfl

theorem endFuture_of_unreached (h : s.cx cxFUT ≠ 0) (haway : hCore (s.cx cxFUT) ≠ s.cur.core) {c : ℕ}
    (hreach : s.handleReach (clusterOf s.cur.core) (s.partOf s.cur.core) (s.cx cxFUT) = some c) (st v : ℕ) :
    s.endFuture st v = s.takeTrap c (s.cx cxFUT) 0 := by
  have hstop : (hPkg (s.cx cxFUT) ≠ s.pkgId ∨ hCore (s.cx cxFUT) ≠ s.cur.core) ∧
      (s.handleReach (clusterOf s.cur.core) (s.partOf s.cur.core) (s.cx cxFUT)).isSome = true := ⟨.inr haway, by rw [hreach]; rfl⟩
  rw [State.endFuture]
  simp only [if_neg h, if_pos hstop]
  rw [hreach]
  rfl

theorem taskDone_of_task {core ctx : ℕ} (htask : (s.ctxAt core ctx).task = some (cl, rid)) :
    s.taskDone core ctx = (s.freeTask cl rid).vacate core ctx := by
  rw [State.taskDone, htask]

theorem taskDone_of_none {core ctx : ℕ} (htask : (s.ctxAt core ctx).task = none) : s.taskDone core ctx = s.vacate core ctx := by
  rw [State.taskDone, htask]

end

/-! ### YIELD (R189, R202) -/

section
variable {s t : State} {core ctx cl rid wp : ℕ}

theorem yield_of_leaves (hctx : 2 ≤ s.cur.ctx) (htask : s.myCtx.task = some (cl, rid)) (hcan : ¬ s.status 9 9 = 1)
    (hquiet : s.quietAt s.cur.core s.cur.ctx = true) (hsag : s.hasSag s.cur.core s.cur.ctx = false) :
    exec .yield s = .next (s.advance.parkTask s.cur.core s.cur.ctx .again true) := by
  refine (if_neg (by omega)).trans ((if_neg (by simp [htask])).trans ((if_neg hcan).trans ?_))
  simp only [State.yieldTask, leaveGate_leaves hquiet hsag, if_true]

/-- A context that takes another slot, with its own workspace left to its task's record. -/
def State.slotTaken (s : State) (core ctx cl rid wp : ℕ) : State :=
  let t := s.setCore core { s.core core with resident := (s.core core).resident ++ [((s.ctxAt core ctx).wp, cl, rid)] }
  (t.leaveChunks core ctx).setCtxAt core ctx { t.ctxAt core ctx with wp := wp }

theorem ctxAt_slotTaken : (s.slotTaken core ctx cl rid wp).ctxAt core ctx = { s.ctxAt core ctx with wp := wp } := by
  rw [State.slotTaken, ctxAt_setCtxAt, if_pos ⟨rfl, rfl⟩, State.ctxAt, core_setCore, if_pos rfl]
  rfl

theorem resident_slotTaken :
    ((s.slotTaken core ctx cl rid wp).core core).resident = (s.core core).resident ++ [((s.ctxAt core ctx).wp, cl, rid)] := by
  rw [State.slotTaken, core_setCtxAt, if_pos rfl]
  exact congrArg CoreState.resident ((core_setCore s core _ core).trans (if_pos rfl))

theorem leaveSlot_eq (hfree : s.freeSlot core = some wp) : s.leaveSlot core ctx cl rid =
    ((s.slotTaken core ctx cl rid wp).vacate core ctx).setTask cl rid { s.task cl rid with ws := .resident core (s.ctxAt core ctx).wp } := by
  have htask : ((s.slotTaken core ctx cl rid wp).vacate core ctx).task cl rid = s.task cl rid := (task_vacate _ _ _ _ _).trans rfl
  rw [← htask, State.leaveSlot]
  simp only [hfree, State.slotTaken]
  rfl

/-- A task that leaves its context for READY or to park: its workspace is a resident one, and its context EMPTY in another slot (R202). -/
structure LeftSlot (s t : State) (core ctx cl rid wp : ℕ) : Prop where
  mem : t.mem = s.mem.write (pmLoc core (wp + cxSTATUS)) (bytesOf 8 (s.emptyWord core ctx wp))
  empty : t.ctxAt core ctx = { s.emptied core ctx with wp := wp }
  resident : (t.core core).resident = (s.core core).resident ++ [((s.ctxAt core ctx).wp, cl, rid)]
  cluster : t.cluster cl = { s.cluster cl with
    tasks := Tbl.set Task.reset (s.cluster cl).tasks rid { s.task cl rid with ws := .resident core (s.ctxAt core ctx).wp } }
  clock : t.clock = s.clock
  poisoned : ∀ w ∈ t.poisoned, w ∈ s.poisoned

theorem leaveSlot_leaves (hfree : s.freeSlot core = some wp) : LeftSlot s (s.leaveSlot core ctx cl rid) core ctx cl rid wp := by
  rw [leaveSlot_eq hfree]
  have hctx := ctxAt_slotTaken (s := s) (core := core) (ctx := ctx) (cl := cl) (rid := rid) (wp := wp)
  have hresident := resident_slotTaken (s := s) (core := core) (ctx := ctx) (cl := cl) (rid := rid) (wp := wp)
  have hmem : (s.slotTaken core ctx cl rid wp).mem = s.mem := rfl
  have hcluster : (s.slotTaken core ctx cl rid wp).cluster cl = s.cluster cl := rfl
  have hclock : (s.slotTaken core ctx cl rid wp).clock = s.clock := rfl
  have hpoisoned : (s.slotTaken core ctx cl rid wp).poisoned = s.poisoned := rfl
  generalize s.slotTaken core ctx cl rid wp = t at *
  refine ⟨?_, ?_, ?_, ?_, hclock, fun w hw => hpoisoned ▸ (List.mem_filter.1 hw).1⟩
  case refine_1 =>
    refine (mem_vacate t core ctx).trans ?_
    rw [State.wsLoc, State.emptyWord, State.rd, hctx, hmem]
    rfl
  case refine_2 =>
    refine (ctxAt_vacate t core ctx).trans ?_
    rw [State.emptied, hctx]
    rfl
  case refine_3 => exact (congrArg CoreState.resident ((core_setCtxAt t core ctx _ core).trans (if_pos rfl))).trans hresident
  case refine_4 =>
    have hvacate : (t.vacate core ctx).cluster cl = s.cluster cl := hcluster
    rw [State.setTask, cluster_setCluster, if_pos rfl, hvacate]

end

end Sys2Proof.Machine

namespace Sys2Proof.Machine

/-! ### CX.PC and the rest of the state when an instruction completes -/

theorem cxPC_setPC (s : State) (v : ℕ) : (s.setPC v).cx cxPC = (s.setPC v).pc := by
  rw [pc_setPC, State.setPC, cx_setCx]
  omega

/-- The word CX.PC itself, whose bits [1:0] are zero (R20). -/
theorem cxPC_advance (s : State) : s.advance.cx cxPC = s.pcAfter := by
  rw [← (advance_spec s).1, State.advance]
  split_ifs
  · exact cxPC_setPC _ _
  · exact cxPC_setPC _ _
  · exact cxPC_setPC _ _

theorem onRanges_within {s : State} {r : Range} (hr : r ∈ s.onRanges) :
    s.wsLoc s.cur.core s.cur.ctx 0 ≤ r.1 ∧ r.1 + r.2 ≤ s.wsLoc s.cur.core s.cur.ctx 0 + 0xC00 := by
  obtain hpc | hreps := onRanges_inWs s r hr
  · rw [hpc]
    simp only [cxPC]
    omega
  · rw [hreps]
    simp only [cxREPS]
    omega

section
variable {rs : List Range} {s t : State} (h : BytesOnly rs s t)
include h

theorem BytesOnly.rd {loc n : ℕ} (hd : ∀ r ∈ rs, apartFrom (loc, n) r) : t.rd loc n = s.rd loc n :=
  Memory.read_congr (fun a ha ha' => h.byte a (fun r hr => by
    obtain hlow | hhigh := hd r hr
    · exact .inl (lt_of_lt_of_le ha' hlow)
    · exact .inr (hhigh.trans ha)))

theorem BytesOnly.cluster (cl : ℕ) : t.cluster cl = s.cluster cl := by
  rw [h.rest]
  rfl

theorem BytesOnly.clock : t.clock = s.clock := by rw [h.rest]

theorem BytesOnly.freeSlot (core : ℕ) : t.freeSlot core = s.freeSlot core := by
  simp only [State.freeSlot, h.ctxAt, h.core]

end

/-- Words that heal leave no more bytes poisoned (R365). -/
theorem tainted_of_subset {s t : State} (hsub : ∀ w ∈ t.poisoned, w ∈ s.poisoned) {loc n : ℕ} (hsound : s.tainted loc n = false) :
    t.tainted loc n = false := by
  rw [State.tainted, List.any_eq_false] at hsound ⊢
  exact fun w hw => hsound w (hsub w hw)

/-! ### A task that is READY again (R189, R202) -/

/-- What a task that leaves its context for READY leaves behind: the words of the slot that the context takes and of its record, the
context EMPTY there, and the task behind the others of its priority. -/
structure LeftReady (s t : State) (core ctx cl rid wp : ℕ) (k : Task) : Prop where
  mem : t.mem = (s.mem.write (pmLoc core (wp + cxSTATUS)) (bytesOf 8 (s.emptyWord core ctx wp))).write (recordLoc cl rid)
    (bytesOf 16 (stagedWord (natOf (s.rd (recordLoc cl rid) 16)) k))
  empty : t.ctxAt core ctx = { s.emptied core ctx with wp := wp }
  resident : (t.core core).resident = (s.core core).resident ++ [((s.ctxAt core ctx).wp, cl, rid)]
  ready : (t.cluster cl).ready = (s.cluster cl).ready.filter (fun x => x != rid) ++ [rid]
  task : t.task cl rid = k

/-- A task entered in READY, with its record (R195, R197). -/
structure Readies (s t : State) (cl rid : ℕ) (k : Task) : Prop where
  mem : t.mem = s.mem.write (recordLoc cl rid) (bytesOf 16 (stagedWord (natOf (s.rd (recordLoc cl rid) 16)) k))
  cores : t.cores = s.cores
  ready : (t.cluster cl).ready = (s.cluster cl).ready.filter (fun x => x != rid) ++ [rid]
  task : t.task cl rid = k

section
variable {s : State} {core ctx cl rid wp : ℕ}

theorem pmLoc_status (core wp : ℕ) : pmLoc core (wp + cxSTATUS) = pmLoc core wp + 0xA18 := pmLoc_add core wp cxSTATUS

theorem parkTask_eq (htask : (s.ctxAt core ctx).task = some (cl, rid)) (how : Resume) : s.parkTask core ctx how true =
    (s.leaveSlot core ctx cl rid).makeReady cl rid { (s.leaveSlot core ctx cl rid).task cl rid with resume := how } := by
  rw [State.parkTask, htask]
  exact if_pos rfl

theorem makeReady_readies (hrid : rid < 512) (hsound : s.tainted (recordLoc cl rid) 16 = false) (k : Task) :
    Readies s (s.makeReady cl rid k) cl rid { k with stage := 2, since := s.clock } := by
  rw [makeReady_eq hrid hsound]
  refine ⟨rfl, rfl, ?_, ?_⟩
  · exact congrArg Cluster.ready ((cluster_setCluster s cl _ cl).trans (if_pos rfl))
  · change Tbl.get _ (State.cluster (State.setCluster s cl _) cl).tasks rid = _
    rw [cluster_setCluster, if_pos rfl, Tbl.get_set, if_pos rfl]

/-- The words of the record are not in the slot taken. -/
theorem read_write_slot (m : Memory) (bs : List Byte) (hbs : bs.length = 8)
    (hslot : apartFrom (recordLoc cl rid, 64) (pmLoc core wp, 0xC00)) {off n : ℕ} (hin : off + n ≤ 64) :
    (m.write (pmLoc core (wp + cxSTATUS)) bs).read (recordLoc cl rid + off) n = m.read (recordLoc cl rid + off) n := by
  have hstatus := pmLoc_status core wp
  simp only [apartFrom] at hslot
  exact Memory.read_write_disjoint _ _ _ _ _ (by omega)

theorem parkTask_ready (htask : (s.ctxAt core ctx).task = some (cl, rid)) (hfree : s.freeSlot core = some wp) (hrid : rid < 512)
    (hsound : s.tainted (recordLoc cl rid) 16 = false) (hslot : apartFrom (recordLoc cl rid, 64) (pmLoc core wp, 0xC00)) (how : Resume) :
    LeftReady s (s.parkTask core ctx how true) core ctx cl rid wp
      { s.task cl rid with ws := .resident core (s.ctxAt core ctx).wp, resume := how, stage := 2, since := s.clock } := by
  obtain ⟨hmem, hempty, hresident, hcluster, hclock, hpoisoned⟩ := leaveSlot_leaves (s := s) (ctx := ctx) (cl := cl) (rid := rid) hfree
  have hrecord : (s.leaveSlot core ctx cl rid).rd (recordLoc cl rid) 16 = s.rd (recordLoc cl rid) 16 := by
    rw [State.rd, hmem]
    exact read_write_slot _ _ (bytesOf_length _ _) hslot (off := 0) (by decide)
  have hown : (s.leaveSlot core ctx cl rid).task cl rid = { s.task cl rid with ws := .resident core (s.ctxAt core ctx).wp } := by
    rw [State.task, hcluster, Tbl.get_set, if_pos rfl]
  have hready := makeReady_readies hrid (tainted_of_subset hpoisoned hsound) { (s.leaveSlot core ctx cl rid).task cl rid with resume := how }
  rw [← parkTask_eq htask, hown, hclock] at hready
  generalize s.leaveSlot core ctx cl rid = t at *
  generalize s.parkTask core ctx how true = u at *
  obtain ⟨umem, ucores, uready, utask⟩ := hready
  have ucore : u.core core = t.core core := congrArg (fun cs => Tbl.get CoreState.reset cs core) ucores
  refine ⟨?_, ?_, ?_, ?_, utask⟩
  · rw [umem, hmem, hrecord]
  · rw [← hempty, State.ctxAt, ucore]
    rfl
  · rw [ucore, hresident]
  · rw [uready, hcluster]

/-- The context of a task that left for READY is EMPTY (R16, R202). -/
theorem LeftReady.stateAt {t : State} {k : Task} (h : LeftReady s t core ctx cl rid wp k)
    (hslot : apartFrom (recordLoc cl rid, 64) (pmLoc core wp, 0xC00)) : t.stateAt core ctx = 0 := by
  have hstatus := pmLoc_status core wp
  have hread : t.rd (pmLoc core (wp + cxSTATUS)) 8 = bytesOf 8 (s.emptyWord core ctx wp) := by
    rw [State.rd, h.mem, Memory.read_write_disjoint _ _ _ _ _ (by
      rw [bytesOf_length]
      simp only [apartFrom] at hslot
      omega)]
    have hsame := Memory.read_write_same s.mem (pmLoc core (wp + cxSTATUS)) (bytesOf 8 (s.emptyWord core ctx wp))
    rwa [bytesOf_length] at hsame
  rw [State.stateAt, State.cxAt, State.wsGet, State.wsLoc, h.empty, hread, natOf_bytesOf, State.emptyWord]
  simp only [bits, setBits, stEMPTY]
  omega

/-- Bytes away from the slot taken and from the record read as before. -/
theorem LeftReady.rd {t : State} {k : Task} (h : LeftReady s t core ctx cl rid wp k) {loc n : ℕ}
    (hslot : apartFrom (loc, n) (pmLoc core wp, 0xC00)) (hrecord : apartFrom (loc, n) (recordLoc cl rid, 64)) : t.rd loc n = s.rd loc n := by
  have hstatus := pmLoc_status core wp
  simp only [apartFrom] at hslot hrecord
  rw [State.rd, h.mem, Memory.read_write_disjoint _ _ _ _ _ (by rw [bytesOf_length]; omega),
    Memory.read_write_disjoint _ _ _ _ _ (by rw [bytesOf_length]; omega)]
  rfl

/-- The record holds the task's priority and its stage (R194, R195). -/
theorem LeftReady.record {t : State} {k : Task} (h : LeftReady s t core ctx cl rid wp k)
    (hslot : apartFrom (recordLoc cl rid, 64) (pmLoc core wp, 0xC00)) :
    natOf (t.rd (recordLoc cl rid) 8) = setBits (natOf (s.rd (recordLoc cl rid) 8)) 1 0 k.pri ∧
    natOf (t.rd (recordLoc cl rid + 8) 8) = setBits (natOf (s.rd (recordLoc cl rid + 8) 8)) 7 5 k.stage := by
  have hkept {off n : ℕ} (hin : off + n ≤ 64) := read_write_slot s.mem (bytesOf 8 (s.emptyWord core ctx wp)) (bytesOf_length _ _) hslot hin
  have hmem := h.mem
  generalize s.mem.write (pmLoc core (wp + cxSTATUS)) (bytesOf 8 (s.emptyWord core ctx wp)) = m at *
  have hwords := stagedWord_words m (recordLoc cl rid) k
  have hboth : m.read (recordLoc cl rid) 16 = s.mem.read (recordLoc cl rid) 16 := hkept (off := 0) (by decide)
  have hfirst : m.read (recordLoc cl rid) 8 = s.mem.read (recordLoc cl rid) 8 := hkept (off := 0) (by decide)
  have hsecond : m.read (recordLoc cl rid + 8) 8 = s.mem.read (recordLoc cl rid + 8) 8 := hkept (by decide)
  rw [hboth, hfirst, hsecond] at hwords
  simp only [State.rd] at hmem ⊢
  rw [hmem]
  exact hwords

end

/-! ### YIELD of a task that leaves its context -/

section
variable {s : State} {cl rid wp : ℕ}

theorem yield_readies (hctx : 2 ≤ s.cur.ctx) (htask : s.myCtx.task = some (cl, rid)) (hcan : ¬ s.status 9 9 = 1)
    (hquiet : s.quietAt s.cur.core s.cur.ctx = true) (hsag : s.hasSag s.cur.core s.cur.ctx = false) (hrid : rid < 512)
    (hfree : s.freeSlot s.cur.core = some wp) (hsound : s.tainted (recordLoc cl rid) 16 = false)
    (hslot : apartFrom (recordLoc cl rid, 64) (pmLoc s.cur.core wp, 0xC00)) :
    ∃ t, exec .yield s = .next t ∧ LeftReady s.advance t s.cur.core s.cur.ctx cl rid wp
      { s.task cl rid with ws := .resident s.cur.core s.myCtx.wp, resume := .again, stage := 2, since := s.clock } := by
  obtain ⟨-, -, hbytes⟩ := advance_spec s
  have hready := parkTask_ready (s := s.advance) (ctx := s.cur.ctx) ((congrArg Ctx.task (hbytes.ctxAt _ _)).trans htask)
    ((hbytes.freeSlot _).trans hfree) hrid (tainted_of_subset hbytes.healed hsound) hslot .again
  have hown : s.advance.task cl rid = s.task cl rid := congrArg (fun c => Tbl.get Task.reset (Cluster.tasks c) rid) (hbytes.cluster cl)
  rw [hown, hbytes.ctxAt, hbytes.clock] at hready
  exact ⟨_, yield_of_leaves hctx htask hcan hquiet hsag, hready⟩

theorem yield_leavesContext (hctx : 2 ≤ s.cur.ctx) (htask : s.myCtx.task = some (cl, rid)) (hcan : ¬ s.status 9 9 = 1)
    (hquiet : s.quietAt s.cur.core s.cur.ctx = true) (hsag : s.hasSag s.cur.core s.cur.ctx = false) (hrid : rid < 512)
    (hfree : s.freeSlot s.cur.core = some wp) (hsound : s.tainted (recordLoc cl rid) 16 = false)
    (hws : apartFrom (recordLoc cl rid, 64) (s.wsLoc s.cur.core s.cur.ctx 0, 0xC00))
    (hslot : apartFrom (recordLoc cl rid, 64) (pmLoc s.cur.core wp, 0xC00))
    (hapart : apartFrom (s.wsLoc s.cur.core s.cur.ctx 0, 0xC00) (pmLoc s.cur.core wp, 0xC00)) :
    ∃ t, exec .yield s = .next t ∧ t.stateAt s.cur.core s.cur.ctx = 0 ∧ (t.ctxAt s.cur.core s.cur.ctx).wp = wp ∧
      (t.ctxAt s.cur.core s.cur.ctx).task = none ∧
      (t.core s.cur.core).resident = (s.core s.cur.core).resident ++ [(s.myCtx.wp, cl, rid)] ∧
      (t.cluster cl).ready = (s.cluster cl).ready.filter (fun x => x != rid) ++ [rid] ∧
      t.task cl rid = { s.task cl rid with ws := .resident s.cur.core s.myCtx.wp, resume := .again, stage := 2, since := s.clock } ∧
      natOf (t.rd (s.wsLoc s.cur.core s.cur.ctx cxPC) 8) = s.pcAfter ∧
      natOf (t.rd (recordLoc cl rid) 8) = setBits (natOf (s.rd (recordLoc cl rid) 8)) 1 0 (s.task cl rid).pri ∧
      natOf (t.rd (recordLoc cl rid + 8) 8) = setBits (natOf (s.rd (recordLoc cl rid + 8) 8)) 7 5 2 := by
  obtain ⟨-, -, hbytes⟩ := advance_spec s
  obtain ⟨t, hexec, h⟩ := yield_readies hctx htask hcan hquiet hsag hrid hfree hsound hslot
  have hpcloc := wsLoc_eq s s.cur.core s.cur.ctx cxPC
  have hpc : t.rd (s.wsLoc s.cur.core s.cur.ctx cxPC) 8 = s.advance.rd (s.wsLoc s.cur.core s.cur.ctx cxPC) 8 := by
    refine h.rd ?_ ?_ <;> simp only [apartFrom, cxPC] at hws hapart hpcloc ⊢ <;> omega
  have hpcword : natOf (s.advance.rd (s.wsLoc s.cur.core s.cur.ctx cxPC) 8) = s.pcAfter := by
    rw [← cxPC_advance s, State.cx, State.cxAt, State.wsGet, hbytes.cur, hbytes.wsLoc]
  have hkept (loc n : ℕ) (hlow : recordLoc cl rid ≤ loc) (hhigh : loc + n ≤ recordLoc cl rid + 64) : s.advance.rd loc n = s.rd loc n :=
    hbytes.rd (fun r hr => by
      have hin := onRanges_within hr
      simp only [apartFrom] at hws ⊢
      omega)
  obtain ⟨hfirst, hsecond⟩ := h.record hslot
  rw [hkept _ 8 (by omega) (by omega)] at hfirst hsecond
  refine ⟨t, hexec, h.stateAt hslot, ?_, ?_, ?_, ?_, h.task, ?_, hfirst, hsecond⟩
  · rw [h.empty]
  · rw [h.empty]; rfl
  · rw [h.resident, hbytes.core, hbytes.ctxAt]; rfl
  · rw [h.ready, hbytes.cluster]
  · rw [hpc, hpcword]

end

end Sys2Proof.Machine

namespace Sys2Proof.Machine

/-! ### TERM of a task whose future is at its own core (R188, R197) -/

section
variable {s : State} {core ctx cl rid slot : ℕ} {e : FutEntry}

theorem ctxAt_setFut (k x : ℕ) : (s.setFut core slot e).ctxAt k x = s.ctxAt k x := by
  rw [State.ctxAt, State.setFut, core_setCore]
  split_ifs with hk
  · rw [hk]; rfl
  · rfl

/-- A future without waiters made final: only its state, value and cause change (R176). -/
theorem ended_of_alone (halone : e.waiters = []) (h st v cause : ℕ) :
    s.ended core slot h e st v cause = s.setFut core slot { e with state := st, value := v, cause := cause } := by
  have hfinal : e.final st v cause = { e with state := st, value := v, cause := cause } := by
    rw [FutEntry.final, halone]
    simp
  rw [State.ended, hfinal, halone]
  simp only [List.length_nil, Nat.add_zero, List.zipIdx_nil, List.map_nil, List.append_nil]
  rfl

/-- What the end of a task leaves: its context EMPTY and without it, its record free, and its future as it was made (R197). -/
structure Finished (t : State) (core ctx cl rid slot : ℕ) (e : FutEntry) : Prop where
  empty : t.stateAt core ctx = 0
  record : t.task cl rid = Task.reset
  idle : (t.ctxAt core ctx).task = none
  future : t.fut core slot = e

theorem taskDone_finished (htask : (s.ctxAt core ctx).task = some (cl, rid)) :
    Finished (s.taskDone core ctx) core ctx cl rid slot (s.fut core slot) := by
  rw [taskDone_of_task htask]
  refine ⟨stateAt_vacate _ core ctx, ?_, ?_, ?_⟩
  · rw [task_vacate, task_freeTask]
  · rw [ctxAt_vacate]; rfl
  · rw [fut_vacate, fut_freeTask]

end

section
variable {s : State} {a : GReg} {cl rid slot : ℕ} {e : FutEntry}

/-- The future of a task at its own core, made final when the task ends. -/
theorem futureOp_ended_finished {h st v : ℕ} (hh : Homed s h s.cur.core slot e) (hpkg : hPkg h = s.pkgId)
    (hroot : Tbl.get 0 s.roots (rootKey (s.partOf s.cur.core) s.cur.core slot e.gen) = 0) (hstate : e.state = 1) (halone : e.waiters = [])
    (htwin : s.myCtx.twin = false) (htask : s.myCtx.task = some (cl, rid)) (hv : st = 2 ∨ v = 0) :
    Finished (s.futureOp h (.finish st v) .ended) s.cur.core s.cur.ctx cl rid slot
      { e with state := st, value := v, cause := 0 } := by
  have hvalue : (if st = 2 then v else 0) = v := by split_ifs <;> omega
  have hcause : (if st = 3 then v else 0) = 0 := by split_ifs <;> omega
  have hfinish := finishAt_pending_sound hh.entry hstate hh.sound hroot (show st = 2 ∨ st = 3 ∨ v = 0 by tauto)
  rw [ended_of_alone halone, hvalue, hcause] at hfinish
  have hop : s.futureOp h (.finish st v) .ended =
      (s.setFut s.cur.core slot { e with state := st, value := v, cause := 0 }).taskDone s.cur.core s.cur.ctx := by
    rw [State.futureOp, if_pos ⟨hpkg, hh.atCore, by rw [htwin]; rfl⟩, hh.futApply_finish hfinish]
    rfl
  rw [hop]
  have hdone := taskDone_finished (s := s.setFut s.cur.core slot { e with state := st, value := v, cause := 0 }) (slot := slot)
    ((congrArg Ctx.task (ctxAt_setFut _ _)).trans htask)
  rwa [fut_setFut] at hdone

end

/-! ### CHKC, YIELD and TERM -/

section
variable {s : State}

theorem yield_waits {cl rid : ℕ} (hctx : 2 ≤ s.cur.ctx) (htask : s.myCtx.task = some (cl, rid)) (hcan : ¬ s.status 9 9 = 1)
    (hbusy : s.quietAt s.cur.core s.cur.ctx = false) (hsag : s.hasSag s.cur.core s.cur.ctx = false ∨ s.myCtx.draining = true) :
    exec .yield s = .next (s.setMyCtx { s.myCtx with draining := true }).waitAll := by
  refine (if_neg (by omega)).trans ((if_neg (by simp [htask])).trans ((if_neg hcan).trans ?_))
  rw [State.yieldTask, leaveGate_waits hbusy hsag]
  rfl

/-- TERM of a helper, or of a task without a record: its context alone ends (R188). -/
theorem term_of_helper {a : GReg} (hctx : 2 ≤ s.cur.ctx) (hquiet : s.quietAt s.cur.core s.cur.ctx = true)
    (hsag : s.hasSag s.cur.core s.cur.ctx = false) (hlog : s.raiseLogged (coversOf true ⟨false, false⟩) = none)
    (htask : s.myCtx.task = none) (hfut : s.cx cxFUT = 0) : exec (.term a) s = .next (s.vacate s.cur.core s.cur.ctx) := by
  rw [term_of_leaves hctx hquiet hsag hlog, endFuture_of_none hfut, taskDone_of_none htask]

/-- TERM of a task whose future is at another core: the future's home is asked (R188). -/
theorem term_asks {a : GReg} (hctx : 2 ≤ s.cur.ctx) (hquiet : s.quietAt s.cur.core s.cur.ctx = true)
    (hsag : s.hasSag s.cur.core s.cur.ctx = false) (hlog : s.raiseLogged (coversOf true ⟨false, false⟩) = none)
    (hfut : s.cx cxFUT ≠ 0) (haway : hCore (s.cx cxFUT) ≠ s.cur.core)
    (hreach : s.handleReach (clusterOf s.cur.core) (s.partOf s.cur.core) (s.cx cxFUT) = none) :
    exec (.term a) s = .next ((s.launchFlight (.fut
      { handle := s.cx cxFUT, op := s.endOp 2 (s.gN a), part := s.partOf s.cur.core, back := .ctx s.cur.core s.cur.ctx, root := s.nextId,
        src := s.sysCore s.cur.core })).stall (.reply s.nextId .ended s.cur)) := by
  rw [term_of_leaves hctx hquiet hsag hlog, endFuture_of_reach hfut (fun _ => hreach), State.futureOp, if_neg (fun ⟨_, hcore, _⟩ => haway hcore)]

/-- TERM of a task whose future is at its own core, PENDING and without waiters (R188, R197). -/
theorem term_finishes {a : GReg} {cl rid slot : ℕ} {e : FutEntry} (hctx : 2 ≤ s.cur.ctx) (hquiet : s.quietAt s.cur.core s.cur.ctx = true)
    (hsag : s.hasSag s.cur.core s.cur.ctx = false) (hlog : s.raiseLogged (coversOf true ⟨false, false⟩) = none)
    (htask : s.myCtx.task = some (cl, rid)) (htwin : s.myCtx.twin = false) (hfut : s.cx cxFUT ≠ 0)
    (hh : Homed s (s.cx cxFUT) s.cur.core slot e) (hpkg : hPkg (s.cx cxFUT) = s.pkgId)
    (hroot : Tbl.get 0 s.roots (rootKey (s.partOf s.cur.core) s.cur.core slot e.gen) = 0) (hstate : e.state = 1) (halone : e.waiters = []) :
    ∃ t, exec (.term a) s = .next t ∧ Finished t s.cur.core s.cur.ctx cl rid slot
      (if s.status 9 9 = 1 then { e with state := 4, value := 0, cause := 0 } else { e with state := 2, value := s.gN a, cause := 0 }) := by
  refine ⟨_, term_of_leaves hctx hquiet hsag hlog, ?_⟩
  rw [endFuture_of_reach hfut (fun haway => absurd (haway.resolve_left (not_not_intro hpkg)) (not_not_intro hh.atCore)), State.endOp]
  split_ifs with hcan
  · exact futureOp_ended_finished hh hpkg hroot hstate halone htwin htask (.inr rfl)
  · exact futureOp_ended_finished hh hpkg hroot hstate halone htwin htask (.inl rfl)

end

theorem taskInstructions : Claims.TaskInstructions := by
  intro s a cl rid slot e
  extract_lets core ctx canreq k c runs leaves record home fut
  refine ⟨fun hcan => if_pos hcan, fun hcan => ?_, fun hctx => if_pos hctx, fun hctx htask => ?_, fun ⟨hctx, htask⟩ hcan => ?_,
    fun ⟨hctx, htask⟩ hcan hbusy hsag => ?_, fun ⟨hctx, htask⟩ hcan ⟨hquiet, hsag⟩ _ hrid hlast wp hfree hsound hws hslot hapart => ?_,
    fun hctx => if_pos hctx, fun hctx ⟨hquiet, hsag⟩ hlog htask hfut _ => ?_,
    fun ⟨hctx, htask⟩ ⟨hquiet, hsag⟩ _ hlog hhome hstate halone htwin => ?_,
    fun ⟨hctx, htask⟩ ⟨hquiet, hsag⟩ hlog hfut haway => ⟨fun cause hreach => ?_, fun hreach => ?_⟩⟩
  case refine_1 =>
    have hexec : exec .chkc s = .next s.advance := if_neg hcan
    rw [hexec]
    exact advance_completes s
  case refine_2 =>
    have hexec : exec .yield s = .next s.advance := (if_neg hctx).trans (if_pos (by rw [htask]; rfl))
    rw [hexec]
    exact advance_completes s
  case refine_3 => exact (if_neg (by omega)).trans ((if_neg (by simp [htask])).trans (if_pos hcan))
  case refine_4 =>
    rw [yield_waits hctx htask hcan hbusy hsag]
    have hdraining : SameWorkspaces s (s.setMyCtx { s.myCtx with draining := true }) := sameWorkspaces_setMyCtx s rfl
    exact (hdraining.trans (sameWorkspaces_msync _)).stalls .retry
  case refine_5 => exact yield_leavesContext hctx htask hcan hquiet hsag hrid hfree hsound (hws ctx hlast) hslot hapart
  case refine_6 =>
    exact ⟨_, term_of_helper hctx hquiet hsag hlog htask hfut, vacate_bytesOnly s s.cur.core s.cur.ctx, stateAt_vacate s s.cur.core s.cur.ctx⟩
  case refine_7 =>
    obtain ⟨hhandle, hentry, hgen, hslot, hcore, hpkg, hpart, hroot, hsound⟩ := hhome
    rw [← mkHandle_eq] at hhandle
    have hfut : s.cx cxFUT ≠ 0 := by
      rw [hhandle, mkHandle_eq]
      omega
    have hh : Homed s (s.cx cxFUT) s.cur.core slot e := by
      rw [hhandle]
      exact ⟨hCore_mkHandle _ hcore hslot hgen hpart, hSlot_mkHandle _ _ hslot hgen hpart, hGen_mkHandle _ _ _ hgen hpart, hentry,
        by rw [hstate]; decide, hsound⟩
    have hhere : hPkg (s.cx cxFUT) = s.pkgId := by
      rw [hhandle]
      exact hPkg_mkHandle hpkg hcore hslot hgen hpart
    obtain ⟨t, hexec, hempty, hrecord, hidle, hfuture⟩ := term_finishes (a := a) hctx hquiet hsag hlog htask htwin hfut hh hhere hroot hstate halone
    exact ⟨t, hexec, hempty, hrecord, hidle, fun hcan => hfuture.trans (if_pos hcan), fun hcan => hfuture.trans (if_neg hcan)⟩
  case refine_8 =>
    have hother : hCore (s.cx cxFUT) ≠ s.cur.core := by simpa [hCore, bits] using haway
    rw [term_of_leaves hctx hquiet hsag hlog, endFuture_of_unreached hfut hother hreach]
  case refine_9 =>
    have hother : hCore (s.cx cxFUT) ≠ s.cur.core := by simpa [hCore, bits] using haway
    rw [term_asks hctx hquiet hsag hlog hfut hother hreach]
    exact (sameWorkspaces_launchFlight s _).stalls _

/-- Settles O25: the creation of tasks, and what CHKC, YIELD and TERM do with the context and the record of the task that runs. -/
theorem taskCreation : Obligations.TaskCreation := ⟨spawnRules, taskInstructions⟩

end Sys2Proof.Machine

/-! # A future whose entry names another partition than its handle (O26) -/

namespace Sys2Proof.Machine

/-- A PENDING future with one waiter, whose entry names partition 1. -/
def strangerEntry : FutEntry := { FutEntry.reset with state := 1, part := 1, waiters := [0] }

/-- Core 0, of partition 0, holds that future in slot 0, and g1 of its control context a handle of it with the core's own partition. -/
def strangerHeld : State :=
  { State.reset with
    parts := [(0, { Part.reset with status := .running, clusters := [0] })]
    cores := [(0, { CoreState.reset with futs := [(0, strangerEntry)] })]
    mem := [(nearLoc 0 0 0x3000F, 0x80)] }

/-- What RESOLVE of it makes of the package. -/
def strangerResolved : State := strangerHeld.futureOp (strangerHeld.gN 1) (.finish 2 (strangerHeld.gN 0)) (.word 0)

theorem strangerHeld_resolve : exec (.resolve 0 1 0) strangerHeld = .next strangerResolved := by
  have hcheck : strangerHeld.handleCheck (strangerHeld.gN 1) = none := by decide +kernel
  have hreach : strangerHeld.handleReach (clusterOf strangerHeld.cur.core) (strangerHeld.partOf strangerHeld.cur.core)
      (strangerHeld.gN 1) = none := by decide +kernel
  have hdone : strangerHeld.releaseDone := by
    unfold State.releaseDone
    decide +kernel
  change strangerHeld.relGate (strangerHeld.handleGate (strangerHeld.gN 1) (.next strangerResolved)) = _
  rw [relGate_of_releaseDone hdone, State.handleGate, hcheck, hreach]

/-- The wake that it sends names the entry's partition, as creation entered it (R167, R171, R176). -/
theorem strangerResolved_wakes : strangerResolved.flights = [(0, .wake 0 (2 ^ 63 + 2 ^ 10) 2 0)] := by decide +kernel

/-- Refutes O26, by a RESOLVE that wakes a waiter. By the statement the wake carries the handle that the instruction was given, by the
model one with the partition that the future's entry holds; the two differ where the entry's partition is not its core's, which the
statement does not exclude and `strangerHeld` has. -/
theorem not_futureRules : ¬ Obligations.FutureRules := by
  rintro ⟨hinstructions, -⟩
  obtain ⟨-, -, -, hlive, -⟩ := hinstructions strangerHeld 0 1 0 0 strangerEntry
  obtain ⟨-, -, -, -, -, -, -, -, -, -, -, -, hfinish, -⟩ := hlive (by decide +kernel) (by decide +kernel) rfl
  obtain ⟨⟨t, hnext, -, -, hframe, -⟩, -⟩ := (hfinish (by decide +kernel) (by decide +kernel)).1 rfl
  obtain rfl : strangerResolved = t := Host.Outcome.next.inj (strangerHeld_resolve.symm.trans hnext)
  have hflights := congrArg (·.flights) hframe.rest
  exact absurd (strangerResolved_wakes.symm.trans hflights) (by decide +kernel)

end Sys2Proof.Machine

/-! # Two flights of one number, and an aborted prefetch (O39) -/

namespace Sys2Proof.Machine

/-- The prefetch copy of the task of record 0 of cluster 0. -/
def prefetchCopy : Cmd :=
  { id := 1, core := 0, ctx := 0, pc := 0, part := 0, pri := 0, since := 0, cw := .none, bytes := 0, fmt := .reset,
    op := .bytes 0 0 0, owner := .task 0 0, todo := [], failed := none, dmask := 0, wake := none, shelves := [], held := [] }

/-- That task is PREFETCHING, and a request to cancel it is in flight, under the same number as a write of the copy. -/
def sharedNumber : State :=
  { State.reset with
    clusters := [(0, { Cluster.reset with tasks := [(0, { Task.reset with used := true, handle := 2 ^ 63, stage := 1 })] })]
    running := [(1, prefetchCopy)]
    flights := [(0, .cancelReq (2 ^ 63) 0 0 0 false),
      (0, .engWrite { cmd := 1, part := 0, va := 0, dest := 0, bytes := [], bad := [], loose := [] })] }

/-- The abort drops the copy's write by its number, and with it the request that shares the number (R184). -/
theorem sharedNumber_drops : (sharedNumber.cancelAtCluster 0).flights = [] := by decide +kernel

/-- No task record is on its way. -/
theorem sharedNumber_no_record : ∀ f ∈ sharedNumber.flights, ∀ (a b x : ℕ) (r : TaskRec), f.2 = .record a b x r → r.handle ≠ 2 ^ 63 := by
  simp [sharedNumber]

/-- Refutes O39: by the statement the reply to a cancel request takes the place of the request in flight. By the model the abort of a
prefetch first drops the writes of its copy, by their numbers, and leaves nothing to replace where the request has the number of one of
them, which the statement does not exclude and `sharedNumber` has. -/
theorem not_wakeAndCancelEvents : ¬ Obligations.WakeAndCancelEvents := by
  intro h
  obtain ⟨-, hcancel, -, -⟩ := h sharedNumber 0 0 (2 ^ 63) 0 0 0 0 0 0 false 0 0 (by decide) (by decide) (by decide) (by decide)
  obtain ⟨-, htask⟩ := hcancel rfl sharedNumber_no_record
  obtain ⟨-, hprefetching, -⟩ := htask (by decide +kernel) (by decide +kernel)
  obtain ⟨t, hnext, -, -, hreply⟩ := hprefetching rfl rfl
  obtain rfl : sharedNumber.cancelAtCluster 0 = t := Host.Outcome.next.inj hnext
  rw [sharedNumber_drops] at hreply
  exact List.not_mem_nil hreply

end Sys2Proof.Machine
